-- ==== Sys2Proof/Word.lean ====
section
/-! DEFINITION. The word types of the Drijor D1024 and their plainest arithmetic (spec/00_scope.md R2, R5). -/

namespace Sys2Proof

/-- A 64-bit register or doubleword. -/
abbrev Word := BitVec 64

/-- One byte of memory. -/
abbrev Byte := BitVec 8

/-- One 32-bit instruction, link or chain word. -/
abbrev IWord := BitVec 32

/-- One 1,024-bit vector register: lane i is bits [64i+63:64i]. -/
abbrev VReg := BitVec 1024

end Sys2Proof
end

