-- ==== Sys2Proof/Config.lean ====
section
/-! DEFINITION. The free values of the model: constants with no body, which stand for the choices and values that the
spec leaves open, and for the functions it names without defining. Nothing can be proved about the value of one of
them. notes/assumptions/3.md and 4.md. -/

namespace Sys2Proof.Config

/-- A 64-bit value the spec leaves open, one for each reading (State.freeCtr numbers them). -/
opaque freeWord : Nat → BitVec 64

/-- A free choice among alternatives the spec allows (which free record, id, slot or pair): reduced modulo the number
of alternatives where it is used (R15, R18, R61, R242, R275). -/
opaque freePick : Nat → Nat

/-- The page format of a peer package's page that the n-th command's copy decodes from (spec/10_memory_streams.md R191): not
known in this package. -/
opaque peerFmt : Nat → BitVec 6

/-- The body length of a management message (spec/15_virtual_devices.md R304), by its OP and how many list entries it names (256·count + OP): the
rule gives no body layout. -/
opaque bodyLen : Nat → Nat

/-- AES-256 (spec/13_virry.md R255, R262): key, block. The manual names the cipher and does not define it. -/
opaque aes256 : BitVec 256 → BitVec 128 → BitVec 128

/-- GHASH of NIST SP 800-38D under a hash subkey (R256), over the chunks given. -/
opaque ghash : BitVec 128 → List (BitVec 128) → BitVec 128

/-- The product of a tweak and a power of alpha in GF(2^128) (R262). -/
opaque xexMul : BitVec 128 → Nat → BitVec 128

/-- The data key KD of the n-th domain created since BOOT (R254): random, never visible. -/
opaque dataKey : Nat → BitVec 256

/-- The node key KN of the n-th domain created since BOOT (R254): random, never visible. -/
opaque nodeKey : Nat → BitVec 256

/-- The Ed448 signature with the device identity key over a SHAKE256 digest (R305), of the report's bytes. -/
opaque sign : List (BitVec 8) → List (BitVec 8)

/-- The 64-byte SHAKE256 digest of a byte string (R305). -/
opaque digest : List (BitVec 8) → List (BitVec 8)

end Sys2Proof.Config
end

