-- ==== Sys2Proof/Syntax.lean ====
section
/-! DEFINITION. The instruction set as syntax: one constructor of Instr per row of spec/opcode_table.json. An
instruction carries one record of operand fields per encoding format (spec/06_encoding.md R117 to R129); a device event
(a row with no encoding) carries the parameters that say which agent acts on what (spec/95_what_each_step_holds.md). -/

namespace Sys2Proof

/-! ### Operand records, one per format -/

/-- TRI (R117): D, A, B, W. -/
structure Tri where
  d : BitVec 6
  a : BitVec 6
  b : BitVec 6
  w : BitVec 1
  g : BitVec 4
  deriving DecidableEq, Repr

/-- SIM (R117): D is also the first source; IMM12. -/
structure Sim where
  d : BitVec 6
  imm : BitVec 12
  w : BitVec 1
  g : BitVec 4
  deriving DecidableEq, Repr

/-- LIM (R117): D, A, IMM32. -/
structure Lim where
  d : BitVec 6
  a : BitVec 6
  w : BitVec 1
  g : BitVec 4
  imm : BitVec 32
  deriving DecidableEq, Repr

/-- TRI with B = 0, I = 0 (R126): CLZ, POPC, MOV. -/
structure Un where
  d : BitVec 6
  a : BitVec 6
  w : BitVec 1
  g : BitVec 4
  deriving DecidableEq, Repr

/-- LDI, SIM form (R126). -/
structure LdiS where
  d : BitVec 6
  imm : BitVec 12
  g : BitVec 4
  deriving DecidableEq, Repr

/-- LDI, LIM form, and LDIH (R126). -/
structure LdiL where
  d : BitVec 6
  g : BitVec 4
  imm : BitVec 32
  deriving DecidableEq, Repr

/-- BFX, BFXU, BFI with a register (R126). -/
structure BfR where
  d : BitVec 6
  a : BitVec 6
  b : BitVec 6
  g : BitVec 4
  deriving DecidableEq, Repr

/-- BFX, BFXU, BFI with constants (R126): LEN - 1 and POS. -/
structure BfI where
  d : BitVec 6
  a : BitVec 6
  g : BitVec 4
  len : BitVec 6
  pos : BitVec 6
  deriving DecidableEq, Repr

/-- SEL (R126): word 1 [3:0] names the selecting predicate. -/
structure Sel where
  d : BitVec 6
  a : BitVec 6
  b : BitVec 6
  g : BitVec 4
  sp : BitVec 4
  deriving DecidableEq, Repr

/-- PRC, X = 0 (R118). -/
structure CmpR where
  pd : BitVec 3
  pq : BitVec 3
  a : BitVec 6
  b : BitVec 6
  cc : BitVec 2
  g : BitVec 4
  deriving DecidableEq, Repr

/-- PRC, X = 1 (R118). -/
structure CmpI where
  pd : BitVec 3
  pq : BitVec 3
  a : BitVec 6
  cc : BitVec 2
  g : BitVec 4
  imm : BitVec 32
  deriving DecidableEq, Repr

/-- LOG (R118). -/
structure Log where
  d : BitVec 3
  a : BitVec 3
  b : BitVec 3
  na : BitVec 1
  nb : BitVec 1
  g : BitVec 4
  deriving DecidableEq, Repr

/-- LOG of PNOT and MNOT (R118). -/
structure LogN where
  d : BitVec 3
  a : BitVec 3
  g : BitVec 4
  deriving DecidableEq, Repr

/-- BR (R119): OFF20. -/
structure Br where
  off : BitVec 20
  g : BitVec 4
  deriving DecidableEq, Repr

/-- JMP and LOOP (R119): A. -/
structure Jmp where
  a : BitVec 6
  g : BitVec 4
  deriving DecidableEq, Repr

/-- CALL, RF = 0 (R119): OFF19. -/
structure CallR where
  off : BitVec 19
  g : BitVec 4
  deriving DecidableEq, Repr

/-- CALL, RF = 1 (R119): A. -/
structure CallG where
  a : BitVec 6
  g : BitVec 4
  deriving DecidableEq, Repr

/-- No operand but the guard: RET, SUSP, EXIT, NOP (R119, R127). -/
structure G0 where
  g : BitVec 4
  deriving DecidableEq, Repr

/-- LOOPM (R119): A, NS. -/
structure LoopM where
  a : BitVec 6
  ns : BitVec 2
  g : BitVec 4
  deriving DecidableEq, Repr

/-- LD, X = 0 (R120). -/
structure Ld0 where
  d : BitVec 6
  a : BitVec 6
  sz : BitVec 2
  cl : BitVec 4
  s : BitVec 1
  g : BitVec 4
  deriving DecidableEq, Repr

/-- LD, X = 1 (R120). -/
structure Ld1 where
  d : BitVec 6
  a : BitVec 6
  sz : BitVec 2
  cl : BitVec 4
  s : BitVec 1
  g : BitVec 4
  ar : BitVec 2
  scp : BitVec 3
  off : BitVec 24
  deriving DecidableEq, Repr

/-- ST, X = 0 (R120). -/
structure St0 where
  d : BitVec 6
  a : BitVec 6
  sz : BitVec 2
  cl : BitVec 4
  g : BitVec 4
  deriving DecidableEq, Repr

/-- ST, X = 1 (R120). -/
structure St1 where
  d : BitVec 6
  a : BitVec 6
  sz : BitVec 2
  cl : BitVec 4
  g : BitVec 4
  ar : BitVec 2
  scp : BitVec 3
  off : BitVec 24
  deriving DecidableEq, Repr

/-- LDSEC and STSEC (R120): v register, MR, OFF18. -/
structure Sec where
  v : BitVec 5
  a : BitVec 6
  cl : BitVec 4
  g : BitVec 4
  ar : BitVec 2
  scp : BitVec 3
  mr : BitVec 6
  off : BitVec 18
  deriving DecidableEq, Repr

/-- AMO (R121). -/
structure Amo where
  d : BitVec 6
  a : BitVec 6
  cl : BitVec 4
  g : BitVec 4
  ar : BitVec 2
  scp : BitVec 3
  aop : BitVec 4
  b : BitVec 6
  off : BitVec 11
  deriving DecidableEq, Repr

/-- CAS (R121). -/
structure Cas where
  d : BitVec 6
  a : BitVec 6
  cl : BitVec 4
  g : BitVec 4
  ar : BitVec 2
  scp : BitVec 3
  b : BitVec 6
  c : BitVec 6
  off : BitVec 11
  deriving DecidableEq, Repr

/-- BPUT (R121). -/
structure Bput where
  a : BitVec 6
  cl : BitVec 4
  g : BitVec 4
  ar : BitVec 2
  scp : BitVec 3
  aop : BitVec 4
  b : BitVec 6
  off : BitVec 11
  deriving DecidableEq, Repr

/-- FENCE (R127): class mask, SCP. -/
structure Fence where
  m : BitVec 16
  scp : BitVec 3
  g : BitVec 4
  deriving DecidableEq, Repr

/-- FLUSHP (R127): SCP. -/
structure Flushp where
  scp : BitVec 3
  g : BitVec 4
  deriving DecidableEq, Repr

/-- Small format with D and A (R127). -/
structure DA where
  d : BitVec 6
  a : BitVec 6
  g : BitVec 4
  deriving DecidableEq, Repr

/-- Small format with A alone (R127). -/
structure A1 where
  a : BitVec 6
  g : BitVec 4
  deriving DecidableEq, Repr

/-- WAIT, X = 1 (R127): thresholds laid out as sr.oc. -/
structure WaitI where
  g : BitVec 4
  mxc : BitVec 6
  cpc : BitVec 6
  stc : BitVec 6
  ldc : BitVec 6
  deriving DecidableEq, Repr

/-- VLD, X = 0 (R123). -/
structure Vld0 where
  v : BitVec 5
  a : BitVec 6
  lay : BitVec 3
  cl : BitVec 4
  g : BitVec 4
  deriving DecidableEq, Repr

/-- VST, X = 0 (R123). -/
structure Vst0 where
  v : BitVec 5
  a : BitVec 6
  cl : BitVec 4
  g : BitVec 4
  deriving DecidableEq, Repr

/-- VLD, X = 1 (R123, R120). -/
structure Vld1 where
  v : BitVec 5
  a : BitVec 6
  lay : BitVec 3
  cl : BitVec 4
  g : BitVec 4
  ar : BitVec 2
  scp : BitVec 3
  off : BitVec 24
  deriving DecidableEq, Repr

/-- VST, X = 1 (R123, R120). -/
structure Vst1 where
  v : BitVec 5
  a : BitVec 6
  cl : BitVec 4
  g : BitVec 4
  ar : BitVec 2
  scp : BitVec 3
  off : BitVec 24
  deriving DecidableEq, Repr

/-- VGATH and VSCAT (R123). -/
structure Vgs where
  v : BitVec 5
  a : BitVec 6
  cl : BitVec 4
  g : BitVec 4
  ar : BitVec 2
  scp : BitVec 3
  vx : BitVec 5
  esz : BitVec 2
  shf : BitVec 2
  deriving DecidableEq, Repr

/-- Vector, three registers, X = 0 (R122). -/
structure V0 where
  vd : BitVec 5
  va : BitVec 5
  vb : BitVec 5
  ty : BitVec 4
  g : BitVec 4
  deriving DecidableEq, Repr

/-- Vector, X = 1 with RM, SAT, GS, SC (R122). -/
structure V1 where
  vd : BitVec 5
  va : BitVec 5
  vb : BitVec 5
  ty : BitVec 4
  g : BitVec 4
  rm : BitVec 3
  sat : BitVec 1
  gs : BitVec 6
  sc : BitVec 1
  deriving DecidableEq, Repr

/-- VFMA, VFMS, VFNMA (R128): VC is the addend. -/
structure Fma where
  vd : BitVec 5
  va : BitVec 5
  vb : BitVec 5
  ty : BitVec 4
  g : BitVec 4
  vc : BitVec 5
  rm : BitVec 3
  gs : BitVec 6
  sc : BitVec 1
  deriving DecidableEq, Repr

/-- VDIV, X = 1 (R128): RM, SC, GS. -/
structure Vdiv1 where
  vd : BitVec 5
  va : BitVec 5
  vb : BitVec 5
  ty : BitVec 4
  g : BitVec 4
  rm : BitVec 3
  gs : BitVec 6
  sc : BitVec 1
  deriving DecidableEq, Repr

/-- Vector, one source, X = 0 (R128). -/
structure Vu0 where
  vd : BitVec 5
  va : BitVec 5
  ty : BitVec 4
  g : BitVec 4
  deriving DecidableEq, Repr

/-- VSQRT, X = 1 (R128): RM. -/
structure Vsq1 where
  vd : BitVec 5
  va : BitVec 5
  ty : BitVec 4
  g : BitVec 4
  rm : BitVec 3
  deriving DecidableEq, Repr

/-- VABS and VNEG, X = 1 (R128): SAT. -/
structure Vab1 where
  vd : BitVec 5
  va : BitVec 5
  ty : BitVec 4
  g : BitVec 4
  sat : BitVec 1
  deriving DecidableEq, Repr

/-- VMIN and VMAX (R128), X = 0, or X = 1 with a word 1 of 0. -/
structure Vmm where
  vd : BitVec 5
  va : BitVec 5
  vb : BitVec 5
  ty : BitVec 4
  v1 : BitVec 1
  x : BitVec 1
  g : BitVec 4
  deriving DecidableEq, Repr

/-- VCMP (R123). -/
structure Vcmp where
  md : BitVec 3
  mq : BitVec 3
  va : BitVec 5
  vb : BitVec 5
  ty : BitVec 4
  g : BitVec 4
  gs : BitVec 6
  sc : BitVec 1
  cond : BitVec 3
  deriving DecidableEq, Repr

/-- VSEL (R128): IMM16[2:0] names the mask. -/
structure Vsel where
  vd : BitVec 5
  va : BitVec 5
  vb : BitVec 5
  g : BitVec 4
  ms : BitVec 3
  deriving DecidableEq, Repr

/-- VAND, VOR, VXOR, X = 0 (R128). -/
structure Vl0 where
  vd : BitVec 5
  va : BitVec 5
  vb : BitVec 5
  g : BitVec 4
  deriving DecidableEq, Repr

/-- VAND, VOR, VXOR, X = 1 (R128): SC, GS. -/
structure Vl1 where
  vd : BitVec 5
  va : BitVec 5
  vb : BitVec 5
  g : BitVec 4
  gs : BitVec 6
  sc : BitVec 1
  deriving DecidableEq, Repr

/-- VSHL, VSHR, VSAR with counts from VB, and VPERM (R128), X = 0, or X = 1 with a word 1 of 0. -/
structure Vsh where
  vd : BitVec 5
  va : BitVec 5
  vb : BitVec 5
  ty : BitVec 4
  x : BitVec 1
  g : BitVec 4
  deriving DecidableEq, Repr

/-- VSHL, VSHR, VSAR, V1 = 1 (R128): the count is IMM16[5:0]. -/
structure VshI where
  vd : BitVec 5
  va : BitVec 5
  ty : BitVec 4
  g : BitVec 4
  cnt : BitVec 6
  deriving DecidableEq, Repr

/-- VCVT (R128): RM, SAT, source type. -/
structure Vcvt where
  vd : BitVec 5
  va : BitVec 5
  ty : BitVec 4
  g : BitVec 4
  rm : BitVec 3
  sat : BitVec 1
  src : BitVec 4
  deriving DecidableEq, Repr

/-- VRED and VSCAN, X = 1 (R128): the operation. -/
structure Vred1 where
  vd : BitVec 5
  va : BitVec 5
  ty : BitVec 4
  g : BitVec 4
  rop : BitVec 3
  deriving DecidableEq, Repr

/-- VBCAST, SC = 1 (R128). -/
structure VbcS where
  vd : BitVec 5
  ty : BitVec 4
  g : BitVec 4
  gs : BitVec 6
  deriving DecidableEq, Repr

/-- VBCAST, SC = 0 (R128): element IMM16[6:0] of VA. -/
structure VbcE where
  vd : BitVec 5
  va : BitVec 5
  ty : BitVec 4
  g : BitVec 4
  el : BitVec 7
  deriving DecidableEq, Repr

/-- VEXT (R128). -/
structure Vext where
  va : BitVec 5
  ty : BitVec 4
  g : BitVec 4
  gs : BitVec 6
  el : BitVec 7
  deriving DecidableEq, Repr

/-- VSLIDE (R128): distance, V1 the direction. -/
structure Vslide where
  vd : BitVec 5
  va : BitVec 5
  vb : BitVec 5
  ty : BitVec 4
  v1 : BitVec 1
  g : BitVec 4
  dist : BitVec 7
  deriving DecidableEq, Repr

/-- VCLASS (R128), X = 0, or X = 1 with a word 1 of 0. -/
structure Vcls where
  vd : BitVec 5
  va : BitVec 5
  ty : BitVec 4
  x : BitVec 1
  g : BitVec 4
  deriving DecidableEq, Repr

/-- VSPLIT (R128, R445): t, s - 1, GS. -/
structure Vsplit where
  vd : BitVec 5
  va : BitVec 5
  vb : BitVec 5
  g : BitVec 4
  gs : BitVec 6
  s1 : BitVec 3
  t : BitVec 3
  deriving DecidableEq, Repr

/-- VJOIN (R128, R428): VC, l, s - 1. -/
structure Vjoin where
  vd : BitVec 5
  va : BitVec 5
  vb : BitVec 5
  g : BitVec 4
  vc : BitVec 5
  s1 : BitVec 3
  lv : BitVec 4
  deriving DecidableEq, Repr

/-- VPACK4 (R128, R434): RM, SAT, block type. -/
structure Pack where
  vd : BitVec 5
  va : BitVec 5
  ty : BitVec 4
  g : BitVec 4
  rm : BitVec 3
  sat : BitVec 1
  bt : BitVec 2
  deriving DecidableEq, Repr

/-- VUNPK4 (R128, R434): block type. -/
structure Unpack where
  vd : BitVec 5
  va : BitVec 5
  ty : BitVec 4
  g : BitVec 4
  bt : BitVec 2
  deriving DecidableEq, Repr

/-- MMT (R124, R129). -/
structure Mmt where
  a : BitVec 6
  b : BitVec 6
  bk : BitVec 6
  f : BitVec 2
  g : BitVec 4
  step : BitVec 3
  ar : BitVec 2
  scp : BitVec 3
  tile : BitVec 3
  ty : BitVec 4
  st : BitVec 1
  deriving DecidableEq, Repr

/-- MZERO (R129). -/
structure Mzero where
  g : BitVec 4
  tile : BitVec 3
  deriving DecidableEq, Repr

/-- MDRAIN (R129). -/
structure Mdrain where
  a : BitVec 6
  bk : BitVec 6
  g : BitVec 4
  step : BitVec 3
  ar : BitVec 2
  scp : BitVec 3
  tile : BitVec 3
  ty : BitVec 4
  sat : BitVec 1
  rm : BitVec 3
  deriving DecidableEq, Repr

/-- MDADD (R129). -/
structure Mdadd where
  a : BitVec 6
  bk : BitVec 6
  f : BitVec 2
  g : BitVec 4
  step : BitVec 3
  ar : BitVec 2
  scp : BitVec 3
  tile : BitVec 3
  deriving DecidableEq, Repr

/-- MBRD (R129). -/
structure Mbrd where
  a : BitVec 6
  g : BitVec 4
  tile : BitVec 3
  ty : BitVec 4
  v : BitVec 5
  deriving DecidableEq, Repr

/-- MSTAT (R127). -/
structure Mstat where
  d : BitVec 6
  tile : BitVec 3
  g : BitVec 4
  deriving DecidableEq, Repr

/-- CPY and CPYS (R129). -/
structure Cpy where
  a : BitVec 6
  bk : BitVec 6
  g : BitVec 4
  step : BitVec 3
  ar : BitVec 2
  scp : BitVec 3
  tag : BitVec 6
  tg : BitVec 1
  deriving DecidableEq, Repr

/-- CPYQ (R127). -/
structure Cpyq where
  d : BitVec 6
  tag : BitVec 6
  g : BitVec 4
  deriving DecidableEq, Repr

/-- BKQ (R127). -/
structure Bkq where
  d : BitVec 6
  a : BitVec 6
  step : BitVec 3
  g : BitVec 4
  deriving DecidableEq, Repr

/-- BKREL (R127). -/
structure Bkrel where
  a : BitVec 6
  step : BitVec 3
  g : BitVec 4
  deriving DecidableEq, Repr

/-- SPAWN (R127). -/
structure Spawn where
  d : BitVec 6
  a : BitVec 6
  b : BitVec 6
  pri : BitVec 2
  g : BitVec 4
  deriving DecidableEq, Repr

/-- FPUT (R127). -/
structure Fput where
  a : BitVec 6
  b : BitVec 6
  g : BitVec 4
  deriving DecidableEq, Repr

/-- FRQ (R127): the selector. -/
structure Frq where
  d : BitVec 6
  a : BitVec 6
  b : BitVec 6
  g : BitVec 4
  sel : BitVec 3
  deriving DecidableEq, Repr

/-- FRGATE (R127): the face. -/
structure Frgate where
  a : BitVec 6
  b : BitVec 6
  g : BitVec 4
  face : BitVec 3
  deriving DecidableEq, Repr

/-- SVC, TRAP, BRK (R127): CODE20. -/
structure Code where
  code : BitVec 20
  g : BitVec 4
  deriving DecidableEq, Repr

/-- RETT and XINV (R127): A and [6:5]. -/
structure AMode where
  a : BitVec 6
  mode : BitVec 2
  g : BitVec 4
  deriving DecidableEq, Repr

/-- CSRR and CSRW (R127): g register, register number. -/
structure Csr where
  d : BitVec 6
  num : BitVec 12
  g : BitVec 4
  deriving DecidableEq, Repr

/-- CSRW of sr.lsinv (R100, R127). -/
structure Lsi where
  d : BitVec 6
  g : BitVec 4
  deriving DecidableEq, Repr

/-! ### Parameters of the device events -/

/-- The parameters of a DEFINE message (spec/15_virtual_devices.md R293): every address is a VA of the VD. Quotas are
(class key, units): keys 0-7 MATRIX per die, 8-15 COPY per die, 16-23 CHGRP per die, 24 PORT, 25 HOST. `frames` gives
(VPA page, DPA frame, writable), pages of 64 KiB. `shadow` gives (queue, PRI, MAXS), the FW fields of R295. -/
structure VdDef where
  hanks : List Nat
  sched : List (Nat × Nat)
  s1root : Nat
  frames : List (Nat × Nat × Bool)
  quotas : List (Nat × Nat)
  poolBase : Nat
  poolCount : Nat
  tvec : Nat
  tra : Nat
  stat : Nat
  spb : Nat
  nslot : Nat
  lmax : Nat
  fcb : Nat
  lgn : Nat
  rqb : Nat
  rpb : Nat
  pfut : Nat
  hnot : Word
  qcb : Nat
  csa : Nat
  shadow : List (Nat × Nat × Nat)
  fpen : Word
  flim : Nat
  locks : Nat
  pmode : Bool
  hmode : BitVec 16
  sctrap : Bool
  ceil : BitVec 3
  brkHalt : Bool
  dbg : Bool
  deriving DecidableEq, Repr

/-- The 16-byte header of a management message (R304), but for its VDID: OP, body length, SEQ, word 1. -/
structure MgmtHdr where
  op : BitVec 8
  len : BitVec 16
  seq : BitVec 32
  w1 : Word
  deriving DecidableEq, Repr

/-- A VD and the host queue pair of it that an RDMA WRITE comes on (R294). -/
structure HostQp where
  vd : BitVec 8
  qp : Nat
  deriving DecidableEq, Repr

/-- What a host RDMA READ names (R294): a VD's HBM window, or its notify window. -/
structure RdmaSource where
  vd : BitVec 8
  notify : Bool
  deriving DecidableEq, Repr

/-- A retransmission on a port (R309): of the frame retransmitted last, or of another one. -/
structure PortFrame where
  port : BitVec 4
  again : Bool
  deriving DecidableEq, Repr

/-- Which firmware complex's active image the ROM accepts (R305, R307). -/
structure ImagesOk where
  ok0 : Bool
  ok1 : Bool
  deriving DecidableEq, Repr

/-- A HOSTWIN message (R294): window number, length, the host's memory key and remote address. -/
structure HostWin where
  h : BitVec 4
  len : Nat
  key : Word
  raddr : Word
  deriving DecidableEq, Repr

/-- A WINDOW message (spec/13_virry.md R269, R271): the other VD, window number, size in bytes, own access, the VPA page
at which the requesting VD maps it, the frames the host names, or a request to end the window. -/
structure WindowReq where
  peer : BitVec 8
  num : BitVec 8
  size : Nat
  rw : Bool
  vpaPage : Nat
  frames : List Nat
  close : Bool
  deriving DecidableEq, Repr

/-- A firmware image of an UPDATE (R305, R306): its bytes, whether their signature checks against the fuses, whether its
version can import the state table. -/
structure FwImage where
  addr : Word
  signed : Bool
  importsTable : Bool
  version : Nat
  bytes : List Byte
  deriving DecidableEq, Repr

/-- A Fliurn message (spec/16_fliurn.md R309, R312): the eight words of its header flit and its payload bytes. -/
structure FMsg where
  w0 : Word
  w1 : Word
  w2 : Word
  w3 : Word
  w4 : Word
  w5 : Word
  w6 : Word
  w7 : Word
  data : List Byte
  deriving DecidableEq, Repr

/-- Where a booking message comes from: the i-th message in flight inside the package, or a message from a port. -/
inductive MsgRef where
  | inner (i : Nat)
  | outer (m : FMsg)
  deriving DecidableEq, Repr

/-- Where a fault reply comes from (spec/12_translation.md R244, R245): the next entry of the VD's reply ring, or Warun
firmware answering the i-th outstanding request (kinds 3 and 4). -/
inductive ReplySrc where
  | ring
  | firmware (i : Nat)
  deriving DecidableEq, Repr

/-- A unit that the halt line stops (spec/14_traps_preemption.md R282, R284). -/
inductive HaltUnit where
  | plane (core : BitVec 10) (plane : BitVec 1)
  | matrix (core : BitVec 10)
  | copy (core : BitVec 10)
  | port (port : BitVec 4)
  | hostPort
  deriving DecidableEq, Repr

/-! ### Instructions and device events -/

/-- The rows of spec/opcode_table.json: 194 instruction forms, then 110 device events. -/
inductive Instr where
  /-- ADD_TRI (R319). -/
  | addTri (o : Tri)
  /-- ADD_SIM (R319). -/
  | addSim (o : Sim)
  /-- ADD_LIM (R319). -/
  | addLim (o : Lim)
  /-- SUB_TRI (R402). -/
  | subTri (o : Tri)
  /-- SUB_SIM (R402). -/
  | subSim (o : Sim)
  /-- SUB_LIM (R402). -/
  | subLim (o : Lim)
  /-- MUL_TRI (R383). -/
  | mulTri (o : Tri)
  /-- MUL_SIM (R383). -/
  | mulSim (o : Sim)
  /-- MUL_LIM (R383). -/
  | mulLim (o : Lim)
  /-- MULH_TRI (R383). -/
  | mulhTri (o : Tri)
  /-- MULH_SIM (R383). -/
  | mulhSim (o : Sim)
  /-- MULH_LIM (R383). -/
  | mulhLim (o : Lim)
  /-- MULHU_TRI (R383). -/
  | mulhuTri (o : Tri)
  /-- MULHU_SIM (R383). -/
  | mulhuSim (o : Sim)
  /-- MULHU_LIM (R383). -/
  | mulhuLim (o : Lim)
  /-- DIV_TRI (R346). -/
  | divTri (o : Tri)
  /-- DIV_SIM (R346). -/
  | divSim (o : Sim)
  /-- DIV_LIM (R346). -/
  | divLim (o : Lim)
  /-- DIVU_TRI (R346). -/
  | divuTri (o : Tri)
  /-- DIVU_SIM (R346). -/
  | divuSim (o : Sim)
  /-- DIVU_LIM (R346). -/
  | divuLim (o : Lim)
  /-- REM_TRI (R386). -/
  | remTri (o : Tri)
  /-- REM_SIM (R386). -/
  | remSim (o : Sim)
  /-- REM_LIM (R386). -/
  | remLim (o : Lim)
  /-- REMU_TRI (R386). -/
  | remuTri (o : Tri)
  /-- REMU_SIM (R386). -/
  | remuSim (o : Sim)
  /-- REMU_LIM (R386). -/
  | remuLim (o : Lim)
  /-- AND_TRI (R319). -/
  | andTri (o : Tri)
  /-- AND_SIM (R319). -/
  | andSim (o : Sim)
  /-- AND_LIM (R319). -/
  | andLim (o : Lim)
  /-- OR_TRI (R372). -/
  | orTri (o : Tri)
  /-- OR_SIM (R372). -/
  | orSim (o : Sim)
  /-- OR_LIM (R372). -/
  | orLim (o : Lim)
  /-- XOR_TRI (R453). -/
  | xorTri (o : Tri)
  /-- XOR_SIM (R453). -/
  | xorSim (o : Sim)
  /-- XOR_LIM (R453). -/
  | xorLim (o : Lim)
  /-- ANDN_TRI (R319). -/
  | andnTri (o : Tri)
  /-- ANDN_SIM (R319). -/
  | andnSim (o : Sim)
  /-- ANDN_LIM (R319). -/
  | andnLim (o : Lim)
  /-- SHL_TRI (R390). -/
  | shlTri (o : Tri)
  /-- SHL_SIM (R390). -/
  | shlSim (o : Sim)
  /-- SHL_LIM (R390). -/
  | shlLim (o : Lim)
  /-- SHR_TRI (R390). -/
  | shrTri (o : Tri)
  /-- SHR_SIM (R390). -/
  | shrSim (o : Sim)
  /-- SHR_LIM (R390). -/
  | shrLim (o : Lim)
  /-- SAR_TRI (R390). -/
  | sarTri (o : Tri)
  /-- SAR_SIM (R390). -/
  | sarSim (o : Sim)
  /-- SAR_LIM (R390). -/
  | sarLim (o : Lim)
  /-- MIN_TRI (R372). -/
  | minTri (o : Tri)
  /-- MIN_SIM (R372). -/
  | minSim (o : Sim)
  /-- MIN_LIM (R372). -/
  | minLim (o : Lim)
  /-- MAX_TRI (R372). -/
  | maxTri (o : Tri)
  /-- MAX_SIM (R372). -/
  | maxSim (o : Sim)
  /-- MAX_LIM (R372). -/
  | maxLim (o : Lim)
  /-- MINU_TRI (R372). -/
  | minuTri (o : Tri)
  /-- MINU_SIM (R372). -/
  | minuSim (o : Sim)
  /-- MINU_LIM (R372). -/
  | minuLim (o : Lim)
  /-- MAXU_TRI (R372). -/
  | maxuTri (o : Tri)
  /-- MAXU_SIM (R372). -/
  | maxuSim (o : Sim)
  /-- MAXU_LIM (R372). -/
  | maxuLim (o : Lim)
  /-- CLZ (R336). -/
  | clz (o : Un)
  /-- POPC (R380). -/
  | popc (o : Un)
  /-- MOV (R380). -/
  | mov (o : Un)
  /-- LDI_SIM (R363). -/
  | ldiSim (o : LdiS)
  /-- LDI_LIM (R363). -/
  | ldiLim (o : LdiL)
  /-- LDIH (R363). -/
  | ldih (o : LdiL)
  /-- BFX_REG (R324). -/
  | bfxReg (o : BfR)
  /-- BFX_IMM (R324). -/
  | bfxImm (o : BfI)
  /-- BFXU_REG (R324). -/
  | bfxuReg (o : BfR)
  /-- BFXU_IMM (R324). -/
  | bfxuImm (o : BfI)
  /-- BFI_REG (R324). -/
  | bfiReg (o : BfR)
  /-- BFI_IMM (R324). -/
  | bfiImm (o : BfI)
  /-- SEL (R391). -/
  | sel (o : Sel)
  /-- CMP_REG (R338). -/
  | cmpReg (o : CmpR)
  /-- CMP_IMM (R338). -/
  | cmpImm (o : CmpI)
  /-- PAND (R370). -/
  | pand (o : Log)
  /-- POR (R370). -/
  | por (o : Log)
  /-- PXOR (R370). -/
  | pxor (o : Log)
  /-- PNOT (R370). -/
  | pnot (o : LogN)
  /-- MAND (R370). -/
  | mand (o : Log)
  /-- MOR (R370). -/
  | mor (o : Log)
  /-- MXOR (R370). -/
  | mxor (o : Log)
  /-- MNOT (R370). -/
  | mnot (o : LogN)
  /-- BR (R332). -/
  | br (o : Br)
  /-- JMP (R357). -/
  | jmp (o : Jmp)
  /-- CALL_REL (R334). -/
  | callRel (o : CallR)
  /-- CALL_REG (R334). -/
  | callReg (o : CallG)
  /-- RET (R387). -/
  | ret (o : G0)
  /-- LOOP (R367). -/
  | loop (o : Jmp)
  /-- LOOPM (R367). -/
  | loopm (o : LoopM)
  /-- LD (R362). -/
  | ld (o : Ld0)
  /-- LD_OFF (R362). -/
  | ldOff (o : Ld1)
  /-- ST (R398). -/
  | st (o : St0)
  /-- ST_OFF (R398). -/
  | stOff (o : St1)
  /-- LDSEC (R365). -/
  | ldsec (o : Sec)
  /-- STSEC (R401). -/
  | stsec (o : Sec)
  /-- AMO (R321). -/
  | amo (o : Amo)
  /-- CAS (R335). -/
  | cas (o : Cas)
  /-- BPUT (R331). -/
  | bput (o : Bput)
  /-- FENCE (R349). -/
  | fence (o : Fence)
  /-- FLUSHP (R353). -/
  | flushp (o : Flushp)
  /-- SHACQ (R393). -/
  | shacq (o : DA)
  /-- SHREL (R393). -/
  | shrel (o : DA)
  /-- WAIT_REG (R451). -/
  | waitReg (o : A1)
  /-- WAIT_IMM (R451). -/
  | waitImm (o : WaitI)
  /-- TWANY (R407). -/
  | twany (o : DA)
  /-- TWALL (R407). -/
  | twall (o : DA)
  /-- TFIRST (R406). -/
  | tfirst (o : DA)
  /-- TCLR (R406). -/
  | tclr (o : A1)
  /-- VLD (R431). -/
  | vld (o : Vld0)
  /-- VLD_OFF (R431). -/
  | vldOff (o : Vld1)
  /-- VST (R449). -/
  | vst (o : Vst0)
  /-- VST_OFF (R449). -/
  | vstOff (o : Vst1)
  /-- VGATH (R427). -/
  | vgath (o : Vgs)
  /-- VSCAT (R442). -/
  | vscat (o : Vgs)
  /-- VADD (R414). -/
  | vadd (o : V0)
  /-- VADD_X (R414). -/
  | vaddX (o : V1)
  /-- VSUB (R414). -/
  | vsub (o : V0)
  /-- VSUB_X (R414). -/
  | vsubX (o : V1)
  /-- VMUL (R414). -/
  | vmul (o : V0)
  /-- VMUL_X (R414). -/
  | vmulX (o : V1)
  /-- VFMA (R425). -/
  | vfma (o : Fma)
  /-- VFMS (R425). -/
  | vfms (o : Fma)
  /-- VFNMA (R425). -/
  | vfnma (o : Fma)
  /-- VDIV (R422). -/
  | vdiv (o : V0)
  /-- VDIV_X (R422). -/
  | vdivX (o : Vdiv1)
  /-- VSQRT (R447). -/
  | vsqrt (o : Vu0)
  /-- VSQRT_X (R447). -/
  | vsqrtX (o : Vsq1)
  /-- VMIN (R433). -/
  | vmin (o : Vmm)
  /-- VMAX (R433). -/
  | vmax (o : Vmm)
  /-- VABS (R412). -/
  | vabs (o : Vu0)
  /-- VABS_X (R412). -/
  | vabsX (o : Vab1)
  /-- VNEG (R412). -/
  | vneg (o : Vu0)
  /-- VNEG_X (R412). -/
  | vnegX (o : Vab1)
  /-- VCMP (R419). -/
  | vcmp (o : Vcmp)
  /-- VSEL (R443). -/
  | vsel (o : Vsel)
  /-- VAND (R415). -/
  | vand (o : Vl0)
  /-- VAND_X (R415). -/
  | vandX (o : Vl1)
  /-- VOR (R415). -/
  | vor (o : Vl0)
  /-- VOR_X (R415). -/
  | vorX (o : Vl1)
  /-- VXOR (R415). -/
  | vxor (o : Vl0)
  /-- VXOR_X (R415). -/
  | vxorX (o : Vl1)
  /-- VSHL (R440). -/
  | vshl (o : Vsh)
  /-- VSHL_IMM (R440). -/
  | vshlImm (o : VshI)
  /-- VSHR (R440). -/
  | vshr (o : Vsh)
  /-- VSHR_IMM (R440). -/
  | vshrImm (o : VshI)
  /-- VSAR (R440). -/
  | vsar (o : Vsh)
  /-- VSAR_IMM (R440). -/
  | vsarImm (o : VshI)
  /-- VCVT (R421). -/
  | vcvt (o : Vcvt)
  /-- VRED (R439). -/
  | vred (o : Vu0)
  /-- VRED_X (R439). -/
  | vredX (o : Vred1)
  /-- VSCAN (R439). -/
  | vscan (o : Vu0)
  /-- VSCAN_X (R439). -/
  | vscanX (o : Vred1)
  /-- VBCAST_SCALAR (R416). -/
  | vbcastScalar (o : VbcS)
  /-- VBCAST_ELEMENT (R416). -/
  | vbcastElement (o : VbcE)
  /-- VEXT (R423). -/
  | vext (o : Vext)
  /-- VPERM (R437). -/
  | vperm (o : Vsh)
  /-- VSLIDE (R444). -/
  | vslide (o : Vslide)
  /-- VCLASS (R417). -/
  | vclass (o : Vcls)
  /-- VSPLIT (R446). -/
  | vsplit (o : Vsplit)
  /-- VJOIN (R429). -/
  | vjoin (o : Vjoin)
  /-- VPACK4 (R435). -/
  | vpack4 (o : Pack)
  /-- VUNPK4 (R436). -/
  | vunpk4 (o : Unpack)
  /-- MMT (R379). -/
  | mmt (o : Mmt)
  /-- MZERO (R384). -/
  | mzero (o : Mzero)
  /-- MDRAIN (R377). -/
  | mdrain (o : Mdrain)
  /-- MDADD (R375). -/
  | mdadd (o : Mdadd)
  /-- MBRD (R373). -/
  | mbrd (o : Mbrd)
  /-- MSTAT (R381). -/
  | mstat (o : Mstat)
  /-- CPY (R340). -/
  | cpy (o : Cpy)
  /-- CPYS (R340). -/
  | cpys (o : Cpy)
  /-- CPYQ (R342). -/
  | cpyq (o : Cpyq)
  /-- BOOK (R329). -/
  | book (o : DA)
  /-- BKQ (R327). -/
  | bkq (o : Bkq)
  /-- BKCAN (R326). -/
  | bkcan (o : A1)
  /-- BKREL (R326). -/
  | bkrel (o : Bkrel)
  /-- SPAWN (R396). -/
  | spawn (o : Spawn)
  /-- SIGNAL (R394). -/
  | signal (o : A1)
  /-- SUSP (R403). -/
  | susp (o : G0)
  /-- EXIT (R347). -/
  | exit (o : G0)
  /-- FGET (R352). -/
  | fget (o : DA)
  /-- FPUT (R352). -/
  | fput (o : Fput)
  /-- LAUNCH (R360). -/
  | launch (o : DA)
  /-- FRQ (R356). -/
  | frq (o : Frq)
  /-- FRGATE (R355). -/
  | frgate (o : Frgate)
  /-- SVC (R404). -/
  | svc (o : Code)
  /-- TRAP (R404). -/
  | trap (o : Code)
  /-- BRK (R333). -/
  | brk (o : Code)
  /-- RETT (R277). -/
  | rett (o : AMode)
  /-- CSRR (R344). -/
  | csrr (o : Csr)
  /-- CSRW (R344). -/
  | csrw (o : Csr)
  /-- LSINV (R100). -/
  | lsinv (o : Lsi)
  /-- NOP (R385). -/
  | nop (o : G0)
  /-- XINV (R249). -/
  | xinv (o : AMode)
  /-- ASYNC_FAULT_TAKEN (R280): a device event. -/
  | asyncFaultTaken (core : BitVec 10) (plane : BitVec 1)
  /-- POINT_FIRE (R46): a device event. -/
  | pointFire (die : BitVec 3)
  /-- EDGE_MESSAGE (R51): a device event. -/
  | edgeMessage (i : Nat)
  /-- GATE_ADDITION (R50): a device event. -/
  | gateAddition (i : Nat)
  /-- SWEEP_ID_ASSIGN (R15): a device event. -/
  | sweepIdAssign (vd : BitVec 8)
  /-- TASK_STAGE (R34): a device event. -/
  | taskStage (die : BitVec 3)
  /-- PLANE_SWAP (R30): a device event. -/
  | planeSwap (core : BitVec 10)
  /-- SPILL (R32): a device event. -/
  | spill (core : BitVec 10) (plane : BitVec 1)
  /-- DECREMENT (R25): a device event. -/
  | decrement (i : Nat)
  /-- LOAD_RESULT (R102): a device event. -/
  | loadResult (core : BitVec 10) (plane : BitVec 1) (acc : Nat)
  /-- POSTED_WRITE_ACK (R215): a device event. -/
  | postedWriteAck (core : BitVec 10) (plane : BitVec 1) (acc : Nat)
  /-- COPY_COMPLETE (R194): a device event. -/
  | copyComplete (core : BitVec 10)
  /-- MATRIX_COMPLETE (R163): a device event. -/
  | matrixComplete (core : BitVec 10)
  /-- MBRD_READY (R180): a device event. -/
  | mbrdReady (core : BitVec 10)
  /-- LINE_FILL (R99): a device event. -/
  | lineFill (core : BitVec 10) (plane : BitVec 1)
  /-- COPY_ENTRY (R194): a device event. -/
  | copyEntry (core : BitVec 10)
  /-- LOOPC (R194): a device event. -/
  | chainLoop (core : BitVec 10)
  /-- IFC (R194): a device event. -/
  | chainIf (core : BitVec 10)
  /-- TAG (R194): a device event. -/
  | chainTag (core : BitVec 10)
  /-- END (R194): a device event. -/
  | chainEnd (core : BitVec 10)
  /-- SLOT_BOUNDARY (R87): a device event. -/
  | slotBoundary
  /-- BOOKING_SEARCH (R67): a device event. -/
  | bookingSearch (die : BitVec 3)
  /-- TEMPLATE_RETRY (R74): a device event. -/
  | templateRetry (task : Nat)
  /-- TENTATIVE_HOLD_EXPIRY (R70): a device event. -/
  | tentativeHoldExpiry (i : Nat)
  /-- SENIOR_HOLD_EXPIRY (R69): a device event. -/
  | seniorHoldExpiry (i : Nat)
  /-- POSTPONED_EXPIRY (R80): a device event. -/
  | postponedExpiry (i : Nat)
  /-- DEADLINE_PASS (R454): a device event. -/
  | deadlinePass (i : Nat)
  /-- COMMIT_TIMEOUT (R70): a device event. -/
  | commitTimeout (i : Nat)
  /-- PREPARE_TIMEOUT (R71): a device event. -/
  | prepareTimeout (i : Nat)
  /-- OVERRUN (R79): a device event. -/
  | overrun (core : BitVec 10) (copy : Bool)
  /-- UNBOOKED_OVERRUN (R86): a device event. -/
  | unbookedOverrun (core : BitVec 10) (copy : Bool)
  /-- PREPARE (R70): a device event. -/
  | bookPrepare (m : MsgRef)
  /-- GRANT (R70): a device event. -/
  | bookGrant (m : MsgRef)
  /-- REFUSE (R70): a device event. -/
  | bookRefuse (m : MsgRef)
  /-- COMMIT (R70): a device event. -/
  | bookCommit (m : MsgRef)
  /-- CONFIRM (R70): a device event. -/
  | bookConfirm (m : MsgRef)
  /-- ABORT (R70): a device event. -/
  | bookAbort (m : MsgRef)
  /-- CANCEL (R315): a device event. -/
  | bookCancel (m : MsgRef)
  /-- LOST (R70): a device event. -/
  | bookLost (m : MsgRef)
  /-- WALK (R237): a device event. -/
  | walk (core : BitVec 10) (plane : BitVec 1) (acc : Nat) (el : Nat)
  /-- FAULT_POST (R244): a device event. -/
  | faultPost (vd : BitVec 8)
  /-- RING_POLL (R245): a device event. -/
  | ringPoll (vd : BitVec 8)
  /-- REPLY_RETRY (R246): a device event. -/
  | replyRetry (vd : BitVec 8) (src : ReplySrc)
  /-- REPLY_FAIL (R246): a device event. -/
  | replyFail (vd : BitVec 8) (src : ReplySrc)
  /-- HOME_AGENT_ACCESS (R258): a device event. -/
  | homeAgentAccess (core : BitVec 10) (plane : BitVec 1) (acc : Nat) (el : Nat)
  /-- PEER_ACCESS (R98): a device event. -/
  | peerAccess (core : BitVec 10) (plane : BitVec 1) (acc : Nat) (el : Nat)
  /-- MIGRATION_COPY_END (R252): a device event. -/
  | migrationCopyEnd (i : Nat)
  /-- MIGRATION_COPY_FAIL (R253): a device event. -/
  | migrationCopyFail (i : Nat)
  /-- UNIT_STOP (R282): a device event. -/
  | unitStop (vd : BitVec 8) (u : HaltUnit)
  /-- THERMAL_POLL (R13): a device event. -/
  | thermalPoll (temps : List Nat)
  /-- FREEZE (R285): a device event. -/
  | freeze (vd : BitVec 8)
  /-- FREEZE_SAVE (R285): a device event. -/
  | freezeSave (vd : BitVec 8)
  /-- FLIM_KILL (R288): a device event. -/
  | flimKill (task : Nat)
  /-- WORLD_SWITCH (R285): a device event. -/
  | worldSwitch (out : BitVec 8) (inn : BitVec 8)
  /-- ACTION_SIGNAL (R299): a device event. -/
  | actionSignal (sweep : Nat)
  /-- ACTION_FPUT (R299): a device event. -/
  | actionFput (sweep : Nat)
  /-- ACTION_GATE (R299): a device event. -/
  | actionGate (sweep : Nat)
  /-- ACTION_POST (R299): a device event. -/
  | actionPost (sweep : Nat)
  /-- COMPLETION_POST (R300): a device event. -/
  | completionPost (vd : BitVec 8) (q : BitVec 6)
  /-- NOTIFY (R297): a device event. -/
  | notify (q : HostQp) (w0 : Word) (w1 : Word)
  /-- RECONCILE (R298): a device event. -/
  | reconcile (vd : BitVec 8) (q : BitVec 6)
  /-- SWEEP_COMMAND (R296): a device event. -/
  | sweepCommand (vd : BitVec 8) (q : BitVec 6)
  /-- GRAPH_COMMAND (R301): a device event. -/
  | graphCommand (vd : BitVec 8) (q : BitVec 6)
  /-- NOP_COMMAND (R296): a device event. -/
  | nopCommand (vd : BitVec 8) (q : BitVec 6)
  /-- HOST_RDMA_READ (R294): a device event. -/
  | hostRdmaRead (r : RdmaSource) (va : Word) (len : Nat)
  /-- HOST_RDMA_WRITE (R294): a device event. -/
  | hostRdmaWrite (q : HostQp) (va : Word) (data : List Byte)
  /-- HOST_RDMA_ATOMIC (R294): a device event. -/
  | hostRdmaAtomic (vd : BitVec 8) (va : Word) (cas : Bool) (op : Word) (new : Word)
  /-- DEFINE (R293): a device event. -/
  | fwDefine (h : MgmtHdr) (vd : BitVec 8) (d : VdDef)
  /-- TEARDOWN (R268): a device event. -/
  | fwTeardown (h : MgmtHdr) (vd : BitVec 8)
  /-- RESET (R302): a device event. -/
  | fwReset (h : MgmtHdr) (vd : BitVec 8)
  /-- SCHEDULE (R304): a device event. -/
  | fwSchedule (h : MgmtHdr) (vd : BitVec 8) (sched : List (Nat × Nat))
  /-- HOSTWIN (R294): a device event. -/
  | fwHostwin (h : MgmtHdr) (vd : BitVec 8) (w : HostWin)
  /-- SPAN (R311): a device event. -/
  | fwSpan (h : MgmtHdr) (vd : BitVec 8) (own : BitVec 12) (nodes : List Nat)
  /-- WINDOW (R269): a device event. -/
  | fwWindow (h : MgmtHdr) (vd : BitVec 8) (w : WindowReq)
  /-- MIGRATE (R252): a device event. -/
  | fwMigrate (h : MgmtHdr) (vd : BitVec 8) (f : Nat) (t : Nat)
  /-- HALT (R291): a device event. -/
  | fwHalt (h : MgmtHdr) (vd : BitVec 8)
  /-- RESUME (R291): a device event. -/
  | fwResume (h : MgmtHdr) (vd : BitVec 8)
  /-- STEP (R292): a device event. -/
  | fwStep (h : MgmtHdr) (vd : BitVec 8) (core : BitVec 10) (plane : BitVec 1)
  /-- DUMP (R291): a device event. -/
  | fwDump (h : MgmtHdr) (vd : BitVec 8) (core : BitVec 10) (plane : BitVec 1) (win : BitVec 4)
  /-- LOAD (R291): a device event. -/
  | fwLoad (h : MgmtHdr) (vd : BitVec 8) (core : BitVec 10) (plane : BitVec 1) (win : BitVec 4)
  /-- COUNTERS (R303): a device event. -/
  | fwCounters (h : MgmtHdr) (vd : BitVec 8) (bank : BitVec 3)
  /-- ATTEST (R305): a device event. -/
  | fwAttest (h : MgmtHdr) (vd : BitVec 8) (nonce : List Byte)
  /-- UPDATE (R306): a device event. -/
  | fwUpdate (h : MgmtHdr) (vd : BitVec 8) (image : FwImage)
  /-- COMPLEX_TAKEOVER (R306): a device event. -/
  | complexTakeover
  /-- WATCHDOG_TAKEOVER (R306): a device event. -/
  | watchdogTakeover
  /-- POWER_ON (R307): a device event. -/
  | powerOn
  /-- READ (R313): a device event. -/
  | msgRead (m : FMsg)
  /-- RDATA (R313): a device event. -/
  | msgRdata (m : FMsg)
  /-- WRITE (R313): a device event. -/
  | msgWrite (m : FMsg)
  /-- ACK (R313): a device event. -/
  | msgAck (m : FMsg)
  /-- ATOMIC (R313): a device event. -/
  | msgAtomic (m : FMsg)
  /-- ARSP (R313): a device event. -/
  | msgArsp (m : FMsg)
  /-- MDADD_MESSAGE (R313): a device event. -/
  | msgMdadd (m : FMsg)
  /-- GATE (R313): a device event. -/
  | msgGate (m : FMsg)
  /-- FAULTED (R313): a device event. -/
  | msgFaulted (m : FMsg)
  /-- NACK (R313): a device event. -/
  | msgNack (m : FMsg)
  /-- TIME (R316): a device event. -/
  | msgTime (m : FMsg)
  /-- TIME_RSP (R316): a device event. -/
  | msgTimeRsp (m : FMsg)
  /-- TIME_PROBE (R316): a device event. -/
  | timeProbe (node : BitVec 12)
  /-- OFFSET_EXPIRY (R316): a device event. -/
  | offsetExpiry (node : BitVec 12)
  /-- REQUEST_RETRANSMIT (R314): a device event. -/
  | requestRetransmit (i : Nat)
  /-- RESPONSE_EXPIRY (R314): a device event. -/
  | responseExpiry (i : Nat)
  /-- TID_ALLOCATE (R314): a device event. -/
  | tidAllocate (node : BitVec 12)
  /-- FRAME_RETRANSMIT (R309): a device event. -/
  | frameRetransmit (f : PortFrame)
  /-- PORT_DOWN (R310): a device event. -/
  | portDown (port : BitVec 4)
  /-- PORT_UP (R310): a device event. -/
  | portUp (port : BitVec 4)
  /-- K_STEP (R167): a device event. -/
  | kStep (core : BitVec 10)
  /-- HOST_WINDOW_RESPONSE (R294): a device event. -/
  | hostWindowResponse (i : Nat) (ok : Bool) (data : List Byte)
  /-- POWER_OFF (R307): a device event. -/
  | powerOff
  /-- BOOT_COMPLETE (R307): a device event. -/
  | bootComplete (ok : ImagesOk)
  deriving DecidableEq, Repr

end Sys2Proof
end

