-- ==== Sys2Proof/WellFormed.lean ====
section
/-! DEFINITION. Which decoded instructions are legal: the field values that spec/06_encoding.md R116 (step 4) and the reference entries
call reserved raise ILLEGAL. The bits that a format requires to be 0 are the decoder's; a device event is no encoding and
is always well formed. -/

namespace Sys2Proof.WellFormed

/-- A scope code SCP of R120: 0 to 4. -/
def scpOk (scp : BitVec 3) : Bool := decide (scp.toNat ≤ 4)

/-- AR among those the entry admits, SCP 0 to 4, and SCP 0 when AR = 0 (R120, R121, R123, R223). -/
def ordOk (ar : BitVec 2) (scp : BitVec 3) (ars : List Nat) : Bool :=
  ars.contains ar.toNat && scpOk scp && (!(ar == 0) || scp == 0)

/-- S = 1 with SZ = 3 is reserved (R120). -/
def ldOk (sz : BitVec 2) (s : BitVec 1) : Bool := !(s == 1 && sz == 3)

/-- POS + LEN above 64 is reserved (R126, R323); `len` holds LEN - 1. -/
def bfOk (len pos : BitVec 6) : Bool := decide (pos.toNat + len.toNat + 1 ≤ 64)

/-- Two destinations may name one register only if it is p0 or m0 (R105). -/
def pairOk (a b : BitVec 3) : Bool := !(a == b) || a == 0

/-- LAY of VLD: RAW, DEC16, DEC32 (R123). -/
def layOk (lay : BitVec 3) : Bool := decide (lay.toNat ≤ 2)

/-- FP64, FP32, FP16, BF16. -/
def fpTy (ty : BitVec 4) : Bool := decide (ty.toNat ≤ 3)

/-- Every floating-point type. -/
def floatTy (ty : BitVec 4) : Bool := decide (ty.toNat ≤ 5)

/-- The integer types 6 to 13. -/
def intTy (ty : BitVec 4) : Bool := decide (6 ≤ ty.toNat ∧ ty.toNat ≤ 13)

/-- The signed types 6 to 9, which also stand for widths. -/
def sintTy (ty : BitVec 4) : Bool := decide (6 ≤ ty.toNat ∧ ty.toNat ≤ 9)

/-- Types 0 to 3 and 6 to 13 (R128). -/
def arithTy (ty : BitVec 4) : Bool := fpTy ty || intTy ty

/-- Types 0 to 13. -/
def cvtTy (ty : BitVec 4) : Bool := decide (ty.toNat ≤ 13)

/-- The wide types of VPACK4 and VUNPK4 (R434). -/
def wideTy (ty : BitVec 4) : Bool := decide (1 ≤ ty.toNat ∧ ty.toNat ≤ 3)

/-- The types of MMT (R165). -/
def mmtTy (ty : BitVec 4) : Bool := [2, 3, 4, 5, 9, 13, 14].contains ty.toNat

/-- The width in bits of a type's element (R122). -/
def tyWidth (ty : BitVec 4) : Nat :=
  match ty.toNat with
  | 0 | 6 | 10 => 64
  | 1 | 7 | 11 => 32
  | 2 | 3 | 8 | 12 => 16
  | _ => 8

/-- RM of 6 and 7 is reserved (R122). -/
def rmOk (rm : BitVec 3) : Bool := decide (rm.toNat ≤ 5)

/-- RM belongs to FP types, SAT to integer types (R409). -/
def rmSatOk (ty : BitVec 4) (rm : BitVec 3) (sat : BitVec 1) : Bool :=
  rmOk rm && (if fpTy ty then sat == 0 else rm == 0)

/-- VB is 0 when SC = 1 (R122, R409). -/
def scOk (sc : BitVec 1) (vb : BitVec 5) : Bool := sc == 0 || vb == 0

/-- COND of VCMP against its type (R123, R418). -/
def cmpOk (ty : BitVec 4) (cond : BitVec 3) : Bool :=
  cvtTy ty && (decide (cond.toNat ≤ 2) || (cond == 3 && floatTy ty) || (cond == 4 && intTy ty))

/-- The element index lies in the register (R416, R423). -/
def elOk (ty : BitVec 4) (el : BitVec 7) : Bool := decide ((el.toNat + 1) * tyWidth ty ≤ 1024)

/-- BK = 0 requires STEP = 0 (R124). -/
def bkOk (bk : BitVec 6) (step : BitVec 3) : Bool := !(bk == 0) || step == 0

/-- The register numbers R93 lists. -/
def csrOk (num : BitVec 12) : Bool := decide (num.toNat ≤ 0x12 ∨ (0x100 ≤ num.toNat ∧ num.toNat ≤ 0x1FF))

end Sys2Proof.WellFormed

namespace Sys2Proof

open WellFormed in
/-- Whether an instruction's field values are legal (R116, step 4). -/
def wellFormed (i : Instr) : Bool :=
  match i with
  | .addTri _ => true
  | .addSim _ => true
  | .addLim _ => true
  | .subTri _ => true
  | .subSim _ => true
  | .subLim _ => true
  | .mulTri _ => true
  | .mulSim _ => true
  | .mulLim _ => true
  | .mulhTri o => o.w == 0
  | .mulhSim o => o.w == 0
  | .mulhLim o => o.w == 0
  | .mulhuTri o => o.w == 0
  | .mulhuSim o => o.w == 0
  | .mulhuLim o => o.w == 0
  | .divTri _ => true
  | .divSim _ => true
  | .divLim _ => true
  | .divuTri _ => true
  | .divuSim _ => true
  | .divuLim _ => true
  | .remTri _ => true
  | .remSim _ => true
  | .remLim _ => true
  | .remuTri _ => true
  | .remuSim _ => true
  | .remuLim _ => true
  | .andTri _ => true
  | .andSim _ => true
  | .andLim _ => true
  | .orTri _ => true
  | .orSim _ => true
  | .orLim _ => true
  | .xorTri _ => true
  | .xorSim _ => true
  | .xorLim _ => true
  | .andnTri _ => true
  | .andnSim _ => true
  | .andnLim _ => true
  | .shlTri _ => true
  | .shlSim _ => true
  | .shlLim _ => true
  | .shrTri _ => true
  | .shrSim _ => true
  | .shrLim _ => true
  | .sarTri _ => true
  | .sarSim _ => true
  | .sarLim _ => true
  | .minTri _ => true
  | .minSim _ => true
  | .minLim _ => true
  | .maxTri _ => true
  | .maxSim _ => true
  | .maxLim _ => true
  | .minuTri _ => true
  | .minuSim _ => true
  | .minuLim _ => true
  | .maxuTri _ => true
  | .maxuSim _ => true
  | .maxuLim _ => true
  | .clz _ => true
  | .popc _ => true
  | .mov _ => true
  | .ldiSim _ => true
  | .ldiLim _ => true
  | .ldih _ => true
  | .bfxReg _ => true
  | .bfxImm o => bfOk o.len o.pos
  | .bfxuReg _ => true
  | .bfxuImm o => bfOk o.len o.pos
  | .bfiReg _ => true
  | .bfiImm o => bfOk o.len o.pos
  | .sel o => !(o.sp == 8)
  | .cmpReg o => pairOk o.pd o.pq
  | .cmpImm o => pairOk o.pd o.pq
  | .pand _ => true
  | .por _ => true
  | .pxor _ => true
  | .pnot _ => true
  | .mand _ => true
  | .mor _ => true
  | .mxor _ => true
  | .mnot _ => true
  | .br _ => true
  | .jmp _ => true
  | .callRel _ => true
  | .callReg _ => true
  | .ret _ => true
  | .loop _ => true
  | .loopm _ => true
  | .ld o => ldOk o.sz o.s
  | .ldOff o => ldOk o.sz o.s && ordOk o.ar o.scp [0, 1]
  | .st _ => true
  | .stOff o => ordOk o.ar o.scp [0, 2]
  | .ldsec o => ordOk o.ar o.scp [0, 1]
  | .stsec o => ordOk o.ar o.scp [0, 2]
  | .amo o => ordOk o.ar o.scp [0, 1, 2, 3] && decide (o.aop.toNat ≤ 8)
  | .cas o => ordOk o.ar o.scp [0, 1, 2, 3]
  | .bput o => ordOk o.ar o.scp [0, 1, 2, 3] && decide (o.aop.toNat ≤ 3)
  | .fence o => scpOk o.scp
  | .flushp o => scpOk o.scp
  | .shacq _ => true
  | .shrel _ => true
  | .waitReg _ => true
  | .waitImm _ => true
  | .twany _ => true
  | .twall _ => true
  | .tfirst _ => true
  | .tclr _ => true
  | .vld o => layOk o.lay
  | .vldOff o => layOk o.lay && ordOk o.ar o.scp [0, 1]
  | .vst _ => true
  | .vstOff o => ordOk o.ar o.scp [0, 2]
  | .vgath o => ordOk o.ar o.scp [0, 1]
  | .vscat o => ordOk o.ar o.scp [0, 2]
  | .vadd o => arithTy o.ty
  | .vaddX o => arithTy o.ty && rmSatOk o.ty o.rm o.sat && scOk o.sc o.vb
  | .vsub o => arithTy o.ty
  | .vsubX o => arithTy o.ty && rmSatOk o.ty o.rm o.sat && scOk o.sc o.vb
  | .vmul o => arithTy o.ty
  | .vmulX o => arithTy o.ty && rmSatOk o.ty o.rm o.sat && scOk o.sc o.vb
  | .vfma o => fpTy o.ty && rmOk o.rm && scOk o.sc o.vb
  | .vfms o => fpTy o.ty && rmOk o.rm && scOk o.sc o.vb
  | .vfnma o => fpTy o.ty && rmOk o.rm && scOk o.sc o.vb
  | .vdiv o => fpTy o.ty
  | .vdivX o => fpTy o.ty && rmOk o.rm && scOk o.sc o.vb
  | .vsqrt o => fpTy o.ty
  | .vsqrtX o => fpTy o.ty && rmOk o.rm
  | .vmin o => arithTy o.ty && (o.v1 == 0 || fpTy o.ty)
  | .vmax o => arithTy o.ty && (o.v1 == 0 || fpTy o.ty)
  | .vabs o => fpTy o.ty || sintTy o.ty
  | .vabsX o => (fpTy o.ty && o.sat == 0) || sintTy o.ty
  | .vneg o => fpTy o.ty || sintTy o.ty
  | .vnegX o => (fpTy o.ty && o.sat == 0) || sintTy o.ty
  | .vcmp o => cmpOk o.ty o.cond && pairOk o.md o.mq && scOk o.sc o.vb
  | .vsel _ => true
  | .vand _ => true
  | .vandX o => scOk o.sc o.vb
  | .vor _ => true
  | .vorX o => scOk o.sc o.vb
  | .vxor _ => true
  | .vxorX o => scOk o.sc o.vb
  | .vshl o => sintTy o.ty
  | .vshlImm o => sintTy o.ty && decide (o.cnt.toNat < tyWidth o.ty)
  | .vshr o => sintTy o.ty
  | .vshrImm o => sintTy o.ty && decide (o.cnt.toNat < tyWidth o.ty)
  | .vsar o => sintTy o.ty
  | .vsarImm o => sintTy o.ty && decide (o.cnt.toNat < tyWidth o.ty)
  | .vcvt o => cvtTy o.ty && cvtTy o.src && rmOk o.rm && (o.rm == 0 || floatTy o.ty || floatTy o.src)
  | .vred o => arithTy o.ty
  | .vredX o => arithTy o.ty && decide (o.rop.toNat ≤ 5) && (decide (o.rop.toNat ≤ 2) || intTy o.ty)
  | .vscan o => arithTy o.ty
  | .vscanX o => arithTy o.ty && decide (o.rop.toNat ≤ 5) && (decide (o.rop.toNat ≤ 2) || intTy o.ty)
  | .vbcastScalar o => sintTy o.ty
  | .vbcastElement o => sintTy o.ty && elOk o.ty o.el
  | .vext o => intTy o.ty && elOk o.ty o.el
  | .vperm o => sintTy o.ty
  | .vslide o => sintTy o.ty && decide (o.dist.toNat * tyWidth o.ty ≤ 1024)
  | .vclass o => floatTy o.ty
  | .vsplit o => decide (o.t.toNat ≤ o.s1.toNat) && !(o.vd == o.vb)
  | .vjoin o => decide (o.lv.toNat ≤ 2 * o.s1.toNat)
  | .vpack4 o => wideTy o.ty && rmOk o.rm
  | .vunpk4 o => wideTy o.ty
  | .mmt o => mmtTy o.ty && decide (o.f.toNat ≤ 1) && ordOk o.ar o.scp [0, 1, 2, 3] && bkOk o.bk o.step
  | .mzero _ => true
  | .mdrain o => cvtTy o.ty && rmOk o.rm && ordOk o.ar o.scp [0, 1, 2, 3] && bkOk o.bk o.step
  | .mdadd o => decide (o.f.toNat ≤ 1) && ordOk o.ar o.scp [0, 1, 2, 3] && bkOk o.bk o.step
  | .mbrd o => cvtTy o.ty
  | .mstat _ => true
  | .cpy o => ordOk o.ar o.scp [0, 1, 2, 3] && bkOk o.bk o.step && (o.tg == 1 || o.tag == 0)
  | .cpys o => ordOk o.ar o.scp [0, 1, 2, 3] && bkOk o.bk o.step && (o.tg == 1 || o.tag == 0)
  | .cpyq _ => true
  | .book _ => true
  | .bkq _ => true
  | .bkcan _ => true
  | .bkrel _ => true
  | .spawn _ => true
  | .signal _ => true
  | .susp _ => true
  | .exit _ => true
  | .fget _ => true
  | .fput _ => true
  | .launch _ => true
  | .frq o => decide (o.sel.toNat ≤ 3)
  | .frgate _ => true
  | .svc _ => true
  | .trap _ => true
  | .brk _ => true
  | .rett o => decide (o.mode.toNat ≤ 1)
  | .csrr o => csrOk o.num
  | .csrw o => csrOk o.num && !(o.num == 15)
  | .lsinv _ => true
  | .nop _ => true
  | .xinv o => decide (o.mode.toNat ≤ 1) && (o.mode == 0 || o.a == 0)
  | .asyncFaultTaken _ _ => true
  | .pointFire _ => true
  | .edgeMessage _ => true
  | .gateAddition _ => true
  | .sweepIdAssign _ => true
  | .taskStage _ => true
  | .planeSwap _ => true
  | .spill _ _ => true
  | .decrement _ => true
  | .loadResult _ _ _ => true
  | .postedWriteAck _ _ _ => true
  | .copyComplete _ => true
  | .matrixComplete _ => true
  | .mbrdReady _ => true
  | .lineFill _ _ => true
  | .copyEntry _ => true
  | .chainLoop _ => true
  | .chainIf _ => true
  | .chainTag _ => true
  | .chainEnd _ => true
  | .slotBoundary => true
  | .bookingSearch _ => true
  | .templateRetry _ => true
  | .tentativeHoldExpiry _ => true
  | .seniorHoldExpiry _ => true
  | .postponedExpiry _ => true
  | .deadlinePass _ => true
  | .commitTimeout _ => true
  | .prepareTimeout _ => true
  | .overrun _ _ => true
  | .unbookedOverrun _ _ => true
  | .bookPrepare _ => true
  | .bookGrant _ => true
  | .bookRefuse _ => true
  | .bookCommit _ => true
  | .bookConfirm _ => true
  | .bookAbort _ => true
  | .bookCancel _ => true
  | .bookLost _ => true
  | .walk _ _ _ _ => true
  | .faultPost _ => true
  | .ringPoll _ => true
  | .replyRetry _ _ => true
  | .replyFail _ _ => true
  | .homeAgentAccess _ _ _ _ => true
  | .peerAccess _ _ _ _ => true
  | .migrationCopyEnd _ => true
  | .migrationCopyFail _ => true
  | .unitStop _ _ => true
  | .thermalPoll _ => true
  | .freeze _ => true
  | .freezeSave _ => true
  | .flimKill _ => true
  | .worldSwitch _ _ => true
  | .actionSignal _ => true
  | .actionFput _ => true
  | .actionGate _ => true
  | .actionPost _ => true
  | .completionPost _ _ => true
  | .notify _ _ _ => true
  | .reconcile _ _ => true
  | .sweepCommand _ _ => true
  | .graphCommand _ _ => true
  | .nopCommand _ _ => true
  | .hostRdmaRead _ _ _ => true
  | .hostRdmaWrite _ _ _ => true
  | .hostRdmaAtomic _ _ _ _ _ => true
  | .fwDefine _ _ _ => true
  | .fwTeardown _ _ => true
  | .fwReset _ _ => true
  | .fwSchedule _ _ _ => true
  | .fwHostwin _ _ _ => true
  | .fwSpan _ _ _ _ => true
  | .fwWindow _ _ _ => true
  | .fwMigrate _ _ _ _ => true
  | .fwHalt _ _ => true
  | .fwResume _ _ => true
  | .fwStep _ _ _ _ => true
  | .fwDump _ _ _ _ _ => true
  | .fwLoad _ _ _ _ _ => true
  | .fwCounters _ _ _ => true
  | .fwAttest _ _ _ => true
  | .fwUpdate _ _ _ => true
  | .complexTakeover => true
  | .watchdogTakeover => true
  | .powerOn => true
  | .msgRead _ => true
  | .msgRdata _ => true
  | .msgWrite _ => true
  | .msgAck _ => true
  | .msgAtomic _ => true
  | .msgArsp _ => true
  | .msgMdadd _ => true
  | .msgGate _ => true
  | .msgFaulted _ => true
  | .msgNack _ => true
  | .msgTime _ => true
  | .msgTimeRsp _ => true
  | .timeProbe _ => true
  | .offsetExpiry _ => true
  | .requestRetransmit _ => true
  | .responseExpiry _ => true
  | .tidAllocate _ => true
  | .frameRetransmit _ => true
  | .portDown _ => true
  | .portUp _ => true
  | .kStep _ => true
  | .hostWindowResponse _ _ _ => true
  | .powerOff => true
  | .bootComplete _ => true

end Sys2Proof
end

