-- ==== Sys2Proof/Decode.lean ====
section
/-! DEFINITION. The decoder, total on any two words, and the encoder, both written from the encoding tables of
spec/06_encoding.md (R114 to R129). A format's decoder answers none where a bit the format fixes has another value. -/

namespace Sys2Proof

/-- Why words do not decode (R116): all of them raise ILLEGAL. -/
inductive DecErr where
  /-- OP is 0x00 or 0x7F (R116, step 2). -/
  | undefinedOp
  /-- X has a value the major does not admit (R116, step 3). -/
  | badX
  /-- A field the format requires to be 0 or fixed has another value (R116, step 4). -/
  | reservedField
  deriving DecidableEq, Repr

/-- Bits [hi:lo] of a word, as a field of width n = hi - lo + 1. -/
abbrev fld (w : IWord) (lo n : Nat) : BitVec n := w.extractLsb' lo n

/-! ### Formats: fields to words and words to fields -/

/-- The words of format Tri: TRI (R117): D, A, B, W. -/
def encTri (op : BitVec 7) (o : Tri) : IWord × Option IWord := (op ++ o.d ++ o.a ++ o.b ++ 0#1 ++ o.w ++ 0#1 ++ o.g, none)
/-- The fields of format Tri, where its fixed bits are right. -/
def decTri (w : IWord) : Option Tri :=
  if fld w 6 1 == 0 then
    some { d := fld w 19 6, a := fld w 13 6, b := fld w 7 6, w := fld w 5 1, g := fld w 0 4 }
  else none

/-- The words of format Sim: SIM (R117): D is also the first source; IMM12. -/
def encSim (op : BitVec 7) (o : Sim) : IWord × Option IWord := (op ++ o.d ++ o.imm ++ 1#1 ++ o.w ++ 0#1 ++ o.g, none)
/-- The fields of format Sim, where its fixed bits are right. -/
def decSim (w : IWord) : Option Sim :=
  if fld w 6 1 == 1 then
    some { d := fld w 19 6, imm := fld w 7 12, w := fld w 5 1, g := fld w 0 4 }
  else none

/-- The words of format Lim: LIM (R117): D, A, IMM32. -/
def encLim (op : BitVec 7) (o : Lim) : IWord × Option IWord :=
  (op ++ o.d ++ o.a ++ 0#6 ++ 1#1 ++ o.w ++ 1#1 ++ o.g, some (o.imm))
/-- The fields of format Lim, where its fixed bits are right. -/
def decLim (w : IWord) (w1 : IWord) : Option Lim :=
  if fld w 7 6 == 0 && fld w 6 1 == 1 then
    some { d := fld w 19 6, a := fld w 13 6, w := fld w 5 1, g := fld w 0 4, imm := fld w1 0 32 }
  else none

/-- The words of format Un: TRI with B = 0, I = 0 (R126): CLZ, POPC, MOV. -/
def encUn (op : BitVec 7) (o : Un) : IWord × Option IWord := (op ++ o.d ++ o.a ++ 0#6 ++ 0#1 ++ o.w ++ 0#1 ++ o.g, none)
/-- The fields of format Un, where its fixed bits are right. -/
def decUn (w : IWord) : Option Un :=
  if fld w 7 6 == 0 && fld w 6 1 == 0 then
    some { d := fld w 19 6, a := fld w 13 6, w := fld w 5 1, g := fld w 0 4 }
  else none

/-- The words of format LdiS: LDI, SIM form (R126). -/
def encLdiS (op : BitVec 7) (o : LdiS) : IWord × Option IWord := (op ++ o.d ++ o.imm ++ 2#2 ++ 0#1 ++ o.g, none)
/-- The fields of format LdiS, where its fixed bits are right. -/
def decLdiS (w : IWord) : Option LdiS :=
  if fld w 5 2 == 2 then
    some { d := fld w 19 6, imm := fld w 7 12, g := fld w 0 4 }
  else none

/-- The words of format LdiL: LDI, LIM form, and LDIH (R126). -/
def encLdiL (op : BitVec 7) (o : LdiL) : IWord × Option IWord :=
  (op ++ o.d ++ 0#12 ++ 2#2 ++ 1#1 ++ o.g, some (o.imm))
/-- The fields of format LdiL, where its fixed bits are right. -/
def decLdiL (w : IWord) (w1 : IWord) : Option LdiL :=
  if fld w 7 12 == 0 && fld w 5 2 == 2 then
    some { d := fld w 19 6, g := fld w 0 4, imm := fld w1 0 32 }
  else none

/-- The words of format BfR: BFX, BFXU, BFI with a register (R126). -/
def encBfR (op : BitVec 7) (o : BfR) : IWord × Option IWord := (op ++ o.d ++ o.a ++ o.b ++ 0#2 ++ 0#1 ++ o.g, none)
/-- The fields of format BfR, where its fixed bits are right. -/
def decBfR (w : IWord) : Option BfR :=
  if fld w 5 2 == 0 then
    some { d := fld w 19 6, a := fld w 13 6, b := fld w 7 6, g := fld w 0 4 }
  else none

/-- The words of format BfI: BFX, BFXU, BFI with constants (R126): LEN - 1 and POS. -/
def encBfI (op : BitVec 7) (o : BfI) : IWord × Option IWord :=
  (op ++ o.d ++ o.a ++ 0#6 ++ 2#2 ++ 1#1 ++ o.g, some (0#20 ++ o.len ++ o.pos))
/-- The fields of format BfI, where its fixed bits are right. -/
def decBfI (w : IWord) (w1 : IWord) : Option BfI :=
  if fld w 7 6 == 0 && fld w 5 2 == 2 && fld w1 12 20 == 0 then
    some { d := fld w 19 6, a := fld w 13 6, g := fld w 0 4, len := fld w1 6 6, pos := fld w1 0 6 }
  else none

/-- The words of format Sel: SEL (R126): word 1 [3:0] names the selecting predicate. -/
def encSel (op : BitVec 7) (o : Sel) : IWord × Option IWord :=
  (op ++ o.d ++ o.a ++ o.b ++ 0#2 ++ 1#1 ++ o.g, some (0#28 ++ o.sp))
/-- The fields of format Sel, where its fixed bits are right. -/
def decSel (w : IWord) (w1 : IWord) : Option Sel :=
  if fld w 5 2 == 0 && fld w1 4 28 == 0 then
    some { d := fld w 19 6, a := fld w 13 6, b := fld w 7 6, g := fld w 0 4, sp := fld w1 0 4 }
  else none

/-- The words of format CmpR: PRC, X = 0 (R118). -/
def encCmpR (op : BitVec 7) (o : CmpR) : IWord × Option IWord := (op ++ o.pd ++ o.pq ++ o.a ++ o.b ++ o.cc ++ 0#1 ++ o.g, none)
/-- The fields of format CmpR, where its fixed bits are right. -/
def decCmpR (w : IWord) : Option CmpR :=
  some { pd := fld w 22 3, pq := fld w 19 3, a := fld w 13 6, b := fld w 7 6, cc := fld w 5 2, g := fld w 0 4 }

/-- The words of format CmpI: PRC, X = 1 (R118). -/
def encCmpI (op : BitVec 7) (o : CmpI) : IWord × Option IWord :=
  (op ++ o.pd ++ o.pq ++ o.a ++ 0#6 ++ o.cc ++ 1#1 ++ o.g, some (o.imm))
/-- The fields of format CmpI, where its fixed bits are right. -/
def decCmpI (w : IWord) (w1 : IWord) : Option CmpI :=
  if fld w 7 6 == 0 then
    some { pd := fld w 22 3, pq := fld w 19 3, a := fld w 13 6, cc := fld w 5 2, g := fld w 0 4, imm := fld w1 0 32 }
  else none

/-- The words of format Log: LOG (R118). -/
def encLog (op : BitVec 7) (o : Log) : IWord × Option IWord := (op ++ o.d ++ o.a ++ o.b ++ o.na ++ o.nb ++ 0#9 ++ 0#1 ++ o.g, none)
/-- The fields of format Log, where its fixed bits are right. -/
def decLog (w : IWord) : Option Log :=
  if fld w 5 9 == 0 then
    some { d := fld w 22 3, a := fld w 19 3, b := fld w 16 3, na := fld w 15 1, nb := fld w 14 1, g := fld w 0 4 }
  else none

/-- The words of format LogN: LOG of PNOT and MNOT (R118). -/
def encLogN (op : BitVec 7) (o : LogN) : IWord × Option IWord := (op ++ o.d ++ o.a ++ 0#14 ++ 0#1 ++ o.g, none)
/-- The fields of format LogN, where its fixed bits are right. -/
def decLogN (w : IWord) : Option LogN :=
  if fld w 5 14 == 0 then
    some { d := fld w 22 3, a := fld w 19 3, g := fld w 0 4 }
  else none

/-- The words of format Br: BR (R119): OFF20. -/
def encBr (op : BitVec 7) (o : Br) : IWord × Option IWord := (op ++ o.off ++ 0#1 ++ o.g, none)
/-- The fields of format Br, where its fixed bits are right. -/
def decBr (w : IWord) : Option Br :=
  some { off := fld w 5 20, g := fld w 0 4 }

/-- The words of format Jmp: JMP and LOOP (R119): A. -/
def encJmp (op : BitVec 7) (o : Jmp) : IWord × Option IWord := (op ++ o.a ++ 0#14 ++ 0#1 ++ o.g, none)
/-- The fields of format Jmp, where its fixed bits are right. -/
def decJmp (w : IWord) : Option Jmp :=
  if fld w 5 14 == 0 then
    some { a := fld w 19 6, g := fld w 0 4 }
  else none

/-- The words of format CallR: CALL, RF = 0 (R119): OFF19. -/
def encCallR (op : BitVec 7) (o : CallR) : IWord × Option IWord := (op ++ 0#1 ++ o.off ++ 0#1 ++ o.g, none)
/-- The fields of format CallR, where its fixed bits are right. -/
def decCallR (w : IWord) : Option CallR :=
  if fld w 24 1 == 0 then
    some { off := fld w 5 19, g := fld w 0 4 }
  else none

/-- The words of format CallG: CALL, RF = 1 (R119): A. -/
def encCallG (op : BitVec 7) (o : CallG) : IWord × Option IWord := (op ++ 1#1 ++ o.a ++ 0#13 ++ 0#1 ++ o.g, none)
/-- The fields of format CallG, where its fixed bits are right. -/
def decCallG (w : IWord) : Option CallG :=
  if fld w 24 1 == 1 && fld w 5 13 == 0 then
    some { a := fld w 18 6, g := fld w 0 4 }
  else none

/-- The words of format G0: No operand but the guard: RET, SUSP, EXIT, NOP (R119, R127). -/
def encG0 (op : BitVec 7) (o : G0) : IWord × Option IWord := (op ++ 0#20 ++ 0#1 ++ o.g, none)
/-- The fields of format G0, where its fixed bits are right. -/
def decG0 (w : IWord) : Option G0 :=
  if fld w 5 20 == 0 then
    some { g := fld w 0 4 }
  else none

/-- The words of format LoopM: LOOPM (R119): A, NS. -/
def encLoopM (op : BitVec 7) (o : LoopM) : IWord × Option IWord := (op ++ o.a ++ o.ns ++ 0#12 ++ 0#1 ++ o.g, none)
/-- The fields of format LoopM, where its fixed bits are right. -/
def decLoopM (w : IWord) : Option LoopM :=
  if fld w 5 12 == 0 then
    some { a := fld w 19 6, ns := fld w 17 2, g := fld w 0 4 }
  else none

/-- The words of format Ld0: LD, X = 0 (R120). -/
def encLd0 (op : BitVec 7) (o : Ld0) : IWord × Option IWord := (op ++ o.d ++ o.a ++ o.sz ++ o.cl ++ o.s ++ 0#1 ++ 0#1 ++ o.g, none)
/-- The fields of format Ld0, where its fixed bits are right. -/
def decLd0 (w : IWord) : Option Ld0 :=
  if fld w 5 1 == 0 then
    some { d := fld w 19 6, a := fld w 13 6, sz := fld w 11 2, cl := fld w 7 4, s := fld w 6 1, g := fld w 0 4 }
  else none

/-- The words of format Ld1: LD, X = 1 (R120). -/
def encLd1 (op : BitVec 7) (o : Ld1) : IWord × Option IWord :=
  (op ++ o.d ++ o.a ++ o.sz ++ o.cl ++ o.s ++ 0#1 ++ 1#1 ++ o.g, some (o.ar ++ o.scp ++ 0#3 ++ o.off))
/-- The fields of format Ld1, where its fixed bits are right. -/
def decLd1 (w : IWord) (w1 : IWord) : Option Ld1 :=
  if fld w 5 1 == 0 && fld w1 24 3 == 0 then
    some { d := fld w 19 6, a := fld w 13 6, sz := fld w 11 2, cl := fld w 7 4, s := fld w 6 1, g := fld w 0 4, ar := fld w1 30 2, scp := fld w1 27 3, off := fld w1 0 24 }
  else none

/-- The words of format St0: ST, X = 0 (R120). -/
def encSt0 (op : BitVec 7) (o : St0) : IWord × Option IWord := (op ++ o.d ++ o.a ++ o.sz ++ o.cl ++ 0#2 ++ 0#1 ++ o.g, none)
/-- The fields of format St0, where its fixed bits are right. -/
def decSt0 (w : IWord) : Option St0 :=
  if fld w 5 2 == 0 then
    some { d := fld w 19 6, a := fld w 13 6, sz := fld w 11 2, cl := fld w 7 4, g := fld w 0 4 }
  else none

/-- The words of format St1: ST, X = 1 (R120). -/
def encSt1 (op : BitVec 7) (o : St1) : IWord × Option IWord :=
  (op ++ o.d ++ o.a ++ o.sz ++ o.cl ++ 0#2 ++ 1#1 ++ o.g, some (o.ar ++ o.scp ++ 0#3 ++ o.off))
/-- The fields of format St1, where its fixed bits are right. -/
def decSt1 (w : IWord) (w1 : IWord) : Option St1 :=
  if fld w 5 2 == 0 && fld w1 24 3 == 0 then
    some { d := fld w 19 6, a := fld w 13 6, sz := fld w 11 2, cl := fld w 7 4, g := fld w 0 4, ar := fld w1 30 2, scp := fld w1 27 3, off := fld w1 0 24 }
  else none

/-- The words of format Sec: LDSEC and STSEC (R120): v register, MR, OFF18. -/
def encSec (op : BitVec 7) (o : Sec) : IWord × Option IWord :=
  (op ++ 0#1 ++ o.v ++ o.a ++ 0#2 ++ o.cl ++ 0#2 ++ 1#1 ++ o.g, some (o.ar ++ o.scp ++ 0#3 ++ o.mr ++ o.off))
/-- The fields of format Sec, where its fixed bits are right. -/
def decSec (w : IWord) (w1 : IWord) : Option Sec :=
  if fld w 24 1 == 0 && fld w 11 2 == 0 && fld w 5 2 == 0 && fld w1 24 3 == 0 then
    some { v := fld w 19 5, a := fld w 13 6, cl := fld w 7 4, g := fld w 0 4, ar := fld w1 30 2, scp := fld w1 27 3, mr := fld w1 18 6, off := fld w1 0 18 }
  else none

/-- The words of format Amo: AMO (R121). -/
def encAmo (op : BitVec 7) (o : Amo) : IWord × Option IWord :=
  (op ++ o.d ++ o.a ++ 3#2 ++ o.cl ++ 0#2 ++ 1#1 ++ o.g, some (o.ar ++ o.scp ++ o.aop ++ o.b ++ 0#6 ++ o.off))
/-- The fields of format Amo, where its fixed bits are right. -/
def decAmo (w : IWord) (w1 : IWord) : Option Amo :=
  if fld w 11 2 == 3 && fld w 5 2 == 0 && fld w1 11 6 == 0 then
    some { d := fld w 19 6, a := fld w 13 6, cl := fld w 7 4, g := fld w 0 4, ar := fld w1 30 2, scp := fld w1 27 3, aop := fld w1 23 4, b := fld w1 17 6, off := fld w1 0 11 }
  else none

/-- The words of format Cas: CAS (R121). -/
def encCas (op : BitVec 7) (o : Cas) : IWord × Option IWord :=
  (op ++ o.d ++ o.a ++ 3#2 ++ o.cl ++ 0#2 ++ 1#1 ++ o.g, some (o.ar ++ o.scp ++ 0#4 ++ o.b ++ o.c ++ o.off))
/-- The fields of format Cas, where its fixed bits are right. -/
def decCas (w : IWord) (w1 : IWord) : Option Cas :=
  if fld w 11 2 == 3 && fld w 5 2 == 0 && fld w1 23 4 == 0 then
    some { d := fld w 19 6, a := fld w 13 6, cl := fld w 7 4, g := fld w 0 4, ar := fld w1 30 2, scp := fld w1 27 3, b := fld w1 17 6, c := fld w1 11 6, off := fld w1 0 11 }
  else none

/-- The words of format Bput: BPUT (R121). -/
def encBput (op : BitVec 7) (o : Bput) : IWord × Option IWord :=
  (op ++ 0#6 ++ o.a ++ 3#2 ++ o.cl ++ 0#2 ++ 1#1 ++ o.g, some (o.ar ++ o.scp ++ o.aop ++ o.b ++ 0#6 ++ o.off))
/-- The fields of format Bput, where its fixed bits are right. -/
def decBput (w : IWord) (w1 : IWord) : Option Bput :=
  if fld w 19 6 == 0 && fld w 11 2 == 3 && fld w 5 2 == 0 && fld w1 11 6 == 0 then
    some { a := fld w 13 6, cl := fld w 7 4, g := fld w 0 4, ar := fld w1 30 2, scp := fld w1 27 3, aop := fld w1 23 4, b := fld w1 17 6, off := fld w1 0 11 }
  else none

/-- The words of format Fence: FENCE (R127): class mask, SCP. -/
def encFence (op : BitVec 7) (o : Fence) : IWord × Option IWord := (op ++ o.m ++ o.scp ++ 0#1 ++ 0#1 ++ o.g, none)
/-- The fields of format Fence, where its fixed bits are right. -/
def decFence (w : IWord) : Option Fence :=
  if fld w 5 1 == 0 then
    some { m := fld w 9 16, scp := fld w 6 3, g := fld w 0 4 }
  else none

/-- The words of format Flushp: FLUSHP (R127): SCP. -/
def encFlushp (op : BitVec 7) (o : Flushp) : IWord × Option IWord := (op ++ 0#16 ++ o.scp ++ 0#1 ++ 0#1 ++ o.g, none)
/-- The fields of format Flushp, where its fixed bits are right. -/
def decFlushp (w : IWord) : Option Flushp :=
  if fld w 9 16 == 0 && fld w 5 1 == 0 then
    some { scp := fld w 6 3, g := fld w 0 4 }
  else none

/-- The words of format DA: Small format with D and A (R127). -/
def encDA (op : BitVec 7) (o : DA) : IWord × Option IWord := (op ++ o.d ++ o.a ++ 0#8 ++ 0#1 ++ o.g, none)
/-- The fields of format DA, where its fixed bits are right. -/
def decDA (w : IWord) : Option DA :=
  if fld w 5 8 == 0 then
    some { d := fld w 19 6, a := fld w 13 6, g := fld w 0 4 }
  else none

/-- The words of format A1: Small format with A alone (R127). -/
def encA1 (op : BitVec 7) (o : A1) : IWord × Option IWord := (op ++ 0#6 ++ o.a ++ 0#8 ++ 0#1 ++ o.g, none)
/-- The fields of format A1, where its fixed bits are right. -/
def decA1 (w : IWord) : Option A1 :=
  if fld w 19 6 == 0 && fld w 5 8 == 0 then
    some { a := fld w 13 6, g := fld w 0 4 }
  else none

/-- The words of format WaitI: WAIT, X = 1 (R127): thresholds laid out as sr.oc. -/
def encWaitI (op : BitVec 7) (o : WaitI) : IWord × Option IWord :=
  (op ++ 0#20 ++ 1#1 ++ o.g, some (0#8 ++ o.mxc ++ o.cpc ++ o.stc ++ o.ldc))
/-- The fields of format WaitI, where its fixed bits are right. -/
def decWaitI (w : IWord) (w1 : IWord) : Option WaitI :=
  if fld w 5 20 == 0 && fld w1 24 8 == 0 then
    some { g := fld w 0 4, mxc := fld w1 18 6, cpc := fld w1 12 6, stc := fld w1 6 6, ldc := fld w1 0 6 }
  else none

/-- The words of format Vld0: VLD, X = 0 (R123). -/
def encVld0 (op : BitVec 7) (o : Vld0) : IWord × Option IWord := (op ++ o.v ++ o.a ++ o.lay ++ o.cl ++ 0#2 ++ 0#1 ++ o.g, none)
/-- The fields of format Vld0, where its fixed bits are right. -/
def decVld0 (w : IWord) : Option Vld0 :=
  if fld w 5 2 == 0 then
    some { v := fld w 20 5, a := fld w 14 6, lay := fld w 11 3, cl := fld w 7 4, g := fld w 0 4 }
  else none

/-- The words of format Vst0: VST, X = 0 (R123). -/
def encVst0 (op : BitVec 7) (o : Vst0) : IWord × Option IWord := (op ++ o.v ++ o.a ++ 0#3 ++ o.cl ++ 0#2 ++ 0#1 ++ o.g, none)
/-- The fields of format Vst0, where its fixed bits are right. -/
def decVst0 (w : IWord) : Option Vst0 :=
  if fld w 11 3 == 0 && fld w 5 2 == 0 then
    some { v := fld w 20 5, a := fld w 14 6, cl := fld w 7 4, g := fld w 0 4 }
  else none

/-- The words of format Vld1: VLD, X = 1 (R123, R120). -/
def encVld1 (op : BitVec 7) (o : Vld1) : IWord × Option IWord :=
  (op ++ o.v ++ o.a ++ o.lay ++ o.cl ++ 0#2 ++ 1#1 ++ o.g, some (o.ar ++ o.scp ++ 0#3 ++ o.off))
/-- The fields of format Vld1, where its fixed bits are right. -/
def decVld1 (w : IWord) (w1 : IWord) : Option Vld1 :=
  if fld w 5 2 == 0 && fld w1 24 3 == 0 then
    some { v := fld w 20 5, a := fld w 14 6, lay := fld w 11 3, cl := fld w 7 4, g := fld w 0 4, ar := fld w1 30 2, scp := fld w1 27 3, off := fld w1 0 24 }
  else none

/-- The words of format Vst1: VST, X = 1 (R123, R120). -/
def encVst1 (op : BitVec 7) (o : Vst1) : IWord × Option IWord :=
  (op ++ o.v ++ o.a ++ 0#3 ++ o.cl ++ 0#2 ++ 1#1 ++ o.g, some (o.ar ++ o.scp ++ 0#3 ++ o.off))
/-- The fields of format Vst1, where its fixed bits are right. -/
def decVst1 (w : IWord) (w1 : IWord) : Option Vst1 :=
  if fld w 11 3 == 0 && fld w 5 2 == 0 && fld w1 24 3 == 0 then
    some { v := fld w 20 5, a := fld w 14 6, cl := fld w 7 4, g := fld w 0 4, ar := fld w1 30 2, scp := fld w1 27 3, off := fld w1 0 24 }
  else none

/-- The words of format Vgs: VGATH and VSCAT (R123). -/
def encVgs (op : BitVec 7) (o : Vgs) : IWord × Option IWord :=
  (op ++ o.v ++ o.a ++ 0#3 ++ o.cl ++ 0#2 ++ 1#1 ++ o.g, some (o.ar ++ o.scp ++ o.vx ++ o.esz ++ o.shf ++ 0#18))
/-- The fields of format Vgs, where its fixed bits are right. -/
def decVgs (w : IWord) (w1 : IWord) : Option Vgs :=
  if fld w 11 3 == 0 && fld w 5 2 == 0 && fld w1 0 18 == 0 then
    some { v := fld w 20 5, a := fld w 14 6, cl := fld w 7 4, g := fld w 0 4, ar := fld w1 30 2, scp := fld w1 27 3, vx := fld w1 22 5, esz := fld w1 20 2, shf := fld w1 18 2 }
  else none

/-- The words of format V0: Vector, three registers, X = 0 (R122). -/
def encV0 (op : BitVec 7) (o : V0) : IWord × Option IWord := (op ++ o.vd ++ o.va ++ o.vb ++ o.ty ++ 0#1 ++ 0#1 ++ o.g, none)
/-- The fields of format V0, where its fixed bits are right. -/
def decV0 (w : IWord) : Option V0 :=
  if fld w 5 1 == 0 then
    some { vd := fld w 20 5, va := fld w 15 5, vb := fld w 10 5, ty := fld w 6 4, g := fld w 0 4 }
  else none

/-- The words of format V1: Vector, X = 1 with RM, SAT, GS, SC (R122). -/
def encV1 (op : BitVec 7) (o : V1) : IWord × Option IWord :=
  (op ++ o.vd ++ o.va ++ o.vb ++ o.ty ++ 0#1 ++ 1#1 ++ o.g, some (0#5 ++ o.rm ++ o.sat ++ o.gs ++ o.sc ++ 0#16))
/-- The fields of format V1, where its fixed bits are right. -/
def decV1 (w : IWord) (w1 : IWord) : Option V1 :=
  if fld w 5 1 == 0 && fld w1 27 5 == 0 && fld w1 0 16 == 0 then
    some { vd := fld w 20 5, va := fld w 15 5, vb := fld w 10 5, ty := fld w 6 4, g := fld w 0 4, rm := fld w1 24 3, sat := fld w1 23 1, gs := fld w1 17 6, sc := fld w1 16 1 }
  else none

/-- The words of format Fma: VFMA, VFMS, VFNMA (R128): VC is the addend. -/
def encFma (op : BitVec 7) (o : Fma) : IWord × Option IWord :=
  (op ++ o.vd ++ o.va ++ o.vb ++ o.ty ++ 0#1 ++ 1#1 ++ o.g, some (o.vc ++ o.rm ++ 0#1 ++ o.gs ++ o.sc ++ 0#16))
/-- The fields of format Fma, where its fixed bits are right. -/
def decFma (w : IWord) (w1 : IWord) : Option Fma :=
  if fld w 5 1 == 0 && fld w1 23 1 == 0 && fld w1 0 16 == 0 then
    some { vd := fld w 20 5, va := fld w 15 5, vb := fld w 10 5, ty := fld w 6 4, g := fld w 0 4, vc := fld w1 27 5, rm := fld w1 24 3, gs := fld w1 17 6, sc := fld w1 16 1 }
  else none

/-- The words of format Vdiv1: VDIV, X = 1 (R128): RM, SC, GS. -/
def encVdiv1 (op : BitVec 7) (o : Vdiv1) : IWord × Option IWord :=
  (op ++ o.vd ++ o.va ++ o.vb ++ o.ty ++ 0#1 ++ 1#1 ++ o.g, some (0#5 ++ o.rm ++ 0#1 ++ o.gs ++ o.sc ++ 0#16))
/-- The fields of format Vdiv1, where its fixed bits are right. -/
def decVdiv1 (w : IWord) (w1 : IWord) : Option Vdiv1 :=
  if fld w 5 1 == 0 && fld w1 27 5 == 0 && fld w1 23 1 == 0 && fld w1 0 16 == 0 then
    some { vd := fld w 20 5, va := fld w 15 5, vb := fld w 10 5, ty := fld w 6 4, g := fld w 0 4, rm := fld w1 24 3, gs := fld w1 17 6, sc := fld w1 16 1 }
  else none

/-- The words of format Vu0: Vector, one source, X = 0 (R128). -/
def encVu0 (op : BitVec 7) (o : Vu0) : IWord × Option IWord := (op ++ o.vd ++ o.va ++ 0#5 ++ o.ty ++ 0#1 ++ 0#1 ++ o.g, none)
/-- The fields of format Vu0, where its fixed bits are right. -/
def decVu0 (w : IWord) : Option Vu0 :=
  if fld w 10 5 == 0 && fld w 5 1 == 0 then
    some { vd := fld w 20 5, va := fld w 15 5, ty := fld w 6 4, g := fld w 0 4 }
  else none

/-- The words of format Vsq1: VSQRT, X = 1 (R128): RM. -/
def encVsq1 (op : BitVec 7) (o : Vsq1) : IWord × Option IWord :=
  (op ++ o.vd ++ o.va ++ 0#5 ++ o.ty ++ 0#1 ++ 1#1 ++ o.g, some (0#5 ++ o.rm ++ 0#24))
/-- The fields of format Vsq1, where its fixed bits are right. -/
def decVsq1 (w : IWord) (w1 : IWord) : Option Vsq1 :=
  if fld w 10 5 == 0 && fld w 5 1 == 0 && fld w1 27 5 == 0 && fld w1 0 24 == 0 then
    some { vd := fld w 20 5, va := fld w 15 5, ty := fld w 6 4, g := fld w 0 4, rm := fld w1 24 3 }
  else none

/-- The words of format Vab1: VABS and VNEG, X = 1 (R128): SAT. -/
def encVab1 (op : BitVec 7) (o : Vab1) : IWord × Option IWord :=
  (op ++ o.vd ++ o.va ++ 0#5 ++ o.ty ++ 0#1 ++ 1#1 ++ o.g, some (0#8 ++ o.sat ++ 0#23))
/-- The fields of format Vab1, where its fixed bits are right. -/
def decVab1 (w : IWord) (w1 : IWord) : Option Vab1 :=
  if fld w 10 5 == 0 && fld w 5 1 == 0 && fld w1 24 8 == 0 && fld w1 0 23 == 0 then
    some { vd := fld w 20 5, va := fld w 15 5, ty := fld w 6 4, g := fld w 0 4, sat := fld w1 23 1 }
  else none

/-- The words of format Vmm: VMIN and VMAX (R128), X = 0, or X = 1 with a word 1 of 0. -/
def encVmm (op : BitVec 7) (o : Vmm) : IWord × Option IWord :=
  (op ++ o.vd ++ o.va ++ o.vb ++ o.ty ++ o.v1 ++ o.x ++ o.g, if o.x = 1 then some 0 else none)
/-- The fields of format Vmm, where its fixed bits are right. -/
def decVmm (w : IWord) (w1 : IWord) : Option Vmm :=
  if fld w1 0 32 == 0 then
    some { vd := fld w 20 5, va := fld w 15 5, vb := fld w 10 5, ty := fld w 6 4, v1 := fld w 5 1, x := fld w 4 1, g := fld w 0 4 }
  else none

/-- The words of format Vcmp: VCMP (R123). -/
def encVcmp (op : BitVec 7) (o : Vcmp) : IWord × Option IWord :=
  (op ++ o.md ++ o.mq ++ o.va ++ o.vb ++ o.ty ++ 1#1 ++ o.g, some (0#9 ++ o.gs ++ o.sc ++ 0#13 ++ o.cond))
/-- The fields of format Vcmp, where its fixed bits are right. -/
def decVcmp (w : IWord) (w1 : IWord) : Option Vcmp :=
  if fld w1 23 9 == 0 && fld w1 3 13 == 0 then
    some { md := fld w 22 3, mq := fld w 19 3, va := fld w 14 5, vb := fld w 9 5, ty := fld w 5 4, g := fld w 0 4, gs := fld w1 17 6, sc := fld w1 16 1, cond := fld w1 0 3 }
  else none

/-- The words of format Vsel: VSEL (R128): IMM16[2:0] names the mask. -/
def encVsel (op : BitVec 7) (o : Vsel) : IWord × Option IWord :=
  (op ++ o.vd ++ o.va ++ o.vb ++ 0#5 ++ 1#1 ++ o.g, some (0#29 ++ o.ms))
/-- The fields of format Vsel, where its fixed bits are right. -/
def decVsel (w : IWord) (w1 : IWord) : Option Vsel :=
  if fld w 5 5 == 0 && fld w1 3 29 == 0 then
    some { vd := fld w 20 5, va := fld w 15 5, vb := fld w 10 5, g := fld w 0 4, ms := fld w1 0 3 }
  else none

/-- The words of format Vl0: VAND, VOR, VXOR, X = 0 (R128). -/
def encVl0 (op : BitVec 7) (o : Vl0) : IWord × Option IWord := (op ++ o.vd ++ o.va ++ o.vb ++ 0#5 ++ 0#1 ++ o.g, none)
/-- The fields of format Vl0, where its fixed bits are right. -/
def decVl0 (w : IWord) : Option Vl0 :=
  if fld w 5 5 == 0 then
    some { vd := fld w 20 5, va := fld w 15 5, vb := fld w 10 5, g := fld w 0 4 }
  else none

/-- The words of format Vl1: VAND, VOR, VXOR, X = 1 (R128): SC, GS. -/
def encVl1 (op : BitVec 7) (o : Vl1) : IWord × Option IWord :=
  (op ++ o.vd ++ o.va ++ o.vb ++ 0#5 ++ 1#1 ++ o.g, some (0#9 ++ o.gs ++ o.sc ++ 0#16))
/-- The fields of format Vl1, where its fixed bits are right. -/
def decVl1 (w : IWord) (w1 : IWord) : Option Vl1 :=
  if fld w 5 5 == 0 && fld w1 23 9 == 0 && fld w1 0 16 == 0 then
    some { vd := fld w 20 5, va := fld w 15 5, vb := fld w 10 5, g := fld w 0 4, gs := fld w1 17 6, sc := fld w1 16 1 }
  else none

/-- The words of format Vsh: VSHL, VSHR, VSAR with counts from VB, and VPERM (R128), X = 0, or X = 1 with a word 1 of 0. -/
def encVsh (op : BitVec 7) (o : Vsh) : IWord × Option IWord :=
  (op ++ o.vd ++ o.va ++ o.vb ++ o.ty ++ 0#1 ++ o.x ++ o.g, if o.x = 1 then some 0 else none)
/-- The fields of format Vsh, where its fixed bits are right. -/
def decVsh (w : IWord) (w1 : IWord) : Option Vsh :=
  if fld w 5 1 == 0 && fld w1 0 32 == 0 then
    some { vd := fld w 20 5, va := fld w 15 5, vb := fld w 10 5, ty := fld w 6 4, x := fld w 4 1, g := fld w 0 4 }
  else none

/-- The words of format VshI: VSHL, VSHR, VSAR, V1 = 1 (R128): the count is IMM16[5:0]. -/
def encVshI (op : BitVec 7) (o : VshI) : IWord × Option IWord :=
  (op ++ o.vd ++ o.va ++ 0#5 ++ o.ty ++ 1#1 ++ 1#1 ++ o.g, some (0#26 ++ o.cnt))
/-- The fields of format VshI, where its fixed bits are right. -/
def decVshI (w : IWord) (w1 : IWord) : Option VshI :=
  if fld w 10 5 == 0 && fld w 5 1 == 1 && fld w1 6 26 == 0 then
    some { vd := fld w 20 5, va := fld w 15 5, ty := fld w 6 4, g := fld w 0 4, cnt := fld w1 0 6 }
  else none

/-- The words of format Vcvt: VCVT (R128): RM, SAT, source type. -/
def encVcvt (op : BitVec 7) (o : Vcvt) : IWord × Option IWord :=
  (op ++ o.vd ++ o.va ++ 0#5 ++ o.ty ++ 0#1 ++ 1#1 ++ o.g, some (0#5 ++ o.rm ++ o.sat ++ 0#19 ++ o.src))
/-- The fields of format Vcvt, where its fixed bits are right. -/
def decVcvt (w : IWord) (w1 : IWord) : Option Vcvt :=
  if fld w 10 5 == 0 && fld w 5 1 == 0 && fld w1 27 5 == 0 && fld w1 4 19 == 0 then
    some { vd := fld w 20 5, va := fld w 15 5, ty := fld w 6 4, g := fld w 0 4, rm := fld w1 24 3, sat := fld w1 23 1, src := fld w1 0 4 }
  else none

/-- The words of format Vred1: VRED and VSCAN, X = 1 (R128): the operation. -/
def encVred1 (op : BitVec 7) (o : Vred1) : IWord × Option IWord :=
  (op ++ o.vd ++ o.va ++ 0#5 ++ o.ty ++ 0#1 ++ 1#1 ++ o.g, some (0#29 ++ o.rop))
/-- The fields of format Vred1, where its fixed bits are right. -/
def decVred1 (w : IWord) (w1 : IWord) : Option Vred1 :=
  if fld w 10 5 == 0 && fld w 5 1 == 0 && fld w1 3 29 == 0 then
    some { vd := fld w 20 5, va := fld w 15 5, ty := fld w 6 4, g := fld w 0 4, rop := fld w1 0 3 }
  else none

/-- The words of format VbcS: VBCAST, SC = 1 (R128). -/
def encVbcS (op : BitVec 7) (o : VbcS) : IWord × Option IWord :=
  (op ++ o.vd ++ 0#10 ++ o.ty ++ 0#1 ++ 1#1 ++ o.g, some (0#9 ++ o.gs ++ 1#1 ++ 0#16))
/-- The fields of format VbcS, where its fixed bits are right. -/
def decVbcS (w : IWord) (w1 : IWord) : Option VbcS :=
  if fld w 10 10 == 0 && fld w 5 1 == 0 && fld w1 23 9 == 0 && fld w1 16 1 == 1 && fld w1 0 16 == 0 then
    some { vd := fld w 20 5, ty := fld w 6 4, g := fld w 0 4, gs := fld w1 17 6 }
  else none

/-- The words of format VbcE: VBCAST, SC = 0 (R128): element IMM16[6:0] of VA. -/
def encVbcE (op : BitVec 7) (o : VbcE) : IWord × Option IWord :=
  (op ++ o.vd ++ o.va ++ 0#5 ++ o.ty ++ 0#1 ++ 1#1 ++ o.g, some (0#25 ++ o.el))
/-- The fields of format VbcE, where its fixed bits are right. -/
def decVbcE (w : IWord) (w1 : IWord) : Option VbcE :=
  if fld w 10 5 == 0 && fld w 5 1 == 0 && fld w1 7 25 == 0 then
    some { vd := fld w 20 5, va := fld w 15 5, ty := fld w 6 4, g := fld w 0 4, el := fld w1 0 7 }
  else none

/-- The words of format Vext: VEXT (R128). -/
def encVext (op : BitVec 7) (o : Vext) : IWord × Option IWord :=
  (op ++ 0#5 ++ o.va ++ 0#5 ++ o.ty ++ 0#1 ++ 1#1 ++ o.g, some (0#9 ++ o.gs ++ 0#10 ++ o.el))
/-- The fields of format Vext, where its fixed bits are right. -/
def decVext (w : IWord) (w1 : IWord) : Option Vext :=
  if fld w 20 5 == 0 && fld w 10 5 == 0 && fld w 5 1 == 0 && fld w1 23 9 == 0 && fld w1 7 10 == 0 then
    some { va := fld w 15 5, ty := fld w 6 4, g := fld w 0 4, gs := fld w1 17 6, el := fld w1 0 7 }
  else none

/-- The words of format Vslide: VSLIDE (R128): distance, V1 the direction. -/
def encVslide (op : BitVec 7) (o : Vslide) : IWord × Option IWord :=
  (op ++ o.vd ++ o.va ++ o.vb ++ o.ty ++ o.v1 ++ 1#1 ++ o.g, some (0#25 ++ o.dist))
/-- The fields of format Vslide, where its fixed bits are right. -/
def decVslide (w : IWord) (w1 : IWord) : Option Vslide :=
  if fld w1 7 25 == 0 then
    some { vd := fld w 20 5, va := fld w 15 5, vb := fld w 10 5, ty := fld w 6 4, v1 := fld w 5 1, g := fld w 0 4, dist := fld w1 0 7 }
  else none

/-- The words of format Vcls: VCLASS (R128), X = 0, or X = 1 with a word 1 of 0. -/
def encVcls (op : BitVec 7) (o : Vcls) : IWord × Option IWord :=
  (op ++ o.vd ++ o.va ++ 0#5 ++ o.ty ++ 0#1 ++ o.x ++ o.g, if o.x = 1 then some 0 else none)
/-- The fields of format Vcls, where its fixed bits are right. -/
def decVcls (w : IWord) (w1 : IWord) : Option Vcls :=
  if fld w 10 5 == 0 && fld w 5 1 == 0 && fld w1 0 32 == 0 then
    some { vd := fld w 20 5, va := fld w 15 5, ty := fld w 6 4, x := fld w 4 1, g := fld w 0 4 }
  else none

/-- The words of format Vsplit: VSPLIT (R128, R445): t, s - 1, GS. -/
def encVsplit (op : BitVec 7) (o : Vsplit) : IWord × Option IWord :=
  (op ++ o.vd ++ o.va ++ o.vb ++ 0#5 ++ 1#1 ++ o.g, some (0#9 ++ o.gs ++ 0#11 ++ o.s1 ++ o.t))
/-- The fields of format Vsplit, where its fixed bits are right. -/
def decVsplit (w : IWord) (w1 : IWord) : Option Vsplit :=
  if fld w 5 5 == 0 && fld w1 23 9 == 0 && fld w1 6 11 == 0 then
    some { vd := fld w 20 5, va := fld w 15 5, vb := fld w 10 5, g := fld w 0 4, gs := fld w1 17 6, s1 := fld w1 3 3, t := fld w1 0 3 }
  else none

/-- The words of format Vjoin: VJOIN (R128, R428): VC, l, s - 1. -/
def encVjoin (op : BitVec 7) (o : Vjoin) : IWord × Option IWord :=
  (op ++ o.vd ++ o.va ++ o.vb ++ 0#5 ++ 1#1 ++ o.g, some (o.vc ++ 0#20 ++ o.s1 ++ o.lv))
/-- The fields of format Vjoin, where its fixed bits are right. -/
def decVjoin (w : IWord) (w1 : IWord) : Option Vjoin :=
  if fld w 5 5 == 0 && fld w1 7 20 == 0 then
    some { vd := fld w 20 5, va := fld w 15 5, vb := fld w 10 5, g := fld w 0 4, vc := fld w1 27 5, s1 := fld w1 4 3, lv := fld w1 0 4 }
  else none

/-- The words of format Pack: VPACK4 (R128, R434): RM, SAT, block type. -/
def encPack (op : BitVec 7) (o : Pack) : IWord × Option IWord :=
  (op ++ o.vd ++ o.va ++ 0#5 ++ o.ty ++ 0#1 ++ 1#1 ++ o.g, some (0#5 ++ o.rm ++ o.sat ++ 0#21 ++ o.bt))
/-- The fields of format Pack, where its fixed bits are right. -/
def decPack (w : IWord) (w1 : IWord) : Option Pack :=
  if fld w 10 5 == 0 && fld w 5 1 == 0 && fld w1 27 5 == 0 && fld w1 2 21 == 0 then
    some { vd := fld w 20 5, va := fld w 15 5, ty := fld w 6 4, g := fld w 0 4, rm := fld w1 24 3, sat := fld w1 23 1, bt := fld w1 0 2 }
  else none

/-- The words of format Unpack: VUNPK4 (R128, R434): block type. -/
def encUnpack (op : BitVec 7) (o : Unpack) : IWord × Option IWord :=
  (op ++ o.vd ++ o.va ++ 0#5 ++ o.ty ++ 0#1 ++ 1#1 ++ o.g, some (0#30 ++ o.bt))
/-- The fields of format Unpack, where its fixed bits are right. -/
def decUnpack (w : IWord) (w1 : IWord) : Option Unpack :=
  if fld w 10 5 == 0 && fld w 5 1 == 0 && fld w1 2 30 == 0 then
    some { vd := fld w 20 5, va := fld w 15 5, ty := fld w 6 4, g := fld w 0 4, bt := fld w1 0 2 }
  else none

/-- The words of format Mmt: MMT (R124, R129). -/
def encMmt (op : BitVec 7) (o : Mmt) : IWord × Option IWord :=
  (op ++ o.a ++ o.b ++ o.bk ++ o.f ++ 1#1 ++ o.g, some (o.step ++ o.ar ++ o.scp ++ o.tile ++ 0#7 ++ o.ty ++ 0#9 ++ o.st))
/-- The fields of format Mmt, where its fixed bits are right. -/
def decMmt (w : IWord) (w1 : IWord) : Option Mmt :=
  if fld w1 14 7 == 0 && fld w1 1 9 == 0 then
    some { a := fld w 19 6, b := fld w 13 6, bk := fld w 7 6, f := fld w 5 2, g := fld w 0 4, step := fld w1 29 3, ar := fld w1 27 2, scp := fld w1 24 3, tile := fld w1 21 3, ty := fld w1 10 4, st := fld w1 0 1 }
  else none

/-- The words of format Mzero: MZERO (R129). -/
def encMzero (op : BitVec 7) (o : Mzero) : IWord × Option IWord :=
  (op ++ 0#20 ++ 1#1 ++ o.g, some (0#8 ++ o.tile ++ 0#21))
/-- The fields of format Mzero, where its fixed bits are right. -/
def decMzero (w : IWord) (w1 : IWord) : Option Mzero :=
  if fld w 5 20 == 0 && fld w1 24 8 == 0 && fld w1 0 21 == 0 then
    some { g := fld w 0 4, tile := fld w1 21 3 }
  else none

/-- The words of format Mdrain: MDRAIN (R129). -/
def encMdrain (op : BitVec 7) (o : Mdrain) : IWord × Option IWord :=
  (op ++ o.a ++ 0#6 ++ o.bk ++ 0#2 ++ 1#1 ++ o.g, some (o.step ++ o.ar ++ o.scp ++ o.tile ++ 0#7 ++ o.ty ++ 0#6 ++ o.sat ++ o.rm))
/-- The fields of format Mdrain, where its fixed bits are right. -/
def decMdrain (w : IWord) (w1 : IWord) : Option Mdrain :=
  if fld w 13 6 == 0 && fld w 5 2 == 0 && fld w1 14 7 == 0 && fld w1 4 6 == 0 then
    some { a := fld w 19 6, bk := fld w 7 6, g := fld w 0 4, step := fld w1 29 3, ar := fld w1 27 2, scp := fld w1 24 3, tile := fld w1 21 3, ty := fld w1 10 4, sat := fld w1 3 1, rm := fld w1 0 3 }
  else none

/-- The words of format Mdadd: MDADD (R129). -/
def encMdadd (op : BitVec 7) (o : Mdadd) : IWord × Option IWord :=
  (op ++ o.a ++ 0#6 ++ o.bk ++ o.f ++ 1#1 ++ o.g, some (o.step ++ o.ar ++ o.scp ++ o.tile ++ 0#21))
/-- The fields of format Mdadd, where its fixed bits are right. -/
def decMdadd (w : IWord) (w1 : IWord) : Option Mdadd :=
  if fld w 13 6 == 0 && fld w1 0 21 == 0 then
    some { a := fld w 19 6, bk := fld w 7 6, f := fld w 5 2, g := fld w 0 4, step := fld w1 29 3, ar := fld w1 27 2, scp := fld w1 24 3, tile := fld w1 21 3 }
  else none

/-- The words of format Mbrd: MBRD (R129). -/
def encMbrd (op : BitVec 7) (o : Mbrd) : IWord × Option IWord :=
  (op ++ o.a ++ 0#14 ++ 1#1 ++ o.g, some (0#8 ++ o.tile ++ 0#7 ++ o.ty ++ 0#5 ++ o.v))
/-- The fields of format Mbrd, where its fixed bits are right. -/
def decMbrd (w : IWord) (w1 : IWord) : Option Mbrd :=
  if fld w 5 14 == 0 && fld w1 24 8 == 0 && fld w1 14 7 == 0 && fld w1 5 5 == 0 then
    some { a := fld w 19 6, g := fld w 0 4, tile := fld w1 21 3, ty := fld w1 10 4, v := fld w1 0 5 }
  else none

/-- The words of format Mstat: MSTAT (R127). -/
def encMstat (op : BitVec 7) (o : Mstat) : IWord × Option IWord := (op ++ o.d ++ o.tile ++ 0#11 ++ 0#1 ++ o.g, none)
/-- The fields of format Mstat, where its fixed bits are right. -/
def decMstat (w : IWord) : Option Mstat :=
  if fld w 5 11 == 0 then
    some { d := fld w 19 6, tile := fld w 16 3, g := fld w 0 4 }
  else none

/-- The words of format Cpy: CPY and CPYS (R129). -/
def encCpy (op : BitVec 7) (o : Cpy) : IWord × Option IWord :=
  (op ++ o.a ++ 0#6 ++ o.bk ++ 0#2 ++ 1#1 ++ o.g, some (o.step ++ o.ar ++ o.scp ++ 0#3 ++ o.tag ++ o.tg ++ 0#14))
/-- The fields of format Cpy, where its fixed bits are right. -/
def decCpy (w : IWord) (w1 : IWord) : Option Cpy :=
  if fld w 13 6 == 0 && fld w 5 2 == 0 && fld w1 21 3 == 0 && fld w1 0 14 == 0 then
    some { a := fld w 19 6, bk := fld w 7 6, g := fld w 0 4, step := fld w1 29 3, ar := fld w1 27 2, scp := fld w1 24 3, tag := fld w1 15 6, tg := fld w1 14 1 }
  else none

/-- The words of format Cpyq: CPYQ (R127). -/
def encCpyq (op : BitVec 7) (o : Cpyq) : IWord × Option IWord := (op ++ o.d ++ o.tag ++ 0#8 ++ 0#1 ++ o.g, none)
/-- The fields of format Cpyq, where its fixed bits are right. -/
def decCpyq (w : IWord) : Option Cpyq :=
  if fld w 5 8 == 0 then
    some { d := fld w 19 6, tag := fld w 13 6, g := fld w 0 4 }
  else none

/-- The words of format Bkq: BKQ (R127). -/
def encBkq (op : BitVec 7) (o : Bkq) : IWord × Option IWord := (op ++ o.d ++ o.a ++ o.step ++ 0#5 ++ 0#1 ++ o.g, none)
/-- The fields of format Bkq, where its fixed bits are right. -/
def decBkq (w : IWord) : Option Bkq :=
  if fld w 5 5 == 0 then
    some { d := fld w 19 6, a := fld w 13 6, step := fld w 10 3, g := fld w 0 4 }
  else none

/-- The words of format Bkrel: BKREL (R127). -/
def encBkrel (op : BitVec 7) (o : Bkrel) : IWord × Option IWord := (op ++ 0#6 ++ o.a ++ o.step ++ 0#5 ++ 0#1 ++ o.g, none)
/-- The fields of format Bkrel, where its fixed bits are right. -/
def decBkrel (w : IWord) : Option Bkrel :=
  if fld w 19 6 == 0 && fld w 5 5 == 0 then
    some { a := fld w 13 6, step := fld w 10 3, g := fld w 0 4 }
  else none

/-- The words of format Spawn: SPAWN (R127). -/
def encSpawn (op : BitVec 7) (o : Spawn) : IWord × Option IWord := (op ++ o.d ++ o.a ++ o.b ++ o.pri ++ 0#1 ++ o.g, none)
/-- The fields of format Spawn, where its fixed bits are right. -/
def decSpawn (w : IWord) : Option Spawn :=
  some { d := fld w 19 6, a := fld w 13 6, b := fld w 7 6, pri := fld w 5 2, g := fld w 0 4 }

/-- The words of format Fput: FPUT (R127). -/
def encFput (op : BitVec 7) (o : Fput) : IWord × Option IWord := (op ++ 0#6 ++ o.a ++ o.b ++ 0#2 ++ 0#1 ++ o.g, none)
/-- The fields of format Fput, where its fixed bits are right. -/
def decFput (w : IWord) : Option Fput :=
  if fld w 19 6 == 0 && fld w 5 2 == 0 then
    some { a := fld w 13 6, b := fld w 7 6, g := fld w 0 4 }
  else none

/-- The words of format Frq: FRQ (R127): the selector. -/
def encFrq (op : BitVec 7) (o : Frq) : IWord × Option IWord :=
  (op ++ o.d ++ o.a ++ o.b ++ 0#2 ++ 1#1 ++ o.g, some (0#29 ++ o.sel))
/-- The fields of format Frq, where its fixed bits are right. -/
def decFrq (w : IWord) (w1 : IWord) : Option Frq :=
  if fld w 5 2 == 0 && fld w1 3 29 == 0 then
    some { d := fld w 19 6, a := fld w 13 6, b := fld w 7 6, g := fld w 0 4, sel := fld w1 0 3 }
  else none

/-- The words of format Frgate: FRGATE (R127): the face. -/
def encFrgate (op : BitVec 7) (o : Frgate) : IWord × Option IWord :=
  (op ++ 0#6 ++ o.a ++ o.b ++ 0#2 ++ 1#1 ++ o.g, some (0#29 ++ o.face))
/-- The fields of format Frgate, where its fixed bits are right. -/
def decFrgate (w : IWord) (w1 : IWord) : Option Frgate :=
  if fld w 19 6 == 0 && fld w 5 2 == 0 && fld w1 3 29 == 0 then
    some { a := fld w 13 6, b := fld w 7 6, g := fld w 0 4, face := fld w1 0 3 }
  else none

/-- The words of format Code: SVC, TRAP, BRK (R127): CODE20. -/
def encCode (op : BitVec 7) (o : Code) : IWord × Option IWord := (op ++ o.code ++ 0#1 ++ o.g, none)
/-- The fields of format Code, where its fixed bits are right. -/
def decCode (w : IWord) : Option Code :=
  some { code := fld w 5 20, g := fld w 0 4 }

/-- The words of format AMode: RETT and XINV (R127): A and [6:5]. -/
def encAMode (op : BitVec 7) (o : AMode) : IWord × Option IWord := (op ++ 0#6 ++ o.a ++ 0#6 ++ o.mode ++ 0#1 ++ o.g, none)
/-- The fields of format AMode, where its fixed bits are right. -/
def decAMode (w : IWord) : Option AMode :=
  if fld w 19 6 == 0 && fld w 7 6 == 0 then
    some { a := fld w 13 6, mode := fld w 5 2, g := fld w 0 4 }
  else none

/-- The words of format Csr: CSRR and CSRW (R127): g register, register number. -/
def encCsr (op : BitVec 7) (o : Csr) : IWord × Option IWord := (op ++ o.d ++ o.num ++ 0#2 ++ 0#1 ++ o.g, none)
/-- The fields of format Csr, where its fixed bits are right. -/
def decCsr (w : IWord) : Option Csr :=
  if fld w 5 2 == 0 then
    some { d := fld w 19 6, num := fld w 7 12, g := fld w 0 4 }
  else none

/-- The words of format Lsi: CSRW of sr.lsinv (R100, R127). -/
def encLsi (op : BitVec 7) (o : Lsi) : IWord × Option IWord := (op ++ o.d ++ 15#12 ++ 0#2 ++ 0#1 ++ o.g, none)
/-- The fields of format Lsi, where its fixed bits are right. -/
def decLsi (w : IWord) : Option Lsi :=
  if fld w 7 12 == 15 && fld w 5 2 == 0 then
    some { d := fld w 19 6, g := fld w 0 4 }
  else none

/-! ### Majors -/

/-- The instruction of opcode `op` when X = 0 (R125 to R129). -/
def decodeX0 (op : BitVec 7) (w : IWord) : Except DecErr (Option Instr) :=
  match op.toNat with
  | 1 => .ok (((decTri w).map .addTri).orElse fun _ => (decSim w).map .addSim)
  | 2 => .ok (((decTri w).map .subTri).orElse fun _ => (decSim w).map .subSim)
  | 3 => .ok (((decTri w).map .mulTri).orElse fun _ => (decSim w).map .mulSim)
  | 4 => .ok (((decTri w).map .mulhTri).orElse fun _ => (decSim w).map .mulhSim)
  | 5 => .ok (((decTri w).map .mulhuTri).orElse fun _ => (decSim w).map .mulhuSim)
  | 6 => .ok (((decTri w).map .divTri).orElse fun _ => (decSim w).map .divSim)
  | 7 => .ok (((decTri w).map .divuTri).orElse fun _ => (decSim w).map .divuSim)
  | 8 => .ok (((decTri w).map .remTri).orElse fun _ => (decSim w).map .remSim)
  | 9 => .ok (((decTri w).map .remuTri).orElse fun _ => (decSim w).map .remuSim)
  | 10 => .ok (((decTri w).map .andTri).orElse fun _ => (decSim w).map .andSim)
  | 11 => .ok (((decTri w).map .orTri).orElse fun _ => (decSim w).map .orSim)
  | 12 => .ok (((decTri w).map .xorTri).orElse fun _ => (decSim w).map .xorSim)
  | 13 => .ok (((decTri w).map .andnTri).orElse fun _ => (decSim w).map .andnSim)
  | 14 => .ok (((decTri w).map .shlTri).orElse fun _ => (decSim w).map .shlSim)
  | 15 => .ok (((decTri w).map .shrTri).orElse fun _ => (decSim w).map .shrSim)
  | 16 => .ok (((decTri w).map .sarTri).orElse fun _ => (decSim w).map .sarSim)
  | 17 => .ok (((decTri w).map .minTri).orElse fun _ => (decSim w).map .minSim)
  | 18 => .ok (((decTri w).map .maxTri).orElse fun _ => (decSim w).map .maxSim)
  | 19 => .ok (((decTri w).map .minuTri).orElse fun _ => (decSim w).map .minuSim)
  | 20 => .ok (((decTri w).map .maxuTri).orElse fun _ => (decSim w).map .maxuSim)
  | 21 => .ok ((decUn w).map .clz)
  | 22 => .ok ((decUn w).map .popc)
  | 23 => .ok ((decUn w).map .mov)
  | 24 => .ok ((decLdiS w).map .ldiSim)
  | 26 => .ok ((decBfR w).map .bfxReg)
  | 27 => .ok ((decBfR w).map .bfxuReg)
  | 28 => .ok ((decBfR w).map .bfiReg)
  | 30 => .ok ((decCmpR w).map .cmpReg)
  | 31 => .ok ((decLog w).map .pand)
  | 32 => .ok ((decLog w).map .por)
  | 33 => .ok ((decLog w).map .pxor)
  | 34 => .ok ((decLogN w).map .pnot)
  | 35 => .ok ((decBr w).map .br)
  | 36 => .ok ((decJmp w).map .jmp)
  | 37 => .ok (((decCallR w).map .callRel).orElse fun _ => (decCallG w).map .callReg)
  | 38 => .ok ((decG0 w).map .ret)
  | 39 => .ok ((decJmp w).map .loop)
  | 40 => .ok ((decLoopM w).map .loopm)
  | 41 => .ok ((decLd0 w).map .ld)
  | 42 => .ok ((decSt0 w).map .st)
  | 48 => .ok ((decFence w).map .fence)
  | 49 => .ok ((decFlushp w).map .flushp)
  | 50 => .ok ((decDA w).map .shacq)
  | 51 => .ok ((decDA w).map .shrel)
  | 52 => .ok ((decA1 w).map .waitReg)
  | 53 => .ok ((decDA w).map .twany)
  | 54 => .ok ((decDA w).map .twall)
  | 55 => .ok ((decDA w).map .tfirst)
  | 56 => .ok ((decA1 w).map .tclr)
  | 57 => .ok ((decVld0 w).map .vld)
  | 58 => .ok ((decVst0 w).map .vst)
  | 61 => .ok ((decLog w).map .mand)
  | 62 => .ok ((decLog w).map .mor)
  | 63 => .ok ((decLog w).map .mxor)
  | 64 => .ok ((decLogN w).map .mnot)
  | 65 => .ok ((decV0 w).map .vadd)
  | 66 => .ok ((decV0 w).map .vsub)
  | 67 => .ok ((decV0 w).map .vmul)
  | 71 => .ok ((decV0 w).map .vdiv)
  | 72 => .ok ((decVu0 w).map .vsqrt)
  | 73 => .ok ((decVmm w 0).map .vmin)
  | 74 => .ok ((decVmm w 0).map .vmax)
  | 75 => .ok ((decVu0 w).map .vabs)
  | 76 => .ok ((decVu0 w).map .vneg)
  | 79 => .ok ((decVl0 w).map .vand)
  | 80 => .ok ((decVl0 w).map .vor)
  | 81 => .ok ((decVl0 w).map .vxor)
  | 82 => .ok ((decVsh w 0).map .vshl)
  | 83 => .ok ((decVsh w 0).map .vshr)
  | 84 => .ok ((decVsh w 0).map .vsar)
  | 86 => .ok ((decVu0 w).map .vred)
  | 87 => .ok ((decVu0 w).map .vscan)
  | 90 => .ok ((decVsh w 0).map .vperm)
  | 92 => .ok ((decVcls w 0).map .vclass)
  | 102 => .ok ((decMstat w).map .mstat)
  | 105 => .ok ((decCpyq w).map .cpyq)
  | 106 => .ok ((decDA w).map .book)
  | 107 => .ok ((decBkq w).map .bkq)
  | 108 => .ok ((decA1 w).map .bkcan)
  | 109 => .ok ((decBkrel w).map .bkrel)
  | 110 => .ok ((decSpawn w).map .spawn)
  | 111 => .ok ((decA1 w).map .signal)
  | 112 => .ok ((decG0 w).map .susp)
  | 113 => .ok ((decG0 w).map .exit)
  | 114 => .ok ((decDA w).map .fget)
  | 115 => .ok ((decFput w).map .fput)
  | 116 => .ok ((decDA w).map .launch)
  | 119 => .ok ((decCode w).map .svc)
  | 120 => .ok ((decCode w).map .trap)
  | 121 => .ok ((decAMode w).map .rett)
  | 122 => .ok ((decCsr w).map .csrr)
  | 123 => .ok (((decLsi w).map .lsinv).orElse fun _ => (decCsr w).map .csrw)
  | 124 => .ok ((decCode w).map .brk)
  | 125 => .ok ((decG0 w).map .nop)
  | 126 => .ok ((decAMode w).map .xinv)
  | _ => .error .badX

/-- The instruction of opcode `op` when X = 1, from both words of the pair (R125 to R129). -/
def decodeX1 (op : BitVec 7) (w w1 : IWord) : Except DecErr (Option Instr) :=
  match op.toNat with
  | 1 => .ok ((decLim w w1).map .addLim)
  | 2 => .ok ((decLim w w1).map .subLim)
  | 3 => .ok ((decLim w w1).map .mulLim)
  | 4 => .ok ((decLim w w1).map .mulhLim)
  | 5 => .ok ((decLim w w1).map .mulhuLim)
  | 6 => .ok ((decLim w w1).map .divLim)
  | 7 => .ok ((decLim w w1).map .divuLim)
  | 8 => .ok ((decLim w w1).map .remLim)
  | 9 => .ok ((decLim w w1).map .remuLim)
  | 10 => .ok ((decLim w w1).map .andLim)
  | 11 => .ok ((decLim w w1).map .orLim)
  | 12 => .ok ((decLim w w1).map .xorLim)
  | 13 => .ok ((decLim w w1).map .andnLim)
  | 14 => .ok ((decLim w w1).map .shlLim)
  | 15 => .ok ((decLim w w1).map .shrLim)
  | 16 => .ok ((decLim w w1).map .sarLim)
  | 17 => .ok ((decLim w w1).map .minLim)
  | 18 => .ok ((decLim w w1).map .maxLim)
  | 19 => .ok ((decLim w w1).map .minuLim)
  | 20 => .ok ((decLim w w1).map .maxuLim)
  | 24 => .ok ((decLdiL w w1).map .ldiLim)
  | 25 => .ok ((decLdiL w w1).map .ldih)
  | 26 => .ok ((decBfI w w1).map .bfxImm)
  | 27 => .ok ((decBfI w w1).map .bfxuImm)
  | 28 => .ok ((decBfI w w1).map .bfiImm)
  | 29 => .ok ((decSel w w1).map .sel)
  | 30 => .ok ((decCmpI w w1).map .cmpImm)
  | 41 => .ok ((decLd1 w w1).map .ldOff)
  | 42 => .ok ((decSt1 w w1).map .stOff)
  | 43 => .ok ((decSec w w1).map .ldsec)
  | 44 => .ok ((decSec w w1).map .stsec)
  | 45 => .ok ((decAmo w w1).map .amo)
  | 46 => .ok ((decCas w w1).map .cas)
  | 47 => .ok ((decBput w w1).map .bput)
  | 52 => .ok ((decWaitI w w1).map .waitImm)
  | 57 => .ok ((decVld1 w w1).map .vldOff)
  | 58 => .ok ((decVst1 w w1).map .vstOff)
  | 59 => .ok ((decVgs w w1).map .vgath)
  | 60 => .ok ((decVgs w w1).map .vscat)
  | 65 => .ok ((decV1 w w1).map .vaddX)
  | 66 => .ok ((decV1 w w1).map .vsubX)
  | 67 => .ok ((decV1 w w1).map .vmulX)
  | 68 => .ok ((decFma w w1).map .vfma)
  | 69 => .ok ((decFma w w1).map .vfms)
  | 70 => .ok ((decFma w w1).map .vfnma)
  | 71 => .ok ((decVdiv1 w w1).map .vdivX)
  | 72 => .ok ((decVsq1 w w1).map .vsqrtX)
  | 73 => .ok ((decVmm w w1).map .vmin)
  | 74 => .ok ((decVmm w w1).map .vmax)
  | 75 => .ok ((decVab1 w w1).map .vabsX)
  | 76 => .ok ((decVab1 w w1).map .vnegX)
  | 77 => .ok ((decVcmp w w1).map .vcmp)
  | 78 => .ok ((decVsel w w1).map .vsel)
  | 79 => .ok ((decVl1 w w1).map .vandX)
  | 80 => .ok ((decVl1 w w1).map .vorX)
  | 81 => .ok ((decVl1 w w1).map .vxorX)
  | 82 => .ok (((decVsh w w1).map .vshl).orElse fun _ => (decVshI w w1).map .vshlImm)
  | 83 => .ok (((decVsh w w1).map .vshr).orElse fun _ => (decVshI w w1).map .vshrImm)
  | 84 => .ok (((decVsh w w1).map .vsar).orElse fun _ => (decVshI w w1).map .vsarImm)
  | 85 => .ok ((decVcvt w w1).map .vcvt)
  | 86 => .ok ((decVred1 w w1).map .vredX)
  | 87 => .ok ((decVred1 w w1).map .vscanX)
  | 88 => .ok (((decVbcS w w1).map .vbcastScalar).orElse fun _ => (decVbcE w w1).map .vbcastElement)
  | 89 => .ok ((decVext w w1).map .vext)
  | 90 => .ok ((decVsh w w1).map .vperm)
  | 91 => .ok ((decVslide w w1).map .vslide)
  | 92 => .ok ((decVcls w w1).map .vclass)
  | 93 => .ok ((decVsplit w w1).map .vsplit)
  | 94 => .ok ((decVjoin w w1).map .vjoin)
  | 95 => .ok ((decPack w w1).map .vpack4)
  | 96 => .ok ((decUnpack w w1).map .vunpk4)
  | 97 => .ok ((decMmt w w1).map .mmt)
  | 98 => .ok ((decMzero w w1).map .mzero)
  | 99 => .ok ((decMdrain w w1).map .mdrain)
  | 100 => .ok ((decMdadd w w1).map .mdadd)
  | 101 => .ok ((decMbrd w w1).map .mbrd)
  | 103 => .ok ((decCpy w w1).map .cpy)
  | 104 => .ok ((decCpy w w1).map .cpys)
  | 117 => .ok ((decFrq w w1).map .frq)
  | 118 => .ok ((decFrgate w w1).map .frgate)
  | _ => .error .badX

/-- The instruction that word 0, and word 1 of a pair, encode (R116, steps 2 to 4). -/
def decode (w w1 : IWord) : Except DecErr Instr :=
  let op := fld w 25 7
  if op == 0 || op == 127 then .error .undefinedOp
  else
    match (if fld w 4 1 == 1 then decodeX1 op w w1 else decodeX0 op w) with
    | .ok (some i) => .ok i
    | .ok none => .error .reservedField
    | .error e => .error e

/-- The words of an instruction, word 1 only for a pair; none for a device event. -/
def encode (i : Instr) : Option (IWord × Option IWord) :=
  match i with
  | .addTri o => some (encTri 1 o)
  | .addSim o => some (encSim 1 o)
  | .addLim o => some (encLim 1 o)
  | .subTri o => some (encTri 2 o)
  | .subSim o => some (encSim 2 o)
  | .subLim o => some (encLim 2 o)
  | .mulTri o => some (encTri 3 o)
  | .mulSim o => some (encSim 3 o)
  | .mulLim o => some (encLim 3 o)
  | .mulhTri o => some (encTri 4 o)
  | .mulhSim o => some (encSim 4 o)
  | .mulhLim o => some (encLim 4 o)
  | .mulhuTri o => some (encTri 5 o)
  | .mulhuSim o => some (encSim 5 o)
  | .mulhuLim o => some (encLim 5 o)
  | .divTri o => some (encTri 6 o)
  | .divSim o => some (encSim 6 o)
  | .divLim o => some (encLim 6 o)
  | .divuTri o => some (encTri 7 o)
  | .divuSim o => some (encSim 7 o)
  | .divuLim o => some (encLim 7 o)
  | .remTri o => some (encTri 8 o)
  | .remSim o => some (encSim 8 o)
  | .remLim o => some (encLim 8 o)
  | .remuTri o => some (encTri 9 o)
  | .remuSim o => some (encSim 9 o)
  | .remuLim o => some (encLim 9 o)
  | .andTri o => some (encTri 10 o)
  | .andSim o => some (encSim 10 o)
  | .andLim o => some (encLim 10 o)
  | .orTri o => some (encTri 11 o)
  | .orSim o => some (encSim 11 o)
  | .orLim o => some (encLim 11 o)
  | .xorTri o => some (encTri 12 o)
  | .xorSim o => some (encSim 12 o)
  | .xorLim o => some (encLim 12 o)
  | .andnTri o => some (encTri 13 o)
  | .andnSim o => some (encSim 13 o)
  | .andnLim o => some (encLim 13 o)
  | .shlTri o => some (encTri 14 o)
  | .shlSim o => some (encSim 14 o)
  | .shlLim o => some (encLim 14 o)
  | .shrTri o => some (encTri 15 o)
  | .shrSim o => some (encSim 15 o)
  | .shrLim o => some (encLim 15 o)
  | .sarTri o => some (encTri 16 o)
  | .sarSim o => some (encSim 16 o)
  | .sarLim o => some (encLim 16 o)
  | .minTri o => some (encTri 17 o)
  | .minSim o => some (encSim 17 o)
  | .minLim o => some (encLim 17 o)
  | .maxTri o => some (encTri 18 o)
  | .maxSim o => some (encSim 18 o)
  | .maxLim o => some (encLim 18 o)
  | .minuTri o => some (encTri 19 o)
  | .minuSim o => some (encSim 19 o)
  | .minuLim o => some (encLim 19 o)
  | .maxuTri o => some (encTri 20 o)
  | .maxuSim o => some (encSim 20 o)
  | .maxuLim o => some (encLim 20 o)
  | .clz o => some (encUn 21 o)
  | .popc o => some (encUn 22 o)
  | .mov o => some (encUn 23 o)
  | .ldiSim o => some (encLdiS 24 o)
  | .ldiLim o => some (encLdiL 24 o)
  | .ldih o => some (encLdiL 25 o)
  | .bfxReg o => some (encBfR 26 o)
  | .bfxImm o => some (encBfI 26 o)
  | .bfxuReg o => some (encBfR 27 o)
  | .bfxuImm o => some (encBfI 27 o)
  | .bfiReg o => some (encBfR 28 o)
  | .bfiImm o => some (encBfI 28 o)
  | .sel o => some (encSel 29 o)
  | .cmpReg o => some (encCmpR 30 o)
  | .cmpImm o => some (encCmpI 30 o)
  | .pand o => some (encLog 31 o)
  | .por o => some (encLog 32 o)
  | .pxor o => some (encLog 33 o)
  | .pnot o => some (encLogN 34 o)
  | .mand o => some (encLog 61 o)
  | .mor o => some (encLog 62 o)
  | .mxor o => some (encLog 63 o)
  | .mnot o => some (encLogN 64 o)
  | .br o => some (encBr 35 o)
  | .jmp o => some (encJmp 36 o)
  | .callRel o => some (encCallR 37 o)
  | .callReg o => some (encCallG 37 o)
  | .ret o => some (encG0 38 o)
  | .loop o => some (encJmp 39 o)
  | .loopm o => some (encLoopM 40 o)
  | .ld o => some (encLd0 41 o)
  | .ldOff o => some (encLd1 41 o)
  | .st o => some (encSt0 42 o)
  | .stOff o => some (encSt1 42 o)
  | .ldsec o => some (encSec 43 o)
  | .stsec o => some (encSec 44 o)
  | .amo o => some (encAmo 45 o)
  | .cas o => some (encCas 46 o)
  | .bput o => some (encBput 47 o)
  | .fence o => some (encFence 48 o)
  | .flushp o => some (encFlushp 49 o)
  | .shacq o => some (encDA 50 o)
  | .shrel o => some (encDA 51 o)
  | .waitReg o => some (encA1 52 o)
  | .waitImm o => some (encWaitI 52 o)
  | .twany o => some (encDA 53 o)
  | .twall o => some (encDA 54 o)
  | .tfirst o => some (encDA 55 o)
  | .tclr o => some (encA1 56 o)
  | .vld o => some (encVld0 57 o)
  | .vldOff o => some (encVld1 57 o)
  | .vst o => some (encVst0 58 o)
  | .vstOff o => some (encVst1 58 o)
  | .vgath o => some (encVgs 59 o)
  | .vscat o => some (encVgs 60 o)
  | .vadd o => some (encV0 65 o)
  | .vaddX o => some (encV1 65 o)
  | .vsub o => some (encV0 66 o)
  | .vsubX o => some (encV1 66 o)
  | .vmul o => some (encV0 67 o)
  | .vmulX o => some (encV1 67 o)
  | .vfma o => some (encFma 68 o)
  | .vfms o => some (encFma 69 o)
  | .vfnma o => some (encFma 70 o)
  | .vdiv o => some (encV0 71 o)
  | .vdivX o => some (encVdiv1 71 o)
  | .vsqrt o => some (encVu0 72 o)
  | .vsqrtX o => some (encVsq1 72 o)
  | .vmin o => some (encVmm 73 o)
  | .vmax o => some (encVmm 74 o)
  | .vabs o => some (encVu0 75 o)
  | .vabsX o => some (encVab1 75 o)
  | .vneg o => some (encVu0 76 o)
  | .vnegX o => some (encVab1 76 o)
  | .vcmp o => some (encVcmp 77 o)
  | .vsel o => some (encVsel 78 o)
  | .vand o => some (encVl0 79 o)
  | .vandX o => some (encVl1 79 o)
  | .vor o => some (encVl0 80 o)
  | .vorX o => some (encVl1 80 o)
  | .vxor o => some (encVl0 81 o)
  | .vxorX o => some (encVl1 81 o)
  | .vshl o => some (encVsh 82 o)
  | .vshlImm o => some (encVshI 82 o)
  | .vshr o => some (encVsh 83 o)
  | .vshrImm o => some (encVshI 83 o)
  | .vsar o => some (encVsh 84 o)
  | .vsarImm o => some (encVshI 84 o)
  | .vcvt o => some (encVcvt 85 o)
  | .vred o => some (encVu0 86 o)
  | .vredX o => some (encVred1 86 o)
  | .vscan o => some (encVu0 87 o)
  | .vscanX o => some (encVred1 87 o)
  | .vbcastScalar o => some (encVbcS 88 o)
  | .vbcastElement o => some (encVbcE 88 o)
  | .vext o => some (encVext 89 o)
  | .vperm o => some (encVsh 90 o)
  | .vslide o => some (encVslide 91 o)
  | .vclass o => some (encVcls 92 o)
  | .vsplit o => some (encVsplit 93 o)
  | .vjoin o => some (encVjoin 94 o)
  | .vpack4 o => some (encPack 95 o)
  | .vunpk4 o => some (encUnpack 96 o)
  | .mmt o => some (encMmt 97 o)
  | .mzero o => some (encMzero 98 o)
  | .mdrain o => some (encMdrain 99 o)
  | .mdadd o => some (encMdadd 100 o)
  | .mbrd o => some (encMbrd 101 o)
  | .mstat o => some (encMstat 102 o)
  | .cpy o => some (encCpy 103 o)
  | .cpys o => some (encCpy 104 o)
  | .cpyq o => some (encCpyq 105 o)
  | .book o => some (encDA 106 o)
  | .bkq o => some (encBkq 107 o)
  | .bkcan o => some (encA1 108 o)
  | .bkrel o => some (encBkrel 109 o)
  | .spawn o => some (encSpawn 110 o)
  | .signal o => some (encA1 111 o)
  | .susp o => some (encG0 112 o)
  | .exit o => some (encG0 113 o)
  | .fget o => some (encDA 114 o)
  | .fput o => some (encFput 115 o)
  | .launch o => some (encDA 116 o)
  | .frq o => some (encFrq 117 o)
  | .frgate o => some (encFrgate 118 o)
  | .svc o => some (encCode 119 o)
  | .trap o => some (encCode 120 o)
  | .brk o => some (encCode 124 o)
  | .rett o => some (encAMode 121 o)
  | .csrr o => some (encCsr 122 o)
  | .csrw o => some (encCsr 123 o)
  | .lsinv o => some (encLsi 123 o)
  | .nop o => some (encG0 125 o)
  | .xinv o => some (encAMode 126 o)
  | .asyncFaultTaken _ _ => none
  | .pointFire _ => none
  | .edgeMessage _ => none
  | .gateAddition _ => none
  | .sweepIdAssign _ => none
  | .taskStage _ => none
  | .planeSwap _ => none
  | .spill _ _ => none
  | .decrement _ => none
  | .loadResult _ _ _ => none
  | .postedWriteAck _ _ _ => none
  | .copyComplete _ => none
  | .matrixComplete _ => none
  | .mbrdReady _ => none
  | .lineFill _ _ => none
  | .copyEntry _ => none
  | .chainLoop _ => none
  | .chainIf _ => none
  | .chainTag _ => none
  | .chainEnd _ => none
  | .slotBoundary => none
  | .bookingSearch _ => none
  | .templateRetry _ => none
  | .tentativeHoldExpiry _ => none
  | .seniorHoldExpiry _ => none
  | .postponedExpiry _ => none
  | .deadlinePass _ => none
  | .commitTimeout _ => none
  | .prepareTimeout _ => none
  | .overrun _ _ => none
  | .unbookedOverrun _ _ => none
  | .bookPrepare _ => none
  | .bookGrant _ => none
  | .bookRefuse _ => none
  | .bookCommit _ => none
  | .bookConfirm _ => none
  | .bookAbort _ => none
  | .bookCancel _ => none
  | .bookLost _ => none
  | .walk _ _ _ _ => none
  | .faultPost _ => none
  | .ringPoll _ => none
  | .replyRetry _ _ => none
  | .replyFail _ _ => none
  | .homeAgentAccess _ _ _ _ => none
  | .peerAccess _ _ _ _ => none
  | .migrationCopyEnd _ => none
  | .migrationCopyFail _ => none
  | .unitStop _ _ => none
  | .thermalPoll _ => none
  | .freeze _ => none
  | .freezeSave _ => none
  | .flimKill _ => none
  | .worldSwitch _ _ => none
  | .actionSignal _ => none
  | .actionFput _ => none
  | .actionGate _ => none
  | .actionPost _ => none
  | .completionPost _ _ => none
  | .notify _ _ _ => none
  | .reconcile _ _ => none
  | .sweepCommand _ _ => none
  | .graphCommand _ _ => none
  | .nopCommand _ _ => none
  | .hostRdmaRead _ _ _ => none
  | .hostRdmaWrite _ _ _ => none
  | .hostRdmaAtomic _ _ _ _ _ => none
  | .fwDefine _ _ _ => none
  | .fwTeardown _ _ => none
  | .fwReset _ _ => none
  | .fwSchedule _ _ _ => none
  | .fwHostwin _ _ _ => none
  | .fwSpan _ _ _ _ => none
  | .fwWindow _ _ _ => none
  | .fwMigrate _ _ _ _ => none
  | .fwHalt _ _ => none
  | .fwResume _ _ => none
  | .fwStep _ _ _ _ => none
  | .fwDump _ _ _ _ _ => none
  | .fwLoad _ _ _ _ _ => none
  | .fwCounters _ _ _ => none
  | .fwAttest _ _ _ => none
  | .fwUpdate _ _ _ => none
  | .complexTakeover => none
  | .watchdogTakeover => none
  | .powerOn => none
  | .msgRead _ => none
  | .msgRdata _ => none
  | .msgWrite _ => none
  | .msgAck _ => none
  | .msgAtomic _ => none
  | .msgArsp _ => none
  | .msgMdadd _ => none
  | .msgGate _ => none
  | .msgFaulted _ => none
  | .msgNack _ => none
  | .msgTime _ => none
  | .msgTimeRsp _ => none
  | .timeProbe _ => none
  | .offsetExpiry _ => none
  | .requestRetransmit _ => none
  | .responseExpiry _ => none
  | .tidAllocate _ => none
  | .frameRetransmit _ => none
  | .portDown _ => none
  | .portUp _ => none
  | .kStep _ => none
  | .hostWindowResponse _ _ _ => none
  | .powerOff => none
  | .bootComplete _ => none

/-- The guard field of a word (R114). -/
def guardOf (w : IWord) : BitVec 4 := fld w 0 4

/-- Word 0 is the first of a pair (R114). -/
def isPair (w : IWord) : Bool := fld w 4 1 == 1

/-- The word has the opcode of BR, JMP, CALL or RET (R112). -/
def isTransfer (w : IWord) : Bool := [35, 36, 37, 38].contains (fld w 25 7).toNat

/-- The word has the opcode of LOOP or LOOPM (R106). -/
def isLoop (w : IWord) : Bool := [39, 40].contains (fld w 25 7).toNat

/-! ### The link word (R109) -/

/-- OWN of a link word. -/
def linkOwn (w : IWord) : Nat := (fld w 30 2).toNat

/-- CNT of a link word. -/
def linkCnt (w : IWord) : Nat := (fld w 26 4).toNat

/-- E of a link word. -/
def linkE (w : IWord) : Bool := fld w 25 1 == 1

/-- STG of a link word. -/
def linkStg (w : IWord) : Nat := (fld w 23 2).toNat

/-- L of a link word. -/
def linkL (w : IWord) : Bool := fld w 22 1 == 1

/-- The link word ends its chain: NXT is 0x20_0000. -/
def linkEnd (w : IWord) : Bool := fld w 0 22 == 0x200000#22

/-- The next line of the line at `line`: line + 64·NXT. -/
def linkNext (line : Word) (w : IWord) : Word := line + ((fld w 0 22).signExtend 64) * 64

/-- The instruction a word pair encodes as the opcode table numbers its bits: word 0 is bits [31:0], word 1 bits [63:32]
(spec/00_scope.md R2: each word is stored little-endian, word 0 first). -/
def decodeTableWord (_nbits w : Nat) : Option Instr :=
  match decode (BitVec.ofNat 32 w) (BitVec.ofNat 32 (w / 4294967296)) with
  | .ok i => some i
  | .error _ => none

end Sys2Proof
end

