-- ==== Sys2Proof/Machine/Table.lean ====
section
/-! DEFINITION. Sparse tables: lists of (key, value) pairs with strictly rising keys. They hold the state the spec gives
per core, per task, per page and so on, as plain data. -/

namespace Sys2Proof.Machine

/-- A sparse table: keys strictly rising. -/
abbrev Table (α : Type) := List (Nat × α)

/-- The entry at key `k`, if listed. -/
def tget {α : Type} (t : Table α) (k : Nat) : Option α :=
  match t with
  | [] => none
  | (j, v) :: rest => if j = k then some v else if k < j then none else tget rest k

/-- The entry at key `k`, or a default. -/
def tgetD {α : Type} (t : Table α) (k : Nat) (d : α) : α := (tget t k).getD d

/-- Sets the entry at key `k`, keeping the keys rising. -/
def tset {α : Type} (t : Table α) (k : Nat) (v : α) : Table α :=
  match t with
  | [] => [(k, v)]
  | (j, w) :: rest => if j = k then (k, v) :: rest else if k < j then (k, v) :: (j, w) :: rest else (j, w) :: tset rest k v

/-- Removes the entry at key `k`. -/
def terase {α : Type} (t : Table α) (k : Nat) : Table α :=
  match t with
  | [] => []
  | (j, w) :: rest => if j = k then rest else (j, w) :: terase rest k

/-- Rewrites the entry at key `k`, if listed. -/
def tmod {α : Type} (t : Table α) (k : Nat) (f : α → α) : Table α :=
  match t with
  | [] => []
  | (j, w) :: rest => if j = k then (j, f w) :: rest else (j, w) :: tmod rest k f

/-- Rewrites every entry. -/
def tmap {α : Type} (t : Table α) (f : Nat → α → α) : Table α := t.map fun e => (e.1, f e.1 e.2)

/-- Keeps the entries that satisfy `p`. -/
def tfilter {α : Type} (t : Table α) (p : Nat → α → Bool) : Table α := t.filter fun e => p e.1 e.2

/-- The keys rise strictly. -/
def twf {α : Type} (t : Table α) : Bool :=
  match t with
  | [] => true
  | (j, _) :: rest => (match rest with | [] => true | (k, _) :: _ => decide (j < k)) && twf rest

end Sys2Proof.Machine
end

