-- ==== Sys2Proof/Machine/Memory.lean ====
section
/-! DEFINITION. Byte memories in one canonical form: addresses strictly rising, no listed byte equal to what an unlisted
address reads as, which is 0 (spec/13_virry.md R267: fresh HBM reads as zero; spec/15_virtual_devices.md R307: every
SRAM is cleared in BOOT). notes/assumptions/5.md. -/

namespace Sys2Proof.Machine

/-- A byte memory: (address, byte) pairs in canonical form. -/
abbrev Memory := List Host.Cell

/-- What an address that nothing lists reads as (R267, R307). -/
def memEmptyByte : Byte := 0#8

/-- The byte at address `a`. -/
def memRead (m : Memory) (a : Nat) : Byte :=
  match m with
  | [] => memEmptyByte
  | (b, v) :: rest => if b = a then v else if a < b then memEmptyByte else memRead rest a

/-- The part of the memory from address `a` on. -/
def memFrom (m : Memory) (a : Nat) : Memory :=
  match m with
  | [] => []
  | (b, v) :: rest => if b < a then memFrom rest a else (b, v) :: rest

/-- The part of the memory below address `a`. -/
def memBelow (m : Memory) (a : Nat) : Memory :=
  match m with
  | [] => []
  | (b, v) :: rest => if b < a then (b, v) :: memBelow rest a else []

/-- `n` bytes from address `a`, low address first, read along the list. -/
def memBytesGo (m : Memory) (a : Nat) : Nat → List Byte
  | 0 => []
  | n + 1 =>
    match m with
    | [] => memEmptyByte :: memBytesGo [] (a + 1) n
    | (b, v) :: rest =>
      if b = a then v :: memBytesGo rest (a + 1) n else memEmptyByte :: memBytesGo ((b, v) :: rest) (a + 1) n

/-- `n` bytes from address `a`, low address first. -/
def memBytes (m : Memory) (a n : Nat) : List Byte := memBytesGo (memFrom m a) a n

/-- The canonical cells of a run of bytes stored at `a`. -/
def memCells (a : Nat) (bs : List Byte) : Memory :=
  match bs with
  | [] => []
  | b :: rest => if b = memEmptyByte then memCells (a + 1) rest else (a, b) :: memCells (a + 1) rest

/-- Stores a run of bytes at address `a`, keeping the canonical form. -/
def memWrite (m : Memory) (a : Nat) (bs : List Byte) : Memory :=
  memBelow m a ++ (memCells a bs ++ memFrom m (a + bs.length))

/-- The cells of `m` from `a` on that lie below `a + n`: what a cleared range loses. -/
def memClear (m : Memory) (a n : Nat) : Memory := memBelow m a ++ memFrom m (a + n)

/-- The canonical form: addresses strictly rising, every listed byte nonzero. -/
def Memory.wf (m : Memory) : Bool :=
  match m with
  | [] => true
  | (a, v) :: rest =>
    decide (v ≠ memEmptyByte) && (match rest with | [] => true | (b, _) :: _ => decide (a < b)) && Memory.wf rest

/-- The little-endian value of a run of bytes (R2). -/
def leNat (bs : List Byte) : Nat :=
  match bs with
  | [] => 0
  | b :: rest => b.toNat + 256 * leNat rest

/-- The `n` bytes of a value, low byte first (R2). -/
def leBytes (v : Nat) : Nat → List Byte
  | 0 => []
  | n + 1 => BitVec.ofNat 8 v :: leBytes (v / 256) n

/-- The 64-bit value of a run of bytes. -/
def leWord (bs : List Byte) : Word := BitVec.ofNat 64 (leNat bs)

/-- The 8 bytes of a doubleword. -/
def wordBytes (w : Word) : List Byte := leBytes w.toNat 8

end Sys2Proof.Machine
end

