-- ==== Sys2Proof/Machine/State.lean ====
section
/-! DEFINITION. The state of the D1024 package as plain data: everything the spec gives the machine, grouped by the
unit that keeps it, and the model's own three fields (focus, agenda, freeCtr). INVENTORY.md lists each piece with its
rule. -/

namespace Sys2Proof.Machine

/-! ### Numbers and registers of a plane -/

/-- The power states of spec/15_virtual_devices.md R307. -/
inductive Power where
  | off | boot | run | tripped
  deriving DecidableEq, Repr

/-- The task states of spec/02_execution_model.md R21, in the order of their codes. -/
inductive TState where
  | waiting | ready | staged | active | held | parked | spilled | done
  deriving DecidableEq, Repr

/-- The register set of a plane (spec/05_core.md R92). Bit k of `p` is pk; g0, p0 and m0 are fixed by the accessors. -/
structure Regs where
  g : Vector Word 64
  p : BitVec 8
  m : Vector (BitVec 16) 8
  v : Vector VReg 32
  deriving DecidableEq, Repr

/-- The control and status registers a plane holds (R93): `fps` is [5:0] SV NX UF OF DZ NV (R156). -/
structure Sr where
  point : Word
  sweep : BitVec 12
  smode : Bool
  tags : Word
  fps : BitVec 6
  fpen : Word
  tensor : BitVec 8
  cause : Word
  epc : Word
  tval : Word
  deriving DecidableEq, Repr

/-- The class counters of sr.oc (R94, R102). -/
structure Oc where
  ldc : BitVec 6
  stc : BitVec 6
  cpc : BitVec 6
  mxc : BitVec 6
  deriving DecidableEq, Repr

/-- The hardware loop of a plane (R106 to R108): sr.lcnt is `n`, sr.lpass is `act`, `mod`, `ns`, `j`; the addresses of
the first body line and the exit line (0: not yet met) are those the spill frame keeps (spec/12_translation.md R242). -/
structure Loop where
  act : Bool
  mod : Bool
  ns : BitVec 2
  j : BitVec 33
  n : BitVec 32
  first : Word
  exit : Word
  deriving DecidableEq, Repr

/-! ### Accesses -/

/-- The home of a byte (spec/11_memory_model.md R208): DPA of HBM, a core's scratchpad, bobbin or creel, host memory
behind window `win`, or a peer package's HBM or core window. -/
inductive Loc where
  | hbm (dpa : Nat)
  | spad (core off : Nat)
  | bobbin (core off : Nat)
  | creel (core off : Nat)
  | host (win off : Nat)
  | rhbm (node a : Nat)
  | rcore (node w : Nat)
  deriving DecidableEq, Repr

/-- How far one element of an access has come: to be translated, waiting for a walk (R240), waiting for a fault reply, failed with
a fault kind of R238 (or 16 for a window integrity mismatch, R265), translated, accepted by the package switch as its n-th request
(R214), read but not yet written (a SPLIT atomic, R206), sent off to another package or the host, performed at its home. -/
inductive ElemSt where
  | translating
  | walking
  | waiting
  | failed (kind : Nat)
  | ready
  | accepted (n : Nat)
  | half
  | sent
  | performed
  deriving DecidableEq, Repr

/-- One element of an access: its first lane, the lanes it serves, the address of its first lane, length, byte mask, home, and
the bytes it stores or took. -/
structure Elem where
  idx : Nat
  lanes : List Nat
  va : Word
  len : Nat
  mask : BitVec 64
  peer : Bool
  loc : Option Loc
  st : ElemSt
  data : List Byte
  res : List Byte
  deriving DecidableEq, Repr

/-- What an access does with the bytes (spec/10_memory_streams.md R201 to R204, R123). `fget` and `fput` are
the accesses of FGET and FPUT (R352), `desc` is LAUNCH's read of its descriptor (R358), `shrel` and `shacq` those of SHREL and SHACQ (R230). -/
inductive AccKind where
  | ld (d : BitVec 6) (sext : Bool)
  | ldsec (v : BitVec 5)
  | vld (v : BitVec 5) (lay : BitVec 3) (fmt : BitVec 6)
  | vgath (v : BitVec 5) (esz : BitVec 2)
  | st
  | amo (d : BitVec 6) (aop : BitVec 4)
  | cas (d : BitVec 6)
  | bput (bop : BitVec 4)
  | fget (d : BitVec 6)
  | fput
  | desc (d : BitVec 6)
  | shrel (d : BitVec 6) (win : Nat)
  | shacq (d : BitVec 6) (win : Nat)
  deriving DecidableEq, Repr

/-- One access of a task: one per instruction, however many elements (R210). `id` gives the program order. -/
structure Access where
  id : Nat
  pc : Word
  w0 : IWord
  w1 : IWord
  kind : AccKind
  cls : BitVec 4
  acq : Bool
  rel : Bool
  scp : BitVec 3
  tensor : BitVec 8
  elems : List Elem
  deriving DecidableEq, Repr

/-! ### Engines -/

/-- What a matrix operation computes (spec/09_matrix.md R165, R178 to R181), with the operands read at issue. -/
inductive MxKind where
  | mmt (a : Word) (m n k cb : Nat) (ty : BitVec 4) (stream zf : Bool)
  | mzero
  | mdrain (a : Word) (ty : BitVec 4) (rm : BitVec 3) (sat : Bool)
  | mdadd (a : Word) (fp : Bool)
  | mbrd (row seg : Nat) (ty : BitVec 4) (v : BitVec 5) (rm : BitVec 3)
  deriving DecidableEq, Repr

/-- How an operation of an engine stands, in the STATE codes of R173 and R197: waiting to start, running, stopped (by
the slip rule, or before a booked start), finished its work. -/
inductive OpSt where
  | waiting
  | running
  | stopped
  | finished
  deriving DecidableEq, Repr

/-- What every engine command carries: its task and plane, booking step, issue address, captured controls (R177),
ordering (R222), and its progress. `before` is the first access id that does not precede it in program order; `ran`
counts slots since it started, without halts (R79, R291). -/
structure Cmd where
  id : Nat
  vd : Nat
  task : Nat
  plane : BitVec 1
  bk : Nat
  step : Nat
  pc : Word
  acq : Bool
  rel : Bool
  scp : BitVec 3
  before : Nat
  issued : Nat
  ran : Nat
  st : OpSt
  waitFault : Bool
  ended : Option Nat
  deriving DecidableEq, Repr

/-- A tensor statistics entry (spec/08_numbers.md R159). -/
structure Stat where
  sat : Nat
  flush : Nat
  nan : Nat
  inf : Nat
  deriving DecidableEq, Repr

/-- An operation in a matrix engine (R171). `prog` counts K-steps or tile rows; `flags` are the exceptions of its work,
[5] an sNaN consumed, [4:0] as sr.fps; `stat` its events (R177); `sf` the source tile's FMT when it began (R181); `tested`: its stream
record has passed its test (R166). -/
structure MxOp where
  c : Cmd
  kind : MxKind
  tile : BitVec 3
  en : BitVec 6
  tensor : BitVec 8
  ftz : Bool
  prog : Nat
  acks : Nat
  flags : BitVec 6
  srcNx : Bool
  stat : Stat
  sf : BitVec 2
  tested : Bool
  deriving DecidableEq, Repr

/-- A LOOPC in progress (spec/10_memory_streams.md R194): where its body starts, entries in the body, entries left in this
pass, the pass and the passes, and the increments. -/
structure CpLoop where
  line : Word
  word : Nat
  k : Nat
  left : Nat
  r : Nat
  n : Nat
  sinc : Int
  dinc : Int
  deriving DecidableEq, Repr

/-- A copy in a copy engine (R192 to R197): the line (or the CPYS entry) it is at, the word of the next entry, entries and bytes
done, how many pieces of the current entry are done, bytes that a peer package or the host returned for the next piece, and
whether an answer is awaited; `moved`: bytes in the current slot, by calendar (R75); `flits`: those sent over ports (R284); `doms`: the domains that the bytes of `buf` come from (R270);
`en` the trap enables at issue, `flags` the exceptions of its decoding, as an MxOp's (R191); `cur` the entry being done, once read: the place
behind it and its words. -/
structure CpOp where
  c : Cmd
  chain : Bool
  line : Word
  word : Nat
  tag : Option (BitVec 6)
  ents : Nat
  bytes : Nat
  done : Nat
  loop : Option CpLoop
  buf : Option (List Byte)
  wait : Bool
  wrote : Nat
  moved : Table Nat
  flits : Nat
  doms : List Nat
  en : BitVec 6
  flags : BitVec 6
  cur : Option (Word × Nat × List IWord)
  deriving DecidableEq, Repr

/-- What CPYQ returns of a copy that has left the engine (R197), by its command id. -/
structure CopyStat where
  id : Nat
  state : Nat
  ents : Nat
  bytes : Nat
  deriving DecidableEq, Repr

/-! ### Planes and cores -/

/-- A trap being taken (spec/14_traps_preemption.md R275, R276): what the trap record will hold. -/
structure TrapInfo where
  cause : Word
  epc : Word
  tval : Word
  resume : Word
  origin : Word
  more : Nat
  state : Nat
  step : Nat
  bkh : Nat
  slot : Word
  deriving DecidableEq, Repr

/-- Why a task holds (spec/02_execution_model.md R22, R23, spec/05_core.md R91), as data that says when the hold ends: registers
being loaded; counts at or below thresholds; tag bits; accesses performed at a scope; the translation of a load; a line fill; a booked start with the
command that then enters its engine; a BOOK result; a matrix read; an XINV, with the
accesses (core, plane, id) that used what it removed. -/
inductive Hold where
  | regs (gs : List (BitVec 6)) (vs : List (BitVec 5))
  | counts (mx cp st ld : Nat)
  | tagAny (mask : Word)
  | tagAll (mask : Word)
  | accs (ids : List Nat) (scp : BitVec 3)
  | resolve (id : Nat)
  | fill (line : Word)
  | startMx (slot : Nat) (op : MxOp)
  | startCp (slot : Nat) (op : CpOp)
  | book (req : Nat)
  | mbrd (v : BitVec 5)
  | xinv (accs : List (Nat × Nat × Nat))
  deriving DecidableEq, Repr

/-- What a PARKED task waits with (R241, R247): an access of its own, a line fill, or an instruction to be executed again. -/
inductive Park where
  | access (id : Nat)
  | fill (line : Word)
  | again
  deriving DecidableEq, Repr

/-- A booked copy not yet covered by a TWANY, TWALL or WAIT (spec/04_calendars.md R88): command id, tag, completion slot. -/
structure Lead where
  id : Nat
  tag : Option (BitVec 6)
  done : Option Nat
  deriving DecidableEq, Repr

/-- One context plane (spec/02_execution_model.md R30, spec/05_core.md): its task (a key of State.fr.tasks), registers,
lease rows, outstanding accesses in program order, and why it does not issue. -/
structure Plane where
  task : Option Nat
  pc : Word
  regs : Regs
  sr : Sr
  oc : Oc
  loop : Loop
  row : Nat
  rows : Nat
  acc : List Access
  nextId : Nat
  hold : Option Hold
  park : Option Park
  trap : Option TrapInfo
  stepping : Bool
  deriving DecidableEq, Repr

/-- A line in a line store (spec/05_core.md R99): VD, line address, sixteen words. -/
structure Line where
  vd : Nat
  addr : Word
  words : List IWord
  deriving DecidableEq, Repr

/-- An entry of a translation cache (spec/12_translation.md R239): VD, first VA page and DPA page of 64 KiB, how many such pages it
maps (1, or 32 for 2 MiB), the stage-1 leaf's level, FMT, W, X, C and stage-2 W, M. -/
structure TcEnt where
  vd : Nat
  page : Nat
  dpage : Nat
  n : Nat
  lvl : Nat
  fmt : BitVec 6
  w : Bool
  x : Bool
  c : Bool
  w2 : Bool
  m : Bool
  deriving DecidableEq, Repr

/-- A tile status word (spec/09_matrix.md R173): KST, STATE, FMT, FZ, MIX, IOV, flags. -/
structure Tile where
  kst : BitVec 16
  st : BitVec 4
  fmt : BitVec 2
  fz : Bool
  mix : Bool
  iov : Bool
  fl : BitVec 6
  deriving DecidableEq, Repr

/-- A core: two planes, which one is active, line store and translation cache (most recently used first), memories, tiles,
and its engines' operations in the order in which they entered (R171). `sect` lists lease sectors that a booked copy wrote
and nothing has read since (R88); `want` the lines (VD, address) being fetched ahead of execution (R99, R111). -/
structure Core where
  p0 : Plane
  p1 : Plane
  act : BitVec 1
  lines : List Line
  tc : List TcEnt
  spad : Memory
  creel : Memory
  bobbin : Memory
  tiles : Vector Tile 8
  mx : List MxOp
  cp : List CpOp
  sect : List Nat
  want : List (Nat × Word)
  deriving DecidableEq, Repr

/-- A walk of a die (spec/12_translation.md R240): its VD and 64 KiB VA page; whether it may install entries (R249); whether it has
been counted as started, which it is when it takes a slot. -/
structure Walk where
  vd : Nat
  page : Nat
  fill : Bool
  counted : Bool
  deriving DecidableEq, Repr

/-- A die: the core staging served last (R34), the sweep firing served last (R45), its walks in arrival order, of which the first 64
hold the walk slots (R240). -/
structure Die where
  lastCore : Nat
  lastFired : Option (Nat × Nat)
  walks : List Walk
  deriving DecidableEq, Repr

/-! ### Tasks, sweeps, front end -/

/-- An asynchronous fault pending on a task (R280): cause code, SRC, tval, origin, booking, state of the operation. -/
structure AFault where
  code : Nat
  src : Nat
  tval : Word
  origin : Word
  bkh : Nat
  step : Nat
  state : Nat
  deriving DecidableEq, Repr

/-- How a lane of a spilled task's parked instruction, or its line fill, stands (R246): waiting, to be retried, failed with a
kind (16: a window integrity mismatch, R265); with the lane's VA. -/
inductive LaneSt where
  | waiting (va : Word)
  | retry
  | failed (kind : Nat) (va : Word)
  deriving DecidableEq, Repr

/-- A task as its home dispatcher keeps it (R19, R20, R25): word 2 and word 0 [63:48] of its record, and what the device
keeps beside the record. Its key in the task table is 2^20·vd + the record's index in the pool. `orig` keeps the
coordinates that the task was created with (software may change word 1); `record` is the index k of the trap record pair of a trap task; `trapped` the task it serves; `trapSr` the sr.cause,
sr.epc and sr.tval that a trap task is loaded with (spec/05_core.md R93); `more` the trap record of a trap already taken (R281); `requeued`: RETT re-queued it (R278); `parkAt`, `parkWords` and `lanes`: the parked
instruction that its spill frame records (R242); `kept`: its access, as far as it has come, with what its plane waited for (R246); `cpq` by tag what CPYQ returns (R197); `leads`: its booked copies not yet covered (R88). -/
structure Task where
  vd : Nat
  idx : Nat
  kind : BitVec 2
  pri : BitVec 2
  smode : Bool
  st : Bool
  cx : Bool
  sf : Bool
  state : TState
  dcnt : Int
  home : Nat
  swid : BitVec 12
  bkh : Nat
  point : Word
  orig : Word
  rows : Nat
  frame : Option (Nat × Nat × Nat)
  readyAt : Nat
  readySeq : Nat
  faults : List AFault
  record : Option Nat
  trapped : Option Nat
  trapSr : Word × Word × Word
  more : Option Nat
  requeued : Bool
  parkAt : Option Word
  parkWords : Word
  lanes : Table LaneSt
  kept : Option (Access × Option Park)
  cpq : Table CopyStat
  leads : List Lead
  deriving DecidableEq, Repr

/-- Who launched a sweep: a LAUNCH instruction, a command of a queue, a node of a launch graph. -/
inductive SweepSrc where
  | launch
  | queue (q tag : Nat)
  | graph (g node : Nat)
  deriving DecidableEq, Repr

/-- The sweep states of FRQ STATUS (spec/03_frontier.md R56). -/
inductive SweepSt where
  | running | freezing | frozen | completing
  deriving DecidableEq, Repr

/-- A column's frontier (R42). -/
structure Col where
  h : Nat
  w : BitVec 32
  i : BitVec 33
  deriving DecidableEq, Repr

/-- A running sweep. `key` tells it from every other sweep, of any id. `cols` by sweep column number; `ghosts` by 65,536·die + column (R51); `gates` by 8·die + face; `pend` the
pending sums of a frozen sweep by face (R50); `acted`: its completion action has been performed (R16). -/
structure Sweep where
  key : Nat
  vd : Nat
  swid : BitVec 12
  desc : List Word
  st : SweepSt
  done : Nat
  cols : Table Col
  ghosts : Table Col
  gates : Table Nat
  pend : Table Nat
  src : SweepSrc
  acted : Bool
  deriving DecidableEq, Repr

/-- A sweep that waits in the front end for a free id (R15). -/
structure WaitSweep where
  vd : Nat
  desc : List Word
  src : SweepSrc
  deriving DecidableEq, Repr

/-- A launch graph (spec/15_virtual_devices.md R301): its queue and tag, table address, the node counts copied at the take, the
nodes launched and done, and the first rejection (code, node). -/
structure Graph where
  vd : Nat
  q : Nat
  tag : Nat
  table : Word
  nnode : Nat
  counts : List Nat
  launched : List Nat
  done : List Nat
  reject : Option (Nat × Nat)
  deriving DecidableEq, Repr

/-- A completion entry waiting for room in its ring (R300). -/
structure Post where
  vd : Nat
  q : Nat
  w0 : Word
  swid : Nat
  deriving DecidableEq, Repr

/-- A decrement on its way to a task's home die (R25); `fin`: the sweep whose completion action it is (R299). -/
structure Dec where
  vd : Nat
  va : Nat
  fin : Option Nat
  deriving DecidableEq, Repr

/-- An edge message on its way (R51), of the sweep with `key`. -/
structure Edge where
  key : Nat
  src : Nat
  dst : Nat
  vd : Nat
  swid : BitVec 12
  col : Nat
  h : Nat
  w : BitVec 32
  deriving DecidableEq, Repr

/-- A gate addition on its way to one die (R50), for the sweep with `key`; `fin`: the sweep whose completion action it is (R299). -/
structure GAdd where
  key : Nat
  fin : Option Nat
  vd : Nat
  swid : BitVec 12
  die : Nat
  face : Nat
  amount : Nat
  deriving DecidableEq, Repr

/-- A watch-table entry (spec/18_ref_d_l.md R350): the home agent, the DPA of a future's word 1, the VD and task id. -/
structure Watch where
  agent : Nat
  dpa : Nat
  vd : Nat
  va : Nat
  deriving DecidableEq, Repr

/-- Work that dispatchers, frontier units and the launch front end keep. -/
structure Front where
  tasks : Table Task
  sweeps : List Sweep
  waiting : List WaitSweep
  graphs : Table Graph
  posts : List Post
  decs : List Dec
  edges : List Edge
  gadds : List GAdd
  watches : List Watch
  readySeq : Nat
  nextSweep : Nat
  deriving DecidableEq, Repr

/-! ### Booking -/

/-- How a booked step stands, in the STATE codes of spec/04_calendars.md R89. -/
inductive StepSt where
  | booked | running | done | cancelled | released | portdown | voided | expired
  deriving DecidableEq, Repr

/-- A step of a booking: its interval [start, start + len) on calendar `cal` at `rate` units, its relation to the step
before, and what became of it. `slipCancel`: cancelled by the slip rule or a failed late slip (R78, R76). `rem`: the
remote node and ingress calendar. `orig`, `late`: the start that the slip rule counts its delay from, and that delay (R78). -/
structure BStep where
  kind : BitVec 3
  withRel : Bool
  gap : Nat
  dur : Nat
  len : Nat
  rate : Nat
  vol : Nat
  cal : Nat
  start : Nat
  st : StepSt
  consumed : Bool
  slipCancel : Bool
  free : Bool
  rem : Option (Nat × Nat × Nat)
  orig : Nat
  late : Nat
  deriving DecidableEq, Repr

/-- A committed booking (R61); its key in the booking table is its handle's [23:0] without the generation: 4,096·die + entry. -/
structure Booking where
  vd : Nat
  owner : Nat
  gen : Nat
  pri : BitVec 2
  steps : List BStep
  deriving DecidableEq, Repr

/-- A step of a chain record as read (R63). -/
structure CStep where
  kind : BitVec 3
  selm : BitVec 2
  rel : Bool
  rmt : Bool
  sk : BitVec 3
  dur : Nat
  gap : Nat
  node : Nat
  low : BitVec 20
  vol : Nat
  sel : BitVec 32
  addr : Word
  homes : Option Nat
  deriving DecidableEq, Repr

/-- A chain record as read (R62). `rsvd`: some reserved field is nonzero. -/
structure Chain where
  pri : BitVec 2
  post : Bool
  vdid : Nat
  rcnt : Nat
  nstep : Nat
  deadline : Nat
  early : Nat
  fut : Word
  rsvd : Bool
  steps : List CStep
  deriving DecidableEq, Repr

/-- What a request has come to: queued for its search; exchanging with foreign owners, with the answers so far; waiting for
confirmations; postponed. -/
inductive ReqSt where
  | queued
  | preparing (sent : Nat)
  | committing (sent : Nat)
  | postponed
  deriving DecidableEq, Repr

/-- The answer of a foreign owner to one step (R70): granted (calendar, start), refused (hint), confirmed. -/
inductive Ans where
  | grant (cal start : Nat)
  | refuse (hint : Option Nat)
  | confirmed
  deriving DecidableEq, Repr

/-- A booking request (R67 to R74): of a BOOK (its task and record address) or of a chain template. `s0` is the slot DEADLINE counts
from, `h0` the slot in which the current search began; `told`: BOOK has answered PENDING or POSTPONED; `back`: a backfill searches
for it; `fit` is the placement of the current round, (calendar, start) of each step; `ans` the owners' answers, by step, 8 + step
for a remote node, 16 more for confirmations. -/
structure BReq where
  id : Nat
  die : Nat
  vd : Nat
  task : Nat
  tmpl : Bool
  record : Word
  chain : Chain
  s0 : Nat
  t : Nat
  rounds : Nat
  refusals : Nat
  firstRef : Option Nat
  nextTry : Option Nat
  pendingH : Nat
  told : Bool
  back : Bool
  h0 : Nat
  st : ReqSt
  fit : List (Nat × Nat)
  ans : Table Ans
  deriving DecidableEq, Repr

/-- A tentative or senior hold on a calendar (R69, R70). `req` is the booker's request (a
remote booker's RID, with its `node`); `senior`: the task and record that may take it; `dead`: freed, and gone at the next slot
boundary (R87). -/
structure CHold where
  cal : Nat
  start : Nat
  len : Nat
  rate : Nat
  req : Nat
  node : Option Nat
  step : Nat
  placed : Nat
  senior : Option (Nat × Word)
  dead : Bool
  deriving DecidableEq, Repr

/-- A committed interval kept for another booker under (SRC, handle, step) (spec/16_fliurn.md R315); node 4096 is this package's own
booker, until its booking is committed; the VD whose booking it is; `dead` as for a hold. -/
structure RInt where
  node : Nat
  vd : Nat
  handle : Nat
  step : Nat
  cal : Nat
  start : Nat
  len : Nat
  rate : Nat
  dead : Bool
  deriving DecidableEq, Repr

/-- A booking message in flight between booking units of the package (R70). A PREPARE whose selector is the core of another step
names that step (`same`) and its kind's first calendar. -/
inductive BMsg where
  | prepare (req step start len rate : Nat) (cands : List Nat) (same : Option Nat)
  | grant (req step cal start : Nat)
  | refuse (req step : Nat) (hint : Option Nat)
  | commit (req step handle : Nat)
  | confirm (req step : Nat)
  | abort (req step : Nat)
  | cancel (handle step : Nat)
  | lost (req step : Nat)
  deriving DecidableEq, Repr

/-- What the booking units keep. `gens` by 4,096·die + entry; `results` of BOOK requests not yet taken by the task; `loose` the bytes of
unbooked work per capacity calendar in the current slot (R60, R86); `freed`: slots were freed since the last boundary (R80). -/
structure Bk where
  bookings : Table Booking
  gens : Table Nat
  reqs : List BReq
  results : Table Word
  holds : List CHold
  rints : List RInt
  msgs : List BMsg
  nextReq : Nat
  loose : Table Nat
  freed : Bool
  deriving DecidableEq, Repr

/-! ### HBM, Virry, translation -/

/-- A counter block or tree node (spec/13_virry.md R257, R262): major counter, minor counters by child. -/
structure Ctr where
  maj : Word
  mins : Table Nat
  deriving DecidableEq, Repr

/-- The assignment of a 64 KiB DPA frame: its domain (VD id, or 256 + window number) and its VPA page there (R254, R255). -/
structure Frame where
  dom : Nat
  page : Nat
  deriving DecidableEq, Repr

/-- A domain (R254): which key set it has, where its root is held (a home agent 0 to 31, or none: secure SRAM), the frames of its tree
area (R261). -/
structure Domain where
  keys : Nat
  root : Option Nat
  tree : List Nat
  deriving DecidableEq, Repr

/-- What a stage-2 walk comes to (spec/12_translation.md R235): the DPA page of 64 KiB, W, M, and how many such pages the leaf maps
(1 or 32). -/
structure S2 where
  dpage : Nat
  w : Bool
  m : Bool
  n : Nat
  deriving DecidableEq, Repr

/-- A stage-2 table of firmware (R233): the VD it serves, its entries by index. -/
structure S2Tab where
  vd : Nat
  ents : Table Word
  deriving DecidableEq, Repr

/-- What waits on a fault request (R244, R246, R247): a lane of a task's parked access, a task's line fill or instruction, the
copy of a core by its command id, a remote request (node, tid). -/
inductive Attach where
  | lane (task lane : Nat) (va : Word)
  | task (task : Nat) (va : Word)
  | engine (core id : Nat) (va : Word)
  | remote (node tid : Nat) (m : FMsg)
  deriving DecidableEq, Repr

/-- An outstanding fault request (R244). `posted`: written to the ring (or sent to firmware); before that it waits for room. -/
structure FReq where
  vd : Nat
  page : Nat
  kind : Nat
  va : Word
  acc : Nat
  lvl : Nat
  task : Nat
  bkh : Nat
  rid : BitVec 32
  posted : Bool
  att : List Attach
  deriving DecidableEq, Repr

/-- A share window (R269): its two VDs with access and VPA page, its frames, its sequence; `closing`: its mappings are gone, and the accesses
(core, plane, id) that the invalidations still wait for (R271). -/
structure Window where
  a : Nat
  b : Nat
  aw : Bool
  bw : Bool
  aPage : Nat
  bPage : Nat
  size : Nat
  frames : List Nat
  seq : Word
  closing : Option (List (Nat × Nat × Nat))
  deriving DecidableEq, Repr

/-- An operation held by page migration at the home agents (R252), in arrival order. -/
inductive HeldOp where
  | elem (core plane acc el : Nat)
  | msg (m : FMsg)
  | rdmaWrite (vd qp : Nat) (va : Word) (data : List Byte)
  | rdmaAtomic (vd : Nat) (va : Word) (cas : Bool) (op new : Word)
  | copy (core id : Nat) (dpa : Nat) (va : Word) (data : List Byte)
  | device (vd : Nat) (va : Nat) (dpa : Nat) (data : List Byte)
  deriving DecidableEq, Repr

/-- The steps of R252 that take time: the first invalidation, the copy, the second invalidation, and that of a failed copy (R253). -/
inductive MigSt where
  | first | copying | last | undo
  deriving DecidableEq, Repr

/-- A page migration in progress (R252): its step and the accesses (core, plane, id) its invalidation waits for (R250), the domain, page,
frames F and G, the held operations. -/
structure Mig where
  st : MigSt
  waits : List (Nat × Nat × Nat)
  vd : Nat
  page : Nat
  f : Nat
  g : Nat
  held : List HeldOp
  deriving DecidableEq, Repr

/-- HBM and what the home agents and firmware keep about it. `ctrs` by DPA group of 4 KiB; `nodes` by 2^44·domain + 2^36·level + index;
`store` the counter-store contents per home agent, most recently used first; `bad` the 64-byte blocks (by DPA / 64) whose
ciphertext fails its tag check, `badNodes` the nodes whose stored form fails its CHK (R264); `tabs` the stage-2 tables by DPA / 4096
(R233). -/
structure Hbm where
  mem : Memory
  frames : Table Frame
  doms : Table Domain
  ctrs : Table Ctr
  nodes : Table Ctr
  store : Table (List Nat)
  bad : List Nat
  badNodes : List Nat
  tabs : Table S2Tab
  wins : Table Window
  winReqs : List (Nat × WindowReq)
  migs : List Mig
  freqs : List FReq
  nextKeys : Nat
  deriving DecidableEq, Repr

/-! ### Virtual devices -/

/-- A queue as the front end keeps it (spec/15_virtual_devices.md R295 to R297): HEAD, held tail, last SEQ, CTAIL, sweeps running,
the shadow of PRI and MAXS. -/
structure Queue where
  head : BitVec 32
  tail : BitVec 32
  seq : Word
  ctail : BitVec 32
  pri : Nat
  maxs : Nat
  open_ : Nat
  polled : Option Nat := none
  deriving DecidableEq, Repr

/-- The halt of a VD (spec/14_traps_preemption.md R282, R283): reason code of R284, whether it is fatal, the units stopped,
the tval of its cause. -/
structure Halt where
  reason : Nat
  fatal : Bool
  stopped : List HaltUnit
  tval : Word
  deriving DecidableEq, Repr

/-- A freeze (R285, R288): the switch slot, whether the save is complete. -/
structure Freeze where
  start : Nat
  saved : Bool
  deriving DecidableEq, Repr

/-- A defined VD. `run`: it holds its hanks; `s2root`: the DPA of its stage-2 root (R233); `rqt`, `rph`, `rpt`: ring positions (R243); counters by 32·bank + index (R303); `charged` and
`debt` by period and class (R84, R85); `ord`: the ordering status word (R229); `savedTasks` and `retmpl`: the tasks that a freeze saved, and those of them whose chain template
is booked afresh at restore (R55, R83); `step`: the plane that a debugger steps (R292). -/
structure Vd where
  d : VdDef
  run : Bool
  gen : BitVec 16
  s2root : Nat
  queues : Table Queue
  rqt : BitVec 32
  rpt : BitVec 32
  rph : BitVec 32
  cnt : Table Word
  ord : Word
  stats : Table Stat
  hostw : Table HostWin
  span : List Nat
  halt : Option Halt
  freeze : Option Freeze
  unsave : Bool
  charged : Table Nat
  debt : Table Nat
  savedTasks : List Nat
  retmpl : List Nat
  step : Option (Nat × Nat)
  deriving DecidableEq, Repr

/-! ### Fabric, host, firmware -/

/-- Who awaits a remote or host operation: an element of an access, an MDADD or a copy by its command id, the device's
fill of a future in a host window, whose FULL is then written (R352), a completion action (the sweep's key, R299), a LOAD of
a debugger (R291), nobody (a gate, a notice to the host). -/
inductive Who where
  | elem (core plane acc el : Nat)
  | mdadd (core id : Nat)
  | copy (core id : Nat)
  | full (win off : Nat) (fin : Option Nat)
  | action (key : Nat)
  | load
  | gate
  deriving DecidableEq, Repr

/-- A request open at its source (spec/16_fliurn.md R314); `port`: the port that carries it. -/
structure OpenReq where
  node : Nat
  tid : Nat
  msg : FMsg
  sent : Nat
  tries : Nat
  stopped : Bool
  who : Who
  port : Nat
  deriving DecidableEq, Repr

/-- A port (R310): up; how often in a row the latest frame was resent; whether its time exchange runs. -/
structure Port where
  up : Bool
  resent : Nat
  xchg : Bool
  deriving DecidableEq, Repr

/-- The offset a hub keeps toward a node (R316); the slot in which its periodic TIME last left. -/
structure Offset where
  o : Option Int
  validAt : Nat
  probe : Option Nat
  sent : Option Nat := none
  deriving DecidableEq, Repr

/-- The Fliurn ports and the hub's remote-access tables. `rest` keeps (node, tid, slot of last transmission) of closed requests. -/
structure Fab where
  node : Option (BitVec 12)
  ports : Table Port
  opens : List OpenReq
  waits : List (Nat × FMsg × Who)
  kept : List (Nat × Nat × FMsg × Nat)
  rest : List (Nat × Nat × Nat)
  offs : Table Offset
  out : List FMsg
  deriving DecidableEq, Repr

/-- What the device sends to the host: management replies and unsolicited messages (R304), RDMA operations on host windows (R294; `mask`:
the bytes that a sector store writes, all where none is given), responses to host RDMA. -/
inductive HostMsg where
  | reply (op vd : Nat) (seq : BitVec 32) (status : Nat) (body : List Byte)
  | unsolicited (op vd : Nat) (body : List Byte)
  | rdmaRead (id win off len : Nat)
  | rdmaWrite (id win off : Nat) (mask : Option (BitVec 64)) (data : List Byte)
  | rdmaAdd (id win off : Nat) (v : Word)
  | rdmaCas (id win off : Nat) (cmp new : Word)
  | response (vd : Nat) (ok : Bool) (data : List Byte)
  deriving DecidableEq, Repr

/-- An operation of the device on a host window that awaits its response; `wrote`: the bytes of a write. -/
structure HostOp where
  id : Nat
  vd : Nat
  win : Nat
  off : Nat
  who : Who
  wrote : Option Nat
  deriving DecidableEq, Repr

/-- The host port and the management channel. -/
structure HostIo where
  ops : List HostOp
  out : List HostMsg
  nextId : Nat
  deriving DecidableEq, Repr

/-- The two Warun firmware complexes (R305, R306): the active one, whether each runs, their images and image versions, an update waiting
to take over, the slot of the active one's last watchdog answer, the stop records in the emergency area (R284), the slot of the last
thermal poll (R13), and a LOAD whose bytes are still to come from the host (header, VD, core, plane; R291). -/
structure Fw where
  active : BitVec 1
  ok0 : Bool
  ok1 : Bool
  img0 : List Byte
  img1 : List Byte
  ver0 : Nat
  ver1 : Nat
  takeover : Bool
  alive : Nat
  emerg : List (Nat × List Word)
  polled : Option Nat
  load : Option (MgmtHdr × Nat × Nat × Nat)
  deriving DecidableEq, Repr

/-- One item of the schedule: a core's turn to issue, or a device event. -/
inductive Turn where
  | issue (core : BitVec 10)
  | event (e : Instr)
  deriving DecidableEq, Repr

/-- The state of the package. `cores` lists the cores that differ from `Core.reset`; `hanks` gives the VD that runs, or ran
last, on each hank.
`focus`, `agenda` and `freeCtr` are the model's own (notes/assumptions/1.md, 2.md, 3.md). -/
structure State where
  power : Power
  slot : Word
  cores : Table Core
  dies : Table Die
  vds : Table Vd
  hanks : Table Nat
  fr : Front
  bk : Bk
  hbm : Hbm
  fab : Fab
  io : HostIo
  fw : Fw
  nextId : Nat
  focus : BitVec 10
  agenda : List Turn
  freeCtr : Nat
  deriving DecidableEq, Repr

/-- Why a step can stop. Empty of use: every exception the spec describes is a next state here (a trap is taken, a VD
halts, a unit stops), and no instruction is left without an effect. -/
inductive Fault where
  /-- Raised by no meaning: the name is kept for an access to state the spec says does not exist. Safe. -/
  | noSuchState
  deriving DecidableEq, Repr

/-- Why an instruction is refused. -/
inductive Refusal where
  /-- An instruction with no meaning yet, rejected by the name of its table row. Safe. -/
  | notModelled (mnemonic : String)
  deriving DecidableEq, Repr

/-! ### Reset values -/

/-- Registers of an empty plane: zero (spec/02_execution_model.md R27 sets them at every load; notes/assumptions/6.md). -/
def Regs.reset : Regs :=
  { g := Vector.replicate 64 0, p := 0, m := Vector.replicate 8 0, v := Vector.replicate 32 0 }

/-- Control and status registers of an empty plane: zero (R93). -/
def Sr.reset : Sr :=
  { point := 0, sweep := 0, smode := false, tags := 0, fps := 0, fpen := 0, tensor := 0, cause := 0, epc := 0, tval := 0 }

/-- No loop (R94: sr.lcnt and sr.lpass reset to 0). -/
def Loop.reset : Loop := { act := false, mod := false, ns := 0, j := 0, n := 0, first := 0, exit := 0 }

/-- Counts of zero (R94). -/
def Oc.reset : Oc := { ldc := 0, stc := 0, cpc := 0, mxc := 0 }

/-- An empty plane. -/
def Plane.reset : Plane :=
  { task := none, pc := 0, regs := Regs.reset, sr := Sr.reset, oc := Oc.reset, loop := Loop.reset, row := 0,
    rows := 0, acc := [], nextId := 0, hold := none, park := none, trap := none, stepping := false }

/-- A tile status word of 0 (R173). -/
def Tile.reset : Tile := { kst := 0, st := 0, fmt := 0, fz := false, mix := false, iov := false, fl := 0 }

/-- A core after BOOT (R307: every SRAM cleared). -/
def Core.reset : Core :=
  { p0 := Plane.reset, p1 := Plane.reset, act := 0, lines := [], tc := [], spad := [], creel := [], bobbin := [],
    tiles := Vector.replicate 8 Tile.reset, mx := [], cp := [], sect := [], want := [] }

/-- A die after BOOT: staging starts with core 0 (notes/assumptions/7.md). -/
def Die.reset : Die := { lastCore := 127, lastFired := none, walks := [] }

/-- A counter block or node of zeros (R267). -/
def Ctr.reset : Ctr := { maj := 0, mins := [] }

/-- No statistics. -/
def Stat.reset : Stat := { sat := 0, flush := 0, nan := 0, inf := 0 }

/-- A column at launch (R42). -/
def Col.reset : Col := { h := 0, w := 0, i := 0 }

/-- The dispatchers, frontier units and front end with no work. -/
def Front.reset : Front :=
  { tasks := [], sweeps := [], waiting := [], graphs := [], posts := [], decs := [], edges := [], gadds := [], watches := [],
    readySeq := 0, nextSweep := 0 }

/-- The booking units with empty calendars. -/
def Bk.reset : Bk :=
  { bookings := [], gens := [], reqs := [], results := [], holds := [], rints := [], msgs := [], nextReq := 1, loose := [],
    freed := false }

/-- HBM with no frame assigned. -/
def Hbm.reset : Hbm :=
  { mem := [], frames := [], doms := [], ctrs := [], nodes := [], store := [], bad := [], badNodes := [], tabs := [], wins := [], winReqs := [],
    migs := [], freqs := [], nextKeys := 0 }

/-- A port that is up (notes/assumptions/8.md). -/
def Port.reset : Port := { up := true, resent := 0, xchg := false }

/-- The fabric with no node id (R311). -/
def Fab.reset : Fab :=
  { node := none, ports := [], opens := [], waits := [], kept := [], rest := [], offs := [], out := [] }

/-- The host port with nothing in flight. -/
def HostIo.reset : HostIo := { ops := [], out := [], nextId := 0 }

/-- Complex 0 active (notes/assumptions/8.md). -/
def Fw.reset : Fw := 
  { active := 0, ok0 := false, ok1 := false, img0 := [], img1 := [], ver0 := 0, ver1 := 0, takeover := false, alive := 0, emerg := [],
    polled := none, load := none }

/-- The package right after power is applied or a device reset: BOOT, nothing defined, every SRAM cleared
(spec/15_virtual_devices.md R307). -/
def State.reset : State :=
  { power := .boot, slot := 0, cores := [], dies := [], vds := [], hanks := [], fr := Front.reset, bk := Bk.reset,
    hbm := Hbm.reset, fab := Fab.reset, io := HostIo.reset, fw := Fw.reset, nextId := 0, focus := 0, agenda := [],
    freeCtr := 0 }

end Sys2Proof.Machine
end

