-- ==== Sys2Proof/Machine/Base.lean ====
section
/-! DEFINITION. Accessors: where each piece of State is read and written, the fixed registers g0, p0 and m0, guards, free
choices, counters. -/

namespace Sys2Proof.Machine

/-! ### Cores and planes -/

/-- Core `c`. -/
def State.core (s : State) (c : Nat) : Core := tgetD s.cores c Core.reset

/-- Replaces core `c`. -/
def State.setCore (s : State) (c : Nat) (k : Core) : State := { s with cores := tset s.cores c k }

/-- Rewrites core `c`. -/
def State.modCore (s : State) (c : Nat) (f : Core → Core) : State := s.setCore c (f (s.core c))

/-- Plane `p` of a core. -/
def Core.plane (k : Core) (p : BitVec 1) : Plane := if p = 1 then k.p1 else k.p0

/-- Replaces plane `p` of a core. -/
def Core.setPlane (k : Core) (p : BitVec 1) (x : Plane) : Core := if p = 1 then { k with p1 := x } else { k with p0 := x }

/-- Plane `p` of core `c`. -/
def State.plane (s : State) (c : Nat) (p : BitVec 1) : Plane := (s.core c).plane p

/-- Rewrites plane `p` of core `c`. -/
def State.modPlane (s : State) (c : Nat) (p : BitVec 1) (f : Plane → Plane) : State :=
  s.modCore c fun k => k.setPlane p (f (k.plane p))

/-- The core whose turn it is. -/
def State.fc (s : State) : Nat := s.focus.toNat

/-- The active plane's number at the core whose turn it is. -/
def State.fp (s : State) : BitVec 1 := (s.core s.fc).act

/-- The active plane of the core whose turn it is: the plane whose instruction executes. -/
def State.pl (s : State) : Plane := s.plane s.fc s.fp

/-- Rewrites the plane whose instruction executes. -/
def State.modPl (s : State) (f : Plane → Plane) : State := s.modPlane s.fc s.fp f

/-! ### Registers (spec/05_core.md R92) -/

/-- g register `r`: g0 reads 0. -/
def Plane.rg (p : Plane) (r : BitVec 6) : Word := if r = 0 then 0 else p.regs.g[r.toNat]'r.isLt

/-- Writes g register `r`: a write to g0 is discarded. -/
def Plane.wg (p : Plane) (r : BitVec 6) (x : Word) : Plane :=
  if r = 0 then p else { p with regs := { p.regs with g := p.regs.g.set r.toNat x r.isLt } }

/-- v register `r`. -/
def Plane.rv (p : Plane) (r : BitVec 5) : VReg := p.regs.v[r.toNat]'r.isLt

/-- Writes v register `r`. -/
def Plane.wv (p : Plane) (r : BitVec 5) (x : VReg) : Plane :=
  { p with regs := { p.regs with v := p.regs.v.set r.toNat x r.isLt } }

/-- Predicate `r`: p0 reads true. -/
def Plane.rp (p : Plane) (r : BitVec 3) : Bool := r = 0 || p.regs.p.getLsbD r.toNat

/-- Writes predicate `r`: a write to p0 is discarded. -/
def Plane.wp (p : Plane) (r : BitVec 3) (b : Bool) : Plane :=
  if r = 0 then p
  else
    let bit : BitVec 8 := 1#8 <<< r.toNat
    { p with regs := { p.regs with p := if b then p.regs.p ||| bit else p.regs.p &&& ~~~bit } }

/-- Mask `r`: m0 reads 0xFFFF. -/
def Plane.rm (p : Plane) (r : BitVec 3) : BitVec 16 := if r = 0 then 0xFFFF#16 else p.regs.m[r.toNat]'r.isLt

/-- Writes mask `r`: a write to m0 is discarded. -/
def Plane.wm (p : Plane) (r : BitVec 3) (x : BitVec 16) : Plane :=
  if r = 0 then p else { p with regs := { p.regs with m := p.regs.m.set r.toNat x r.isLt } }

/-- The predicate a guard field names, as a truth value (R103, R115): bit 3 negates, 0b1000 is never true. -/
def Plane.guard (p : Plane) (g : BitVec 4) : Bool := p.rp (g.extractLsb' 0 3) != g.getLsbD 3

/-- The lanes a guard field leaves active (R103, R115). -/
def Plane.vguard (p : Plane) (g : BitVec 4) : BitVec 16 :=
  if g.getLsbD 3 then ~~~(p.rm (g.extractLsb' 0 3)) else p.rm (g.extractLsb' 0 3)

/-- Lane `i` of a v register. -/
def lane (v : VReg) (i : Nat) : Word := v.extractLsb' (64 * i) 64

/-- A v register from its sixteen lanes, lane 0 first. -/
def ofLanes (ls : List Word) : VReg := ls.foldr (fun w acc => (acc <<< 64) ||| w.setWidth 1024) 0

/-- The bits of the active lanes, all ones in each lane whose mask bit is 1. -/
def laneBits (m : BitVec 16) : VReg :=
  ofLanes ((List.range 16).map fun i => if m.getLsbD i then BitVec.allOnes 64 else 0)

/-- Writes only the active lanes (R104). -/
def mergeLanes (m : BitVec 16) (old new : VReg) : VReg := (new &&& laneBits m) ||| (old &&& ~~~(laneBits m))

/-! ### VDs, tasks, counters -/

/-- VD `v`, if defined. -/
def State.vd (s : State) (v : Nat) : Option Vd := tget s.vds v

/-- Rewrites VD `v`. -/
def State.modVd (s : State) (v : Nat) (f : Vd → Vd) : State := { s with vds := tmod s.vds v f }

/-- Adds `n` to counter `i` of bank `b` of VD `v`, modulo 2^64 (spec/15_virtual_devices.md R303). -/
def State.count (s : State) (v b i n : Nat) : State :=
  s.modVd v fun d => { d with cnt := tset d.cnt (32 * b + i) (tgetD d.cnt (32 * b + i) 0 + BitVec.ofNat 64 n) }

/-- Rewrites what the dispatchers and the front end keep. -/
def State.modFr (s : State) (f : Front → Front) : State := { s with fr := f s.fr }

/-- Rewrites what the booking units keep. -/
def State.modBk (s : State) (f : Bk → Bk) : State := { s with bk := f s.bk }

/-- Rewrites HBM and what the home agents keep. -/
def State.modHbm (s : State) (f : Hbm → Hbm) : State := { s with hbm := f s.hbm }

/-- Rewrites what the fabric keeps. -/
def State.modFab (s : State) (f : Fab → Fab) : State := { s with fab := f s.fab }

/-- The key of a task: its VD and the index of its record. -/
def taskKey (vd idx : Nat) : Nat := 1048576 * vd + idx

/-- Task `k`, if one exists. -/
def State.task (s : State) (k : Nat) : Option Task := tget s.fr.tasks k

/-- Rewrites task `k`. -/
def State.modTask (s : State) (k : Nat) (f : Task → Task) : State := s.modFr fun r => { r with tasks := tmod r.tasks k f }

/-- The task of the executing plane. -/
def State.curTask (s : State) : Option Task := s.pl.task.bind s.task

/-- The VD id of the executing plane's task (0 where none). -/
def State.curVd (s : State) : Nat := match s.curTask with | some t => t.vd | none => 0

/-- The task id: the VA of its record (R18). -/
def taskVa (d : VdDef) (idx : Nat) : Nat := d.poolBase + 64 * idx

/-- The die of a core (spec/01_device.md R6). -/
def dieOf (core : Nat) : Nat := core / 128

/-- The hank of a core (R6). -/
def hankOf (core : Nat) : Nat := core / 16

/-- The VD owns the core's hank (R293). -/
def ownsCore (d : Vd) (core : Nat) : Bool := d.d.hanks.contains (hankOf core)

/-- The slot counter as a number. -/
def State.now (s : State) : Nat := s.slot.toNat

/-! ### Free choices -/

/-- Picks one of a list of alternatives the spec leaves free: none of an empty list, the one of a singleton, otherwise by a
free value (notes/assumptions/3.md). -/
def State.pick {α : Type} (s : State) (xs : List α) : Option α :=
  match xs with
  | [] => none
  | [x] => some x
  | _ => xs[Config.freePick s.freeCtr % xs.length]?

/-- Advances the counter that numbers the free values. -/
def State.bump (s : State) : State := { s with freeCtr := s.freeCtr + 1 }

/-! ### Packing -/

/-- sr.oc as a doubleword (R94). -/
def Oc.word (o : Oc) : Word := BitVec.setWidth 64 (o.mxc ++ o.cpc ++ o.stc ++ o.ldc)

/-- Every count is zero. -/
def Oc.zero (o : Oc) : Bool := o.ldc == 0 && o.stc == 0 && o.cpc == 0 && o.mxc == 0

/-- sr.lpass as a doubleword (R94). -/
def Loop.pass (l : Loop) : Word :=
  BitVec.ofBool l.act ++ BitVec.ofBool l.mod ++ l.ns ++ (0 : BitVec 27) ++ l.j

/-- A tile status word (spec/09_matrix.md R173). -/
def Tile.word (t : Tile) : Word :=
  (0 : BitVec 16) ++ t.kst ++ t.st ++ (0 : BitVec 16) ++ t.fmt ++ BitVec.ofBool t.fz ++ BitVec.ofBool t.mix ++
    BitVec.ofBool t.iov ++ (0 : BitVec 1) ++ t.fl

/-- Tile `k` of a core. -/
def Core.tile (c : Core) (k : BitVec 3) : Tile := c.tiles[k.toNat]'k.isLt

/-- Rewrites tile `k` of a core. -/
def Core.modTile (c : Core) (k : BitVec 3) (f : Tile → Tile) : Core :=
  { c with tiles := c.tiles.set k.toNat (f (c.tile k)) k.isLt }

/-- The task state codes of R21. -/
def TState.code (t : TState) : Nat :=
  match t with
  | .waiting => 0 | .ready => 1 | .staged => 2 | .active => 3 | .held => 4 | .parked => 5 | .spilled => 6 | .done => 7

/-- Words 0, 1 and 2 of a task's record (spec/02_execution_model.md R19), NEXT given. -/
def Task.word0 (t : Task) (next : Word) : Word :=
  (0 : BitVec 6) ++ BitVec.ofBool t.sf ++ BitVec.ofBool t.cx ++ t.kind ++ t.pri ++ BitVec.ofBool t.smode ++
    BitVec.ofBool t.st ++ (0 : BitVec 2) ++ next.extractLsb' 0 48

/-- Word 2 of a task's record (R19). -/
def Task.word2 (t : Task) : Word :=
  BitVec.ofNat 4 t.state.code ++ BitVec.ofNat 24 t.bkh ++ BitVec.ofInt 16 t.dcnt ++ BitVec.ofNat 8 t.vd ++ t.swid

/-- A range of VA below 2^48 (the HBM window, spec/10_memory_streams.md R188). -/
def inHbmWindow (va : Word) : Bool := decide (va.toNat < 281474976710656)

/-- Rounds up. -/
def ceilDiv (a b : Nat) : Nat := (a + b - 1) / b

/-- Inserts a number into an ascending list. -/
def insNat (x : Nat) (xs : List Nat) : List Nat :=
  match xs with
  | [] => [x]
  | y :: rest => if x ≤ y then x :: y :: rest else y :: insNat x rest

/-- Sorts a list of numbers, ascending. -/
def sortNat (xs : List Nat) : List Nat := xs.foldr insNat []

/-- Removes the first element that satisfies `p`. -/
def dropFirst {α : Type} (p : α → Bool) (xs : List α) : List α :=
  match xs with
  | [] => []
  | x :: rest => if p x then rest else x :: dropFirst p rest

/-- Removes the `i`-th element. -/
def dropAt {α : Type} (xs : List α) (i : Nat) : List α :=
  match xs, i with
  | [], _ => []
  | _ :: rest, 0 => rest
  | x :: rest, i + 1 => x :: dropAt rest i

/-- Rewrites the `i`-th element. -/
def modAt {α : Type} (xs : List α) (i : Nat) (f : α → α) : List α :=
  match xs, i with
  | [], _ => []
  | x :: rest, 0 => f x :: rest
  | x :: rest, i + 1 => x :: modAt rest i f

/-- A write to sr.fpen, from an instruction, a spill frame or a debugger: reserved bits are ignored; an RM of 0, 6 or 7 leaves RM as it was
(spec/08_numbers.md R157; notes/assumptions/71.md). -/
def fpenWrite (old x : Word) : Word :=
  let rm := x.extractLsb' 8 3
  let keep := rm = 0 || decide (6 ≤ rm.toNat)
  (x &&& 0x303F#64) ||| (if keep then old &&& 0x700#64 else x &&& 0x700#64)

end Sys2Proof.Machine
end

