-- ==== Sys2Proof/Machine/Float.lean ====
section
/-! DEFINITION. Floating-point values and arithmetic, exact and then rounded once (spec/08_numbers.md R138 to R155). -/

namespace Sys2Proof.Machine

/-! ### Formats -/

/-- A floating-point format: exponent and fraction bits; E4M3 has one NaN code, no infinity (R138 to R143). -/
structure Fmt where
  eb : Nat
  fb : Nat
  e4m3 : Bool
  deriving DecidableEq, Repr

/-- The format of a TYPE code 0 to 5 (R122). -/
def fmtOf (ty : Nat) : Fmt :=
  match ty with
  | 0 => ⟨11, 52, false⟩
  | 1 => ⟨8, 23, false⟩
  | 2 => ⟨5, 10, false⟩
  | 3 => ⟨8, 7, false⟩
  | 4 => ⟨4, 3, true⟩
  | _ => ⟨5, 2, false⟩

/-- The exponent bias. -/
def Fmt.bias (f : Fmt) : Nat := 2 ^ (f.eb - 1) - 1

/-- The width in bits. -/
def Fmt.width (f : Fmt) : Nat := 1 + f.eb + f.fb

/-- The sign bit in place. -/
def Fmt.sign (f : Fmt) (neg : Bool) : Nat := if neg then 2 ^ (f.eb + f.fb) else 0

/-- The quiet bit. -/
def Fmt.quiet (f : Fmt) : Nat := 2 ^ (f.fb - 1)

/-- The infinity of a sign; E4M3 has 0x7F or 0xFF in its place (R155). -/
def Fmt.inf (f : Fmt) (neg : Bool) : Nat :=
  f.sign neg + (if f.e4m3 then 127 else (2 ^ f.eb - 1) * 2 ^ f.fb)

/-- The default NaN with a sign (R142). -/
def Fmt.nan (f : Fmt) (neg : Bool) : Nat :=
  f.sign neg + (if f.e4m3 then 127 else (2 ^ f.eb - 1) * 2 ^ f.fb + f.quiet)

/-- The largest finite value of a sign. -/
def Fmt.maxFin (f : Fmt) (neg : Bool) : Nat :=
  f.sign neg + (if f.e4m3 then 126 else (2 ^ f.eb - 2) * 2 ^ f.fb + (2 ^ f.fb - 1))

/-- A value read: a NaN (sign, signalling, fraction), an infinity, or a finite (-1)^neg · m · 2^e. -/
inductive FVal where
  | nan (neg sn : Bool) (frac : Nat)
  | inf (neg : Bool)
  | fin (neg : Bool) (m : Nat) (e : Int)
  deriving DecidableEq, Repr

/-- Reads bits. -/
def Fmt.decode (f : Fmt) (b : Nat) : FVal :=
  let neg := b / 2 ^ (f.eb + f.fb) % 2 == 1
  let ex := b / 2 ^ f.fb % 2 ^ f.eb
  let fr := b % 2 ^ f.fb
  if f.e4m3 && ex == 15 && fr == 7 then .nan neg false 0
  else if !f.e4m3 && ex == 2 ^ f.eb - 1 then
    if fr = 0 then .inf neg else .nan neg (decide (fr < f.quiet)) fr
  else if ex = 0 then .fin neg fr (1 - (f.bias : Int) - f.fb)
  else .fin neg (fr + 2 ^ f.fb) ((ex : Int) - f.bias - f.fb)

/-- The bits are a subnormal. -/
def Fmt.isSub (f : Fmt) (b : Nat) : Bool := b / 2 ^ f.fb % 2 ^ f.eb == 0 && b % 2 ^ f.fb != 0

/-- A NaN. -/
def FVal.isNan (v : FVal) : Bool := match v with | .nan _ _ _ => true | .inf _ => false | .fin _ _ _ => false

/-- A signalling NaN. -/
def FVal.isSn (v : FVal) : Bool := match v with | .nan _ s _ => s | .inf _ => false | .fin _ _ _ => false

/-- The sign. -/
def FVal.neg (v : FVal) : Bool := match v with | .nan n _ _ => n | .inf n => n | .fin n _ _ => n

/-- Flips the sign. -/
def FVal.flip (v : FVal) : FVal :=
  match v with | .nan n s p => .nan (!n) s p | .inf n => .inf (!n) | .fin n m e => .fin (!n) m e

/-! ### Results -/

/-- What an operation on one element gives: bits, flags [5:0] SV NX UF OF DZ NV, whether an sNaN was consumed, flushes, and
whether a clamp counts (R156, R159). -/
structure FRes where
  bits : Nat
  fl : BitVec 6
  sn : Bool
  flush : Nat
  clamp : Bool
  deriving DecidableEq, Repr

/-- A result with no event. -/
def FRes.ok (bits : Nat) : FRes := { bits := bits, fl := 0, sn := false, flush := 0, clamp := false }

/-- The flags. -/
def fNV : BitVec 6 := 1
def fDZ : BitVec 6 := 2
def fOF : BitVec 6 := 4
def fUF : BitVec 6 := 8
def fNX : BitVec 6 := 16
def fSV : BitVec 6 := 32

/-- The controls of an operation: mode 1 RNE, 2 RTZ, 3 RUP, 4 RDN, 5 RNA; DAZ, FTZ and the UF trap enable (R157). -/
structure FCtl where
  mode : Nat
  daz : Bool
  ftz : Bool
  euf : Bool
  deriving DecidableEq, Repr

/-- Whether a discarded part `r` of a unit 2·half rounds up in magnitude (R148). -/
def roundsUp (mode : Nat) (neg odd : Bool) (r half : Nat) : Bool :=
  match mode with
  | 2 => false
  | 3 => !neg && r != 0
  | 4 => neg && r != 0
  | 5 => decide (half ≤ r) && r != 0
  | _ => decide (half < r) || (r == half && odd && r != 0)

/-- Rounds m · 2^e to a multiple of 2^q: the multiple and whether it differs (R148). -/
def roundAt (mode : Nat) (neg : Bool) (m : Nat) (e q : Int) : Nat × Bool :=
  if q ≤ e then (m * 2 ^ (e - q).toNat, false)
  else
    let k := (q - e).toNat
    let t := m / 2 ^ k
    let r := m % 2 ^ k
    (t + (if roundsUp mode neg (t % 2 == 1) r (2 ^ (k - 1)) then 1 else 0), r != 0)

/-- Whether an overflow of a sign gives infinity (R152). -/
def ovfInf (mode : Nat) (neg : Bool) : Bool :=
  match mode with | 2 => false | 3 => !neg | 4 => neg | _ => true

/-- Rounds the exact (-1)^neg · m · 2^e into a format (R148, R152, R153, R155). `sat`: the SAT form; `exact`: a conversion of
R154, which sets no flag and is never flushed. Tininess is seen after rounding to the format's own steps. -/
def Fmt.round (f : Fmt) (c : FCtl) (sat exact neg : Bool) (m : Nat) (e : Int) : FRes :=
  if m = 0 then FRes.ok (f.sign neg)
  else
    let top := e + m.log2
    let q := max (top - f.fb) (1 - (f.bias : Int) - f.fb)
    let r := roundAt c.mode neg m e q
    let n := r.1
    if n < 2 ^ f.fb then
      if exact then FRes.ok (f.sign neg + n)
      else if c.ftz then { bits := f.sign neg, fl := fUF ||| fNX, sn := false, flush := 1, clamp := false }
      else { FRes.ok (f.sign neg + n) with fl := (if r.2 || c.euf then fUF else 0) ||| (if r.2 then fNX else 0) }
    else
      let l := n.log2
      let ex := q + l + f.bias
      let fr := n / 2 ^ (l - f.fb) - 2 ^ f.fb
      let big := if f.e4m3 then decide (15 < ex) || (ex == 15 && fr == 7) else decide ((2 ^ f.eb : Int) - 2 < ex)
      if big then
        if sat then { FRes.ok (f.maxFin neg) with fl := fSV ||| fNX, clamp := true }
        else if ovfInf c.mode neg then { FRes.ok (f.inf neg) with fl := fOF ||| fNX }
        else { FRes.ok (f.maxFin neg) with fl := fOF ||| fNX }
      else { FRes.ok (f.sign neg + ex.toNat * 2 ^ f.fb + fr) with fl := if r.2 then fNX else 0 }

/-- A NaN source in a destination format, quieted (R151). -/
def nanInto (src dst : Fmt) (neg : Bool) (frac : Nat) : Nat :=
  if dst.e4m3 || src.e4m3 then dst.nan neg
  else
    let p := if src.fb ≤ dst.fb then frac * 2 ^ (dst.fb - src.fb) else frac / 2 ^ (src.fb - dst.fb)
    let p := p % dst.quiet + dst.quiet
    dst.sign neg + (2 ^ dst.eb - 1) * 2 ^ dst.fb + p

/-- The invalid operation: default NaN, NV (R151). -/
def Fmt.invalid (f : Fmt) : FRes := { FRes.ok (f.nan false) with fl := fNV }

/-- An input as an sNaN consumer takes it: value and flushes (R153). -/
def Fmt.input (f : Fmt) (c : FCtl) (b : Nat) : FVal × Nat :=
  if c.daz && f.isSub b then (.fin (f.decode b).neg 0 0, 1) else (f.decode b, 0)

/-- The NaN rule of R151 for inputs in order, in one format: the result, or none where no input is a NaN. -/
def nanRule (f : Fmt) (vs : List FVal) : Option FRes :=
  match vs.find? FVal.isNan with
  | some (.nan n _ p) =>
    let sn := vs.any FVal.isSn
    some { FRes.ok (nanInto f f n p) with fl := if sn then fNV else 0, sn := sn }
  | _ => none

/-- The exact sum of two finite values, as (neg, m, e); an exact zero has its sign by R150. -/
def sumDy (mode : Nat) (n1 : Bool) (m1 : Nat) (e1 : Int) (n2 : Bool) (m2 : Nat) (e2 : Int) : Bool × Nat × Int :=
  let e := min e1 e2
  let a : Int := m1 * 2 ^ (e1 - e).toNat
  let b : Int := m2 * 2 ^ (e2 - e).toNat
  let t := (if n1 then -a else a) + (if n2 then -b else b)
  if t = 0 then (if m1 = 0 && m2 = 0 && n1 == n2 then n1 else mode == 4, 0, 0)
  else (decide (t < 0), t.natAbs, e)

/-- Adds flush counts of the inputs. -/
def FRes.flushed (r : FRes) (n : Nat) : FRes := { r with flush := r.flush + n }

/-- a · b + c with one rounding (R150, R425). -/
def Fmt.fma (f : Fmt) (k : FCtl) (a b c : FVal) : FRes :=
  match nanRule f [a, b, c] with
  | some r => r
  | none =>
    match a, b with
    | .fin na ma ea, .fin nb mb eb =>
      match c with
      | .fin nc mc ec =>
        let t := sumDy k.mode (na != nb) (ma * mb) (if ma * mb = 0 then ec else ea + eb) nc mc (if mc = 0 then ea + eb else ec)
        f.round k false false t.1 t.2.1 t.2.2
      | c => FRes.ok (f.inf c.neg)
    | a, b =>
      let zero (v : FVal) : Bool := match v with | .fin _ m _ => m == 0 | .inf _ => false | .nan _ _ _ => false
      if zero a || zero b then f.invalid
      else
        match c with
        | .inf n => if n == (a.neg != b.neg) then FRes.ok (f.inf n) else f.invalid
        | _ => FRes.ok (f.inf (a.neg != b.neg))

/-- a + b (R414). -/
def Fmt.add (f : Fmt) (k : FCtl) (a b : FVal) : FRes :=
  match nanRule f [a, b] with
  | some r => r
  | none =>
    match a, b with
    | .fin na ma ea, .fin nb mb eb =>
      let t := sumDy k.mode na ma (if ma = 0 then eb else ea) nb mb (if mb = 0 then ea else eb)
      f.round k false false t.1 t.2.1 t.2.2
    | .inf n, .inf m => if n == m then FRes.ok (f.inf n) else f.invalid
    | .inf n, _ => FRes.ok (f.inf n)
    | _, b => FRes.ok (f.inf b.neg)

/-- a · b (R414). -/
def Fmt.mul (f : Fmt) (k : FCtl) (a b : FVal) : FRes :=
  match nanRule f [a, b] with
  | some r => r
  | none =>
    match a, b with
    | .fin na ma ea, .fin nb mb eb => f.round k false false (na != nb) (ma * mb) (ea + eb)
    | .fin _ m _, .inf n => if m = 0 then f.invalid else FRes.ok (f.inf (a.neg != n))
    | .inf n, .fin _ m _ => if m = 0 then f.invalid else FRes.ok (f.inf (b.neg != n))
    | a, b => FRes.ok (f.inf (a.neg != b.neg))

/-- a / b (R422). -/
def Fmt.div (f : Fmt) (k : FCtl) (a b : FVal) : FRes :=
  match nanRule f [a, b] with
  | some r => r
  | none =>
    match a, b with
    | .fin na ma ea, .fin nb mb eb =>
      if mb = 0 then (if ma = 0 then f.invalid else { FRes.ok (f.inf (na != nb)) with fl := fDZ })
      else if ma = 0 then FRes.ok (f.sign (na != nb))
      else
        let sh := 2 * f.fb + 8
        let n := ma * 2 ^ sh
        f.round k false false (na != nb) (2 * (n / mb) + (if n % mb = 0 then 0 else 1)) (ea - eb - sh - 1)
    | .inf _, .inf _ => f.invalid
    | .inf n, b => FRes.ok (f.inf (n != b.neg))
    | a, b => FRes.ok (f.sign (a.neg != b.neg))

/-- The integer square root by bits, from bit `b - 1` down. -/
def isqrtGo (n r : Nat) : Nat → Nat
  | 0 => r
  | b + 1 =>
    let t := r + 2 ^ b
    if t * t ≤ n then isqrtGo n t b else isqrtGo n r b

/-- The integer square root. -/
def isqrt (n : Nat) : Nat := isqrtGo n 0 (n.log2 / 2 + 1)

/-- The square root (R447). -/
def Fmt.sqrt (f : Fmt) (k : FCtl) (a : FVal) : FRes :=
  match nanRule f [a] with
  | some r => r
  | none =>
    match a with
    | .fin n m e =>
      if m = 0 then FRes.ok (f.sign n)
      else if n then f.invalid
      else
        let sh := 2 * f.fb + 8 + (if (e % 2 == 0) then 0 else 1)
        let t := m * 2 ^ sh
        let r := isqrt t
        f.round k false false false (2 * r + (if r * r = t then 0 else 1)) ((e - sh) / 2 - 1)
    | .inf n => if n then f.invalid else FRes.ok (f.inf false)
    | .nan _ _ _ => f.invalid

/-- The order of two values that are no NaNs: -1, 0, 1 as less, equal, greater. -/
def fcmp (a b : FVal) : Int :=
  match a, b with
  | .inf n, .inf m => if n == m then 0 else if n then -1 else 1
  | .inf n, _ => if n then -1 else 1
  | _, .inf m => if m then 1 else -1
  | .fin na ma ea, .fin nb mb eb =>
    let e := min ea eb
    let x : Int := ma * 2 ^ (ea - e).toNat
    let y : Int := mb * 2 ^ (eb - e).toNat
    let x := if na then -x else x
    let y := if nb then -y else y
    if x < y then -1 else if x = y then 0 else 1
  | _, _ => 0

/-- A value back in its own format, exactly. -/
def Fmt.encode (f : Fmt) (v : FVal) : Nat :=
  match v with
  | .nan n _ p => f.sign n + (2 ^ f.eb - 1) * 2 ^ f.fb + p
  | .inf n => f.inf n
  | .fin n m e => (f.round { mode := 2, daz := false, ftz := false, euf := false } false true n m e).bits

/-- FP minimum or maximum (R433): −0 below +0; `v1` propagates a NaN. -/
def Fmt.minmax (f : Fmt) (isMax v1 : Bool) (a b : FVal) : FRes :=
  let sn := a.isSn || b.isSn
  let flag : BitVec 6 := if sn then fNV else 0
  let done (v : FVal) : FRes := { FRes.ok (f.encode v) with fl := flag, sn := sn }
  let nan : FRes := (nanRule f [a, b]).getD f.invalid
  if a.isNan || b.isNan then
    if v1 || (a.isNan && b.isNan) then nan
    else if a.isNan then done b else done a
  else
    let c := fcmp a b
    let less := decide (c < 0) || (c == 0 && a.neg && !b.neg)
    done (if isMax then (if less then b else a) else (if less then a else b))

/-! ### Conversions (R154, R155) -/

/-- Every value of the source is a value of the destination (R154). -/
def exactConv (src dst : Nat) : Bool :=
  match src, dst with
  | 0, _ => false
  | 1, d => d == 0
  | 2, d => d ≤ 1
  | 3, d => d ≤ 1
  | 4, d => d ≤ 2
  | 5, d => d ≤ 2
  | _, _ => false

/-- A floating-point value into a floating-point type. -/
def fpToFp (src dst : Nat) (k : FCtl) (sat : Bool) (b : Nat) : FRes :=
  let fs := fmtOf src
  let fd := fmtOf dst
  let i := fs.input k b
  (match i.1 with
  | .nan n sn p => { FRes.ok (nanInto fs fd n p) with fl := if sn then fNV else 0, sn := sn }
  | .inf n =>
    if sat then { FRes.ok (fd.maxFin n) with fl := fSV, clamp := true }
    else if fd.e4m3 then { FRes.ok (fd.inf n) with fl := fNV }
    else FRes.ok (fd.inf n)
  | .fin n m e => fd.round k sat (exactConv src dst) n m e).flushed i.2

/-- The bounds of an integer type: signed or not, width. -/
def intLo (signed : Bool) (w : Nat) : Int := if signed then -(2 ^ (w - 1) : Int) else 0
def intHi (signed : Bool) (w : Nat) : Int := if signed then (2 ^ (w - 1) : Int) - 1 else (2 ^ w : Int) - 1

/-- The w low bits of an integer. -/
def wrapInt (w : Nat) (x : Int) : Nat := (x % (2 ^ w : Int)).toNat

/-- An integer's value from its bits. -/
def intOf (signed : Bool) (w b : Nat) : Int :=
  if signed && decide (2 ^ (w - 1) ≤ b % 2 ^ w) then (b % 2 ^ w : Int) - 2 ^ w else (b % 2 ^ w : Int)

/-- A floating-point value into an integer type (R155). -/
def fpToInt (src : Nat) (signed : Bool) (w : Nat) (k : FCtl) (sat : Bool) (b : Nat) : FRes :=
  let fs := fmtOf src
  let i := fs.input k b
  let bad (v : Int) (sn : Bool) (clamp : Bool) : FRes :=
    { FRes.ok (wrapInt w v) with fl := (if sat then fSV else fNV) ||| (if sn then fNV else 0), sn := sn, clamp := sat && clamp }
  (match i.1 with
  | .nan _ sn _ => bad 0 sn true
  | .inf n => bad (if n then intLo signed w else intHi signed w) false true
  | .fin n m e =>
    let r := roundAt k.mode n m e 0
    let v : Int := if n then -(r.1 : Int) else r.1
    if v < intLo signed w then bad (intLo signed w) false true
    else if intHi signed w < v then bad (intHi signed w) false true
    else { FRes.ok (wrapInt w v) with fl := if r.2 then fNX else 0 }).flushed i.2

/-- An integer into a floating-point type (R155). -/
def intToFp (signed : Bool) (w dst : Nat) (k : FCtl) (sat : Bool) (b : Nat) : FRes :=
  let v := intOf signed w b
  (fmtOf dst).round k sat false (decide (v < 0)) v.natAbs 0

/-- An integer clamped to a type, with SV; or its low bits (R144, R155). -/
def intInto (signed : Bool) (w : Nat) (sat : Bool) (v : Int) : FRes :=
  if sat && decide (v < intLo signed w) then { FRes.ok (wrapInt w (intLo signed w)) with fl := fSV, clamp := true }
  else if sat && decide (intHi signed w < v) then { FRes.ok (wrapInt w (intHi signed w)) with fl := fSV, clamp := true }
  else FRes.ok (wrapInt w v)

/-! ### 4-bit blocks (R145 to R149) -/

/-- The magnitude of code k of a sign-magnitude block type, in eighths (R146). -/
def blockMag (ty k : Nat) : Nat :=
  match ty with
  | 1 => [0, 4, 8, 12, 16, 24, 32, 48].getD k 0
  | 2 => [0, 1, 2, 4, 8, 16, 32, 64].getD k 0
  | _ => [0, 8, 16, 24, 32, 48, 64, 96].getD k 0

/-- The value of a code in eighths (R146). -/
def blockVal (ty code : Nat) : Int :=
  if ty = 0 then 8 * (if code < 8 then (code : Int) else (code : Int) - 16)
  else if code < 8 then (blockMag ty code : Int) else -(blockMag ty (code - 8) : Int)

/-- A decoded code as an exact value: eighths at scale E (R145). -/
def blockDy (ty e code : Nat) : FVal :=
  let v := blockVal ty code
  .fin (decide (v < 0)) v.natAbs ((e : Int) - 32 - 3)

/-- The extreme magnitude of a sign in eighths, and its code (R147). -/
def blockExt (ty : Nat) (neg : Bool) : Nat × Nat :=
  match ty with
  | 0 => if neg then (64, 8) else (56, 7)
  | 1 => (48, if neg then 15 else 7)
  | 2 => (64, if neg then 15 else 7)
  | _ => (96, if neg then 15 else 7)

/-- q of R147, in eighths. -/
def blockQ (ty : Nat) : Nat := match ty with | 0 => 56 | 1 => 48 | 2 => 64 | _ => 96

/-- m · 2^e ≤ n / 8 · 2^s for naturals m, n. -/
def leDy (m : Nat) (e : Int) (n : Nat) (s : Int) : Bool :=
  let b := min e (s - 3)
  decide (m * 2 ^ (e - b).toNat ≤ n * 2 ^ (s - 3 - b).toNat)

/-- The least E from 0 whose scale covers the largest magnitude (R147). -/
def blockExp (ty m : Nat) (e : Int) : Nat → Nat → Nat
  | 0, x => x
  | n + 1, x => if leDy m e (blockQ ty) ((x : Int) - 32) then x else blockExp ty m e n (x + 1)

/-- The codes of a sign in ascending magnitude: (eighths, code). -/
def blockSet (ty : Nat) (neg : Bool) : List (Nat × Nat) :=
  match ty with
  | 0 => if neg then (0, 0) :: (List.range 8).map (fun i => (8 * (i + 1), 15 - i)) else (List.range 8).map fun i => (8 * i, i)
  | t => (List.range 8).map fun k => (blockMag t k, if k = 0 then 0 else if neg then k + 8 else k)

/-- Rounds |x| / scale = m · 2^e (scale taken out) to the set: (eighths, code), `none` where it stays beyond the extreme (R149). -/
def roundSet (ty mode : Nat) (neg : Bool) (m : Nat) (e : Int) : Option (Nat × Nat) :=
  let set := blockSet ty neg
  let x := blockExt ty neg
  let away := match mode with | 2 => false | 3 => !neg | 4 => neg | _ => true
  let lo := (set.filter fun v => !(leDy m e v.1 0)).getLastD (0, 0)
  let hi := set.find? fun v => leDy m e v.1 0
  match hi with
  | none => if away then none else some x
  | some h =>
    let b := min e (-3)
    let y := m * 2 ^ (e - b).toNat
    let l := lo.1 * 2 ^ (-3 - b).toNat
    let u := h.1 * 2 ^ (-3 - b).toNat
    if u = y then some h
    else
      match mode with
      | 2 => some lo
      | 3 => some (if neg then lo else h)
      | 4 => some (if neg then h else lo)
      | 5 => some (if y - l < u - y then lo else h)
      | _ =>
        if y - l < u - y then some lo else if u - y < y - l then some h
        else if lo.2 % 2 = 0 then some lo else some h

/-- One code of an encoded block (R147): code, flags, clamp count. -/
def blockCode (ty mode e : Nat) (sat : Bool) (v : FVal) : Nat × BitVec 6 × Bool :=
  match v with
  | .nan _ _ _ => (0, fNV, false)
  | .inf n => ((blockExt ty n).2, if sat then fSV else fNV, true)
  | .fin n m ex =>
    if m = 0 then (0, 0, false)
    else
      let xe := ex - ((e : Int) - 32)
      match roundSet ty mode n m xe with
      | none => ((blockExt ty n).2, (if sat then fSV else fOF) ||| fNX, true)
      | some r =>
        let b := min xe (-3)
        let same := decide (r.1 * 2 ^ (-3 - b).toNat = m * 2 ^ (xe - b).toNat)
        (r.2, (if same then 0 else fNX) ||| (if r.1 = 0 then fUF else 0), false)

/-- The exponent a block takes: from the largest finite magnitude (R147). -/
def blockScale (ty : Nat) (vs : List FVal) : Nat :=
  vs.foldl (fun x v =>
    match v with
    | .fin _ m e => if m = 0 then x else max x (blockExp ty m e 63 0)
    | _ => x) 0

/-- The class code of VCLASS (spec/21_ref_va_vm.md R417). -/
def Fmt.classOf (f : Fmt) (b : Nat) : Nat :=
  match f.decode b with
  | .nan _ sn _ => if sn then 0 else 1
  | .inf n => if n then 2 else 9
  | .fin n m _ =>
    if m = 0 then (if n then 5 else 6)
    else if f.isSub b then (if n then 4 else 7)
    else (if n then 3 else 8)

end Sys2Proof.Machine
end

