-- ==== Sys2Proof/Machine/Home.lean ====
section
/-! DEFINITION. The home agents: one access to a block of HBM under Virry, with its counters, counter stores, integrity
checks and watch tables (spec/13_virry.md R254 to R266, spec/18_ref_d_l.md R350), and the halt line (spec/14_traps_preemption.md
R282). -/

namespace Sys2Proof.Machine

/-! ### The halt line -/

/-- Whether an engine command belongs to VD `v`. -/
def Cmd.of (v : Nat) (c : Cmd) : Bool := c.vd == v

/-- The units of one core that hold work of VD `v` on a plane (R282). -/
def planeUnits (s : State) (v c : Nat) (k : Core) : List HaltUnit :=
  let has (p : Plane) : Bool := match p.task.bind s.task with | some t => t.vd == v | none => false
  (if has k.p0 then [.plane (BitVec.ofNat 10 c) 0] else []) ++ (if has k.p1 then [.plane (BitVec.ofNat 10 c) 1] else [])

/-- The ports that hold work of VD `v`: on whose calendar (2112 to 2127) a step of it runs, or that carry an open request of it. -/
def portUnits (s : State) (v : Nat) : List HaltUnit :=
  (List.range 16).filterMap fun p =>
    if (s.bk.bookings.any fun b => b.2.vd == v && b.2.steps.any fun t => t.st == .running && t.cal == 2112 + p) ||
       (s.fab.opens.any fun r => r.port == p && (r.msg.w0.extractLsb' 26 8).toNat == v)
    then some (.port (BitVec.ofNat 4 p)) else none

/-- The units that hold work of VD `v`, in the order of R284: planes, matrix engines, copy engines, ports, the host port. -/
def State.unitsOf (s : State) (v : Nat) : List HaltUnit :=
  s.cores.flatMap (fun e => planeUnits s v e.1 e.2) ++
  s.cores.flatMap (fun e => if e.2.mx.any (fun o => o.c.of v) then [HaltUnit.matrix (BitVec.ofNat 10 e.1)] else []) ++
  s.cores.flatMap (fun e => if e.2.cp.any (fun o => o.c.of v) then [HaltUnit.copy (BitVec.ofNat 10 e.1)] else []) ++
  portUnits s v ++ (if s.io.ops.any (fun o => o.vd == v && o.who != .load && o.who != .gate) then [.hostPort] else [])

/-- Sends a message to the host. -/
def State.toHost (s : State) (m : HostMsg) : State := { s with io := { s.io with out := s.io.out ++ [m] } }

/-- Matrix work of VD `v` that stands stopped shows STATE 6 in its tile (R283). -/
def State.fatalTiles (s : State) (v : Nat) (us : List HaltUnit) : State :=
  us.foldl (fun s u =>
    match u with
    | .matrix c => s.modCore c.toNat fun k => (k.mx.filter fun o => o.c.of v).foldl (fun k o => k.modTile o.tile fun t => { t with st := 6 }) k
    | _ => s) s

/-- Raises the halt line of VD `v` with a reason of R284 (R282, R283): every reason but 6, DEBUG, is fatal. A line that
is up for DEBUG becomes fatal; a fatal halt stays as it is. With no unit at work the host is told at once (R304). -/
def State.raiseHalt (s : State) (v reason : Nat) (tval : Word) : State :=
  match s.vd v with
  | none => s
  | some d =>
    match d.halt with
    | none =>
      let s := s.modVd v fun d => { d with halt := some { reason := reason, fatal := reason != 6, stopped := [], tval := tval } }
      if (s.unitsOf v).isEmpty then s.toHost (.unsolicited 128 v []) else s
    | some h =>
      if h.fatal || reason == 6 then s
      else (s.modVd v fun d => { d with halt := some { h with reason := reason, fatal := true, tval := tval } }).fatalTiles v h.stopped

/-! ### Homes -/

/-- The home agent 0 to 31 of a DPA (spec/01_device.md R7, spec/12_translation.md R232). -/
def agentOf (dpa : Nat) : Nat := dpa / 65536 % 64 / 2

/-- The compute die that homes a DPA. -/
def homeDie (dpa : Nat) : Nat := dpa / 65536 % 64 / 8

/-- The 64-byte block of a DPA. -/
def blockOf (dpa : Nat) : Nat := dpa / 64

/-- Every block touched by `len` bytes at `dpa` passes its tag check (R258). -/
def Hbm.verify (h : Hbm) (dpa len : Nat) : Bool :=
  !(h.bad.any fun b => decide (blockOf dpa ≤ b ∧ b ≤ blockOf (dpa + (len - 1))))

/-! ### The counter tree and counter stores -/

/-- The key of a node of the counter tree: domain, level, index (R261). -/
def nodeKey (dom level idx : Nat) : Nat := 17592186044416 * dom + 68719476736 * level + idx

/-- The key of the leaf of a DPA: its frame's domain and VPA (R255, R261). -/
def Hbm.leafKey (h : Hbm) (dpa : Nat) : Option Nat :=
  (tget h.frames (dpa / 65536)).map fun f => nodeKey f.dom 0 (16 * f.page + dpa / 4096 % 16)

/-- Advances the minor counter of child `i` in a node; past 63 the node wraps (R263), which a MAJ of all ones cannot (R260). -/
def Ctr.advance (c : Ctr) (i : Nat) : Option Ctr :=
  let m := tgetD c.mins i 0
  if m = 63 then (if c.maj = BitVec.allOnes 64 then none else some { maj := c.maj + 1, mins := [] })
  else some { c with mins := tset c.mins i (m + 1) }

/-- The domain, level and index that a node's key stands for. -/
def keyDom (k : Nat) : Nat := k / 17592186044416
def keyLevel (k : Nat) : Nat := k / 68719476736 % 256
def keyIdx (k : Nat) : Nat := k % 68719476736

/-- The parent of a leaf or node below the root (R261). -/
def parentKey (k : Nat) : Nat := nodeKey (keyDom k) (keyLevel k + 1) (if keyLevel k + 1 = 5 then 0 else keyIdx k / 64)

/-- The home agent of a domain's tree area (R261). -/
def Domain.agent (d : Domain) : Nat := agentOf (65536 * d.tree.headD 0)

/-- The home agent of a tree node (R263): the one that homes the domain's tree area. -/
def Hbm.nodeAgent (h : Hbm) (dom : Nat) : Nat := match tget h.doms dom with | some d => d.agent | none => 0

/-- A leaf or node is in a counter store. -/
def Hbm.stored (h : Hbm) (agent key : Nat) : Bool := (tgetD h.store agent []).contains key

/-- A counter that cannot advance, or a node that fails its CHK, is an integrity fault of its domain (R260, R264): of a VD, its halt line
goes up; of a window, the access that found it faults, as its caller does. -/
def State.treeFault (s : State) (dom : Nat) : State := if dom < 256 then s.raiseHalt dom 1 0 else s

/-- Advances the minor counter for a child in its parent (R263, step 1), which counts as a write-back (R272); false where it cannot. -/
def State.parentUp (s : State) (key : Nat) : Bool × State :=
  let pk := parentKey key
  match (tgetD s.hbm.nodes pk Ctr.reset).advance (keyIdx key % 64) with
  | none => (false, s)
  | some n =>
    let s := s.modHbm fun h => { h with nodes := tset h.nodes pk n }
    (true, if keyDom key < 256 then s.count (keyDom key) 4 3 1 else s)

/-- Brings a leaf (at its home agent) or a node into a counter store, first in use order: what is there already is only touched; else its
parents come first, down from the root, and a node must show its CHK (R262, R263). The least recently used of 32,768 entries
leaves, with a write-back for which its parent is brought in as well (`fuel` bounds the cascade; notes/assumptions/100.md). False: a node
of the key's domain failed its CHK, or its counter cannot advance; in another domain that is an integrity fault of its own. -/
def State.storeIn (s : State) (fuel agent key : Nat) : Bool × State :=
  match fuel with
  | 0 => (true, s.modHbm fun h => { h with store := tset h.store agent (key :: (tgetD h.store agent []).filter (· != key)) })
  | fuel + 1 =>
    if keyLevel key = 5 then (true, s)
    else if s.hbm.stored agent key then
      (true, s.modHbm fun h => { h with store := tset h.store agent (key :: (tgetD h.store agent []).filter (· != key)) })
    else
      match s.storeIn fuel (s.hbm.nodeAgent (keyDom key)) (parentKey key) with
      | (false, s) => (false, s)
      | (true, s) =>
        if 1 ≤ keyLevel key && s.hbm.badNodes.contains key then (false, s)
        else
          let l := key :: tgetD s.hbm.store agent []
          if l.length ≤ 32768 then (true, s.modHbm fun h => { h with store := tset h.store agent l })
          else
            let e := l.getLastD 0
            let s := s.modHbm fun h => { h with store := tset h.store agent l.dropLast }
            let up := s.storeIn fuel (s.hbm.nodeAgent (keyDom e)) (parentKey e)
            let up := if up.1 then up.2.parentUp e else up
            if up.1 then up
            else if keyDom e = keyDom key then up else (true, up.2.treeFault (keyDom e))

/-- The root of a domain is held at its tree area's home agent before that domain is served (R263). -/
def State.rootHome (s : State) (dom : Nat) : State :=
  match tget s.hbm.doms dom with
  | some d => if d.root.isSome then s else s.modHbm fun h => { h with doms := tset h.doms dom { d with root := some d.agent } }
  | none => s

/-- Takes the leaf of a DPA from its home agent's counter store (R258); false at a node that fails its CHK. -/
def State.leafTouch (s : State) (dpa : Nat) : Bool × State :=
  match s.hbm.leafKey dpa with
  | some k => (s.rootHome (keyDom k)).storeIn 12 (agentOf dpa) k
  | none => (true, s)

/-- Writes the entries of one level back: each parent's counter advances, brought into a store first if it is in none (R263). -/
def State.flushLevel (s : State) (v level : Nat) : State :=
  let mine (k : Nat) : Bool := keyDom k == v && keyLevel k == level
  let keys := s.hbm.store.flatMap fun e => e.2.filter mine
  let s := keys.foldl (fun s k =>
    let up := s.storeIn 12 (s.hbm.nodeAgent v) (parentKey k)
    let up := if up.1 then up.2.parentUp k else up
    if up.1 then up.2 else up.2.treeFault v) s
  s.modHbm fun h => { h with store := tmap h.store fun _ l => l.filter fun k => !mine k }

/-- Writes every entry of VD `v` back from the counter stores, leaves first (R263). -/
def State.storeFlush (s : State) (v : Nat) : State := [0, 1, 2, 3, 4].foldl (fun s n => s.flushLevel v n) s

/-- Advances the minor counter of the block at `dpa`: past 127 the group wraps, with a verification of the other blocks
(R258, R260). `none`: the wrap finds a mismatch, or MAJ cannot advance. -/
def State.minorAdvance (s : State) (dpa : Nat) : Option State :=
  let g := dpa / 4096
  let i := blockOf dpa % 64
  let c := tgetD s.hbm.ctrs g Ctr.reset
  let m := tgetD c.mins i 0
  if m = 127 then
    if c.maj = BitVec.allOnes 64 || (s.hbm.bad.any fun b => b / 64 == g && b != blockOf dpa) then none
    else
      let s := s.modHbm fun h => { h with ctrs := tset h.ctrs g { maj := c.maj + 1, mins := [] } }
      match tget s.hbm.frames (dpa / 65536) with
      | some f => some (if f.dom < 256 then s.count f.dom 4 1 1 else s)
      | none => some s
  else some (s.modHbm fun h => { h with ctrs := tset h.ctrs g { c with mins := tset c.mins i (m + 1) } })

/-! ### Watch tables (R350) -/

/-- A watched word 1 that a write of `len` bytes at `dpa` touched and left nonzero. -/
def Hbm.wakes (h : Hbm) (dpa len : Nat) (w : Watch) : Bool :=
  decide (w.dpa < dpa + len ∧ dpa < w.dpa + 8) && decide (leNat (memBytes h.mem w.dpa 8) ≠ 0)

/-- After a write at `dpa`: removes the entries it wakes and sends one decrement for each. -/
def State.wake (s : State) (dpa len : Nat) : State :=
  let hit := s.fr.watches.filter (s.hbm.wakes dpa len)
  s.modFr fun f =>
    { f with watches := f.watches.filter (fun w => !(s.hbm.wakes dpa len w)),
             decs := f.decs ++ hit.map fun w => { vd := w.vd, va := w.va, fin := none } }

/-! ### Accesses -/

/-- Reads `len` bytes of one block (R258). `none`: integrity mismatch. -/
def State.homeRead (s : State) (dpa len : Nat) : Option (List Byte) × State :=
  match s.leafTouch dpa with
  | (false, s) => (none, s)
  | (true, s) => if s.hbm.verify dpa len then (some (memBytes s.hbm.mem dpa len), s) else (none, s)

/-- Writes bytes within one block (R258). `rep`: a write of all 64 bytes replaces the block. `none`: integrity mismatch,
nothing written. -/
def State.homeWrite (s : State) (dpa : Nat) (data : List Byte) (rep : Bool) : Option State :=
  match s.leafTouch dpa with
  | (false, _) => none
  | (true, s) =>
    let whole := rep && dpa % 64 == 0 && data.length == 64
    if !whole && !(s.hbm.verify dpa data.length) then none
    else
      match s.minorAdvance dpa with
      | none => none
      | some s =>
        some ((s.modHbm fun h =>
          { h with mem := memWrite h.mem dpa data, bad := h.bad.filter (· != blockOf dpa) }).wake dpa data.length)

/-- The bytes of a masked write: the new ones where the mask bit is 1, else the old ones. -/
def mergeBytes (mask : BitVec 64) (old new : List Byte) : List Byte :=
  (List.range new.length).map fun i => if mask.getLsbD i then new.getD i 0 else old.getD i 0

/-- The domain of a DPA: a VD id, or 256 + window number. -/
def Hbm.domOf (h : Hbm) (dpa : Nat) : Nat := match tget h.frames (dpa / 65536) with | some f => f.dom | none => 0

/-- The effect of a mismatch at `dpa` on an access of VD `v` (R264): in the VD's own domain its halt line goes up, reason
INTEGRITY; a window raises nothing here (R265 says what the access does). -/
def State.mismatch (s : State) (dpa v : Nat) (va : Word) : State :=
  if s.hbm.domOf dpa < 256 then s.raiseHalt (s.hbm.domOf dpa) 1 va else s.count v 4 0 1

/-- The DPA lies in a share window's domain. -/
def Hbm.inWindow (h : Hbm) (dpa : Nat) : Bool := decide (256 ≤ h.domOf dpa)

/-- Assigns a frame to a domain, as zero plaintext with zero counters (R267). -/
def State.assignFrame (s : State) (frame dom page : Nat) : State :=
  s.modHbm fun h =>
    { h with
      frames := tset h.frames frame { dom := dom, page := page }
      mem := memClear h.mem (65536 * frame) 65536
      ctrs := tfilter h.ctrs fun g _ => g / 16 != frame
      bad := h.bad.filter fun b => b / 1024 != frame }

/-- A frame leaves its domain (R268, R271). -/
def State.freeFrame (s : State) (frame : Nat) : State := s.modHbm fun h => { h with frames := terase h.frames frame }

end Sys2Proof.Machine
end

