-- ==== Sys2Proof/Machine/Translate.lean ====
section
/-! DEFINITION. Address translation: the walk, permissions, translation caches, fault requests, and the device's own reads
and writes of VD memory (spec/12_translation.md R232 to R250). -/

namespace Sys2Proof.Machine

/-- The access types of R238. -/
inductive AccTy where
  | read | write | atomic | fetch
  deriving DecidableEq, Repr

/-- What a translation comes to: an entry, a fault of a kind at a level, an integrity mismatch of a walk read, or no walk slot free
(R240: the miss waits). -/
inductive TrRes where
  | ok (e : TcEnt)
  | fault (kind lvl : Nat)
  | integ
  | busy
  deriving DecidableEq, Repr

/-- An FMT of R189 is not reserved. -/
def fmtOk (f : BitVec 6) : Bool :=
  if f.extractLsb' 2 4 = 14 then decide ((f.extractLsb' 0 2).toNat ≤ 1) else f.extractLsb' 0 2 == 0

/-- A stage-1 entry is valid at a level (R234, R236). -/
def s1Valid (e : Word) (lvl : Nat) : Bool :=
  let t := e.getLsbD 1
  e.getLsbD 0 && e.extractLsb' 48 10 == 0 && e.extractLsb' 5 3 == 0 &&
  (if lvl ≤ 1 then t else if lvl = 3 then !t else true) &&
  (if t then e.extractLsb' 58 6 == 0 && (if lvl ≤ 1 then e.extractLsb' 8 4 == 0 else true)
   else fmtOk (e.extractLsb' 58 6) && (if lvl = 2 then e.extractLsb' 8 13 == 0 else e.extractLsb' 8 8 == 0))

/-- ADDR of an entry: bits [47:8], in place. -/
def entAddr (e : Word) : Nat := 256 * (e.extractLsb' 8 40).toNat

/-- The table index of a VA at a level (R233). -/
def s1Index (va : Nat) (lvl : Nat) : Nat :=
  match lvl with
  | 0 => va / 549755813888 % 512
  | 1 => va / 1073741824 % 512
  | 2 => va / 2097152 % 512
  | _ => va / 65536 % 32

/-- The stage-1 permission check of R238: the fault kind, if any. -/
def s1Perm (w x c : Bool) (acc : AccTy) : Option Nat :=
  match acc with
  | .read => none
  | .write => if !w then some 1 else if c then some 2 else none
  | .atomic => if !w then some 1 else if c then some 2 else none
  | .fetch => if x then none else some 1

/-- The stage-2 permission check of R238. -/
def s2Perm (w2 : Bool) (acc : AccTy) : Option Nat :=
  match acc with
  | .write => if w2 then none else some 4
  | .atomic => if w2 then none else some 4
  | .read => none
  | .fetch => none

/-- The reserved bits of a stage-2 entry are 0, and so is ADDR[47:40] (R234, R235). -/
def s2Clean (e : Word) : Bool := e.extractLsb' 58 6 == 0 && e.extractLsb' 48 10 == 0 && e.extractLsb' 40 8 == 0 && e.extractLsb' 5 3 == 0 && !(e.getLsbD 3)

/-- A stage-2 entry is valid at a level (R235, R236). -/
def s2Valid (e : Word) (lvl : Nat) : Bool :=
  let t := e.getLsbD 1
  e.getLsbD 0 && s2Clean e && (if lvl ≤ 1 then t else if lvl = 3 then !t else true) &&
  (if t then (if lvl ≤ 1 then e.extractLsb' 8 4 == 0 else true)
   else (if lvl = 2 then e.extractLsb' 8 13 == 0 else e.extractLsb' 8 8 == 0))

/-- The stage-2 entry at DPA `a`: one 8-byte read of firmware's tables (R233, R236). -/
def Hbm.s2Entry (h : Hbm) (a : Nat) : Word := match tget h.tabs (a / 4096) with | some t => tgetD t.ents (a % 4096 / 8) 0 | none => 0

/-- The levels of a stage-2 walk from table address `t` (R237); none: an invalid entry. -/
def s2Go (h : Hbm) (t vpa : Nat) : List Nat → Option S2
  | [] => none
  | lvl :: rest =>
    let e := h.s2Entry (t + 8 * s1Index vpa lvl)
    if !(s2Valid e lvl) then none
    else if e.getLsbD 1 then s2Go h (entAddr e) vpa rest
    else
      some { dpage := entAddr e / 65536 + (if lvl = 2 then vpa / 65536 % 32 else 0), w := e.getLsbD 2, m := e.getLsbD 4,
             n := if lvl = 2 then 32 else 1 }

/-- The stage-2 walk of a VPA (R233, R237). -/
def Hbm.stage2 (h : Hbm) (root vpa : Nat) : Option S2 := if vpa < 281474976710656 then s2Go h root vpa [0, 1, 2, 3] else none

/-- The DPA that a stage-2 leaf gives a VPA. -/
def S2.dpa (l : S2) (vpa : Nat) : Nat := 65536 * l.dpage + vpa % 65536

/-- The entry of a translation cache that a walk fills: one page of the smaller of the two stage sizes (R239). -/
def tcEntry (v va lvl : Nat) (e : Word) (l : S2) : TcEnt :=
  let big := lvl == 2 && l.n == 32
  { vd := v, page := if big then va / 2097152 * 32 else va / 65536, dpage := if big then l.dpage - l.dpage % 32 else l.dpage,
    n := if big then 32 else 1, lvl := lvl, fmt := e.extractLsb' 58 6, w := e.getLsbD 2, x := e.getLsbD 3, c := e.getLsbD 4,
    w2 := l.w, m := l.m }

/-- An access of a VD found a mismatch at a DPA (R264); `q`: a device access whose caller raises the halt itself (R247, R286), when the
VD's own domain is at fault. -/
def State.badRead (s : State) (q : Bool) (dpa v : Nat) (va : Word) : State :=
  if q && s.hbm.domOf dpa == v then s else s.mismatch dpa v va

/-- The levels of a walk from table address `t` (R237). -/
def walkGo (s : State) (q : Bool) (root v va : Nat) (acc : AccTy) (t : Nat) : List Nat → TrRes × State
  | [] => (.fault 0 3, s)
  | lvl :: rest =>
    let ea := t + 8 * s1Index va lvl
    match s.hbm.stage2 root ea with
    | none => (.fault 3 lvl, s)
    | some leaf =>
      match s.homeRead (leaf.dpa ea) 8 with
      | (none, s) => (.integ, s.badRead q (leaf.dpa ea) v (BitVec.ofNat 64 va))
      | (some bs, s) =>
        let e := leWord bs
        if !(s1Valid e lvl) then (.fault 0 lvl, s)
        else if e.getLsbD 1 then walkGo s q root v va acc (entAddr e) rest
        else
          match s1Perm (e.getLsbD 2) (e.getLsbD 3) (e.getLsbD 4) acc with
          | some k => (.fault k lvl, s)
          | none =>
            match s.hbm.stage2 root (entAddr e + (if lvl = 2 then va % 2097152 else va % 65536)) with
            | none => (.fault 3 3, s)
            | some l2 =>
              match s2Perm l2.w acc with
              | some k => (.fault k 3, s)
              | none => (.ok (tcEntry v va lvl e l2), s)

/-- The VA that translates for an address: the own node's HBM window acts as the HBM window at the same address (spec/10_memory_streams.md
R188). -/
def hbmVa (va : Word) : Word := va &&& 0xFFFFFFFFFFFF#64

/-- The reads and checks of a walk for a VA of VD `v` (R237). -/
def State.walkQ (s : State) (q : Bool) (v : Nat) (va : Word) (acc : AccTy) : TrRes × State :=
  match s.vd v with
  | none => (.fault 3 0, s)
  | some d => walkGo s q d.s2root v (hbmVa va).toNat acc d.d.s1root [0, 1, 2, 3]

/-- A walk that raises what it finds. -/
def State.walkRun (s : State) (v : Nat) (va : Word) (acc : AccTy) : TrRes × State := s.walkQ false v va acc

/-- A walk for a VA of VD `v`, counted as started (R237, R248). -/
def State.walk (s : State) (v : Nat) (va : Word) (acc : AccTy) : TrRes × State := (s.count v 3 1 1).walkRun v va acc

/-- An entry maps a VA page of a VD. -/
def TcEnt.maps (e : TcEnt) (v page : Nat) : Bool := e.vd == v && decide (e.page ≤ page ∧ page < e.page + e.n)

/-- The entry of a translation cache for a page of a VD. -/
def tcFind (tc : List TcEnt) (v page : Nat) : Option TcEnt := tc.find? fun e => e.maps v page

/-- Drops the entry for a page (R239). -/
def tcDrop (tc : List TcEnt) (v page : Nat) : List TcEnt := tc.filter fun x => !(x.maps v page)

/-- Puts an entry first, in place of older ones for its page; the least recently used of 256 leaves (R239). -/
def tcPut (tc : List TcEnt) (e : TcEnt) : List TcEnt :=
  (e :: tc.filter fun x => !(x.vd == e.vd && decide (x.page < e.page + e.n ∧ e.page < x.page + x.n))).take 256

/-- Permissions of a cached entry (R238). -/
def TcEnt.perm (e : TcEnt) (acc : AccTy) : Option (Nat × Nat) :=
  match s1Perm e.w e.x e.c acc with
  | some k => some (k, e.lvl)
  | none => (s2Perm e.w2 acc).map fun k => (k, 3)

/-- Looks a VA up in core `c`'s cache: `none` on a miss (R239). -/
def State.tcLook (s : State) (c v : Nat) (va : Word) (acc : AccTy) : Option TrRes × State :=
  match tcFind (s.core c).tc v ((hbmVa va).toNat / 65536) with
  | none => (none, s)
  | some e =>
    match e.perm acc with
    | some (k, l) => (some (.fault k l), s.modCore c fun k => { k with tc := tcDrop k.tc v ((hbmVa va).toNat / 65536) })
    | none => (some (.ok e), s.modCore c fun k => { k with tc := tcPut k.tc e })

/-! ### Walk slots (R240) -/

/-- Die `d`. -/
def State.die (s : State) (d : Nat) : Die := tgetD s.dies d Die.reset

/-- Rewrites die `d`. -/
def State.modDie (s : State) (d : Nat) (f : Die → Die) : State := { s with dies := tset s.dies d (f (s.die d)) }

/-- The walk of a VD's page. -/
def Walk.of (v page : Nat) (w : Walk) : Bool := w.vd == v && w.page == page

/-- A walk of the page holds one of the die's 64 slots. -/
def Die.inSlot (d : Die) (v page : Nat) : Bool := (d.walks.take 64).any (Walk.of v page)

/-- Walks that take a slot start, and are counted (R248). -/
def State.startWalks (s : State) (die : Nat) : State :=
  let new := ((s.die die).walks.take 64).filter fun w => !w.counted
  let s := new.foldl (fun s w => s.count w.vd 3 1 1) s
  s.modDie die fun d => { d with walks := d.walks.zipIdx.map fun w => if w.2 < 64 then { w.1 with counted := true } else w.1 }

/-- A miss of core `c` on a page joins the die's walk of it, or brings a new walk, which takes a slot or waits behind the others (R240). -/
def State.joinWalk (s : State) (c v : Nat) (va : Word) : State :=
  let page := (hbmVa va).toNat / 65536
  let die := dieOf c
  let s := s.count v 3 0 1
  if (s.die die).walks.any (Walk.of v page) then s
  else (s.modDie die fun d => { d with walks := d.walks ++ [{ vd := v, page := page, fill := true, counted := false }] }).startWalks die

/-- The first byte of an element's bytes: sectors and blocks are aligned to their length. -/
def Elem.start (e : Elem) : Word :=
  if 64 ≤ e.len then e.va &&& ~~~63#64 else if 32 ≤ e.len then e.va &&& ~~~31#64 else e.va

/-- An element waits for a walk of VA page `page`. -/
def Elem.walksFor (page : Nat) (e : Elem) : Bool := e.st == .walking && (hbmVa e.start).toNat / 65536 == page

/-- An element of a task of VD `v` on the die waits for a walk of the page. -/
def State.walkWanted (s : State) (die : Nat) (w : Walk) : Bool :=
  s.cores.any fun k => dieOf k.1 == die && [k.2.p0, k.2.p1].any fun x =>
    ((x.task.bind s.task).any fun t => t.vd == w.vd) && x.acc.any fun a => a.elems.any (Elem.walksFor w.page)

/-- Walks that nothing waits for any more leave their slots (R240). -/
def State.dropWalks (s : State) (die : Nat) : State :=
  if (s.die die).walks.isEmpty then s
  else (s.modDie die fun d => { d with walks := d.walks.filter (s.walkWanted die) }).startWalks die

/-- The walks of a VD that `p` names install no entry (R249, R250). -/
def State.walksNoFill (s : State) (p : Walk → Bool) : State :=
  { s with dies := tmap s.dies fun _ d => { d with walks := d.walks.map fun w => if p w then { w with fill := false } else w } }

/-- Fills core `c`'s cache with what a walk came to, if that is an entry (R239). -/
def State.tcFill (s : State) (c : Nat) (r : TrRes) : State :=
  match r with
  | .ok e => s.modCore c fun k => { k with tc := tcPut k.tc e }
  | _ => s

/-- The walk of a miss at core `c` in one step, with the entry filled when it succeeds (R239): it shares the die's walk of the page, or
takes a free slot, or finds none. -/
def State.trWalk (s : State) (c v : Nat) (va : Word) (acc : AccTy) : TrRes × State :=
  let d := s.die (dieOf c)
  let shared := d.inSlot v ((hbmVa va).toNat / 65536)
  if !shared && decide (64 ≤ d.walks.length) then (.busy, s)
  else
    let s := s.count v 3 0 1
    let r := if shared then s.walkRun v va acc else s.walk v va acc
    (r.1, r.2.tcFill c r.1)

/-- Translates at core `c`: cache, then walk. -/
def State.trNow (s : State) (c v : Nat) (va : Word) (acc : AccTy) : TrRes × State :=
  match s.tcLook c v va acc with
  | (some r, s) => (r, s)
  | (none, s) => s.trWalk c v va acc

/-- The DPA of a VA through an entry. -/
def TcEnt.dpa (e : TcEnt) (va : Word) : Nat := 65536 * (e.dpage + ((hbmVa va).toNat / 65536 - e.page)) + va.toNat % 65536

/-! ### Fault requests (R244) -/

/-- The key of the request that a fault of VD `v` at `va` of a kind belongs to. -/
def FReq.same (v page kind : Nat) (r : FReq) : Bool := r.vd == v && r.page == page && r.kind == kind

/-- Attaches a fault to its outstanding request, or opens one: kinds 3 and 4 go to firmware at once, kinds 0 to 2 wait for the
ring (FAULT_POST). -/
def State.postFault (s : State) (v : Nat) (va : Word) (kind lvl acc task bkh : Nat) (a : Attach) : State :=
  let page := (hbmVa va).toNat / 65536
  if s.hbm.freqs.any (FReq.same v page kind) then
    s.modHbm fun h =>
      { h with freqs := h.freqs.map fun r => if r.same v page kind then { r with att := r.att ++ [a] } else r }
  else
    let r : FReq := { vd := v, page := page, kind := kind, va := va, acc := acc, lvl := lvl, task := task, bkh := bkh,
                      rid := 0, posted := decide (3 ≤ kind), att := [a] }
    let s := s.modHbm fun h => { h with freqs := h.freqs ++ [r] }
    if 3 ≤ kind then s.count v 3 2 1 else s

/-! ### The device's own accesses to VD memory -/

/-- Cuts a run of `n` bytes at `a` at 64-byte boundaries: (address, length) pieces. -/
def pieces (a n : Nat) : Nat → List (Nat × Nat)
  | 0 => []
  | fuel + 1 =>
    if n = 0 then []
    else
      let k := min n (64 - a % 64)
      (a, k) :: pieces (a + k) (n - k) fuel

/-- The 64-byte pieces of a run. -/
def blocks (a n : Nat) : List (Nat × Nat) := pieces a n (n / 64 + 2)

/-- The trap cause that a fault of a kind becomes (R238), 16 standing for an integrity mismatch. -/
def causeOfKind (kind : Nat) : Nat := match kind with | 0 => 4 | 3 => 5 | 16 => 16 | _ => 6

/-- Translates a VA of VD `v` for the device; or the kind of the fault. -/
def State.devTr (s : State) (q : Bool) (v va : Nat) (acc : AccTy) : Except Nat Nat × State :=
  if va ≥ 281474976710656 then (.error 0, s)
  else
    match (s.count v 3 1 1).walkQ q v (BitVec.ofNat 64 va) acc with
    | (.ok e, s) => (.ok (e.dpa (BitVec.ofNat 64 va)), s)
    | (.fault k _, s) => (.error k, s)
    | (.integ, s) => (.error 16, s)
    | (.busy, s) => (.error 0, s)

/-- The migration that holds writes to a DPA, from the end of its first invalidation on: its frame F, or G once the entry names it (R252). -/
def Hbm.migOf (h : Hbm) (dpa : Nat) : Option Nat :=
  h.migs.findIdx? fun m => m.st != .first && (m.f == dpa / 65536 || m.g == dpa / 65536)

/-- The operations that a home agent holds for migrations. -/
def Hbm.heldCount (h : Hbm) (agent : Nat) : Nat := (h.migs.filter fun m => agentOf (65536 * m.f) == agent).foldl (fun n m => n + m.held.length) 0

/-- The home agent that holds writes to a DPA for a migration holds as many operations as it can (R253). -/
def Hbm.heldFull (h : Hbm) (i : Nat) : Bool := match h.migs[i]? with | some m => decide (4096 ≤ h.heldCount (agentOf (65536 * m.f))) | none => false

/-- The bytes at [`a`, `a` + `n`) after a write of `data` at `b`. -/
def overlay (a b : Nat) (data old : List Byte) : List Byte :=
  (List.range old.length).map fun i => if b ≤ a + i ∧ a + i < b + data.length then data.getD (a + i - b) 0 else old.getD i 0

/-- A read of the device waits behind its own held writes to the bytes (R253): it takes what they will have left. -/
def Hbm.behindHeld (h : Hbm) (v a : Nat) (bs : List Byte) : List Byte :=
  h.migs.foldl (fun bs m => m.held.foldl (fun bs o =>
    match o with
    | .device w b _ data => if w = v then overlay a b data bs else bs
    | _ => bs) bs) bs

/-- Reads pieces for the device; the fault kind on a translation fault, an unmapped address or an integrity mismatch. -/
def devReadGo (s : State) (q : Bool) (v : Nat) : List (Nat × Nat) → Except Nat (List Byte) × State
  | [] => (.ok [], s)
  | (a, n) :: rest =>
    match s.devTr q v a .read with
    | (.error k, s) => (.error k, s)
    | (.ok p, s) =>
      match s.homeRead p n with
      | (none, s) => (.error 16, s.badRead q p v (BitVec.ofNat 64 a))
      | (some bs, s) =>
        match devReadGo s q v rest with
        | (.ok more, s) => (.ok (s.hbm.behindHeld v a bs ++ more), s)
        | r => r

/-- Reads `n` bytes at VA `a` of VD `v` for the device. -/
def State.devRead (s : State) (v a n : Nat) : Option (List Byte) × State :=
  match devReadGo s false v (blocks a n) with
  | (.ok bs, s) => (some bs, s)
  | (.error _, s) => (none, s)

/-- Holds an operation for a migration (R252). -/
def State.holdOp (s : State) (i : Nat) (o : HeldOp) : State :=
  s.modHbm fun h => { h with migs := modAt h.migs i fun m => { m with held := m.held ++ [o] } }

/-- Writes pieces for the device; a write to a migrating page is held (R252). The fault kind, where one is met. -/
def devWriteGo (s : State) (q : Bool) (v : Nat) (data : List Byte) : List (Nat × Nat) → Option Nat × State
  | [] => (none, s)
  | (a, n) :: rest =>
    match s.devTr q v a .write with
    | (.error k, s) => (some k, s)
    | (.ok p, s) =>
      match s.hbm.migOf p with
      | some i => devWriteGo ((s.holdOp i (.device v a p (data.take n))).count v 3 7 1) q v (data.drop n) rest
      | none =>
        match s.homeWrite p (data.take n) false with
        | none => (some 16, s.badRead q p v (BitVec.ofNat 64 a))
        | some s => devWriteGo s q v (data.drop n) rest

/-- Writes bytes at VA `a` of VD `v` for the device: false on any fault (what was written stays written). -/
def State.devWrite (s : State) (v a : Nat) (data : List Byte) : Bool × State :=
  let r := devWriteGo s false v data (blocks a data.length)
  (r.1.isNone, r.2)

/-- Reads a doubleword for the device. -/
def State.devWord (s : State) (v a : Nat) : Option Word × State :=
  match s.devRead v a 8 with
  | (some bs, s) => (some (leWord bs), s)
  | (none, s) => (none, s)

/-- Writes doublewords for the device. -/
def State.devWords (s : State) (v a : Nat) (ws : List Word) : Bool × State := s.devWrite v a (ws.flatMap wordBytes)

/-- The doublewords of a run of bytes. -/
def wordsOf (bs : List Byte) : Nat → List Word
  | 0 => []
  | n + 1 => leWord (bs.take 8) :: wordsOf (bs.drop 8) n

/-- The save of a freeze is abandoned: the VD is unsaveable and halts (R286). -/
def State.unsaveable (s : State) (v : Nat) : State :=
  (s.modVd v fun d => { d with unsave := true, freeze := none }).raiseHalt v 3 0

/-- A fault of kind `kind` at a device access to a structure of R247 halts the VD as a DOUBLE fault, the fault's cause in the stop
records (R279); while the VD freezes, the save is abandoned (R286). -/
def State.double (s : State) (v kind : Nat) : State :=
  if (s.vd v).any fun d => d.freeze.isSome then s.unsaveable v else s.raiseHalt v 2 (BitVec.ofNat 64 (causeOfKind kind))

/-- A read of the device that must not fault (R247). -/
def State.sureRead (s : State) (v a n : Nat) : Option (List Byte) × State :=
  match devReadGo s true v (blocks a n) with
  | (.ok bs, s) => (some bs, s)
  | (.error k, s) => (none, s.double v k)

/-- A doubleword that must be read without a fault. -/
def State.sureWord (s : State) (v a : Nat) : Option Word × State :=
  match s.sureRead v a 8 with
  | (some bs, s) => (some (leWord bs), s)
  | (none, s) => (none, s)

/-- A write of the device that must not fault, of bytes (R247). -/
def State.sureWrite (s : State) (v a : Nat) (data : List Byte) : Bool × State :=
  match devWriteGo s true v data (blocks a data.length) with
  | (none, s) => (true, s)
  | (some k, s) => (false, s.double v k)

/-- A write of the device that must not fault (R247): a fault halts the VD. -/
def State.mustWrite (s : State) (v a : Nat) (ws : List Word) : Bool × State := s.sureWrite v a (ws.flatMap wordBytes)

/-- A write whose fault, by its kind, its caller deals with alone, an integrity fault of the VD's own domain too (R279, R286). -/
def State.quietWrite (s : State) (v a : Nat) (data : List Byte) : Option Nat × State := devWriteGo s true v data (blocks a data.length)

/-- The device fill of a future (R350): VALUE and 1, as one 16-byte write; an address that is not 16-byte aligned performs
nothing and counts as a stray decrement; a fault of the write performs nothing. -/
def State.devFill (s : State) (v a : Nat) (value : Word) : State :=
  if a % 16 ≠ 0 then s.count v 6 6 1
  else (s.devWords v a [value, 1]).2

/-! ### Invalidation -/

/-- Removes from every translation cache the entries of VD `v` that satisfy `p` (R249, R250). -/
def State.tcInval (s : State) (v : Nat) (p : TcEnt → Bool) : State :=
  { s with cores := tmap s.cores fun _ k => { k with tc := k.tc.filter fun e => !(e.vd == v && p e) } }

/-! ### Firmware's stage-2 tables (R232, R233) -/

/-- The first frame that no host may name: the frames from here on hold Virry's metadata and firmware's tables (spec/01_device.md R9;
notes/assumptions/87.md). -/
def tenantFrames : Nat := 13695653

/-- The least key from `k` on that a table of rising keys does not list. -/
def gapFrom {α : Type} (t : Table α) (k : Nat) : Nat :=
  match t with
  | [] => k
  | (j, _) :: rest => if j = k then gapFrom rest (k + 1) else if j < k then gapFrom rest k else k

/-- An empty table for VD `v` in a free 4,096-byte place; its DPA. -/
def Hbm.newTab (h : Hbm) (v : Nat) : Nat × Hbm :=
  let k := gapFrom h.tabs (16 * tenantFrames)
  (4096 * k, { h with tabs := tset h.tabs k { vd := v, ents := [] } })

/-- Writes the entry at DPA `a` (one 8-byte store of firmware). -/
def Hbm.s2Set (h : Hbm) (a : Nat) (e : Word) : Hbm :=
  { h with tabs := tmod h.tabs (a / 4096) fun t => { t with ents := tset t.ents (a % 4096 / 8) e } }

/-- A stage-2 leaf entry (R235). -/
def s2Leaf (dpage : Nat) (w m : Bool) : Word := BitVec.ofNat 64 (65536 * dpage + (if m then 16 else 0) + (if w then 4 else 0) + 1)

/-- The 64 KiB leaves that a 2 MiB leaf stands for. -/
def splitLeaf (e : Word) : Table Word :=
  (List.range 32).map fun i => (i, s2Leaf (entAddr e / 65536 + i) (e.getLsbD 2) (e.getLsbD 4))

/-- Writes the 64 KiB leaf of a VPA page, from the table at `t` down: missing tables are made, a 2 MiB leaf on the way is split. -/
def Hbm.s2PutGo (h : Hbm) (v t page : Nat) (leaf : Word) : List Nat → Hbm
  | [] => h.s2Set (t + 8 * (page % 32)) leaf
  | lvl :: rest =>
    let a := t + 8 * s1Index (65536 * page) lvl
    let e := h.s2Entry a
    if e.getLsbD 0 && e.getLsbD 1 then h.s2PutGo v (entAddr e) page leaf rest
    else
      let n := h.newTab v
      let h := if e.getLsbD 0 then { n.2 with tabs := tset n.2.tabs (n.1 / 4096) { vd := v, ents := splitLeaf e } } else n.2
      (h.s2Set a (BitVec.ofNat 64 (n.1 + 3))).s2PutGo v n.1 page leaf rest

/-- Writes the 64 KiB leaf of VPA page `page` under the root `root` of VD `v`. -/
def State.s2Put (s : State) (v root page : Nat) (leaf : Word) : State := s.modHbm fun h => h.s2PutGo v root page leaf [0, 1, 2]

/-- The 32 leaves of a level-3 table map 2 MiB in one run, aligned and alike: firmware may use one level-2 leaf instead (R233). -/
def oneRun (ents : Table Word) : Option Word :=
  match tget ents 0 with
  | some e =>
    if ents.length == 32 && entAddr e % 2097152 == 0 && e.getLsbD 0 && (ents.all fun x => x.2 == e + BitVec.ofNat 64 (65536 * x.1)) then some e else none
  | none => none

/-- Puts a 2 MiB leaf in place of the level-3 table that maps VPA page `page`, where the run allows it. -/
def Hbm.s2Join (h : Hbm) (root page : Nat) : Hbm :=
  let a0 := root + 8 * s1Index (65536 * page) 0
  let a1 := entAddr (h.s2Entry a0) + 8 * s1Index (65536 * page) 1
  let a2 := entAddr (h.s2Entry a1) + 8 * s1Index (65536 * page) 2
  let k := entAddr (h.s2Entry a2) / 4096
  match (tget h.tabs k).bind fun t => oneRun t.ents with
  | some e => { h with tabs := terase h.tabs k }.s2Set a2 e
  | none => h

end Sys2Proof.Machine
end

