-- ==== Sys2Proof/Machine/Tasks.lean ====
section
/-! DEFINITION. Tasks: records, the pool, ready queues, decrements, planes loaded from records and spill frames, spills and
suspension (spec/02_execution_model.md R18 to R34, spec/12_translation.md R242). -/

namespace Sys2Proof.Machine

/-! ### The pool (R18) -/

/-- The `r`-th number that is not in an ascending list. -/
def nthFree (r : Nat) : List Nat → Nat
  | [] => r
  | u :: rest => if u ≤ r then nthFree (r + 1) rest else r

/-- The record indices in use by tasks of VD `v`, ascending. -/
def State.usedIdx (s : State) (v : Nat) : List Nat :=
  (s.fr.tasks.filter fun e => e.2.vd == v).map fun e => e.2.idx

/-- A free record outside the kept 16, by free choice (R18). -/
def State.freeIdx (s : State) (v : Nat) (d : Vd) : Option Nat :=
  let lim := d.d.poolCount - 16
  let used := (s.usedIdx v).filter (· < lim)
  if used.length < lim then some (nthFree (Config.freePick s.freeCtr % (lim - used.length)) used) else none

/-- The free trap record pairs of a VD (R18, R275): k is taken while kept record k holds a task. -/
def State.freePairs (s : State) (v : Nat) (d : Vd) : List Nat :=
  (List.range 16).filter fun k => !((s.usedIdx v).contains (d.d.poolCount - 16 + k))

/-- The spill slots that tasks of VD `v` hold, ascending. -/
def State.usedSlots (s : State) (v : Nat) : List Nat :=
  sortNat (s.fr.tasks.filterMap fun e => if e.2.vd == v then e.2.frame.map (·.1) else none)

/-- A free ordinary spill slot, by free choice (R242). -/
def State.freeSlot (s : State) (v : Nat) (d : Vd) : Option Nat :=
  let lim := d.d.nslot - 16
  let used := (s.usedSlots v).filter (· < lim)
  if used.length < lim then some (nthFree (Config.freePick s.freeCtr % (lim - used.length)) used) else none

/-- A free slot of the 16 kept for traps and freezes, by free choice (R242). -/
def State.freeKept (s : State) (v : Nat) (d : Vd) : Option Nat :=
  let used := s.usedSlots v
  s.pick ((List.range 16).filterMap fun k =>
    let n := d.d.nslot - 16 + k
    if used.contains n then none else some n)

/-! ### Task records (R19) -/

/-- The VA of a task's record, which is its id (R18). -/
def State.taskId (s : State) (t : Task) : Nat :=
  match s.vd t.vd with
  | some d => taskVa d.d t.idx
  | none => 0

/-- The key of the task a VA names, if it is a record of the VD's pool. -/
def State.keyOfVa (s : State) (v va : Nat) : Option Nat :=
  match s.vd v with
  | some d =>
    if d.d.poolBase ≤ va && va < d.d.poolBase + 64 * d.d.poolCount && (va - d.d.poolBase) % 64 == 0
    then some (taskKey v ((va - d.d.poolBase) / 64)) else none
  | none => none

/-- The eight words of a task record. -/
def Task.words (t : Task) (next : Word) (gs : List Word) : List Word :=
  [t.word0 next, t.point, t.word2] ++ (List.range 5).map fun i => gs.getD i 0

/-- Writes a task's record; a fault halts the VD (R247). -/
def State.writeRecord (s : State) (key : Nat) (next : Word) (gs : List Word) : Bool × State :=
  match s.task key with
  | some t => s.mustWrite t.vd (s.taskId t) (t.words next gs)
  | none => (true, s)

/-- g1 to g5 of a plane. -/
def Plane.carried (p : Plane) : List Word := [p.rg 1, p.rg 2, p.rg 3, p.rg 4, p.rg 5]

/-- A task as it is created (R19, R21, R28, R29). -/
def Task.fresh (vd idx : Nat) (kind pri : BitVec 2) (dcnt : Int) (home : Nat) (swid : BitVec 12) (point : Word)
    (rows : Nat) : Task :=
  { vd := vd, idx := idx, kind := kind, pri := pri, smode := kind == 2, st := false, cx := false, sf := false,
    state := if dcnt = 0 then .ready else .waiting, dcnt := dcnt, home := home, swid := swid, bkh := 0, point := point, orig := point,
    rows := rows, frame := none, readyAt := 0, readySeq := 0, faults := [], record := none, trapped := none,
    trapSr := (0, 0, 0), more := none, requeued := false, parkAt := none, parkWords := 0, lanes := [],
    kept := none, cpq := [], leads := [] }

/-- Enters a task in its home die's ready queue (R33). -/
def State.enqueue (s : State) (key : Nat) : State :=
  let s := s.modTask key fun t => { t with state := .ready, readyAt := s.now, readySeq := s.fr.readySeq }
  s.modFr fun f => { f with readySeq := f.readySeq + 1 }

/-- Creates a task: its record is written, and with a counter of 0 it is READY (R19, R21). -/
def State.createTask (s : State) (t : Task) (next : Word) (gs : List Word) : State :=
  let key := taskKey t.vd t.idx
  let s := s.modFr fun f => { f with tasks := tset f.tasks key t }
  let s := if t.dcnt = 0 then s.enqueue key else s
  (s.writeRecord key next gs).2

/-! ### Decrements (R25) -/

/-- Sends a decrement to a task's home die; `fin`: the sweep whose completion action it is (spec/15_virtual_devices.md R299). -/
def State.sendDec (s : State) (fin : Option Nat) (v va : Nat) : State := s.modFr fun f => { f with decs := f.decs ++ [{ vd := v, va := va, fin := fin }] }

/-- Applies one decrement at the home die. A VA that names no task counts as stray. -/
def State.applyDec (s : State) (v va : Nat) : State :=
  match (s.keyOfVa v va).bind fun k => (s.task k).map fun t => (k, t) with
  | none => s.count v 6 6 1
  | some (k, t) =>
    if t.state = .done || t.dcnt = -32768 then s.count v 6 6 1
    else
      let s := s.modTask k fun t => { t with dcnt := t.dcnt - 1 }
      if t.state = .waiting && t.dcnt - 1 = 0 then s.enqueue k else s

/-- Applies a suspension increment (R25): READY at ≤ 0, else WAITING. -/
def State.applyInc (s : State) (key : Nat) : State :=
  match s.task key with
  | none => s
  | some t =>
    let s := s.modTask key fun t => { t with dcnt := t.dcnt + 1, state := .waiting }
    if t.dcnt + 1 ≤ 0 then s.enqueue key else s

/-- A task's state. -/
def State.setTState (s : State) (key : Nat) (st : TState) : State := s.modTask key fun t => { t with state := st }

/-! ### Planes -/

/-- Frees a plane and its lease. The numbers of its accesses run on, so that an answer to an old one names no new one. -/
def State.freePlane (s : State) (c : Nat) (p : BitVec 1) : State :=
  (s.modPlane c p fun x => { Plane.reset with nextId := x.nextId }).dropWalks (dieOf c)

/-- A task is no more. Its booked copies that nothing covered count as never (spec/04_calendars.md R88, counter 19). -/
def State.dropTask (s : State) (key : Nat) : State :=
  let s := match s.task key with
    | some t => if t.leads.isEmpty then s else s.count t.vd 0 19 t.leads.length
    | none => s
  s.modFr fun f => { f with tasks := terase f.tasks key }

/-- Ends a task: its record shows DONE and is then free (R18, R19). -/
def State.finishTask (s : State) (key : Nat) (next : Word) (gs : List Word) : State :=
  let s := s.setTState key .done
  (s.writeRecord key next gs).2.dropTask key

/-- The bank rows free on a core (R96). -/
def Core.freeRows (k : Core) : Nat := 128 - k.p0.rows - k.p1.rows

/-- The first bank row of a lease of `rows` rows (R96). -/
def leaseRow (p : BitVec 1) (rows : Nat) : Nat := if p = 0 then 0 else 128 - rows

/-- The first byte of a plane's lease. -/
def Plane.leaseBase (p : Plane) : Nat := 6144 * p.row

/-- The size of a plane's lease in bytes. -/
def Plane.leaseSize (p : Plane) : Nat := 6144 * p.rows

/-- The default registers of a loaded plane (R27), and the trap's registers of a trap task (spec/05_core.md R93). -/
def Plane.loaded (old : Plane) (key : Nat) (t : Task) (p : BitVec 1) (fpen : Word) (next point : Word) (gs : List Word) : Plane :=
  let r := (List.range 5).foldl (fun v i => v.set! (i + 1) (gs.getD i 0)) (Vector.replicate 64 (0 : Word))
  let sr := { Sr.reset with point := point, sweep := t.swid, smode := t.smode, fpen := fpen, cause := t.trapSr.1 }
  { Plane.reset with
    task := some key, pc := next, regs := { Regs.reset with g := r },
    sr := { sr with epc := t.trapSr.2.1, tval := t.trapSr.2.2 },
    row := leaseRow p t.rows, rows := t.rows, nextId := old.nextId }

/-! ### What a class counts (spec/05_core.md R102) -/

/-- The element writes without a result, so that it can be posted (R215). -/
def AccKind.isStore (k : AccKind) : Bool := match k with | .st => true | .bput _ => true | _ => false

/-- The access counts in LDC or STC (R102). -/
def AccKind.inLdc (k : AccKind) : Bool :=
  match k with | .ld _ _ => true | .ldsec _ => true | .vld _ _ _ => true | .vgath _ _ => true | .amo _ _ => true | .cas _ => true | _ => false

/-! ### Spill frames (R242) -/

/-- The VA of spill frame `n`. -/
def frameVa (d : VdDef) (n : Nat) : Nat := d.spb + 64 * ceilDiv (8 * d.nslot) 64 + n * (4864 + 6144 * d.lmax)

/-- The VA of the directory word of slot `n`. -/
def dirVa (d : VdDef) (n : Nat) : Nat := d.spb + 8 * n

/-- The lanes of a table that satisfy `f`, as a mask. -/
def laneMask (t : Table LaneSt) (f : LaneSt → Bool) : Word :=
  t.foldl (fun acc e => if f e.2 then acc ||| ((1 : Word) <<< e.1) else acc) 0

/-- Whether a lane waits, or has failed. -/
def LaneSt.isWaiting (l : LaneSt) : Bool := match l with | .waiting _ => true | .retry => false | .failed _ _ => false

/-- Whether a lane has failed. -/
def LaneSt.isFailed (l : LaneSt) : Bool := match l with | .waiting _ => false | .retry => false | .failed _ _ => true

/-- The 4,864 bytes of a spill frame, without the lease. -/
def frameBytes (x : Plane) (c : Nat) (p : BitVec 1) (t : Task) : List Byte :=
  let g := (List.range 64).flatMap fun i => wordBytes (x.rg (BitVec.ofNat 6 i))
  let v := (List.range 32).flatMap fun i => leBytes (x.rv (BitVec.ofNat 5 i)).toNat 128
  let m := (List.range 8).flatMap fun i => leBytes (x.rm (BitVec.ofNat 3 i)).toNat 2
  let sr : List Word := [x.sr.tags, x.sr.fps.setWidth 64, x.sr.fpen, x.sr.tensor.setWidth 64, x.loop.n.setWidth 64,
    x.loop.pass, x.sr.cause, x.sr.epc, x.sr.tval, x.loop.first, x.loop.exit,
    BitVec.ofNat 64 (4294967296 * x.leaseSize + 1024 * p.toNat + c)]
  let pk : List Word := [t.parkAt.getD 0, t.parkWords,
    (laneMask t.lanes LaneSt.isFailed <<< 16) ||| laneMask t.lanes fun l => !l.isFailed]
  g ++ v ++ wordBytes ((x.regs.p ||| 1).setWidth 64) ++ m ++ sr.flatMap wordBytes ++ pk.flatMap wordBytes ++ List.replicate 112 0

/-- The register state a frame's bytes hold. -/
def frameRegs (bs : List Byte) : Regs :=
  let v := (List.range 32).map fun i => BitVec.ofNat 1024 (leNat ((bs.drop (512 + 128 * i)).take 128))
  let g := wordsOf bs 64
  { g := Vector.ofFn fun i => g.getD i.val 0
    p := BitVec.ofNat 8 (leNat ((bs.drop 4608).take 1))
    m := Vector.ofFn fun i => BitVec.ofNat 16 (leNat ((bs.drop (4616 + 2 * i.val)).take 2))
    v := Vector.ofFn fun i => v.getD i.val 0 }

/-- The control and status registers that a frame's bytes give, over `sr` (R242); reserved bits read 0 (spec/00_scope.md R1). -/
def Sr.framed (sr : Sr) (bs : List Byte) : Sr :=
  let w := wordsOf (bs.drop 4632) 9
  { sr with tags := w.getD 0 0, fps := (w.getD 1 0).setWidth 6, fpen := fpenWrite sr.fpen (w.getD 2 0), tensor := (w.getD 3 0).setWidth 8,
            cause := w.getD 6 0 &&& 0xFFF#64, epc := w.getD 7 0, tval := w.getD 8 0 }

/-- The loop that a frame's bytes give (R242). -/
def Loop.framed (bs : List Byte) : Loop :=
  let w := wordsOf (bs.drop 4632) 11
  let lp := w.getD 5 0
  { act := lp.getLsbD 63, mod := lp.getLsbD 62, ns := lp.extractLsb' 60 2, j := lp.setWidth 33, n := (w.getD 4 0).setWidth 32,
    first := w.getD 9 0 &&& 0xFFFFFFFFFFFF#64, exit := w.getD 10 0 &&& 0xFFFFFFFFFFFF#64 }

/-- A plane restored from a frame, with the record's RW fields over it (R242); `fpen` is the VD's default, for an RM that is none. -/
def Plane.restored (old : Plane) (key : Nat) (t : Task) (p : BitVec 1) (fpen : Word) (bs : List Byte) (next point : Word) (gs : List Word) :
    Plane :=
  let r := frameRegs bs
  let g := (List.range 5).foldl (fun v i => v.set! (i + 1) (gs.getD i 0)) r.g
  let l := Loop.framed bs
  let sr := { Sr.reset with point := point, sweep := t.swid, smode := t.smode, fpen := fpen }.framed bs
  { Plane.reset with
    task := some key, pc := next, regs := { r with g := g }, sr := sr,
    loop := if t.requeued && next != sr.epc then { l with act := false, first := 0, exit := 0 } else l,
    row := leaseRow p t.rows, rows := t.rows, nextId := old.nextId,
    park := if t.parkAt.isSome && t.parkAt == some next then some .again else none }

/-- The access of a parked instruction goes on in the plane, as far as it had come, with what the plane waited for (R242, R246). -/
def Plane.regained (x : Plane) (t : Task) (next : Word) : Plane :=
  match t.kept with
  | some (a, pk) =>
    if t.parkAt == some next then
      { x with acc := [a], park := pk,
               oc := if a.kind.isStore then { x.oc with stc := 1 } else if a.kind.inLdc then { x.oc with ldc := 1 } else x.oc }
    else x
  | none => x

/-- Writes a plane's task to spill slot `n` and frees the plane and lease (R242). The kind of the fault that a write met, if one did, which the caller
answers (R247, R279, R286). -/
def State.spillTo (s : State) (c : Nat) (p : BitVec 1) (n : Nat) (next : Word) : Option Nat × State :=
  let x := s.plane c p
  match x.task with
  | none => (none, s)
  | some key =>
    match s.task key with
    | none => (none, s)
    | some t =>
      match s.vd t.vd with
      | none => (none, s)
      | some d =>
        let lease := memBytes (s.core c).spad x.leaseBase x.leaseSize
        let s := s.modTask key fun t => { t with sf := true, state := .spilled, frame := some (n, c, p.toNat) }
        match s.quietWrite t.vd (frameVa d.d n) (frameBytes x c p t ++ lease) with
        | (some k, s) => (some k, s)
        | (none, s) =>
          match s.quietWrite t.vd (dirVa d.d n) (wordBytes (BitVec.ofNat 64 (taskVa d.d t.idx))) with
          | (some k, s) => (some k, s)
          | (none, s) =>
            match s.task key with
            | none => (none, s)
            | some t =>
              match s.quietWrite t.vd (taskVa d.d t.idx) ((t.words next x.carried).flatMap wordBytes) with
              | (some k, s) => (some k, s)
              | (none, s) => (none, s.freePlane c p)

/-- Loads a task into a plane from its record, or from its spill frame (R27, R242). A fault halts the VD (R247). -/
def State.loadTask (s : State) (c : Nat) (p : BitVec 1) (key : Nat) : State :=
  match s.task key with
  | none => s
  | some t =>
    match s.vd t.vd with
    | none => s
    | some d =>
      let id := taskVa d.d t.idx
      match s.sureRead t.vd id 64 with
      | (none, s) => s
      | (some bs, s) =>
        let w := wordsOf bs 8
        let next := (w.getD 0 0).extractLsb' 0 48 |>.setWidth 64
        let point := w.getD 1 0
        let gs := w.drop 3
        match t.frame with
        | none =>
          let s := s.modTask key fun t => { t with state := .staged, point := point }
          s.modPlane c p fun x => x.loaded key t p d.d.fpen next point gs
        | some (n, _, _) =>
          match s.sureRead t.vd (frameVa d.d n) (4864 + 6144 * t.rows) with
          | (none, s) => s
          | (some fb, s) =>
            match s.mustWrite t.vd (dirVa d.d n) [0] with
            | (false, s) => s
            | (true, s) =>
              let here := t.parkAt == some next
              let s := s.modTask key fun t =>
                { t with state := .staged, point := point, sf := false, frame := none, requeued := false,
                         parkAt := none, parkWords := 0, kept := none, lanes := if here || t.parkAt.isNone then t.lanes else [] }
              let s := s.modPlane c p fun x => (x.restored key t p d.d.fpen fb next point gs).regained t next
              s.modCore c fun k =>
                { k with spad := memWrite k.spad (6144 * leaseRow p t.rows) ((fb.drop 4864).take (6144 * t.rows)) }

/-- The lanes that a frame's word of waiting and failed lanes names (R242): a failed lane keeps the kind the device knows; of one that it
does not know the kind is free, and the VA is the instruction's. -/
def framedLanes (old : Table LaneSt) (free : Nat) (w at_ : Word) : Table LaneSt :=
  (List.range 16).filterMap fun i =>
    if w.getLsbD (16 + i) then
      some (i, match tget old i with | some (.failed k va) => .failed k va | _ => .failed (free % 5) at_)
    else if w.getLsbD i then some (i, match tget old i with | some (.waiting va) => .waiting va | _ => .retry)
    else none

/-- The spill frame of a trapped task as its handler left it (spec/14_traps_preemption.md R276): the words that the reload goes by before it
reads the rest: SIZE, PLANE and CORE, and the parked instruction. A SIZE that is no lease of the VD leaves the old one
(notes/assumptions/88.md). -/
def State.frameEdited (s : State) (key : Nat) : State :=
  match s.task key, (s.task key).bind fun t => s.vd t.vd with
  | some t, some d =>
    match t.frame with
    | none => s
    | some (n, _, _) =>
      match s.sureRead t.vd (frameVa d.d n + 4720) 32 with
      | (none, s) => s
      | (some bs, s) =>
        let w := wordsOf bs 4
        let size := ((w.getD 0 0).extractLsb' 32 20).toNat
        let at_ := (w.getD 1 0) &&& 0xFFFFFFFFFFFF#64
        s.bump.modTask key fun t =>
          { t with frame := some (n, ((w.getD 0 0).extractLsb' 0 10).toNat, ((w.getD 0 0).extractLsb' 10 1).toNat)
                   rows := if size % 6144 = 0 ∧ size / 6144 ≤ d.d.lmax then size / 6144 else t.rows
                   parkAt := if at_ = 0 then none else some at_
                   parkWords := w.getD 2 0
                   lanes := if at_ = 0 then [] else framedLanes t.lanes (Config.freePick s.freeCtr) (w.getD 3 0) at_ }
  | _, _ => s

/-! ### Parking (R241, R247) -/

/-- A task parks with a request for its line fill or its instruction (R247). -/
def State.parkTask (s : State) (c : Nat) (p : BitVec 1) (key : Nat) (va : Word) (k : Park) : State :=
  (s.modPlane c p fun x => { x with hold := none, park := some k }).modTask key fun t =>
    { t with state := .parked, lanes := tset t.lanes 0 (.waiting va) }

/-! ### Suspension (R24) -/

/-- Steps 2 to 4 of a suspension of the plane's task, which resumes at `next`. -/
def State.suspendTo (s : State) (c : Nat) (p : BitVec 1) (next : Word) : State :=
  let x := s.plane c p
  match x.task with
  | none => s
  | some key =>
    let s := s.applyInc key
    match s.writeRecord key next x.carried with
    | (false, s) => s
    | (true, s) => s.freePlane c p

end Sys2Proof.Machine
end

