-- ==== Sys2Proof/Machine/Calendar.lean ====
section
/-! DEFINITION. Calendars and bookings as data: intervals, room, first fits, handles, quotas and debt, cancellation and
release (spec/04_calendars.md R58 to R61, R81 to R85). The searches and the exchange are in Booking.lean. -/

namespace Sys2Proof.Machine

/-! ### Calendars -/

/-- The budget of a calendar in units; an exclusive calendar is a budget of 1 (R58, R60). -/
def calBudget (cal : Nat) : Nat :=
  if cal < 2048 then 1 else if cal < 2112 then 112 else if cal < 2128 then 40 else 18

/-- The unit that owns a calendar: die 0 to 7, or 8 for the hub (R58). -/
def calOwner (cal : Nat) : Nat :=
  if cal < 1024 then cal / 128 else if cal < 2048 then (cal - 1024) / 128 else if cal < 2112 then (cal - 2048) / 8 else 8

/-- The quota class of a calendar: MATRIX 0 to 7, COPY 8 to 15, CHGRP 16 to 23 by die, PORT 24, HOST 25 (R84). -/
def calClass (cal : Nat) : Nat :=
  if cal < 1024 then cal / 128 else if cal < 2048 then 8 + (cal - 1024) / 128
  else if cal < 2112 then 16 + (cal - 2048) / 8 else if cal < 2128 then 24 else 25

/-- An interval on a calendar, with the booking (0: none) and step, or the request, that holds it. -/
structure Ival where
  start : Nat
  len : Nat
  rate : Nat
  book : Nat
  step : Nat
  req : Nat
  deriving DecidableEq, Repr

/-- The end of an interval. -/
def Ival.stop (i : Ival) : Nat := i.start + i.len

/-- A step that holds its interval: booked or running. -/
def BStep.holds (t : BStep) : Bool := t.st == .booked || t.st == .running

/-- The intervals of a booking's steps on a calendar, as a search sees them: a step that is over keeps its interval until the slot
boundary that frees it (R80, R87). -/
def bookIvals (cal key : Nat) (b : Booking) : List Ival :=
  (b.steps.zipIdx).filterMap fun e =>
    if e.1.cal == cal && !e.1.free
    then some { start := e.1.start, len := e.1.len, rate := e.1.rate, book := key, step := e.2, req := 0 } else none

/-- Every interval and hold on a calendar (R59). -/
def Bk.ivals (k : Bk) (cal : Nat) : List Ival :=
  k.bookings.flatMap (fun e => bookIvals cal e.1 e.2) ++
  (k.holds.filter (fun h => h.cal == cal)).map (fun h =>
    { start := h.start, len := h.len, rate := h.rate, book := 0, step := h.step, req := h.req }) ++
  (k.rints.filter (fun r => r.cal == cal)).map (fun r =>
    { start := r.start, len := r.len, rate := r.rate, book := 0, step := r.step, req := 0 })

/-- Intervals that are held: of steps booked or running, and for other bookers; what unbooked work keeps out of (R86). -/
def Bk.working (k : Bk) (cal : Nat) : List Ival :=
  k.bookings.flatMap (fun e => (e.2.steps.zipIdx).filterMap fun t =>
    if t.1.cal == cal && t.1.holds
    then some { start := t.1.start, len := t.1.len, rate := t.1.rate, book := e.1, step := t.2, req := 0 } else none) ++
  (k.rints.filter (fun r => r.cal == cal && !r.dead)).map (fun r =>
    { start := r.start, len := r.len, rate := r.rate, book := 0, step := r.step, req := 0 })

/-- Intervals and holds that stand on a calendar: none that has been given up. -/
def Bk.standing (k : Bk) (cal : Nat) : List Ival :=
  k.working cal ++ (k.holds.filter (fun h => h.cal == cal && !h.dead)).map (fun h =>
    { start := h.start, len := h.len, rate := h.rate, book := 0, step := h.step, req := h.req })

/-- The units in use in a slot. -/
def useAt (iv : List Ival) (slot : Nat) : Nat :=
  (iv.filter fun i => decide (i.start ≤ slot ∧ slot < i.stop)).foldl (fun a i => a + i.rate) 0

/-! ### Unbooked traffic (R60, R86) -/

/-- The calendar of the channel group that holds a DPA. -/
def cgCal (dpa : Nat) : Nat := 2048 + dpa / 65536 % 64

/-- The bytes that unbooked work may move in the current slot through a capacity calendar: the part of the budget that no interval holds,
and on a channel group the loose share of 8 KiB. -/
def State.leftOver (s : State) (cal : Nat) : Nat :=
  512 * (calBudget cal - useAt (s.bk.working cal) s.now) + (if 2048 ≤ cal ∧ cal < 2112 then 8192 else 0)

/-- Unbooked work may move `n` more bytes in this slot. -/
def State.looseRoom (s : State) (cal n : Nat) : Bool := decide (tgetD s.bk.loose cal 0 + n ≤ s.leftOver cal)

/-- Unbooked work moves `n` bytes through a calendar. -/
def State.spend (s : State) (cal n : Nat) : State := s.modBk fun k => { k with loose := tset k.loose cal (tgetD k.loose cal 0 + n) }

/-! ### Room -/

/-- Room for rate `r` over [a, a + d) among intervals, tested where use can rise (R60). -/
def roomIn (iv : List Ival) (budget a d r : Nat) : Bool :=
  let starts := (iv.filter fun i => decide (a < i.start ∧ i.start < a + d)).map (·.start)
  (a :: starts).all (fun t => decide (useAt iv t + r ≤ budget))

/-- Fewer than 256 intervals, or the earliest has ended by slot `a` (R59). -/
def depthOk (iv : List Ival) (a : Nat) : Bool := decide (iv.length < 256) || iv.any fun i => decide (i.stop ≤ a)

/-- Room that a search may give (R59, R60); `deep`: the limit of R59 counts. -/
def fitsIn (deep : Bool) (iv : List Ival) (budget a d r : Nat) : Bool := roomIn iv budget a d r && (!deep || depthOk iv a)

/-- The earliest slot from `a` at which an interval fits and ends by `lim`: `a` itself, or the end of some interval. -/
def firstFit (deep : Bool) (iv : List Ival) (budget a d r lim : Nat) : Option Nat :=
  let cs := sortNat (a :: (iv.map (·.stop)).filter (fun t => decide (a < t)))
  cs.find? fun t => decide (t + d ≤ lim) && fitsIn deep iv budget t d r

/-! ### Handles (R61) -/

/-- The handle of a booking under its key. -/
def handleOf (key : Nat) (b : Booking) : Nat := 2097152 * (key / 4096) + 4096 * b.gen + key % 4096

/-- The key a handle names: its die and entry. -/
def keyOfHandle (h : Nat) : Nat := 4096 * (h / 2097152 % 8) + h % 4096

/-- The generation of a handle. -/
def genOfHandle (h : Nat) : Nat := h / 4096 % 512

/-- The booking a handle names, unless it is stale or 0. -/
def State.booking (s : State) (v h : Nat) : Option Booking :=
  if h % 4096 = 0 then none
  else match tget s.bk.bookings (keyOfHandle h) with
    | some b => if b.vd = v && b.gen = genOfHandle h then some b else none
    | none => none

/-- A request whose result is still to come at FUT and that the handle names (R73, R455). -/
def State.pendingReq (s : State) (v h : Nat) : Option BReq :=
  if h % 4096 = 0 then none else s.bk.reqs.find? fun r => r.vd == v && r.pendingH == h

/-- Rewrites the step `j` of a booking. -/
def State.modStep (s : State) (key j : Nat) (f : BStep → BStep) : State :=
  s.modBk fun k => { k with bookings := tmod k.bookings key fun b => { b with steps := modAt b.steps j f } }

/-- A step that is over: nothing will run under it any more. -/
def BStep.over (t : BStep) : Bool := !(t.st == .booked || t.st == .running)

/-- The free entries' test: never used, or its booking is over, and no waiting request holds it. -/
def State.entryFree (s : State) (die e : Nat) : Bool :=
  (match tget s.bk.bookings (4096 * die + e) with | none => true | some b => b.steps.all BStep.over) &&
  !(s.bk.reqs.any fun r => r.pendingH != 0 && keyOfHandle r.pendingH == 4096 * die + e)

/-- The entries of a unit in use, ascending. -/
def State.usedEntries (s : State) (die : Nat) : List Nat :=
  let a := s.bk.bookings.filterMap fun e =>
    if e.1 / 4096 == die && !(s.entryFree die (e.1 % 4096)) then some (e.1 % 4096 - 1) else none
  let b := s.bk.reqs.filterMap fun r =>
    if r.pendingH != 0 && keyOfHandle r.pendingH / 4096 == die then some (keyOfHandle r.pendingH % 4096 - 1) else none
  (sortNat (a ++ b)).eraseDups

/-- A free entry of a unit with its next generation, by free choice (R61). -/
def State.newHandle (s : State) (die : Nat) : Option Nat :=
  let used := s.usedEntries die
  if used.length < 4095 then
    let e := 1 + nthFree (Config.freePick s.freeCtr % (4095 - used.length)) used
    let key := 4096 * die + e
    let gen := (match tget s.bk.gens key with | some g => g + 1 | none => 0) % 512
    some (2097152 * die + 4096 * gen + e)
  else none

/-! ### Quotas and debt (R84, R85) -/

/-- A VD's quota in a class. -/
def Vd.quota (d : Vd) (cls : Nat) : Nat :=
  match d.d.quotas.find? fun q => q.1 == cls with | some q => q.2 | none => 0

/-- The period of a slot. -/
def periodOf (slot : Nat) : Nat := slot / 4096

/-- Key of a (period, class) pair. -/
def pcKey (p cls : Nat) : Nat := 64 * p + cls

/-- Adds debt to a period; what exceeds its quota goes on to later periods. -/
def Vd.addDebt (d : Vd) (p cls n : Nat) : Nat → Vd
  | 0 => { d with debt := tset d.debt (pcKey p cls) (tgetD d.debt (pcKey p cls) 0 + n) }
  | fuel + 1 =>
    let have_ := tgetD d.debt (pcKey p cls) 0
    let q := d.quota cls
    if have_ + n ≤ q then { d with debt := tset d.debt (pcKey p cls) (have_ + n) }
    else { d with debt := tset d.debt (pcKey p cls) (max q have_) }.addDebt (p + 1) cls (have_ + n - max q have_) fuel

/-- The units of one step in each period it touches: (period, class, units). -/
def stepUnits (start len rate cal : Nat) : List (Nat × Nat × Nat) :=
  let p := periodOf start
  let first := min len (4096 * (p + 1) - start)
  (p, calClass cal, first * rate) :: (if first < len then [(p + 1, calClass cal, (len - first) * rate)] else [])

/-- Charges units to a period: what exceeds the quota left after debt is borrowed (debt of the next period). Answers the
units borrowed. -/
def Vd.charge (d : Vd) (p cls n : Nat) : Vd × Nat :=
  let have_ := tgetD d.charged (pcKey p cls) 0
  let left := d.quota cls - tgetD d.debt (pcKey p cls) 0
  let more := (have_ + n) - max left have_
  let d := { d with charged := tset d.charged (pcKey p cls) (have_ + n) }
  if left < have_ + n then (d.addDebt (p + 1) cls more 64, more) else (d, 0)

/-- Whether charging a list of units stays within the quotas. -/
def Vd.within (d : Vd) (us : List (Nat × Nat × Nat)) : Bool :=
  let keys := (us.map fun u => (u.1, u.2.1)).eraseDups
  keys.all fun k =>
    let n := (us.filter fun u => u.1 == k.1 && u.2.1 == k.2).foldl (fun a u => a + u.2.2) 0
    decide (tgetD d.charged (pcKey k.1 k.2) 0 + n ≤ d.quota k.2 - tgetD d.debt (pcKey k.1 k.2) 0)

/-- Charges a list of units; answers the units borrowed. -/
def Vd.chargeAll (d : Vd) (us : List (Nat × Nat × Nat)) : Vd × Nat :=
  us.foldl (fun a u => let r := a.1.charge u.1 u.2.1 u.2.2; (r.1, a.2 + r.2)) (d, 0)

/-- Charges overrun units of a slot as debt against the next period (R78, R85). -/
def State.debtSlot (s : State) (v cls n : Nat) : State :=
  s.modVd v fun d => d.addDebt (periodOf s.now + 1) cls n 64

/-- Current debt units: counter 20 of the booking bank (R88). -/
def Vd.debtNow (d : Vd) (slot : Nat) : Nat :=
  d.debt.foldl (fun a e => if periodOf slot ≤ e.1 / 64 then a + e.2 else a) 0

/-! ### Cancellation and release (R81, R82) -/

/-- An engine command of the booking with handle `h` and step `j`. -/
def Cmd.under (h j : Nat) (c : Cmd) : Bool := c.bk == h && c.step == j && h != 0

/-- Rewrites the commands of a core's engines. -/
def Core.modCmds (k : Core) (f : Cmd → Cmd) : Core :=
  { k with mx := k.mx.map (fun o => { o with c := f o.c }), cp := k.cp.map (fun o => { o with c := f o.c }) }

/-- Stops the command of a step with a status of R89 (5 cancelled or PORTDOWN, 6 faulted: R173, R197): it does no further work and completes. -/
def State.stopCmd (s : State) (core h j code : Nat) : State :=
  s.modCore core fun k => k.modCmds fun c =>
    if c.under h j && c.st != .finished then { c with st := .finished, ended := some code } else c

/-- The steps attached to COPY step `j`: the run that follows it with REL = WITH and GAP 0 (R75). -/
def attachedTo (steps : List BStep) (j : Nat) : List Nat :=
  let rest := (steps.drop (j + 1)).takeWhile fun t => decide (2 ≤ t.kind.toNat) && t.withRel && t.gap == 0
  (List.range rest.length).map (j + 1 + ·)

/-- The COPY step that step `j` is attached to, or `j` itself. -/
def attachRoot (steps : List BStep) (j : Nat) : Nat :=
  match (List.range j).reverse.find? fun i => (attachedTo steps i).contains j && (steps[i]?.map (·.kind == 1)).getD false with
  | some i => i
  | none => j

/-- The steps of the booked work that step `j` names: its own, and for a COPY step those attached to it. -/
def groupOf (b : Booking) (j : Nat) : List Nat :=
  j :: (if (b.steps[j]?.map (·.kind == 1)).getD false then attachedTo b.steps j else [])

/-- A step of the work is PORTDOWN, as an attached PORT step may be (R72, R82). -/
def Booking.portLost (b : Booking) (j : Nat) : Bool :=
  (groupOf b j).any fun i => (b.steps[i]?.map (·.st == .portdown)).getD false

/-- The engine's core of a step, if it is a MATRIX or COPY step. -/
def BStep.core? (t : BStep) : Option Nat := if t.cal < 1024 then some t.cal else if t.cal < 2048 then some (t.cal - 1024) else none

/-- Ends step `j` of the booking under `key` with a state: an unstarted one is freed, a running one stops at its boundary, with the copy
that it is attached to (R72, R82). -/
def State.endStep (s : State) (key j : Nat) (st : StepSt) (code : Nat) : State :=
  match tget s.bk.bookings key with
  | none => s
  | some b =>
    match b.steps[j]? with
    | none => s
    | some t =>
      if t.over then s
      else
        let s := s.modStep key j fun t => { t with st := st }
        let r := attachRoot b.steps j
        match t.st, (b.steps[r]?).bind BStep.core? with
        | .running, some c => s.stopCmd c (handleOf key b) r code
        | _, _ => s

/-- Ends every step of a booking that is not over. -/
def State.endBooking (s : State) (key : Nat) (st : StepSt) (code : Nat) : State :=
  match tget s.bk.bookings key with
  | none => s
  | some b => (List.range b.steps.length).foldl (fun s j => s.endStep key j st code) s

/-- Cancels a booking (R81): counted once if a step was left. -/
def State.cancelBooking (s : State) (key : Nat) : State :=
  match tget s.bk.bookings key with
  | none => s
  | some b =>
    if b.steps.all BStep.over then s
    else
      let remotes := (b.steps.zipIdx).filterMap fun e =>
        if e.1.rem.isSome && !e.1.over then some (BMsg.cancel (handleOf key b) e.2) else none
      let s := (s.endBooking key .cancelled 5).count b.vd 0 3 1
      s.modBk fun k => { k with msgs := k.msgs ++ remotes }

/-- A message of a request's exchange other than ABORT and CANCEL, which go on without it. -/
def BMsg.of (id : Nat) (m : BMsg) : Bool :=
  match m with
  | .prepare r _ _ _ _ _ _ => r == id | .grant r _ _ _ => r == id | .refuse r _ _ => r == id | .commit r _ _ => r == id
  | .confirm r _ => r == id | .lost r _ => r == id | .abort _ _ => false | .cancel _ _ => false

/-- A tentative hold of a request of this package. -/
def CHold.tentative (id : Nat) (h : CHold) : Bool := h.req == id && h.node.isNone && h.senior.isNone

/-- Frees the holds that `p` names: searches see them free at the next slot boundary (R87). -/
def Bk.freeHolds (k : Bk) (p : CHold → Bool) : Bk := { k with holds := k.holds.map fun h => if p h then { h with dead := true } else h }

/-- Frees the intervals kept for other bookers that `p` names (R87). -/
def Bk.freeRints (k : Bk) (p : RInt → Bool) : Bk := { k with rints := k.rints.map fun r => if p r then { r with dead := true } else r }

/-- A request leaves the booking unit with no result. Its own holds are freed; those at other owners end by ABORT (R70). -/
def State.dropReq (s : State) (id : Nat) : State :=
  match s.bk.reqs.find? fun r => r.id == id with
  | none => s
  | some r =>
    s.modBk fun k =>
      { k.freeHolds fun h => h.tentative id && calOwner h.cal == r.die with
        reqs := k.reqs.filter fun r => r.id != id
        msgs := k.msgs.filter fun m => !(m.of id) }


def bookResult (status cause hint handle : Nat) : Word :=
  BitVec.ofNat 64 (1152921504606846976 * status + 72057594037927936 * cause + 1099511627776 * hint + handle)

/-- A freeze voids the bookings of a task (R83). -/
def State.voidOwned (s : State) (task : Nat) : State :=
  (s.bk.bookings.filter fun e => e.2.owner == task).foldl (fun s e =>
    let far := (e.2.steps.zipIdx).filterMap fun t =>
      if t.1.rem.isSome && !t.1.over then some (BMsg.cancel (handleOf e.1 e.2) t.2) else none
    (s.endBooking e.1 .voided 5).modBk fun k => { k with msgs := k.msgs ++ far }) s

/-- Releases one step (R81): an unstarted one is freed, a running one keeps the current slot. -/
def State.releaseOne (s : State) (key j : Nat) : State :=
  let s := match tget s.bk.bookings key with
    | some b => (match b.steps[j]? with
      | some t => if t.rem.isSome && !t.over then s.modBk fun k => { k with msgs := k.msgs ++ [BMsg.cancel (handleOf key b) j] } else s
      | none => s)
    | none => s
  s.modStep key j fun t =>
    match t.st with
    | .booked => { t with st := .released }
    | .running => { t with st := .released }
    | _ => t

/-- BKREL of a step: it, or the COPY step it is attached to, with all steps attached to that. -/
def State.releaseStep (s : State) (key j : Nat) : State :=
  match tget s.bk.bookings key with
  | none => s
  | some b =>
    match b.steps[j]? with
    | none => s
    | some t =>
      if t.over then s
      else
        let r := attachRoot b.steps j
        let all := if (b.steps[r]?.map (·.kind == 1)).getD false then r :: attachedTo b.steps r else [j]
        all.foldl (fun s i => s.releaseOne key i) s

/-- The core that a booking binds its task to: that of its lowest-numbered unfinished MATRIX or COPY step (R34, R74). -/
def Booking.core? (b : Booking) : Option Nat := (b.steps.find? fun x => x.core?.isSome && !x.over).bind BStep.core?

/-- Core `c` is the one that each booking of the task binds it to (R34). -/
def State.boundTo (s : State) (t : Task) (c : Nat) : Bool :=
  s.bk.bookings.all fun e =>
    !(e.2.vd == t.vd && e.2.owner == taskKey t.vd t.idx) || (match e.2.core? with | some b => b == c | none => true)

end Sys2Proof.Machine
end

