-- ==== Sys2Proof/Machine/Requests.lean ====
section
/-! DEFINITION. What ends a booking request: the candidates and owners of a chain's steps, messages to those owners, results and their
delivery, expiry, the owner's cancellation and a freeze's (spec/04_calendars.md R58, R64, R70, R73, R81, R83, spec/11_memory_model.md
R227 to R229, spec/16_fliurn.md R312, R315). -/

namespace Sys2Proof.Machine

/-! ### Scope ceilings -/

/-- Counts one clipped operation. -/
def State.clip (s : State) (v : Nat) : State :=
  s.modVd v fun d =>
    let n := (d.ord.extractLsb' 32 32)
    { d with ord := (if n = BitVec.allOnes 32 then n else n + 1) ++ (1 : BitVec 32) }

/-- A release or acquire that no instruction names, or that never traps, at scope `scp`: clipped to the ceiling (R228). -/
def State.clipped (s : State) (v : Nat) (scp : BitVec 3) : State :=
  match s.vd v with
  | some d => if d.d.ceil.toNat < scp.toNat then s.clip v else s
  | none => s

/-! ### Messages to other packages -/

/-- A message of a TYPE (R312). -/
def mkMsg (type dst src vd tid : Nat) (w1 w2 w3 w4 : Word) (data : List Byte) : FMsg :=
  { w0 := BitVec.ofNat 6 type ++ BitVec.ofNat 12 dst ++ BitVec.ofNat 12 src ++ BitVec.ofNat 8 vd ++
      BitVec.ofNat 5 (ceilDiv data.length 64) ++ BitVec.ofNat 21 tid
    w1 := w1, w2 := w2, w3 := w3, w4 := w4, w5 := 0, w6 := 0, w7 := 0, data := data }

/-- This package's node id (0 before the first SPAN message). -/
def State.node (s : State) : Nat := match s.fab.node with | some n => n.toNat | none => 0

/-- Sends a message that opens no request. -/
def State.sendMsg (s : State) (m : FMsg) : State := s.modFab fun f => { f with out := f.out ++ [m] }

/-! ### Candidates and owners (R58, R64) -/

/-- A step on an exclusive calendar. -/
def CStep.engine (t : CStep) : Bool := decide (t.kind.toNat ≤ 1)

/-- The rate of a step in units (R60). -/
def CStep.rate (t : CStep) : Nat := if t.engine then 1 else ceilDiv t.vol (512 * t.dur)

/-- The cores that a selector of R64 names, for a requester on a die. -/
def CStep.cores (t : CStep) (d : VdDef) (die : Nat) : List Nat :=
  let bits (h : Nat) : List Nat := ((List.range 16).filter fun i => t.sel.getLsbD i).map (16 * h + ·)
  if t.selm = 0 then [t.sel.toNat % 1024]
  else if t.selm = 1 then
    if t.sel.getLsbD 22 then (sortNat (d.hanks.filter fun h => h / 8 == die)).flatMap bits else bits (t.sel.toNat / 65536 % 64)
  else []

/-- A step as placed in a round: its calendar (none while a foreign owner is to choose it), start, length, rate. -/
structure Pick where
  cal : Option Nat
  start : Nat
  dur : Nat
  rate : Nat
  deriving DecidableEq, Repr

/-- The candidates of a step, lowest first (R64). -/
def CStep.cands (t : CStep) (d : VdDef) (die : Nat) (ps : List Pick) : List Nat :=
  let base := if t.kind = 1 then 1024 else 0
  let x := t.sel.toNat
  let bits (n b : Nat) : List Nat := ((List.range n).filter fun i => t.sel.getLsbD i).map (b + ·)
  match t.kind.toNat with
  | 2 => (match t.selm.toNat with
    | 0 => [2048 + x % 64]
    | 1 => bits 8 (2048 + 8 * (x / 65536 % 8))
    | _ => (match t.homes with | some g => [2048 + g] | none => []))
  | 3 => if t.selm = 0 then [2112 + x % 16] else bits 16 2112
  | 4 => [2128]
  | _ =>
    if t.selm = 2 then (match (ps[t.sk.toNat]?).bind (·.cal) with | some c => [base + c % 1024] | none => [])
    else (t.cores d die).map (base + ·)

/-- The step whose core a SELM 2 step takes, followed to one that names its own calendars (R64). -/
def CStep.origin (steps : List CStep) (t : CStep) : Nat → CStep
  | 0 => t
  | n + 1 => if t.engine && t.selm == 2 then (match steps[t.sk.toNat]? with | some u => u.origin steps n | none => t) else t

/-- The owner of a step's calendars (R58): every selector names calendars of one unit, and a core's two calendars have one owner. -/
def CStep.owner (t : CStep) (d : VdDef) (die : Nat) (steps : List CStep) : Nat :=
  (((t.origin steps 8).cands d die []).head?.map calOwner).getD die

/-! ### Requests -/

/-- Rewrites request `id`. -/
def State.modReq (s : State) (id : Nat) (f : BReq → BReq) : State :=
  s.modBk fun k => { k with reqs := k.reqs.map fun r => if r.id = id then f r else r }

/-- The final result of a request (R68, R73): to the task that holds for it, or to FUT. -/
def State.deliver (s : State) (r : BReq) (w : Word) : State :=
  if r.tmpl then s
  else if r.told then (if r.chain.fut = 0 then s else (s.clipped r.vd 2).devFill r.vd r.chain.fut.toNat w)
  else s.modBk fun k => { k with results := tset k.results r.id w }

/-- A request leaves with its senior holds freed as well. -/
def State.endReq (s : State) (r : BReq) : State :=
  (s.dropReq r.id).modBk fun k => k.freeHolds fun h => h.senior == some (r.task, r.record)

/-- A booking message to a remote node (R315). -/
def State.bookMsg (s : State) (type node vd : Nat) (w1 w2 w3 : Word) : State :=
  s.sendMsg (mkMsg type node s.node vd 0 w1 w2 w3 0 [])

/-- The RID of a step's exchange: the request's id and the step (notes/assumptions/12.md). -/
def ridOf (r : BReq) (j : Nat) : Word := BitVec.ofNat 64 (8 * r.id + j) <<< 32

/-- The keys of the answers an exchange awaits: each foreign step, and 8 + step for a remote node. -/
def BReq.asked (r : BReq) (d : VdDef) : List Nat :=
  (r.chain.steps.zipIdx).flatMap fun e =>
    (if e.1.owner d r.die r.chain.steps != r.die then [e.2] else []) ++ (if e.1.rmt then [8 + e.2] else [])

/-- Sends a message of the exchange to one asked owner: inside the package, or to the step's node. -/
def State.tell (s : State) (r : BReq) (inner : Nat → BMsg) (outer : State → Nat → Nat → State) (key : Nat) : State :=
  if key < 8 then s.modBk fun k => { k with msgs := k.msgs ++ [inner key] }
  else
    match r.chain.steps[key - 8]? with
    | some t => outer s t.node (key - 8)
    | none => s

/-- ABORT to an asked owner (R70). -/
def State.tellAbort (s : State) (r : BReq) (key : Nat) : State :=
  s.tell r (fun j => .abort r.id j) (fun s n j => s.bookMsg 20 n r.vd 0 (ridOf r j) 0) key

/-- Every owner that granted, or has not answered, is sent ABORT. -/
def State.abortAll (s : State) (r : BReq) : State :=
  match s.vd r.vd with
  | none => s
  | some d =>
    let ks := match r.st with
      | .preparing _ => (r.asked d.d).filter fun k => match tget r.ans k with | some (.refuse _) => false | _ => true
      | .committing _ => (r.asked d.d).filter fun k => (tget r.ans (16 + k)).isNone
      | _ => []
    ks.foldl (fun s k => s.tellAbort r k) s

/-- A booking's step under the exchange's results. -/
def stepOf (t : CStep) (cal start : Nat) (rem : Option (Nat × Nat × Nat)) : BStep :=
  { kind := t.kind, withRel := t.rel, gap := t.gap, dur := t.dur, len := t.dur, rate := t.rate, vol := t.vol, cal := cal, start := start,
    st := .booked, consumed := false, slipCancel := false, free := false, rem := rem, orig := start, late := 0 }

/-- What an owner confirmed of a request's commit is sent CANCEL (R70). -/
def State.cancelConfirmed (s : State) (r : BReq) : State :=
  match s.vd r.vd with
  | none => s
  | some d =>
    ((r.asked d.d).filter fun k => (tget r.ans (16 + k)).isSome).foldl (fun s k =>
      s.tell r (fun j => .cancel r.pendingH j)
        (fun s n j => s.bookMsg 21 n r.vd 0 0 (BitVec.ofNat 64 (16777216 * j + r.pendingH))) k) s

/-- The ends of a request that leave its handle's entry free: the entry shows EXPIRED until it is used again (R89). -/
def State.expireEntry (s : State) (r : BReq) : State :=
  if r.pendingH = 0 then s
  else
    let steps := r.chain.steps.map fun t => { stepOf t 0 0 none with st := .expired, len := 0, free := true }
    let b : Booking := { vd := r.vd, owner := r.task, gen := genOfHandle r.pendingH, pri := r.chain.pri, steps := steps }
    s.modBk fun k => { k with bookings := tset k.bookings (keyOfHandle r.pendingH) b }

/-- A request ends EXPIRED with a cause (R80, R83, R326, R454). -/
def State.expireReq (s : State) (r : BReq) (cause : Nat) : State :=
  ((s.abortAll r).endReq r).expireEntry r |>.deliver r (bookResult 4 cause 65535 0)

/-! ### The end of a request's owner, and a freeze -/

/-- A freeze aborts or drops a request with EXPIRED, cause FREEZE; what was confirmed of its commit is cancelled (R83, R70). -/
def State.freezeReq (s : State) (r : BReq) : State :=
  let s := s.cancelConfirmed r
  if r.tmpl then
    ((s.abortAll r).endReq r).modVd r.vd fun d => { d with retmpl := d.retmpl ++ [r.task] }
  else s.expireReq r 9

/-- The owner's cancellation (R81): every booking of the task, its template's request, and each request of a BOOK, as BKCAN ends it
(R326). -/
def State.cancelOwned (s : State) (task : Nat) : State :=
  let s := (s.bk.bookings.filter fun e => e.2.owner == task).foldl (fun s e => s.cancelBooking e.1) s
  (s.bk.reqs.filter fun r => r.task == task).foldl (fun s r =>
    if r.tmpl then ((s.cancelConfirmed r).abortAll r).endReq r else (s.cancelConfirmed r).expireReq r 0) s

/-- A task that runs on in a freeze and has now left its plane, or parked, has its bookings voided and its requests ended (R83, R285). -/
def State.voidLeft (s : State) : State :=
  s.vds.foldl (fun s e =>
    if e.2.freeze.isNone then s
    else
      let left := s.fr.tasks.filter fun t => t.2.vd == e.1 &&
        (match t.2.state with | .active => false | .held => false | .staged => false | _ => true)
      left.foldl (fun s t =>
        let s := (s.bk.reqs.filter fun r => r.task == t.1 && !r.tmpl).foldl State.freezeReq s
        if s.bk.bookings.any fun b => b.2.owner == t.1 && !(b.2.steps.all BStep.over) then s.voidOwned t.1 else s) s) s

end Sys2Proof.Machine
end

