-- ==== Sys2Proof/Machine/Ops.lean ====
section
/-! DEFINITION. The named operations that the meanings share: the order among accesses, holds, the path of execution, taking
a trap and returning from one, asynchronous faults, kills, scope ceilings. -/

namespace Sys2Proof.Machine

/-! ### The order among a task's accesses (spec/11_memory_model.md R210 to R218) -/

/-- The scopes at which a write to this home is not waited for (R214). -/
def Loc.notWaited (l : Loc) (scp : BitVec 3) : Bool :=
  match l with
  | .rhbm _ _ => decide (scp.toNat ≤ 2)
  | .rcore _ _ => decide (scp.toNat ≤ 2)
  | .host _ _ => decide (scp.toNat ≤ 3)
  | _ => false

/-- The home lies outside the package (R211). -/
def Loc.outside (l : Loc) : Bool :=
  match l with | .rhbm _ _ => true | .rcore _ _ => true | .host _ _ => true | _ => false

/-- Two byte ranges of homes meet: same kind of home and the same place, at what distance. -/
def Loc.dist (a b : Loc) : Option Int :=
  match a, b with
  | .hbm x, .hbm y => some ((y : Int) - x)
  | .spad c x, .spad d y => if c = d then some ((y : Int) - x) else none
  | .bobbin c x, .bobbin d y => if c = d then some ((y : Int) - x) else none
  | .creel c x, .creel d y => if c = d then some ((y : Int) - x) else none
  | .host c x, .host d y => if c = d then some ((y : Int) - x) else none
  | .rhbm c x, .rhbm d y => if c = d then some ((y : Int) - x) else none
  | .rcore c x, .rcore d y => if c = d then some ((y : Int) - x) else none
  | _, _ => none

/-- Two elements overlap in at least one byte that both select (R212). -/
def Elem.overlaps (a b : Elem) : Bool :=
  match a.loc, b.loc with
  | some x, some y =>
    match x.dist y with
    | none => false
    | some k => (List.range b.len).any fun i =>
        b.mask.getLsbD i && decide (0 ≤ k + i ∧ k + i < a.len) && a.mask.getLsbD (k + i).toNat
  | _, _ => false

/-- An element that the package switch has accepted (R214). -/
def Elem.isAccepted (e : Elem) : Bool := match e.st with | .accepted _ => true | _ => false

/-- An element has performed at a scope (R214): a write to another die at core, die and device scope once the die link and the switch have
taken it (notes/assumptions/27.md). -/
def Elem.doneAt (e : Elem) (store : Bool) (scp : BitVec 3) : Bool :=
  e.st == .performed ||
  (store && ((match e.loc with | some l => l.notWaited scp | none => false) || (e.isAccepted && decide (scp.toNat ≤ 2))))

/-- An earlier element may share a byte with `e`. Of one that is still to be translated only the place in its 64 KiB page is known. -/
def Elem.mayMeet (x e : Elem) : Bool :=
  match x.loc, e.loc with
  | none, some (.hbm _) =>
    decide (x.va.toNat % 65536 < e.va.toNat % 65536 + e.len ∧ e.va.toNat % 65536 < x.va.toNat % 65536 + x.len)
  | _, _ => x.overlaps e

/-- An earlier element lets `e` perform as far as their bytes go (R212): it has performed, or the switch has accepted it and delivers it
first (R214), or it shares no byte. -/
def Elem.lets (x e : Elem) : Bool := x.st == .performed || x.isAccepted || !(x.mayMeet e)

/-- Every element of an access has performed. -/
def Access.performed (a : Access) : Bool := a.elems.all fun e => e.st == .performed

/-- An access has performed at a scope. -/
def Access.doneAt (a : Access) (scp : BitVec 3) : Bool := a.elems.all fun e => e.doneAt a.kind.isStore scp

/-- Some home of the access lies outside the package. -/
def Access.outside (a : Access) : Bool := a.elems.any fun e => match e.loc with | some l => l.outside | none => false

/-- The accesses that carry a class (R211). -/
def AccKind.classed (k : AccKind) : Bool :=
  match k with | .fget _ => false | .fput => false | .desc _ => false | .shrel _ _ => false | .shacq _ _ => false | _ => true

/-- What an earlier access `b` requires before element `e` of access `a` performs: overlap (R212), class (R211), acquire and
release (R218). -/
def Access.lets (b a : Access) (e : Elem) : Bool :=
  (b.elems.all fun x => x.lets e) &&
  (b.doneAt 2 || !(b.kind.classed && a.kind.classed && b.cls == a.cls && !b.outside && !a.outside)) &&
  (b.performed || !b.acq) &&
  (b.doneAt a.scp || !a.rel)

/-- Element `e`, the `i`-th of access `a`, may perform: earlier accesses let it, and earlier elements of its own do not
overlap it unperformed (R210). -/
def mayPerform (acc : List Access) (a : Access) (i : Nat) (e : Elem) : Bool :=
  (acc.takeWhile fun b => b.id != a.id).all (fun b => b.lets a e) &&
  (a.elems.take i).all fun x => x.lets e

/-- Page migration holds element `i` of an access (R252). -/
def Hbm.holdsElem (h : Hbm) (c p id i : Nat) : Bool := h.migs.any fun m => m.held.contains (.elem c p id i)

/-- Element `e` of a load or atomic is homed in a share window and has not performed: its mismatch would be precise (R265). -/
def State.preciseWait (s : State) (k : AccKind) (e : Elem) : Bool :=
  !k.isStore && e.st != .performed && (match e.loc with | some (.hbm a) => s.hbm.inWindow a | _ => false)

/-- An access that keeps its instruction from completing: an element is to be translated, waits for a reply, or may still
fault precisely. -/
def State.unresolved (s : State) (a : Access) : Bool :=
  a.elems.any fun e => e.st == .translating || e.st == .walking || e.st == .waiting || s.preciseWait a.kind e

/-! ### Registers in use -/

/-- The g register an outstanding access will write: FGET, SHREL and SHACQ take their result up themselves. -/
def AccKind.destG (k : AccKind) : Option (BitVec 6) :=
  match k with | .ld d _ => some d | .amo d _ => some d | .cas d => some d | _ => none

/-- The v register an outstanding access will write: a decoding VLD takes its result up itself. -/
def AccKind.destV (k : AccKind) : Option (BitVec 5) :=
  match k with
  | .ldsec v => some v
  | .vld v lay _ => if lay = 0 then some v else none
  | .vgath v _ => some v
  | _ => none

/-- The v registers that matrix reads of a task will write. -/
def Core.mbrdDests (k : Core) (task : Nat) : List (BitVec 5) :=
  k.mx.filterMap fun o => if o.c.task = task then (match o.kind with | .mbrd _ _ _ v _ => some v | _ => none) else none

/-- g register `r` awaits a result. -/
def Plane.busyG (p : Plane) (r : BitVec 6) : Bool := r != 0 && p.acc.any fun a => a.kind.destG == some r

/-- v register `r` awaits a result. -/
def Plane.busyV (p : Plane) (k : Core) (r : BitVec 5) : Bool :=
  (p.acc.any fun a => a.kind.destV == some r) || (match p.task with | some t => (k.mbrdDests t).contains r | none => false)

/-! ### Tags (spec/05_core.md R101, R408) -/

/-- Tags that outstanding copies of a task name: a CPYS its tag, a CPY every tag (R408). -/
def Core.namedTags (k : Core) (task : Nat) : Word :=
  k.cp.foldl (fun m o =>
    if o.c.task = task then (if o.chain then BitVec.allOnes 64 else match o.tag with | some t => m ||| ((1 : Word) <<< t.toNat) | none => m)
    else m) 0

/-! ### Lines (spec/06_encoding.md R109 to R112) -/

/-- The line that holds an address. -/
def lineOf (pc : Word) : Word := pc &&& ~~~63#64

/-- The word of its line an address names. -/
def wordIdx (pc : Word) : Nat := (pc.extractLsb' 2 4).toNat

/-- A line in the line store (R99). -/
def Core.findLine (k : Core) (vd : Nat) (addr : Word) : Option Line := k.lines.find? fun l => l.vd == vd && l.addr == addr

/-- Word `w` of a line. -/
def Line.word (l : Line) (w : Nat) : IWord := l.words.getD w 0

/-- Moves a line to the front: fetched most recently. -/
def Core.useLine (k : Core) (l : Line) : Core :=
  { k with lines := l :: k.lines.filter fun x => !(x.vd == l.vd && x.addr == l.addr) }

/-- The first word of the instruction that takes word CNT, by a walk over words 1 to CNT: its place, and whether it is the first of
a pair. -/
def lastFirst (l : Line) (cnt w : Nat) : Nat → Nat × Bool
  | 0 => (w, false)
  | n + 1 =>
    let p := isPair (l.word w)
    if cnt ≤ w + (if p then 1 else 0) then (w, p) else lastFirst l cnt (w + (if p then 2 else 1)) n

/-- A line is well formed (R112): OWN 0; word CNT is not the first of a pair; E exactly where word CNT has the opcode of a transfer,
whatever its guard. The second word of a pair has no opcode (notes/assumptions/14.md). -/
def Line.wellFormed (l : Line) : Bool :=
  let k := l.word 0
  let cnt := linkCnt k
  let z := lastFirst l cnt 1 16
  linkOwn k == 0 && !(decide (cnt > 0) && z.2 && z.1 == cnt) &&
  (linkE k == (decide (cnt > 0) && z.1 == cnt && !z.2 && isTransfer (l.word cnt)))

/-- Asks for the fill of a line that the line store lacks (R99, R111). -/
def Core.ask (k : Core) (v : Nat) (line : Word) : Core :=
  if (k.findLine v line).isSome || k.want.contains (v, line) then k else { k with want := k.want ++ [(v, line)] }

/-- A core asks for the fill of a line. -/
def State.wantLine (s : State) (c v : Nat) (line : Word) : State := s.modCore c fun k => k.ask v line

/-! ### The path of execution (R106 to R112) -/

/-- The passes of a loop: n, plus NST under LOOPM (R107, R108). -/
def Loop.passes (l : Loop) : Nat := l.n.toNat + (if l.mod then l.ns.toNat else 0)

/-- The loop is over. -/
def Loop.stop (l : Loop) : Loop := { l with act := false, first := 0, exit := 0 }

/-- The end of a pass, where execution would go on at `next`: the first body line again, or the loop is over. -/
def Plane.endPass (x : Plane) (next : Word) : Plane :=
  if x.loop.j.toNat + 1 < x.loop.passes
  then { x with loop := { x.loop with j := x.loop.j + 1 }, pc := x.loop.first + 4 }
  else { x with loop := x.loop.stop, pc := next }

/-- Execution leaves the line at `line` with link word `k` at its end (R111, R112): after a chain's end, the address named
by R112 is no word of the line, so that the next fetch raises FETCH there. -/
def Plane.lineEnd (x : Plane) (line : Word) (k : IWord) : Plane :=
  let fall := line + 4 + BitVec.ofNat 64 (4 * linkCnt k)
  let next := linkNext line k
  if x.loop.act then
    if linkEnd k then x.endPass fall
    else if x.loop.exit != 0 && next == x.loop.exit then x.endPass (next + 4)
    else { x with pc := next + 4 }
  else if linkEnd k then { x with pc := fall, loop := if x.loop.first = 0 then x.loop else x.loop.stop }
  else { x with pc := next + 4 }

/-- The plane executes a loop's body, or passes over it (R106, R107). -/
def Loop.inBody (l : Loop) : Bool := l.act || l.first != 0

/-- LOOPM squashes a body line of stage `k` in this pass (R108). -/
def Loop.squashes (l : Loop) (k : Nat) : Bool :=
  l.mod && !(decide (k ≤ l.j.toNat) && decide (l.j.toNat - k < l.n.toNat))

/-- A running loop's execution passes over the line at `line` with link word `k`, entered at word 1: a line squashed, or of a body that is not
run, or the first line behind the body (R106 to R108); the plane behind it, or none where the line executes. -/
def Plane.passOver (x : Plane) (line : Word) (k : IWord) : Option Plane :=
  if linkL k then
    if !x.loop.act || x.loop.squashes (linkStg k) then some (x.lineEnd line k) else none
  else if !x.loop.act || line == x.loop.first then some { x with loop := x.loop.stop }
  else some ({ x with loop := { x.loop with exit := line } }.endPass x.pc)

/-- Execution passes `n` words of an instruction at the plane's pc, with the line it stands in. -/
def Plane.pass (x : Plane) (l : Option Line) (n : Nat) : Plane :=
  match l with
  | some l =>
    if wordIdx x.pc + n ≤ linkCnt (l.word 0) then { x with pc := x.pc + BitVec.ofNat 64 (4 * n), hold := none }
    else { x with hold := none }.lineEnd (lineOf x.pc) (l.word 0)
  | none => { x with pc := x.pc + BitVec.ofNat 64 (4 * n), hold := none }

/-- The VD of a plane's task. -/
def State.vdOf (s : State) (c : Nat) (p : BitVec 1) : Nat :=
  match (s.plane c p).task.bind s.task with | some t => t.vd | none => 0

/-- The line that a plane's pc names, if held. -/
def State.lineAt (s : State) (c : Nat) (p : BitVec 1) : Option Line :=
  (s.core c).findLine (s.vdOf c p) (lineOf (s.plane c p).pc)

/-- The executing plane completes an instruction of `n` words. -/
def State.advance (s : State) (n : Nat) : State :=
  let l := s.lineAt s.fc s.fp
  s.modPl fun x => x.pass l n

/-- Plane `p` of core `c` completes an instruction of `n` words. -/
def State.advanceAt (s : State) (c : Nat) (p : BitVec 1) (n : Nat) : State :=
  let l := s.lineAt c p
  s.modPlane c p fun x => x.pass l n

/-- Where the executing plane goes after an instruction of `n` words. -/
def State.nextPc (s : State) (n : Nat) : Word := (s.pl.pass (s.lineAt s.fc s.fp) n).pc

/-! ### Holds (spec/02_execution_model.md R22) -/

/-- The executing plane holds. -/
def State.holdOn (s : State) (h : Hold) : State :=
  let s := s.modPl fun x => { x with hold := some h }
  match s.pl.task with | some k => s.setTState k .held | none => s

/-- A booked step is still to start, and no step attached to it is PORTDOWN (R82). -/
def State.stepBooked (s : State) (v h j : Nat) : Bool :=
  match s.booking v h with
  | some b => match b.steps[j]? with | some t => t.st == .booked && !(b.portLost j) | none => false
  | none => false

/-- The accesses of the package with an element that `p` names, by its VD (R249, R250). -/
def State.usersBy (s : State) (p : Nat → Elem → Bool) : List (Nat × Nat × Nat) :=
  s.cores.flatMap fun e => ([(e.2.p0, (0 : BitVec 1)), (e.2.p1, 1)]).flatMap fun x =>
    (x.1.acc.filter fun a => a.elems.any (p (s.vdOf e.1 x.2))).map fun a => (e.1, x.2.toNat, a.id)

/-- An access recorded by an invalidation has performed, is parked or held, or has gone (R249). -/
def State.accSettled (s : State) (a : Nat × Nat × Nat) : Bool :=
  match (s.plane a.1 (BitVec.ofNat 1 a.2.1)).acc.find? fun x => x.id == a.2.2 with
  | none => true
  | some x => (x.elems.zipIdx).all fun e =>
    match e.1.st, e.1.loc with
    | .walking, _ => false
    | .ready, some (.hbm _) => false
    | .accepted _, some (.hbm _) => s.hbm.holdsElem a.1 a.2.1 a.2.2 e.2
    | _, _ => true

/-- A hold is over (R22, R23, R408). -/
def State.holdOver (s : State) (c : Nat) (p : BitVec 1) (h : Hold) : Bool :=
  let k := s.core c
  let x := k.plane p
  match h with
  | .regs gs vs => gs.all (fun g => !(x.busyG g)) && vs.all (fun v => !(x.busyV k v))
  | .counts mx cp st ld =>
    decide (x.oc.mxc.toNat ≤ mx ∧ x.oc.cpc.toNat ≤ cp ∧ x.oc.stc.toNat ≤ st ∧ x.oc.ldc.toNat ≤ ld)
  | .tagAny m => (x.sr.tags &&& m) != 0 || (k.namedTags (x.task.getD 0) &&& m) == 0
  | .tagAll m => (x.sr.tags &&& m) == m || (m &&& ~~~x.sr.tags &&& ~~~(k.namedTags (x.task.getD 0))) != 0
  | .accs ids scp => x.acc.all fun a => !(ids.contains a.id) || a.doneAt scp
  | .resolve id => x.acc.all fun a => a.id != id || !(s.unresolved a)
  | .fill line => (k.findLine (s.vdOf c p) line).isSome
  | .startMx _ op => !(s.stepBooked op.c.vd op.c.bk op.c.step)
  | .startCp _ op => !(s.stepBooked op.c.vd op.c.bk op.c.step)
  | .book req => (tget s.bk.results req).isSome
  | .mbrd v => !(k.mbrdDests (x.task.getD 0)).contains v
  | .xinv accs => accs.all s.accSettled

/-! ### Scope ceilings (spec/11_memory_model.md R227 to R229) -/

/-- What a scope named by an instruction comes to: SCOPE with its trap value, or the scope performed and whether it is
clipped (R228). -/
def scopeOf (d : VdDef) (scp : BitVec 3) : Except Word (BitVec 3 × Bool) :=
  if d.ceil.toNat < scp.toNat then
    if d.sctrap then .error (BitVec.ofNat 64 (scp.toNat + 8 * d.ceil.toNat)) else .ok (d.ceil, true)
  else .ok (scp, false)

/-! ### Taking a trap (spec/14_traps_preemption.md R273 to R281) -/

/-- The cause codes of R273. -/
def cILLEGAL : Nat := 1
def cPRIV : Nat := 2
def cFETCH : Nat := 3
def cXLATE1 : Nat := 4
def cXLATE2 : Nat := 5
def cPERM : Nat := 6
def cALIGN : Nat := 7
def cLEASE : Nat := 8
def cFPE : Nat := 9
def cSNAN : Nat := 10
def cDIVZERO : Nat := 11
def cOVERRUN : Nat := 12
def cBOOKING : Nat := 13
def cSCOPE : Nat := 14
def cATOMIC : Nat := 15
def cINTEGRITY : Nat := 16
def cSVC : Nat := 17
def cTRAP : Nat := 18
def cBRK : Nat := 19
def cDOUBLE : Nat := 20

/-- `sr.cause`: CODE, ASY, SRC (R274). -/
def causeWord (code : Nat) (asy : Bool) (src : Nat) : Word := BitVec.ofNat 64 (code + (if asy then 256 else 0) + 512 * src)

/-- The trap of a plane's task that could not be delivered halts its VD, reason DOUBLE (R279). -/
def State.doubleFault (s : State) (v : Nat) (i : TrapInfo) : State := s.raiseHalt v 2 i.cause

/-- The eight words of a trap record (R276). -/
def trapWords (i : TrapInfo) (taskId core slot : Nat) : List Word :=
  [i.cause, i.resume.setWidth 48 |>.setWidth 64, i.tval, BitVec.ofNat 64 taskId, i.origin.setWidth 48 |>.setWidth 64,
   BitVec.ofNat 64 (1099511627776 * i.more + 268435456 * i.state + 16777216 * i.step + i.bkh), i.slot,
   BitVec.ofNat 64 (65536 * core + slot)]

/-- Steps 2 to 5 of R275, once nothing of the task is outstanding: takes a pair and a spill slot, spills, writes the trap record,
creates the trap task. What cannot be delivered is a double fault (R279). -/
def State.finishTrap (s : State) (c : Nat) (p : BitVec 1) : State :=
  let x := s.plane c p
  match x.trap, x.task.bind s.task with
  | some i, some t =>
    match s.vd t.vd with
    | none => s
    | some d =>
      match s.pick (s.freePairs t.vd d), s.freeKept t.vd d with
      | some k, some n =>
        let key := taskKey t.vd t.idx
        let s := s.bump
        let s := s.modTask key fun t => { t with more := if i.cause.getLsbD 8 then some k else none, requeued := false,
                                                 parkAt := none, parkWords := 0, kept := none, lanes := [] }
        match s.spillTo c p n i.resume with
        | (some _, s) => s.doubleFault t.vd i
        | (none, s) =>
          match s.quietWrite t.vd (d.d.tra + 64 * k) ((trapWords i (taskVa d.d t.idx) c n).flatMap wordBytes) with
          | (some _, s) => s.doubleFault t.vd i
          | (none, s) =>
            let h := { Task.fresh t.vd (d.d.poolCount - 16 + k) 2 3 0 t.home 0xFFF#12 x.sr.point t.rows with
                       record := some k, trapped := some key, trapSr := (i.cause, i.epc, i.tval) }
            let s := s.createTask h (BitVec.ofNat 64 (d.d.tvec + 4)) [BitVec.ofNat 64 (d.d.tra + 64 * k), 0, 0, 0, 0]
            let s := s.count t.vd 5 0 1
            if i.cause.getLsbD 8 then s.count t.vd 5 1 1 else s
      | _, _ => s.doubleFault t.vd i
  | _, _ => s

/-- Taking a trap (R275): step 1 writes sr.cause, sr.epc and sr.tval, and from then on no instruction of the task issues; the rest
follows when every operation that sr.oc counts has performed (spec/12_translation.md R242), here at once if none is
outstanding. -/
def State.takeTrap (s : State) (c : Nat) (p : BitVec 1) (i : TrapInfo) : State :=
  let s := s.modPlane c p fun x =>
    { x with sr := { x.sr with cause := i.cause, epc := i.epc, tval := i.tval }, trap := some i, hold := none, park := none }
  if (s.plane c p).oc.zero then s.finishTrap c p else s

/-- A precise trap of the plane's task at `epc`, with a resumption address of its own (R274, R276). -/
def State.trapAt (s : State) (c : Nat) (p : BitVec 1) (code : Nat) (epc tval resume : Word) : State :=
  s.takeTrap c p { cause := causeWord code false 0, epc := epc, tval := tval, resume := resume, origin := epc, more := 0,
                   state := 0, step := 0, bkh := 0, slot := s.slot }

/-- A precise trap of the executing instruction: RESUME is `sr.epc`. -/
def State.trap (s : State) (code : Nat) (tval : Word) : State :=
  s.trapAt s.fc s.fp code s.pl.pc tval s.pl.pc

/-- A precise trap of SVC, TRAP or BRK: RESUME is the next instruction (R276). -/
def State.trapNext (s : State) (code : Nat) (tval : Word) : State :=
  s.trapAt s.fc s.fp code s.pl.pc tval (s.nextPc 1)

/-- A fetch of the plane's task faults with a cause at `epc`. The first fetch of a trap task is a double fault (R279). -/
def State.fetchTrap (s : State) (c : Nat) (p : BitVec 1) (code : Nat) (epc tval : Word) : State :=
  match (s.plane c p).task.bind s.task with
  | some t =>
    if t.kind = 2 && !t.st then s.doubleFault t.vd { cause := causeWord code false 0, epc := epc, tval := tval, resume := epc, origin := epc, more := 0, state := 0, step := 0, bkh := 0, slot := s.slot }
    else s.trapAt c p code epc tval epc
  | none => s

/-- The plane that holds a task, if any. -/
def State.planeOf (s : State) (key : Nat) : Option (Nat × BitVec 1) :=
  s.cores.findSome? fun e =>
    if e.2.p0.task == some key then some (e.1, 0) else if e.2.p1.task == some key then some (e.1, 1) else none

/-- Makes an asynchronous fault pending on a task (R280), or merges it into the trap of an earlier one: into the trap record once that
is written, before that into what it will hold (R281). -/
def State.addFault (s : State) (key : Nat) (f : AFault) : State :=
  match s.task key with
  | none => s
  | some t =>
    let taking := (s.planeOf key).bind fun q => ((s.plane q.1 q.2).trap.filter fun i => i.cause.getLsbD 8).map fun i => (q, i)
    match taking, t.more, s.vd t.vd with
    | some (q, i), _, _ =>
      (s.modPlane q.1 q.2 fun x => { x with trap := some { i with more := min 255 (i.more + 1) } }).count t.vd 5 2 1
    | none, some k, some d =>
      match s.sureWord t.vd (d.d.tra + 64 * k + 40) with
      | (none, s) => s
      | (some w, s) =>
        let n := w.extractLsb' 40 8
        let w := (w &&& ~~~(0xFF0000000000#64)) ||| ((if n = 255 then n else n + 1).setWidth 64 <<< 40)
        ((s.mustWrite t.vd (d.d.tra + 64 * k + 40) [w]).2).count t.vd 5 2 1
    | _, _, _ => s.modTask key fun t => { t with faults := t.faults ++ [f] }

/-- The link word at the line of a plane's pc: from the line store, or as the fill would bring it. -/
def State.linkAt (s : State) (c : Nat) (p : BitVec 1) (x : Plane) : Option IWord :=
  let v := s.vdOf c p
  match (s.core c).findLine v (lineOf x.pc) with
  | some l => some (l.word 0)
  | none =>
    match s.walkQ true v (lineOf x.pc) .fetch with
    | (.ok e, s) => (s.homeRead (e.dpa (lineOf x.pc)) 4).1.map fun bs => BitVec.ofNat 32 (leNat bs)
    | _ => none

/-- Where a task of a running loop stands that stops between lines (R278): lines that the loop squashes, and the end of its last pass, lie
behind it. -/
def State.stopPlace (s : State) (c : Nat) (p : BitVec 1) (x : Plane) : Nat → Plane
  | 0 => x
  | n + 1 =>
    if wordIdx x.pc = 1 && x.loop.inBody then
      match (s.linkAt c p x).bind fun k =>
          if linkL k && x.loop.mod && decide (x.loop.ns.toNat < linkStg k) then none else x.passOver (lineOf x.pc) k with
      | some x => s.stopPlace c p x n
      | none => x
    else x

/-- The plane's task takes its first pending fault (R280, R281): a hold ends without effect. -/
def State.takeAsync (s : State) (c : Nat) (p : BitVec 1) : State :=
  let s := s.modPlane c p fun x => s.stopPlace c p x 65536
  let x := s.plane c p
  match x.task with
  | none => s
  | some key =>
    match (s.task key).bind fun t => t.faults.head? with
    | none => s
    | some f =>
      let s := s.modTask key fun t => { t with faults := t.faults.drop 1 }
      s.takeTrap c p { cause := causeWord f.code true f.src, epc := x.pc, tval := f.tval, resume := x.pc, origin := f.origin,
                       more := 0, state := f.state, step := f.step, bkh := f.bkh, slot := s.slot }

/-! ### Kills and the return from a trap (R21, R277) -/

/-- Commands of a task in a core's engines are cancelled: they do no further work. -/
def Core.killCmds (k : Core) (key : Nat) : Core :=
  k.modCmds fun c => if c.task = key then { c with st := .finished, ended := some 5 } else c

/-- Nothing waits for a fault reply on behalf of a task any more. -/
def Attach.notOf (key : Nat) (a : Attach) : Bool :=
  match a with | .lane k _ _ => k != key | .task k _ => k != key | .engine _ _ _ => true | .remote _ _ _ => true

/-- Kills a task in any state but DONE, with the tasks it serves as a trap task (R21, R277): its bookings are cancelled, its
engine work stops, its plane and frame are freed. -/
def State.killTask (s : State) (key : Nat) : Nat → State
  | 0 => s
  | fuel + 1 =>
    match s.task key with
    | none => s
    | some t =>
      let s := s.cancelOwned key
      let s := match s.planeOf key with
        | some (c, p) => (s.modCore c fun k => k.killCmds key).freePlane c p
        | none => s
      let s := match t.frame, s.vd t.vd with
        | some (n, _, _), some d => (s.mustWrite t.vd (dirVa d.d n) [0]).2
        | _, _ => s
      let s := match s.vd t.vd with
        | some d =>
          let t := { t with state := .done }
          (s.mustWrite t.vd (taskVa d.d t.idx + 16) [t.word2]).2
        | none => s
      let s := s.modHbm fun h => { h with freqs := h.freqs.map fun r => { r with att := r.att.filter (Attach.notOf key) } }
      let s := s.dropTask key
      match t.trapped with
      | some k => s.killTask k fuel
      | none => s

/-- The return from a trap by the executing trap task (R277): the trapped task is killed, or re-queued at the RESUME of the
trap record; the issuing task is DONE. -/
def State.returnFrom (s : State) (kill : Bool) : State :=
  match s.pl.task, s.curTask with
  | some key, some t =>
    match t.trapped, t.record, s.vd t.vd with
    | some old, some k, some d =>
      let s := s.clipped t.vd 2
      let s :=
        if kill then s.killTask old 17
        else
          match s.sureWord t.vd (d.d.tra + 64 * k + 8) with
          | (none, s) => s
          | (some r, s) =>
            match s.task old with
            | none => s
            | some o =>
              let s := (s.mustWrite t.vd (taskVa d.d o.idx) [o.word0 (r.setWidth 48 |>.setWidth 64)]).2
              let s := s.modTask old fun o => { o with requeued := true, more := none }
              (s.frameEdited old).enqueue old
      let pc := s.nextPc 1
      let gs := s.pl.carried
      let c := s.fc
      let p := s.fp
      (s.cancelOwned key).finishTask key pc gs |>.freePlane c p
    | _, _, _ => s
  | _, _ => s

/-! ### Settling -/

/-- A plane's task stops issuing because its VD's halt line reached the plane (R282). -/
def State.planeStopped (s : State) (c : Nat) (p : BitVec 1) : Bool :=
  match (s.vd (s.vdOf c p)).bind (·.halt) with
  | some h => h.stopped.contains (.plane (BitVec.ofNat 10 c) p)
  | none => false

/-- The step of a STEP command is used up (R292). -/
def State.stepUsed (s : State) (v : Nat) : State := s.modVd v fun d => { d with step := none }

/-- The VD of a plane's task is halted for good. -/
def State.planeFatal (s : State) (c : Nat) (p : BitVec 1) : Bool :=
  match (s.vd (s.vdOf c p)).bind (·.halt) with | some h => h.fatal | none => false

/-- A hold that is over gives its instruction its turn again; XINV and BOOK keep theirs to see how far they are. -/
def Hold.keep (h : Hold) : Bool := match h with | .xinv _ => true | .book _ => true | _ => false

/-- Settles one plane after a step: a trap whose task has nothing outstanding is delivered (R275, R242); a hold that is over makes
the task ACTIVE or STAGED (R21); a STAGED task in the active plane is ACTIVE; one of whose accesses waits for a fault reply is PARKED. -/
def State.settlePlane (s : State) (c : Nat) (p : BitVec 1) : State :=
  let x := s.plane c p
  match x.task.bind s.task with
  | none => s
  | some t =>
    let key := taskKey t.vd t.idx
    let here : TState := if (s.core c).act = p then .active else .staged
    if x.trap.isSome then (if x.oc.zero && !(s.planeFatal c p) then s.finishTrap c p else s)
    else if s.planeStopped c p then s
    else
      match t.state, x.hold with
      | .held, some h =>
        if s.holdOver c p h then (if h.keep then s else s.modPlane c p fun x => { x with hold := none }).setTState key here else s
      | .held, none => s.setTState key here
      | .staged, _ => if (s.core c).act = p then s.setTState key .active else s
      | .active, _ =>
        if x.acc.any fun a => a.elems.any fun e => e.st == .waiting then s.setTState key .parked else s
      | _, _ => s

/-- Settles every plane, and ends the bookings of tasks that a freeze has let run on till now. -/
def State.settle (s : State) : State :=
  ((s.cores.map (·.1)).foldl (fun s c => (s.settlePlane c 0).settlePlane c 1) s).voidLeft

end Sys2Proof.Machine
end

