-- ==== Sys2Proof/Machine/Operands.lean ====
section
/-! DEFINITION. Operand forms of the scalar majors (spec/06_encoding.md R117, spec/17_ref_a_c.md R319), and the windows of the
address space with the checks an access makes before translation (spec/10_memory_streams.md R188, R201, R204, spec/05_core.md
R97). -/

namespace Sys2Proof.Machine

/-- What a meaning answers. -/
abbrev Out := Host.Outcome State Fault Refusal

/-! ### W forms -/

/-- The low half, zero-extended. -/
def zext32 (x : Word) : Word := (x.setWidth 32).setWidth 64

/-- The low half, sign-extended. -/
def sext32 (x : Word) : Word := (x.setWidth 32).signExtend 64

/-- A source under W, zero-extended. -/
def wz (w : BitVec 1) (x : Word) : Word := if w = 1 then zext32 x else x

/-- A source under W, sign-extended. -/
def ws (w : BitVec 1) (x : Word) : Word := if w = 1 then sext32 x else x

/-! ### Completing a scalar instruction -/

/-- A scalar instruction of `n` words that writes `t` to g register `d` under guard `g` (R103, R104, R317). -/
def State.scalar (s : State) (g : BitVec 4) (n : Nat) (d : BitVec 6) (t : Word) : State :=
  if s.pl.guard g then (s.modPl fun p => p.wg d t).advance n else s.advance n

/-- The TRI form: ga and gb. -/
def State.scalarTri (s : State) (o : Tri) (f : Word → Word → Word) : State :=
  s.scalar o.g 1 o.d (f (s.pl.rg o.a) (s.pl.rg o.b))

/-- The SIM form: gd and sext(IMM12). -/
def State.scalarSim (s : State) (o : Sim) (f : Word → Word → Word) : State :=
  s.scalar o.g 1 o.d (f (s.pl.rg o.d) (o.imm.signExtend 64))

/-- The LIM form: ga and sext(IMM32). -/
def State.scalarLim (s : State) (o : Lim) (f : Word → Word → Word) : State :=
  s.scalar o.g 2 o.d (f (s.pl.rg o.a) (o.imm.signExtend 64))

/-- A division: `f` on extended sources, DIVZERO with the dividend as trap value (spec/18_ref_d_l.md R346). -/
def State.divide (s : State) (g : BitVec 4) (n : Nat) (d : BitVec 6) (a b : Word) (f : Word → Word → Word) : State :=
  if s.pl.guard g then
    if b = 0 then s.trap cDIVZERO a else (s.modPl fun p => p.wg d (f a b)).advance n
  else s.advance n

/-! ### Windows (R188) -/

/-- A window of the address map, with the offset in it. -/
inductive Win where
  | hbm (va : Nat)
  | spad (o : Nat)
  | bobbin (o : Nat)
  | creel (o : Nat)
  | peer (core w : Nat)
  | host (h o : Nat)
  | nodeHbm (node a : Nat)
  | nodeCore (node core w : Nat)
  | none
  deriving DecidableEq, Repr

/-- A core's memories at offset `w` of its window: kind 0 scratchpad, 1 bobbin, 2 creel, with the offset there. -/
def coreWin (w : Nat) : Option (Nat × Nat) :=
  if w < 0xC0000 then some (0, w)
  else if 0x100000 ≤ w && w < 0x200000 then some (1, w - 0x100000)
  else if 0x200000 ≤ w && w < 0x400000 then some (2, w - 0x200000)
  else .none

/-- The window of an address. -/
def winOf (va : Word) : Win :=
  let a := va.toNat
  if a < 0x1000000000000 then .hbm a
  else if a < 0x2000000000000 then
    match coreWin (a - 0x1000000000000) with
    | some (0, o) => .spad o
    | some (1, o) => .bobbin o
    | some (_, o) => .creel o
    | .none => .none
  else if a < 0x2000000000000 + 0x400000 * 1024 then
    let x := a - 0x2000000000000
    if (coreWin (x % 0x400000)).isSome then .peer (x / 0x400000) (x % 0x400000) else .none
  else if 0x4000000000000 ≤ a && a < 0x4000000000000 + 0x10000000000 * 16 then
    let x := a - 0x4000000000000
    .host (x / 0x10000000000) (x % 0x10000000000)
  else if 0x1000000000000000 ≤ a && a < 0x2000000000000000 then
    let x := a - 0x1000000000000000
    if x / 0x1000000000000 < 4096 then .nodeHbm (x / 0x1000000000000) (x % 0x1000000000000) else .none
  else if 0x2000000000000000 ≤ a && a < 0x3000000000000000 then
    let x := a - 0x2000000000000000
    let r := x % 0x1000000000000
    if x / 0x1000000000000 < 4096 && r / 0x400000 < 1024 && (coreWin (r % 0x400000)).isSome
    then .nodeCore (x / 0x1000000000000) (r / 0x400000) (r % 0x400000) else .none
  else .none

/-- The own node's windows act as the package's own (R188). -/
def Win.own (node : Option (BitVec 12)) (w : Win) : Win :=
  match w, node with
  | .nodeHbm n a, some m => if n = m.toNat then .hbm a else w
  | .nodeCore n c x, some m => if n = m.toNat then .peer c x else w
  | w, _ => w

/-- Two addresses lie in one window (R188: an access must not span two). -/
def Win.same (a b : Win) : Bool :=
  match a, b with
  | .hbm _, .hbm _ => true
  | .spad _, .spad _ => true
  | .bobbin _, .bobbin _ => true
  | .creel _, .creel _ => true
  | .peer c x, .peer d y => c == d && (coreWin x).map (·.1) == (coreWin y).map (·.1)
  | .host g _, .host h _ => g == h
  | .nodeHbm m _, .nodeHbm n _ => m == n
  | .nodeCore m c x, .nodeCore n d y => m == n && c == d && (coreWin x).map (·.1) == (coreWin y).map (·.1)
  | _, _ => false

/-- The home of a core's memory window: kind and offset. -/
def coreLoc (core w : Nat) : Loc :=
  match coreWin w with
  | some (1, o) => .bobbin core o
  | some (2, o) => .creel core o
  | some (_, o) => .spad core o
  | .none => .spad core w

/-- What a window comes to for an access before translation: a home; an HBM address to translate; a precise exception (cause). -/
inductive Target where
  | home (l : Loc) (peer : Bool)
  | xlate
  | bad (cause : Nat)
  deriving DecidableEq, Repr

/-- The window checks of R188 for an access of `len` bytes by core `c` of a VD. -/
def State.target (s : State) (d : Vd) (c : Nat) (va : Word) (len : Nat) : Target :=
  let w := winOf va
  match w with
  | .none => if winOf (va + BitVec.ofNat 64 (len - 1)) = .none then .bad 4 else .bad 7
  | _ =>
    if !(w.same (winOf (va + BitVec.ofNat 64 (len - 1)))) then .bad 7
    else
      match w.own s.fab.node with
      | .hbm _ => .xlate
      | .spad o => .home (.spad c o) false
      | .bobbin o => .home (.bobbin c o) false
      | .creel o => .home (.creel c o) false
      | .peer n x => if ownsCore d n then .home (coreLoc n x) true else .bad 6
      | .host h o =>
        match tget d.hostw h with
        | some hw => if o + len ≤ hw.len then .home (.host h o) false else .bad 6
        | .none => .bad 6
      | .nodeHbm n a => if d.span.contains n then .home (.rhbm n a) false else .bad 6
      | .nodeCore n k x => if d.span.contains n then .home (.rcore n (0x400000 * k + x)) false else .bad 6
      | .none => .bad 4

/-- The lease check of R97: every byte of an own-scratchpad access that a mask selects. -/
def Plane.inLease (p : Plane) (o len : Nat) (mask : BitVec 64) : Bool :=
  (List.range len).all fun i => !(mask.getLsbD i) || decide (p.leaseBase ≤ o + i ∧ o + i < p.leaseBase + p.leaseSize)

end Sys2Proof.Machine
end

