-- ==== Sys2Proof/Machine/Flags.lean ====
section
/-! DEFINITION. Flags: the conditions of CMP, the fields of sr.fps and sr.fpen, how a floating-point instruction ends (trap, or
results with flags and tensor statistics), and the registers that CSRR and CSRW name (spec/08_numbers.md R156 to R159,
spec/17_ref_a_c.md R338, R344, spec/05_core.md R93). -/

namespace Sys2Proof.Machine

/-- The condition of CMP (R338): EQ, LT, LTU, TST. -/
def cmpCond (cc : BitVec 2) (a b : Word) : Bool :=
  match cc.toNat with
  | 0 => a == b
  | 1 => a.slt b
  | 2 => a.ult b
  | _ => (a &&& b) != 0

/-! ### sr.fpen (R157) -/

/-- The rounding mode of an instruction: RM, or sr.fpen's (R148). -/
def Plane.mode (p : Plane) (rm : BitVec 3) : Nat := if rm = 0 then (p.sr.fpen.extractLsb' 8 3).toNat else rm.toNat

/-- The controls of an instruction with rounding field RM. -/
def Plane.fctl (p : Plane) (rm : BitVec 3) : FCtl :=
  { mode := p.mode rm, daz := p.sr.fpen.getLsbD 13, ftz := p.sr.fpen.getLsbD 12, euf := p.sr.fpen.getLsbD 3 }

/-! ### Tensor statistics (R159) -/

/-- Adds event counts to a VD's entry of a tensor id. -/
def State.stat (s : State) (v : Nat) (id : BitVec 8) (sat flush nan inf : Nat) : State :=
  if sat = 0 && flush = 0 && nan = 0 && inf = 0 then s
  else s.modVd v fun d =>
    let t := tgetD d.stats id.toNat Stat.reset
    let t' : Stat := { sat := t.sat + sat, flush := t.flush + flush, nan := t.nan + nan, inf := t.inf + inf }
    { d with stats := tset d.stats id.toNat t' }

/-- One element of a vector floating-point instruction: its lane, its result, the format of the result if it is a
floating-point number, and whether the element is one that counts NaNs and infinities. -/
structure FElem where
  lane : Nat
  r : FRes
  fmt : Option Fmt
  deriving DecidableEq, Repr

/-- A result is a NaN, or an infinity. -/
def FElem.isNan (e : FElem) : Bool := match e.fmt with | some f => (f.decode e.r.bits).isNan | none => false
def FElem.isInf (e : FElem) : Bool :=
  match e.fmt with
  | some f => (match f.decode e.r.bits with | .inf _ => true | .nan _ _ _ => false | .fin _ _ _ => false)
  | none => false

/-- The lanes of the elements that satisfy `p`, as bits [15:0]. -/
def lanesOf (es : List FElem) (p : FElem → Bool) : Word :=
  es.foldl (fun m e => if p e then m ||| ((1 : Word) <<< e.lane) else m) 0

/-- The flags of every element, ORed. -/
def flagsOf (es : List FElem) : BitVec 6 := es.foldl (fun m e => m ||| e.r.fl) 0

/-- The end of a floating-point instruction of `n` words (R158): SNAN or FPE precisely, with nothing written; otherwise `write`
acts on the plane, the flags are ORed into sr.fps and the statistics are counted under sr.tensor (`counted` says whether the
major counts any). -/
def State.fpEnd (s : State) (n : Nat) (es : List FElem) (counted : Bool) (write : Plane → Plane) : State :=
  let p := s.pl
  let en : BitVec 6 := (p.sr.fpen.setWidth 5).setWidth 6
  if p.sr.fpen.getLsbD 5 && es.any (fun e => e.r.sn) then s.trap cSNAN (lanesOf es fun e => e.r.sn)
  else if es.any (fun e => e.r.fl &&& en != 0) then
    s.trap cFPE (lanesOf es (fun e => e.r.fl &&& en != 0) ||| (((flagsOf es &&& en).setWidth 64) <<< 16))
  else
    let v := s.curVd
    let sum (f : FElem → Nat) : Nat := es.foldl (fun a e => a + f e) 0
    let id := p.sr.tensor
    let s := s.modPl fun p => let p := write p; { p with sr := { p.sr with fps := p.sr.fps ||| flagsOf es } }
    let s := if counted
      then s.stat v id (sum fun e => if e.r.clamp then 1 else 0) (sum fun e => e.r.flush) (sum fun e => if e.isNan then 1 else 0)
        (sum fun e => if e.isInf then 1 else 0)
      else s
    s.advance n

/-! ### Control and status registers (R93, R94, R344) -/

/-- The sr.lease word. -/
def Plane.leaseWord (p : Plane) : Word := BitVec.ofNat 64 (4294967296 * p.leaseSize + p.leaseBase)

/-- Counter `i` of bank `b` of a VD: bank 2 index 0 is the ordering status word, bank 0 index 20 the current debt (R88, R229). -/
def State.counter (s : State) (v b i : Nat) : Word :=
  match s.vd v with
  | none => 0
  | some d =>
    if b = 2 && i = 0 then d.ord
    else if b = 0 && i = 20 then BitVec.ofNat 64 (d.debtNow s.now)
    else tgetD d.cnt (32 * b + i) 0

/-- Index `i` of bank `b` is a counter kept as such (R88, R229, R248, R272, R289, R303): not a reserved index, nor the ordering status word or
the current debt, which the model holds elsewhere. -/
def kept (b i : Nat) : Bool :=
  match b with
  | 0 => decide (i ≤ 21) && i != 20
  | 3 => decide (i ≤ 7)
  | 4 => decide (i ≤ 3)
  | 5 => decide (i ≤ 6)
  | 6 => decide (i ≤ 7)
  | _ => false

/-- What CSRR reads. -/
def State.csrRead (s : State) (num : Nat) : Word :=
  let p := s.pl
  match num with
  | 0x000 => s.slot
  | 0x001 => p.sr.point
  | 0x002 => p.sr.sweep.setWidth 64
  | 0x003 => BitVec.ofNat 64 s.curVd
  | 0x004 => match s.curTask with | some t => BitVec.ofNat 64 (s.taskId t) | none => 0
  | 0x005 => if p.sr.smode then 1 else 0
  | 0x006 => BitVec.ofNat 64 (1024 * s.fp.toNat + s.fc)
  | 0x007 => p.leaseWord
  | 0x008 => p.sr.tags
  | 0x009 => p.oc.word
  | 0x00A => p.sr.fps.setWidth 64
  | 0x00B => p.sr.fpen
  | 0x00C => p.sr.tensor.setWidth 64
  | 0x00D => p.loop.n.setWidth 64
  | 0x00E => p.loop.pass
  | 0x00F => 0
  | 0x010 => p.sr.cause
  | 0x011 => p.sr.epc
  | 0x012 => p.sr.tval
  | n => if 0x100 ≤ n && n < 0x200 then s.counter s.curVd ((n - 0x100) / 32) ((n - 0x100) % 32) else 0

/-- What CSRW changes in the plane: a register that is read-only takes no write. -/
def Plane.csrWrite (p : Plane) (num : Nat) (x : Word) : Plane :=
  match num with
  | 0x008 => { p with sr := { p.sr with tags := x } }
  | 0x00A => { p with sr := { p.sr with fps := x.setWidth 6 } }
  | 0x00B => { p with sr := { p.sr with fpen := fpenWrite p.sr.fpen x } }
  | 0x00C => { p with sr := { p.sr with tensor := x.setWidth 8 } }
  | 0x010 => { p with sr := { p.sr with cause := x &&& 0xFFF#64 } }
  | 0x011 => { p with sr := { p.sr with epc := x } }
  | 0x012 => { p with sr := { p.sr with tval := x } }
  | _ => p

/-- A register marked S in R93. -/
def csrS (num : Nat) : Bool := decide (0x010 ≤ num ∧ num ≤ 0x012)

end Sys2Proof.Machine
end

