-- ==== Sys2Proof/Machine/Bobbin.lean ====
section
/-! DEFINITION. The bobbin's write port: every update of a tile entry, with the tile's format and flags
(spec/09_matrix.md R173 to R176). -/

namespace Sys2Proof.Machine

/-- The sum of two event counts. -/
def Stat.add (a b : Stat) : Stat :=
  { sat := a.sat + b.sat, flush := a.flush + b.flush, nan := a.nan + b.nan, inf := a.inf + b.inf }

/-- Adds event counts to a VD's entry of a tensor id (R159). -/
def State.statAdd (s : State) (v : Nat) (id : BitVec 8) (t : Stat) : State := s.stat v id t.sat t.flush t.nan t.inf

/-- The events of one result in a format. -/
def evOf (f : Fmt) (r : FRes) : Stat :=
  { sat := if r.clamp then 1 else 0, flush := r.flush, nan := if (f.decode r.bits).isNan then 1 else 0,
    inf := match f.decode r.bits with | .inf _ => 1 | .nan _ _ _ => 0 | .fin _ _ _ => 0 }

/-- The tile of a bobbin offset. -/
def tileAt (o : Nat) : BitVec 3 := BitVec.ofNat 3 (o / 131072)

/-- The 64-bit entry at a bobbin offset. -/
def Core.entry (k : Core) (o : Nat) : Nat := leNat (memBytes k.bobbin o 8)

/-- Overwrites an entry. -/
def Core.setEntry (k : Core) (o v : Nat) : Core := { k with bobbin := memWrite k.bobbin o (leBytes v 8) }

/-- An add in a format meets a tile (R175). -/
def Tile.meet (t : Tile) (f : BitVec 2) : Tile :=
  if t.fmt = 0 then { t with fmt := f } else if t.fmt = f then t else { t with mix := true }

/-- A value that flush-to-zero mode takes as a subnormal: nonzero and below the smallest normal. -/
def Fmt.tiny (f : Fmt) (x : FVal) : Bool :=
  match x with | .fin _ m e => m != 0 && decide (e + m.log2 < 1 - (f.bias : Int)) | .inf _ => false | .nan _ _ _ => false

/-- The port's add of an exact value in FP32 or FP64 (R174); `euf`: the UF trap is enabled (R152). -/
def portAdd (f : Fmt) (fz euf : Bool) (acc : Nat) (x : FVal) : FRes :=
  let k : FCtl := { mode := 1, daz := fz, ftz := fz, euf := euf }
  let a := f.input k acc
  let b : FVal × Nat := if fz && f.tiny x then (.fin x.neg 0 0, 1) else (x, 0)
  let nan (v : FVal) (sn : Bool) : FRes :=
    match v with
    | .nan n _ p => { FRes.ok (nanInto f f n p) with fl := if sn then fNV else 0, sn := sn }
    | _ => f.invalid
  (if a.1.isSn then nan a.1 true
   else if b.1.isSn then nan b.1 true
   else if a.1.isNan then nan a.1 false
   else if b.1.isNan then nan b.1 false
   else f.add k a.1 b.1).flushed (a.2 + b.2)

/-- Adds an exact value to the entry at offset `o` in FP32 or FP64 (R174, R175). -/
def Core.portFp (k : Core) (o : Nat) (wide euf : Bool) (x : FVal) : Core × FRes :=
  let t := tileAt o
  let fm := fmtOf (if wide then 0 else 1)
  let k := k.modTile t fun t => t.meet (if wide then 3 else 2)
  let r := portAdd fm (k.tile t).fz euf (k.entry o % 2 ^ fm.width) x
  ((k.setEntry o r.bits).modTile t fun t => { t with fl := t.fl ||| r.fl }, r)

/-- Adds an integer to the entry at offset `o` (R175). -/
def Core.portInt (k : Core) (o : Nat) (x : Int) : Core :=
  let t := tileAt o
  let k := k.modTile t fun t => t.meet 1
  let r := intOf true 64 (k.entry o) + x
  let k := k.setEntry o (wrapInt 64 r)
  if r < intLo true 64 || intHi true 64 < r then k.modTile t fun t => { t with iov := true } else k

/-- Adds the bits `x` to the entry at offset `o` in format 1 INT64, 2 FP32 or 3 FP64 (R175): the core and the result. -/
def Core.portBits (k : Core) (o : Nat) (f : BitVec 2) (euf : Bool) (x : Nat) : Core × FRes :=
  if f = 1 then (k.portInt o (intOf true 64 x), FRes.ok 0)
  else
    let fm := fmtOf (if f = 3 then 0 else 1)
    k.portFp o (f == 3) euf (fm.decode (x % 2 ^ fm.width))

/-- The core and the events of an update by BPUT, which captures no trap enable (R177). -/
def Core.portUpdate (k : Core) (o : Nat) (f : BitVec 2) (x : Nat) : Core × Stat :=
  let r := k.portBits o f false x
  (r.1, if f = 1 then Stat.reset else evOf (fmtOf (if f = 3 then 0 else 1)) r.2)

/-- A BPUT at a bobbin offset (R331): `ow`, `add`, `f32`, `f64`. -/
def Core.bput (k : Core) (o : Nat) (bop : BitVec 4) (b : Word) : Core × Stat :=
  match bop.toNat with
  | 0 => (k.setEntry o b.toNat, Stat.reset)
  | 1 => k.portUpdate o 1 b.toNat
  | 2 => k.portUpdate o 2 (b.toNat % 2 ^ 32)
  | _ => k.portUpdate o 3 b.toNat

end Sys2Proof.Machine
end

