-- ==== Sys2Proof/Machine/Remote.lean ====
section
/-! DEFINITION. Fliurn messages as words, transaction ids, and requests sent to peer packages (spec/16_fliurn.md R312 to
R314); operations sent to host windows (spec/15_virtual_devices.md R294). -/

namespace Sys2Proof

/-- TYPE of a header (R312). -/
def FMsg.type (m : FMsg) : Nat := (m.w0.extractLsb' 58 6).toNat
/-- DST of a header (R312). -/
def FMsg.dst (m : FMsg) : Nat := (m.w0.extractLsb' 46 12).toNat
/-- SRC of a header (R312). -/
def FMsg.src (m : FMsg) : Nat := (m.w0.extractLsb' 34 12).toNat
/-- VD of a header (R312). -/
def FMsg.vd (m : FMsg) : Nat := (m.w0.extractLsb' 26 8).toNat
/-- NDATA of a header (R312). -/
def FMsg.ndata (m : FMsg) : Nat := (m.w0.extractLsb' 21 5).toNat
/-- The 21-bit transaction id of a header (R312). -/
def FMsg.tid (m : FMsg) : Nat := (m.w0.extractLsb' 0 21).toNat

/-- RID of a booking message (R315). -/
def FMsg.rid (m : FMsg) : Nat := (m.w2.extractLsb' 32 32).toNat

/-- The message with another transaction id. -/
def FMsg.withTid (m : FMsg) (tid : Nat) : FMsg :=
  { m with w0 := (m.w0 &&& ~~~(0x1FFFFF#64)) ||| (BitVec.ofNat 21 tid).setWidth 64 }

namespace Machine

/-- The bits of words 1 to 4 that a TYPE lists (R313, R315); none for a reserved TYPE. -/
def typeBits (type : Nat) : Option (Word × Word × Word × Word) :=
  let all : Word := BitVec.allOnes 64
  let rid : Word := 0xFFFFFFFF00000000
  match type with
  | 1 => some (all, 0x7FF, 0, 0)
  | 2 => some (0, 0, 0, 0)
  | 3 => some (all, 0x7FF, 0xFFFFFFFF, 0)
  | 4 => some (0, 0, 0, 0)
  | 5 => some (all, 0x1F, all, all)
  | 6 => some (all, 0, 0, 0)
  | 7 => some (all, 3, 0, 0)
  | 8 => some (0xFFFF00070FFF, 0, 0, 0)
  | 9 => some (all, 0, 0, 0)
  | 10 => some (0xFF, 0xF, 0, 0)
  | 16 => some (all, 0xFFFFFFFFFFFFFC00, 0xFFFFFFFF, 0)
  | 17 => some (all, rid ||| 0xFFF, 0, 0)
  | 18 => some (all, rid, 0, 0)
  | 19 => some (0, rid, 0xFFFFFF, 0)
  | 20 => some (0, rid, 0, 0)
  | 21 => some (0, 0, 0xF7FFFFFF, 0)
  | 22 => some (0, rid, 0, 0)
  | 23 => some (0, rid, 0, 0)
  | 24 => some (all, 0, 0, 0)
  | 25 => some (all, all, all, 0)
  | _ => none

/-- The data bytes that a message of a TYPE carries (R313, R315). -/
def dataOk (m : FMsg) : Bool :=
  m.ndata == ceilDiv m.data.length 64 &&
  (match m.type with
    | 2 => decide (1 ≤ m.data.length ∧ m.data.length ≤ 1024)
    | 3 => m.data.length == (m.w2.extractLsb' 0 11).toNat && decide (1 ≤ m.data.length ∧ m.data.length ≤ 1024)
    | 7 => m.data.length == 1024
    | _ => m.data.isEmpty)

/-- A header flit that is not discarded (R312). -/
def msgOk (m : FMsg) : Bool :=
  match typeBits m.type with
  | none => false
  | some (a, b, c, d) =>
    m.w1 &&& ~~~a == 0 && m.w2 &&& ~~~b == 0 && m.w3 &&& ~~~c == 0 && m.w4 &&& ~~~d == 0 && m.w5 == 0 && m.w6 == 0 && m.w7 == 0 &&
    dataOk m

/-- The ids toward a node that may not be used now (R314): open, or last sent within 4,096 slots. -/
def State.busyTids (s : State) (node : Nat) : List Nat :=
  (sortNat ((s.fab.opens.filterMap fun o => if o.node = node then some o.tid else none) ++
    s.fab.rest.filterMap fun r => if r.1 = node && decide (s.now < r.2.2 + 4096) then some r.2.1 else none)).eraseDups

/-- The flit bytes of a message (R309). -/
def flitBytes (m : FMsg) : Nat := 64 * (1 + m.ndata)

/-- The ports that are up and have room for `n` unbooked bytes in this slot (R60). -/
def State.freePorts (s : State) (n : Nat) : List Nat :=
  (List.range 16).filter fun p => (tgetD s.fab.ports p Port.reset).up && s.looseRoom (2112 + p) n

/-- Sends a request with a free id (R314) over a port, which booked work names and for unbooked work is any with room (R60); without an id
or a port it waits at the hub in arrival order. -/
def State.sendVia (s : State) (port : Option Nat) (node : Nat) (m : FMsg) (who : Who) : State :=
  let used := s.busyTids node
  let route := match port with | some p => some p | none => s.pick (s.freePorts (flitBytes m))
  match route with
  | some p =>
    if used.length < 2097152 && !(s.fab.waits.any fun w => w.1 == node) then
      let s := s.bump
      let tid := nthFree (Config.freePick s.freeCtr % (2097152 - used.length)) used
      let m := m.withTid tid
      let r : OpenReq := { node := node, tid := tid, msg := m, sent := s.now, tries := 0, stopped := false, who := who, port := p }
      let s := s.bump.modFab fun f => { f with opens := f.opens ++ [r], out := f.out ++ [m] }
      if port.isSome then s else s.spend (2112 + p) (flitBytes m)
    else s.modFab fun f => { f with waits := f.waits ++ [(node, m, who)] }
  | none => s.modFab fun f => { f with waits := f.waits ++ [(node, m, who)] }

/-- Sends an unbooked request. -/
def State.sendReq (s : State) (node : Nat) (m : FMsg) (who : Who) : State := s.sendVia none node m who

/-- The next id of an operation on a host window. -/
def State.hostOp (s : State) (v win off : Nat) (who : Who) (mk : Nat → HostMsg) : State :=
  let id := s.io.nextId
  let wrote : Option Nat := match mk id with | .rdmaWrite _ _ _ _ data => some data.length | _ => none
  { s with io := { ops := s.io.ops ++ [{ id := id, vd := v, win := win, off := off, who := who, wrote := wrote }], out := s.io.out ++ [mk id],
                   nextId := id + 1 } }

/-- A NACK of a message (R311, R313). -/
def State.nack (s : State) (m : FMsg) (code kind : Nat) : State :=
  s.sendMsg (mkMsg 10 m.src s.node m.vd m.tid (BitVec.ofNat 64 code) (BitVec.ofNat 64 kind) 0 0 [])

/-- The flits of a VD whose halt line is up: they wait in holding buffers, which a later event takes them from; of a VD that is halted for
good, a request is answered by an error completion (R282, R283; notes/assumptions/92.md). -/
def State.heldFlit (s : State) (m : FMsg) (h : Halt) : State :=
  if h.fatal && [1, 3, 5, 7, 8].contains m.type then s.nack m 2 3 else s

/-- A message of a TYPE that has come in: discarded where its header is wrong or names another node (R312); answered NACK code 1 where
its VD is not defined here or does not span its sender (R311), but for a NACK; held while its VD is halted, but for TIME messages (R282). -/
def State.receive (s : State) (m : FMsg) (type : Nat) (act : Vd → State) : State :=
  if m.type ≠ type || !(msgOk m) || s.fab.node.isNone || m.dst ≠ s.node || s.power != .run then s
  else
    match s.vd m.vd with
    | some d =>
      if d.span.contains m.src then
        (match d.halt with
        | some h => if 24 ≤ type then act d else s.heldFlit m h
        | none => act d)
      else if type = 10 then s else s.nack m 1 0
    | none => if type = 10 then s else s.nack m 1 0

end Machine
end Sys2Proof
end

