-- ==== Sys2Proof/Machine/Perform.lean ====
section
/-! DEFINITION. How one element of a task's access performs at its home, what leaves the package, and how an access ends
(spec/05_core.md R97, R102, spec/10_memory_streams.md R202 to R206, spec/11_memory_model.md R208 to R215, spec/12_translation.md
R252, spec/13_virry.md R258, R259, R264, R265, spec/18_ref_d_l.md R350, R352). -/

namespace Sys2Proof.Machine

/-! ### Atomics -/

/-- The value an AMO writes (R321). -/
def amoNew (aop : BitVec 4) (old b : Word) : Word :=
  match aop.toNat with
  | 0 => b
  | 1 => old + b
  | 2 => old &&& b
  | 3 => old ||| b
  | 4 => old ^^^ b
  | 5 => if old.slt b then old else b
  | 6 => if old.slt b then b else old
  | 7 => if old.ult b then old else b
  | _ => if old.ult b then b else old

/-- The bytes an access writes at a place that holds `old`, or none: stores, atomics (R204, R335), FPUT (R352). -/
def AccKind.newBytes (k : AccKind) (e : Elem) (old : List Byte) : Option (List Byte) :=
  match k with
  | .st => some (mergeBytes e.mask old e.data)
  | .fput => some e.data
  | .amo _ aop => some (wordBytes (amoNew aop (leWord old) (leWord e.data)))
  | .cas _ => if old == e.data.take 8 then some (e.data.drop 8) else none
  | _ => none

/-- The access reads its place (a plain store does not). -/
def AccKind.reads (k : AccKind) : Bool := match k with | .st => false | .fput => false | .bput _ => false | _ => true

/-- The access writes its place, or may (R238: write and atomic access types). -/
def AccKind.writes (k : AccKind) : Bool :=
  match k with | .st => true | .fput => true | .bput _ => true | .amo _ _ => true | .cas _ => true | _ => false

/-- The access type of R238. -/
def AccKind.ty (k : AccKind) : AccTy :=
  match k with
  | .st => .write | .fput => .atomic | .bput _ => .atomic | .amo _ _ => .atomic | .cas _ => .atomic | .shrel _ _ => .atomic | _ => .read

/-- ACC of a fault request (R244). -/
def AccTy.code (t : AccTy) : Nat := match t with | .read => 0 | .write => 1 | .atomic => 2 | .fetch => 3

/-! ### Core memories -/

/-- Bytes of a core's memory. -/
def State.coreBytes (s : State) (l : Loc) (n : Nat) : List Byte :=
  match l with
  | .spad c o => memBytes (s.core c).spad o n
  | .bobbin c o => memBytes (s.core c).bobbin o n
  | .creel c o => memBytes (s.core c).creel o n
  | _ => []

/-- Writes bytes to a core's memory; in the bobbin an overwrite sets no flag (R175). -/
def State.coreWrite (s : State) (l : Loc) (bs : List Byte) : State :=
  match l with
  | .spad c o => s.modCore c fun k => { k with spad := memWrite k.spad o bs }
  | .bobbin c o => s.modCore c fun k => { k with bobbin := memWrite k.bobbin o bs }
  | .creel c o => s.modCore c fun k => { k with creel := memWrite k.creel o bs }
  | _ => s

/-- A read of the own scratchpad takes sectors that a booked copy wrote: counter 11 of the booking bank (R88). -/
def State.readSect (s : State) (v c o n : Nat) : State :=
  let hit := (s.core c).sect.filter fun x => decide (o / 32 ≤ x ∧ 32 * x < o + n)
  if hit.isEmpty then s
  else (s.modCore c fun k => { k with sect := k.sect.filter fun x => !hit.contains x }).count v 0 11 (32 * hit.length)

/-- Sectors of a core's scratchpad are read by its task or engines. -/
def Loc.spadOf (l : Loc) : Option (Nat × Nat) := match l with | .spad c o => some (c, o) | _ => none

/-- An element performs at a core's memory: the bytes it takes, and the state (R204); what it reads counts as read (R88). -/
def State.perfCore (s : State) (v : Nat) (tensor : BitVec 8) (k : AccKind) (l : Loc) (e : Elem) : List Byte × State :=
  match k, l with
  | .bput bop, .bobbin c o =>
    let r := (s.core c).bput o bop (leWord e.data)
    ([], (s.setCore c r.1).statAdd v tensor r.2)
  | k, l =>
    let old := s.coreBytes l e.len
    let s := match k.newBytes e old with | some bs => s.coreWrite l bs | none => s
    let s := match l.spadOf with | some (c, o) => if k.reads then s.readSect v c o e.len else s | none => s
    (if k.reads then old else [], s)

/-! ### HBM -/

/-- What an element's turn at its home comes to: performed with the bytes it took, not now, or failed with a kind (R246, R265). -/
inductive Perf where
  | done (res : List Byte)
  | stay
  | bad (kind : Nat)
  deriving DecidableEq, Repr

/-- The watch entries of a home agent (R350). -/
def State.watchCount (s : State) (agent : Nat) : Nat := (s.fr.watches.filter fun w => w.agent == agent).length

/-- The task of a plane as (VD, task id). -/
def State.taskOf (s : State) (c : Nat) (p : BitVec 1) : Option (Nat × Task) :=
  (s.plane c p).task.bind fun k => (s.task k).map fun t => (k, t)

/-- A posted store to a share window that met a mismatch is discarded, and its task receives INTEGRITY as an asynchronous fault (R265). -/
def State.storeBad (s : State) (key : Nat) (a : Access) (va : Word) : State :=
  s.addFault key { code := 16, src := 3, tval := va, origin := a.pc, bkh := 0, step := 0, state := 0 }

/-- A mismatch found by element `e` of access `a` (R264, R265). -/
def State.badBlock (s : State) (c : Nat) (p : BitVec 1) (a : Access) (dpa : Nat) (e : Elem) : Perf × State :=
  let v := s.vdOf c p
  let win := s.hbm.inWindow dpa
  let s := s.mismatch dpa v e.va
  if !win then (.stay, s)
  else if a.kind.isStore then
    (.done [], match (s.plane c p).task with
      | some key => s.storeBad key a e.va
      | none => s)
  else (.bad 16, s)

/-- The FGET of the plane's task at `dpa` (R352): sixteen bytes and a byte that says 0 full, 1 watched, 2 no room to watch. -/
def State.fgetAt (s : State) (c : Nat) (p : BitVec 1) (dpa : Nat) (bs : List Byte) : List Byte × State :=
  if leNat (bs.drop 8) ≠ 0 then (bs ++ [0], s)
  else if 4096 ≤ s.watchCount (agentOf dpa) then (bs ++ [2], s)
  else
    match s.taskOf c p with
    | some (_, t) =>
      let w : Watch := { agent := agentOf dpa, dpa := dpa + 8, vd := t.vd, va := s.taskId t }
      (bs ++ [1], s.modFr fun f => { f with watches := if f.watches.contains w then f.watches else f.watches ++ [w] })
    | none => (bs ++ [1], s)

/-- An element of a task's access performs at the home agent of `dpa` (R258, R259). -/
def State.perfHbm (s : State) (c : Nat) (p : BitVec 1) (a : Access) (e : Elem) (dpa : Nat) : Perf × State :=
  match a.kind with
  | .shrel _ w =>
    match tget s.hbm.wins w with
    | some win =>
      let n := win.seq + 1
      (.done (wordBytes n), s.modHbm fun h => { h with wins := tset h.wins w { win with seq := n } })
    | none => (.done (wordBytes 0), s)
  | .shacq _ w => (.done (wordBytes (match tget s.hbm.wins w with | some win => win.seq | none => 0)), s)
  | k =>
    if k.reads then
      match s.homeRead dpa e.len with
      | (none, s) => s.badBlock c p a dpa e
      | (some old, s) =>
        match k with
        | .fget _ => let r := s.fgetAt c p dpa old; (.done r.1, r.2)
        | k =>
          match k.newBytes e old with
          | none => (.done old, s)
          | some bs =>
            match s.homeWrite dpa bs false with
            | none => s.badBlock c p a dpa e
            | some s => (.done old, s)
    else
      match k.newBytes e (memBytes s.hbm.mem dpa e.len) with
      | none => (.done [], s)
      | some bs =>
        match s.homeWrite dpa bs true with
        | none => s.badBlock c p a dpa e
        | some s => (.done [], s)

/-! ### Elements in a plane -/

/-- Rewrites element `i` of access `id` of a plane. -/
def State.modElem (s : State) (c : Nat) (p : BitVec 1) (id i : Nat) (f : Elem → Elem) : State :=
  s.modPlane c p fun x => { x with acc := x.acc.map fun a => if a.id = id then { a with elems := modAt a.elems i f } else a }

/-- Access `id` of a plane. -/
def Plane.access (x : Plane) (id : Nat) : Option Access := x.acc.find? fun a => a.id == id

/-- Element `i` of access `id` takes its turn's outcome. -/
def State.elemDone (s : State) (c : Nat) (p : BitVec 1) (id i : Nat) (r : Perf) : State :=
  match r with
  | .done res => s.modElem c p id i fun e => { e with st := .performed, res := res }
  | .bad k => s.modElem c p id i fun e => { e with st := .failed k }
  | .stay => s

/-- The element's home is one of the core's own memories, reached through the own windows (R188). -/
def Elem.own (e : Elem) : Bool :=
  !e.peer && (match e.loc with
    | some (.spad _ _) => true | some (.bobbin _ _) => true | some (.creel _ _) => true | _ => false)

/-- The home lies off core `c`'s die (R215). -/
def Loc.offDie (c : Nat) (l : Loc) : Bool :=
  match l with
  | .hbm a => homeDie a != dieOf c
  | .spad d _ => dieOf d != dieOf c
  | .bobbin d _ => dieOf d != dieOf c
  | .creel d _ => dieOf d != dieOf c
  | _ => true

/-- Some element's home lies off core `c`'s die: a store is then posted (R215). -/
def Access.posted (a : Access) (c : Nat) : Bool := a.elems.any fun e => match e.loc with | some l => l.offDie c | none => false

/-- The order of an FPUT to a host window: FULL after VALUE (R352). -/
def Access.inTurn (a : Access) (i : Nat) : Bool :=
  match a.kind with | .fput => (a.elems.take i).all fun e => e.st == .performed | _ => true

/-- Element `i` of an access is ready and its order lets it perform (R210 to R218). -/
def Plane.lets (x : Plane) (a : Access) (i : Nat) (e : Elem) : Bool :=
  e.st == .ready && mayPerform x.acc a i e && a.inTurn i

/-! ### What leaves the package -/

/-- A mask of the low `n` bytes. -/
def lowMask (n : Nat) : BitVec 64 := BitVec.ofNat 64 (2 ^ n - 1)

/-- The address that names a peer package's byte in a message: its VA in the home package's own map (notes/assumptions/10.md). -/
def remoteAddr (l : Loc) : Word :=
  match l with
  | .rhbm _ a => BitVec.ofNat 64 a
  | .rcore _ w => BitVec.ofNat 64 (0x2000000000000 + w)
  | _ => 0

/-- The request message of an element homed in a peer package (R313). -/
def reqMsg (src vd : Nat) (k : AccKind) (e : Elem) (node : Nat) (addr : Word) : FMsg :=
  let rd := mkMsg 1 node src vd 0 addr (BitVec.ofNat 64 e.len) 0 0 []
  match k with
  | .st =>
    mkMsg 3 node src vd 0 addr (BitVec.ofNat 64 e.len) (if e.len = 32 then (e.mask.setWidth 32).setWidth 64 else 0xFFFFFFFF) 0 e.data
  | .fput => mkMsg 3 node src vd 0 addr (BitVec.ofNat 64 e.len) 0xFFFFFFFF 0 e.data
  | .amo _ aop => mkMsg 5 node src vd 0 addr (aop.setWidth 64) (leWord e.data) 0 []
  | .bput bop => mkMsg 5 node src vd 0 addr (bop.setWidth 64) (leWord e.data) 0 []
  | .cas _ => mkMsg 5 node src vd 0 addr 16 (leWord (e.data.take 8)) (leWord (e.data.drop 8)) []
  | _ => rd

/-- A split operation on a host window waits while another operation of the VD on those bytes is in flight (R206). -/
def State.splitBusy (s : State) (v h o : Nat) : Bool :=
  s.io.ops.any fun x => x.vd == v && x.win == h && decide (x.off < o + 8 ∧ o < x.off + 8)

/-- Sends an element to a host window (R204, R294): an AMO other than add as a read, whose answer brings the write. -/
def State.sendHost (s : State) (c : Nat) (p : BitVec 1) (a : Access) (i : Nat) (e : Elem) (h o : Nat) : State :=
  let v := s.vdOf c p
  let go (mk : Nat → HostMsg) : State :=
    (s.hostOp v h o (.elem c p.toNat a.id i) mk).modElem c p a.id i fun e => { e with st := .sent }
  match a.kind with
  | .st => go fun id => .rdmaWrite id h o (if e.mask = lowMask e.len then none else some e.mask) e.data
  | .fput => go fun id => .rdmaWrite id h o none e.data
  | .amo _ aop =>
    if aop = 1 then go fun id => .rdmaAdd id h o (leWord e.data)
    else if s.splitBusy v h o then s
    else go fun id => .rdmaRead id h o 8
  | .cas _ => go fun id => .rdmaCas id h o (leWord (e.data.take 8)) (leWord (e.data.drop 8))
  | _ => go fun id => .rdmaRead id h o e.len

/-- Sends an element to a peer package. -/
def State.sendPeer (s : State) (c : Nat) (p : BitVec 1) (a : Access) (i : Nat) (e : Elem) (node : Nat) (l : Loc) : State :=
  (s.sendReq node (reqMsg s.node (s.vdOf c p) a.kind e node (remoteAddr l)) (.elem c p.toNat a.id i)).modElem c p a.id i
    fun e => { e with st := .sent }

/-- The die link takes an element's request to another die, and the package switch accepts it (R214). -/
def State.accept (s : State) (c : Nat) (p : BitVec 1) (id i : Nat) : State :=
  let n := s.nextId
  { s.modElem c p id i (fun e => { e with st := .accepted n }) with nextId := n + 1 }

/-- The halt line of a VD is up: its flits in flight are held in holding buffers, and none leaves (R282; notes/assumptions/92.md). -/
def State.flitsHeld (s : State) (v : Nat) : Bool := (s.vd v).any fun d => d.halt.isSome

/-- Element `i` of access `a`, whose turn it is, performs at the core's own memories, leaves the package (to the host while this slot has
room for unbooked bytes, R60), or enters the package switch; then it waits for its home (HOME_AGENT_ACCESS, PEER_ACCESS). -/
def State.pumpElem (s : State) (c : Nat) (p : BitVec 1) (a : Access) (i : Nat) (e : Elem) : State :=
  match e.loc with
  | some (.host h o) => if s.flitsHeld (s.vdOf c p) then s else if s.looseRoom 2128 e.len then (s.spend 2128 e.len).sendHost c p a i e h o else s
  | some (.rhbm n x) => if s.flitsHeld (s.vdOf c p) then s else s.sendPeer c p a i e n (.rhbm n x)
  | some (.rcore n x) => if s.flitsHeld (s.vdOf c p) then s else s.sendPeer c p a i e n (.rcore n x)
  | some l =>
    if e.own then
      let v := s.vdOf c p
      let r := s.perfCore v a.tensor a.kind l e
      r.2.elemDone c p a.id i (.done r.1)
    else if l.offDie c then s.accept c p a.id i
    else s
  | none => s

/-! ### The order of the package switch (R214) -/

/-- The die that homes a place inside the package. -/
def Loc.die (l : Loc) : Option Nat :=
  match l with
  | .hbm a => some (homeDie a)
  | .spad c _ => some (dieOf c)
  | .bobbin c _ => some (dieOf c)
  | .creel c _ => some (dieOf c)
  | _ => none

/-- An access of a plane has an element that the switch accepted for a die before its `n`-th request, which no migration holds (R252). -/
def State.earlierIn (s : State) (c p die n : Nat) (a : Access) : Bool :=
  (a.elems.zipIdx).any fun e =>
    match e.1.st with
    | .accepted m => decide (m < n) && ((e.1.loc.bind Loc.die) == some die) && !(s.hbm.holdsElem c p a.id e.2)
    | _ => false

/-- The `n`-th request that the switch accepted is the next that it delivers to a die. -/
def State.nextAt (s : State) (die n : Nat) : Bool :=
  s.cores.all fun k => !(k.2.p0.acc.any (s.earlierIn k.1 0 die n)) && !(k.2.p1.acc.any (s.earlierIn k.1 1 die n))

/-- An earlier element of the task that overlaps `e` is held by a migration (R253), or a split operation half done (R206): `e` waits behind
it. -/
def State.behindOwn (s : State) (c : Nat) (p : BitVec 1) (a : Access) (i : Nat) (e : Elem) : Bool :=
  let blocks (b : Access) (n : Nat) : Bool :=
    ((b.elems.take n).zipIdx).any fun x => x.1.overlaps e && (x.1.st == .half || s.hbm.holdsElem c p.toNat b.id x.2)
  (((s.plane c p).acc.takeWhile fun b => b.id != a.id).any fun b => blocks b b.elems.length) || blocks a i

/-- The turn of an element at its home inside the package has come: on the core's own die its order lets it perform, on another the switch
delivers it (R210 to R214). -/
def State.turnAt (s : State) (c : Nat) (p : BitVec 1) (a : Access) (i : Nat) (e : Elem) : Bool :=
  match e.st, e.loc.bind Loc.die with
  | .ready, some d => d == dieOf c && (s.plane c p).lets a i e
  | .accepted n, some d => s.nextAt d n && !(s.behindOwn c p a i e) && !(s.hbm.holdsElem c p.toNat a.id i)
  | _, _ => false

/-- An element of some plane has read the 8 bytes at a home for a split operation and is still to write them: others of the package wait
(R206). -/
def State.splitAt (s : State) (l : Loc) : Bool :=
  let half (x : Plane) : Bool := x.acc.any fun a => a.elems.any fun e => e.st == .half && e.loc == some l
  s.cores.any fun k => half k.2.p0 || half k.2.p1

/-! ### The end of an access -/

/-- Writes lane `i` of a v register. -/
def setLane (v : VReg) (i : Nat) (w : Word) : VReg :=
  (v &&& ~~~((BitVec.allOnes 64).setWidth 1024 <<< (64 * i))) ||| (w.setWidth 1024 <<< (64 * i))

/-- The bytes that a performed element took for lane `l`, 8 from its place in the element. -/
def Elem.laneBytes (e : Elem) (l : Nat) : List Byte :=
  (e.res.drop ((e.va - e.start).toNat + 8 * (l - e.idx))).take 8

/-- Sets the bytes that a performed element of an LDSEC selects, in 32 bytes. -/
def secBytes (es : List Elem) : List Byte :=
  (List.range 32).map fun j =>
    match es.find? fun e => decide (e.start.toNat % 32 ≤ j ∧ j < e.start.toNat % 32 + e.len) && e.mask.getLsbD (j - e.start.toNat % 32) with
    | some e => e.res.getD (j - e.start.toNat % 32) 0
    | none => 0

/-- The result of an access's performed elements goes to its register (R362, R365, R427, R431, R321). -/
def Plane.putResult (x : Plane) (a : Access) : Plane :=
  let es := a.elems.filter fun e => e.st == .performed
  match a.kind with
  | .ld d sx =>
    match es with
    | e :: _ => x.wg d (if sx then BitVec.ofInt 64 (intOf true (8 * e.len) (leNat e.res)) else leWord e.res)
    | [] => x
  | .amo d _ => match es with | e :: _ => x.wg d (leWord e.res) | [] => x
  | .cas d => match es with | e :: _ => x.wg d (leWord e.res) | [] => x
  | .ldsec v =>
    if es.length = a.elems.length then
      x.wv v ((x.rv v &&& ~~~((BitVec.allOnes 256).setWidth 1024)) ||| BitVec.ofNat 1024 (leNat (secBytes es)))
    else x
  | .vld v lay _ =>
    if lay = 0 then
      x.wv v (es.foldl (fun r e => e.lanes.foldl (fun r l => setLane r l (leWord (e.laneBytes l))) r) (x.rv v))
    else x
  | .vgath v _ => x.wv v (es.foldl (fun r e => setLane r e.idx (leWord e.res)) (x.rv v))
  | _ => x

/-- The access gives its result itself: a decoding VLD, FGET, FPUT, LAUNCH, SHREL and SHACQ are taken up by their instruction. -/
def AccKind.byInstr (k : AccKind) : Bool :=
  match k with
  | .vld _ lay _ => lay != 0
  | .fget _ => true
  | .fput => true
  | .desc _ => true
  | .shrel _ _ => true
  | .shacq _ _ => true
  | _ => false

/-- An access leaves the plane, and its class counter falls (R102). -/
def Plane.dropAccess (x : Plane) (a : Access) : Plane :=
  { x with
    acc := x.acc.filter fun b => b.id != a.id
    oc := if a.kind.isStore then { x.oc with stc := x.oc.stc - 1 } else if a.kind.inLdc then { x.oc with ldc := x.oc.ldc - 1 } else x.oc }

/-- A performed access ends: its result is written. -/
def State.finishAcc (s : State) (c : Nat) (p : BitVec 1) (a : Access) : State :=
  s.modPlane c p fun x => (x.putResult a).dropAccess a

/-- An access that ends as soon as it has performed: a load from the own memories, a store that is not posted. -/
def Access.endsAtOnce (a : Access) (c : Nat) : Bool :=
  a.performed && !a.kind.byInstr && (if a.kind.isStore then !(a.posted c) else a.elems.all Elem.own)

/-- Every element of a plane whose turn it is performs at the own memories or leaves the package, in program order; accesses that
are done end. -/
def State.pump (s : State) (c : Nat) (p : BitVec 1) : State :=
  let s := (s.plane c p).acc.foldl (fun s a =>
    (a.elems.zipIdx).foldl (fun s ei =>
      match ((s.plane c p).access a.id).bind fun b => b.elems[ei.2]?.map fun e => (b, e) with
      | some (b, e) => if (s.plane c p).lets b ei.2 e then s.pumpElem c p b ei.2 e else s
      | none => s) s) s
  ((s.plane c p).acc.filter fun a => a.endsAtOnce c).foldl (fun s a => s.finishAcc c p a) s

/-- Pumps every plane. -/
def State.pumpAll (s : State) : State := (s.cores.map (·.1)).foldl (fun s c => (s.pump c 0).pump c 1) s

end Sys2Proof.Machine
end

