-- ==== Sys2Proof/Machine/Access.lean ====
section
/-! DEFINITION. A memory instruction's access from its checks to its first elements: windows, leases, the entries a bobbin or
an atomic admits, the scope ceiling, the class count, translation by the core's cache, and what is performed at once
(spec/10_memory_streams.md R188, R201 to R206, spec/05_core.md R97, R102, spec/11_memory_model.md R228, spec/12_translation.md
R238 to R241). -/

namespace Sys2Proof.Machine

/-! ### Elements -/

/-- An element not yet placed. -/
def mkElem (idx : Nat) (lanes : List Nat) (va : Word) (len : Nat) (mask : BitVec 64) (data : List Byte) : Elem :=
  { idx := idx, lanes := lanes, va := va, len := len, mask := mask, peer := false, loc := none, st := .translating, data := data,
    res := [] }

/-- One element of a whole scalar access. -/
def oneElem (va : Word) (len : Nat) (data : List Byte) : List Elem := [mkElem 0 [0] va len (lowMask len) data]

/-- The selected bytes of the 8-byte piece at `j` of a sector: one element, from the first to the last of them (R203). -/
def pieceElem (va : Word) (m : BitVec 64) (data : List Byte) (j : Nat) : List Elem :=
  let bs := (List.range 8).filter fun i => m.getLsbD (j + i)
  match bs.head?, bs.getLast? with
  | some a, some b =>
    [mkElem 0 [0] (va + BitVec.ofNat 64 (j + a)) (b - a + 1) ((m >>> (j + a)) &&& lowMask (b - a + 1)) ((data.drop (j + a)).take (b - a + 1))]
  | _, _ => []

/-- The elements of a selected sector: one of 32 bytes, or in a host window one in each 8-byte piece (R202, R203). -/
def secElems (host : Bool) (va : Word) (m : BitVec 64) (data : List Byte) : List Elem :=
  if host then [0, 8, 16, 24].flatMap (pieceElem va m data) else [mkElem 0 [0] va 32 m data]

/-- The byte mask of the active lanes among lanes `l` to `l + n - 1`. -/
def laneBytesMask (k : BitVec 16) (l n : Nat) : BitVec 64 :=
  (List.range n).foldl (fun m i => if k.getLsbD (l + i) then m ||| (0xFF#64 <<< (8 * i)) else m) 0

/-- The element of the sectors that hold lanes `l` to `l + n - 1` of a vector access at `va`. -/
def sectorElem (va : Word) (k : BitVec 16) (data : Nat → Word) (l n : Nat) : List Elem :=
  let ls := ((List.range n).map (l + ·)).filter fun i => k.getLsbD i
  match ls with
  | [] => []
  | f :: _ => [mkElem f ls (va + BitVec.ofNat 64 (8 * f)) (8 * n) (laneBytesMask k l n)
      ((List.range n).flatMap fun i => wordBytes (data (l + i)))]

/-- The elements of VLD RAW and VST at `va` (R431, R449): sectors; whole aligned 64-byte pairs of a store together; in a host
window one lane each. -/
def vecElems (host store : Bool) (va : Word) (k : BitVec 16) (data : Nat → Word) : List Elem :=
  if host then
    ((List.range 16).filter fun i => k.getLsbD i).map fun i =>
      mkElem i [i] (va + BitVec.ofNat 64 (8 * i)) 8 (lowMask 8) (wordBytes (data i))
  else
    let full (l : Nat) : Bool := store && (List.range 8).all fun i => k.getLsbD (l + i)
    let two (l : Nat) : List Elem :=
      if full l then sectorElem va k data l 8 else sectorElem va k data l 4 ++ sectorElem va k data (l + 4) 4
    if va &&& 63#64 = 0 then two 0 ++ two 8
    else sectorElem va k data 0 4 ++ two 4 ++ sectorElem va k data 12 4

/-- The first byte and length of what a contiguous vector access checks. -/
def laneSpan (va : Word) (k : BitVec 16) : Option (Word × Nat) :=
  let ls := (List.range 16).filter fun i => k.getLsbD i
  match ls.head?, ls.getLast? with
  | some a, some b => some (va + BitVec.ofNat 64 (8 * a), 8 * (b - a) + 8)
  | _, _ => none

/-! ### Checks -/

/-- An element placed by its window; or the cause of R188 and its address. -/
def State.placeElem (s : State) (d : Vd) (c : Nat) (e : Elem) : Except (Nat × Word) Elem :=
  match s.target d c e.start e.len with
  | .bad cause => .error (cause, e.va)
  | .xlate => .ok e
  | .home l peer => .ok { e with loc := some l, peer := peer, st := .ready }

/-- Places every element; the first that fails gives the trap. -/
def State.placeAll (s : State) (d : Vd) (c : Nat) (es : List Elem) : Except (Nat × Word) (List Elem) :=
  match es with
  | [] => .ok []
  | e :: rest =>
    match s.placeElem d c e with
    | .error x => .error x
    | .ok e =>
      match s.placeAll d c rest with
      | .error x => .error x
      | .ok es => .ok (e :: es)

/-- The kind of core memory a home lies in: 0 scratchpad, 1 bobbin, 2 creel. -/
def Loc.coreKind (l : Loc) : Option Nat :=
  match l with
  | .spad _ _ => some 0
  | .bobbin _ _ => some 1
  | .creel _ _ => some 2
  | .rcore _ w => (coreWin (w % 0x400000)).map (·.1)
  | _ => none

/-- The element lies in a bobbin window. -/
def Elem.inBobbin (e : Elem) : Bool := match e.loc with | some l => l.coreKind == some 1 | none => false

/-- Stores write only whole bobbin entries (R399). -/
def bobbinStore (_d : Vd) (es : List Elem) : Option (Nat × Word) :=
  let whole (e : Elem) : Bool :=
    decide (8 ≤ e.len) && (List.range (e.len / 8)).all fun i => (e.mask.extractLsb' (8 * i) 8 == 0) || (e.mask.extractLsb' (8 * i) 8 == 0xFF)
  (es.find? fun e => e.inBobbin && !(whole e)).map fun e => (cALIGN, e.va)

/-- The place an AMO or CAS executes, by the table of R204: ATOMIC with its trap value, or none. `native`: a host window performs the
operation itself. -/
def atomicPlace (native : Bool) (d : Vd) (es : List Elem) : Option (Nat × Word) :=
  es.findSome? fun e =>
    match e.loc with
    | none => none
    | some (.rhbm _ _) => none
    | some (.host h _) => if native || !(d.d.hmode.getLsbD h) then none else some (cATOMIC, e.va ||| 1)
    | some l =>
      match l.coreKind with
      | some 0 => if e.own || !d.d.pmode then none else some (cATOMIC, e.va ||| 1)
      | _ => some (cATOMIC, e.va &&& ~~~7#64)

/-- A BPUT names a bobbin entry (R331). -/
def bputPlace (_d : Vd) (es : List Elem) : Option (Nat × Word) :=
  es.findSome? fun e => if e.inBobbin then none else some (cATOMIC, e.va &&& ~~~7#64)

/-- No further check. -/
def anyPlace (_d : Vd) (_es : List Elem) : Option (Nat × Word) := none

/-- An element of the own scratchpad that leaves the lease (R97). -/
def Plane.outOfLease (x : Plane) (e : Elem) : Bool :=
  match e.loc with | some (.spad _ o) => !e.peer && !(x.inLease o e.len e.mask) | _ => false

/-! ### Translation at the core (R238 to R241) -/

/-- An element takes a fault: its lanes attach to a request and the task parks (R241, R244). -/
def State.elemFault (s : State) (c : Nat) (p : BitVec 1) (a : Access) (i : Nat) (e : Elem) (kind lvl : Nat) : State :=
  match s.taskOf c p with
  | none => s
  | some (key, t) =>
    let s := s.modElem c p a.id i fun e => { e with st := .waiting }
    let s := e.lanes.foldl (fun s l =>
      let va := e.va + BitVec.ofNat 64 (8 * (l - e.idx))
      s.postFault t.vd va kind lvl a.kind.ty.code (s.taskId t) 0 (.lane key l va)) s
    (s.modPlane c p fun x => { x with hold := none }).setTState key .parked

/-- The outcome of an element's translation at core `c`; a mismatch in a window that a walk read lies in fails it (R265). -/
def State.elemTr (s : State) (c : Nat) (p : BitVec 1) (a : Access) (i : Nat) (e : Elem) (r : TrRes) : State :=
  match r with
  | .ok t => s.modElem c p a.id i fun e => { e with loc := some (.hbm (t.dpa e.start)), st := .ready }
  | .fault k l => s.elemFault c p a i e k l
  | .integ => if s.planeFatal c p then s else s.modElem c p a.id i fun e => { e with st := .failed 16 }
  | .busy => s

/-- Looks every element that is to be translated up in the core's cache; a miss joins a walk (R240), and its element waits for it. -/
def State.lookAll (s : State) (c : Nat) (p : BitVec 1) (a : Access) : State :=
  (a.elems.zipIdx).foldl (fun s ei =>
    if ei.1.st == .translating then
      match s.tcLook c (s.vdOf c p) ei.1.start a.kind.ty with
      | (some r, s) => s.elemTr c p a ei.2 ei.1 r
      | (none, s) => (s.joinWalk c (s.vdOf c p) ei.1.start).modElem c p a.id ei.2 fun e => { e with st := .walking }
    else s) s

/-! ### The access -/

/-- The words of the instruction at the executing plane's pc. -/
def State.wordsAt (s : State) (n : Nat) : IWord × IWord :=
  match s.lineAt s.fc s.fp with
  | some l => (l.word (wordIdx s.pl.pc), if n = 2 then l.word (wordIdx s.pl.pc + 1) else 0)
  | none => (0, 0)

/-- An access that is under way for the instruction at the plane's pc. -/
def Plane.mine (x : Plane) (k : AccKind → Bool) : Option Access := x.acc.find? fun a => a.pc == x.pc && k a.kind

/-- Starts an access of an instruction of `n` words: it counts, its elements are looked up, what can perform at once does; then
the instruction completes, waits with its access unresolved, or holds for it. -/
def State.startAccess (s : State) (n : Nat) (k : AccKind) (cl : BitVec 4) (ar : BitVec 2) (scp : BitVec 3) (es : List Elem) :
    State :=
  let x := s.pl
  let w := s.wordsAt n
  let a : Access := { id := x.nextId, pc := x.pc, w0 := w.1, w1 := w.2, kind := k, cls := cl, acq := ar.getLsbD 0, rel := ar.getLsbD 1,
                      scp := scp, tensor := x.sr.tensor, elems := es }
  let s := s.modPl fun x =>
    { x with acc := x.acc ++ [a], nextId := x.nextId + 1,
             oc := if k.isStore then { x.oc with stc := x.oc.stc + 1 } else if k.inLdc then { x.oc with ldc := x.oc.ldc + 1 } else x.oc }
  let s := (s.lookAll s.fc s.fp a).pump s.fc s.fp
  let parked : Bool := match s.curTask with | some t => t.state == .parked | none => false
  if k.byInstr then (if parked then s else s.holdOn (.accs [a.id] 0))
  else
    match s.pl.access a.id with
    | some b =>
      if s.unresolved b then
        let s := s.modPl fun x => { x with park := some (.access a.id) }
        if k.isStore || parked then s else s.holdOn (.resolve a.id)
      else s.advance n
    | none => s.advance n

/-- The class count would pass 63 (R102). -/
def Plane.countFull (x : Plane) (k : AccKind) : Bool :=
  if k.isStore then x.oc.stc == 63 else k.inLdc && x.oc.ldc == 63

/-- A memory access with its checks in order: windows (the whole span first), the places its target admits, the lease, the scope,
the count (R188, R97, R228, R102). -/
def State.doAccess (s : State) (n : Nat) (k : AccKind) (cl : BitVec 4) (ar : BitVec 2) (scp : BitVec 3) (span : Option (Word × Nat))
    (place : Vd → List Elem → Option (Nat × Word)) (es : List Elem) : State :=
  match s.vd s.curVd with
  | none => s
  | some d =>
    let bad := match span with
      | some (va, len) => (match s.target d s.fc va len with | .bad cause => some (cause, va) | _ => none)
      | none => none
    match bad with
    | some (cause, va) => s.trap cause va
    | none =>
      match s.placeAll d s.fc es with
      | .error (cause, va) => s.trap cause va
      | .ok es =>
        match place d es with
        | some (cause, va) => s.trap cause va
        | none =>
          match es.find? s.pl.outOfLease with
          | some e => s.trap cLEASE e.va
          | none =>
            match (if ar = 0 then .ok (scp, false) else scopeOf d.d scp) with
            | .error t => s.trap cSCOPE t
            | .ok (scp, clipped) =>
              if s.pl.countFull k then
                s.holdOn (if k.isStore then .counts 63 63 62 63 else .counts 63 63 63 62)
              else (if clipped then s.clip s.curVd else s).startAccess n k cl ar scp es

/-- The lanes that a replay of the instruction at the pc is to do again (R242, R246): none where it is no replay. -/
def State.replayLanes (s : State) : Option (List Nat) :=
  match s.pl.park, s.curTask with
  | some .again, some t => if t.lanes.isEmpty then none else some (t.lanes.map (·.1))
  | _, _ => none

/-- The active lanes of a vector memory instruction, a replay's waiting lanes among them. -/
def State.memLanes (s : State) (g : BitVec 4) : BitVec 16 :=
  match s.replayLanes with
  | some ls => (List.range 16).foldl (fun m i => if ls.contains i then m else m &&& ~~~(1#16 <<< i)) (s.pl.vguard g)
  | none => s.pl.vguard g

/-- The address names a host window. -/
def isHost (va : Word) : Bool := match winOf va with | .host _ _ => true | _ => false

end Sys2Proof.Machine
end

