-- ==== Sys2Proof/Machine/Stream.lean ====
section
/-! DEFINITION. Stream pattern records: their fields and the sequence of elements they describe (spec/10_memory_streams.md R199,
R200). -/

namespace Sys2Proof.Machine

/-- One dimension of a record: count, stride, weight and bound (R199). -/
structure SDim where
  count : Nat
  stride : Int
  wt : Nat
  bg : Nat
  deriving DecidableEq, Repr

/-- A stream pattern record (R199). -/
structure Stream where
  base : Word
  pad : BitVec 16
  ben : BitVec 4
  isz : Nat
  idim : Nat
  ind : Bool
  esz : Nat
  ibase : Nat
  dims : List SDim
  lo : Word
  hi : Word
  deriving DecidableEq, Repr

/-- A bound's 16-bit field. -/
def boundOf (w : Word) (d : Nat) : Nat := (w.extractLsb' (16 * d) 16).toNat

/-- One dimension word. -/
def dimOf (w : Word) : SDim :=
  { count := (w.extractLsb' 0 16).toNat, stride := (w.extractLsb' 16 32).toInt, wt := (w.extractLsb' 48 4).toNat,
    bg := (w.extractLsb' 52 2).toNat }

/-- The record in eight words; none where R199 gives ILLEGAL. -/
def Stream.parse (ws : List Word) : Option Stream :=
  let w (i : Nat) : Word := ws.getD i 0
  let c := w 1
  let nd := (c.extractLsb' 23 2).toNat + 1
  let esz := (c.extractLsb' 20 3).toNat
  let isz := (c.extractLsb' 28 2).toNat
  let ben := c.extractLsb' 30 4
  let dims := (List.range nd).map fun d => dimOf (w (2 + d))
  let okDims := (List.range 4).all fun d =>
    if d < nd then (w (2 + d)).extractLsb' 54 10 == 0 && (w (2 + d)).extractLsb' 0 16 != 0 else w (2 + d) == 0
  let okBounds := (List.range 4).all fun d => ben.getLsbD d || (boundOf (w 6) d == 0 && boundOf (w 7) d == 0)
  if c.extractLsb' 34 14 == 0 && decide (esz < 6) && decide (isz < 3) && okDims && okBounds then
    some { base := w 0, pad := c.extractLsb' 48 16, ben := ben, isz := isz, idim := (c.extractLsb' 26 2).toNat, ind := c.getLsbD 25,
           esz := esz, ibase := (c.extractLsb' 0 20).toNat, dims := dims, lo := w 6, hi := w 7 }
  else none

/-- The number of elements (R200). -/
def Stream.len (t : Stream) : Nat := t.dims.foldl (fun n d => n * d.count) 1

/-- The bytes of an element. -/
def Stream.size (t : Stream) : Nat := 2 ^ t.esz

/-- The indices of element `n`, dimension 0 fastest. -/
def indicesOf : List SDim → Nat → List Nat
  | [], _ => []
  | d :: rest, n => n % d.count :: indicesOf rest (n / d.count)

/-- What an element of a sequence is: outside the bounds, at an address, or a fault of its index (cause and address). -/
inductive SElem where
  | pad
  | at (a : Word)
  | bad (cause : Nat) (tval : Word)
  deriving DecidableEq, Repr

/-- The indices lie within every enabled bound (R200). -/
def Stream.inBounds (t : Stream) (is : List Nat) : Bool :=
  (List.range 4).all fun b =>
    if t.ben.getLsbD b then
      let y := ((t.dims.zip is).filter fun x => x.1.bg == b).foldl (fun a x => a + x.1.wt * x.2) 0
      decide (boundOf t.lo b ≤ y ∧ y ≤ boundOf t.hi b)
    else true

/-- Element `n` (R200). `idx` reads a signed value of the index array at a scratchpad offset, none outside the lease. The
address must be aligned to the element size. -/
def Stream.elem (t : Stream) (idx : Nat → Nat → Option Int) (n : Nat) : SElem :=
  let is := indicesOf t.dims n
  if t.inBounds is then
    let x (d i : Nat) : Option Int := if t.ind && d == t.idim then idx (t.ibase + i * 2 ^ (t.isz + 1)) (2 ^ (t.isz + 1)) else some (i : Int)
    let off := ((t.dims.zip is).zipIdx).foldl (fun (a : Option Int) e =>
      match a, x e.2 e.1.2 with | some a, some v => some (a + v * e.1.1.stride) | _, _ => none) (some 0)
    match off with
    | some o =>
      let a := t.base + BitVec.ofInt 64 o
      if a.toNat % t.size = 0 then .at a else .bad 7 a
    | none => .bad 8 (BitVec.ofNat 64 (0x1000000000000 + (t.ibase + is.getD t.idim 0 * 2 ^ (t.isz + 1))))
  else .pad

/-- The bytes of an element outside the bounds (R200). -/
def Stream.padBytes (t : Stream) : List Byte :=
  if t.esz = 0 then [t.pad.setWidth 8] else List.replicate (t.size - 2) 0 ++ leBytes t.pad.toNat 2

/-- The scratchpad bytes of a plane's lease: none outside it (R97). -/
def leaseBytes (k : Core) (x : Plane) (o n : Nat) : Option (List Byte) :=
  if x.leaseBase ≤ o ∧ o + n ≤ x.leaseBase + x.leaseSize then some (memBytes k.spad o n) else none

/-- A signed index in the lease. -/
def leaseIdx (k : Core) (x : Plane) (o n : Nat) : Option Int := (leaseBytes k x o n).map fun b => intOf true (8 * n) (leNat b)

/-- The offset of an address in the own scratchpad window. -/
def spadOff (a : Word) : Option Nat := match winOf a with | .spad o => some o | _ => none

/-- The record at an address (R199): LEASE outside the lease, ALIGN, ILLEGAL; the base is increased by `inc` (R194). -/
def streamAt (k : Core) (x : Plane) (a : Word) (inc : Int) : Except (Nat × Word) Stream :=
  match (spadOff a).bind fun o => leaseBytes k x o 64 with
  | none => .error (8, a)
  | some bs =>
    if a &&& 63#64 ≠ 0 then .error (7, a)
    else match Stream.parse (wordsOf bs 8) with
      | none => .error (1, a)
      | some t => .ok { t with base := t.base + BitVec.ofInt 64 inc }

end Sys2Proof.Machine
end

