-- ==== Sys2Proof/Machine/Engine.lean ====
section
/-! DEFINITION. What the matrix and copy engines share: the step an instruction names, commands, which operation's turn it is, the
order against the task's accesses, late slips and the slip rule, faults of an engine (spec/04_calendars.md R75 to R86,
spec/09_matrix.md R171, R172, spec/11_memory_model.md R220 to R223, spec/10_memory_streams.md R198, spec/19_ref_m_r.md R368). -/

namespace Sys2Proof.Machine

/-! ### The step an instruction names (R65, R82, R83, R340, R368) -/

/-- What a handle and step come to: unbooked work, a step that is cancelled or PORTDOWN, a step to be started, a BOOKING code. -/
inductive StepUse where
  | unbooked
  | gone
  | booked (key : Nat) (t : BStep)
  | bad (code : Nat)
  deriving DecidableEq, Repr

/-- The step of a task that an engine instruction names; handle 0 is unbooked work. -/
def State.stepUse (s : State) (v task h j : Nat) (copy : Bool) : StepUse :=
  if h = 0 then .unbooked
  else
    match s.booking v h with
    | none => .bad 5
    | some b =>
      match b.steps[j]? with
      | none => .bad 5
      | some t =>
        if b.owner ≠ task || t.kind != (if copy then 1 else 0) then .bad 5
        else if t.st = .voided then .unbooked
        else if t.consumed then .bad 6
        else if t.slipCancel then .bad 7
        else
          match t.st with
          | .booked => if b.portLost j then .gone else .booked (keyOfHandle h) t
          | .running => .booked (keyOfHandle h) t
          | .released => .unbooked
          | .voided => .unbooked
          | .cancelled => .gone
          | .portdown => .gone
          | .expired => .bad 5
          | .done => .bad 5

/-- The step is released: its work keeps its handle's name (R81, R368). -/
def State.isReleased (s : State) (v h j : Nat) : Bool :=
  match s.booking v h with
  | some b => match b.steps[j]? with | some t => t.st == .released | none => false
  | none => false

/-- The step of a command that is still booked or running: its booking's key and the step. -/
def State.cmdStep (s : State) (c : Cmd) : Option (Nat × BStep) :=
  if c.bk = 0 then none
  else match s.booking c.vd c.bk with
    | some b => match b.steps[c.step]? with
      | some t => if t.holds then some (keyOfHandle c.bk, t) else none
      | none => none
    | none => none

/-- The command runs as booked work. -/
def State.isBooked (s : State) (c : Cmd) : Bool := (s.cmdStep c).isSome

/-- The command of an instruction of the executing task. -/
def State.newCmd (s : State) (h j : Nat) (ar : BitVec 2) (scp : BitVec 3) : Cmd :=
  { id := s.nextId, vd := s.curVd, task := s.pl.task.getD 0, plane := s.fp, bk := h, step := j, pc := s.pl.pc, acq := ar.getLsbD 0,
    rel := ar.getLsbD 1, scp := scp, before := s.pl.nextId, issued := s.now, ran := 0, st := .waiting, waitFault := false, ended := none }

/-- A command starts its step: the step is consumed and runs, with the steps attached to a COPY step (R75);
each uses the slot (R88, counter 5). -/
def State.useStep (s : State) (c : Cmd) : State :=
  if c.bk = 0 then s
  else
    match tget s.bk.bookings (keyOfHandle c.bk) with
    | none => s
    | some b =>
      let run (t : BStep) : BStep := { t with consumed := true, st := if t.st == .booked then .running else t.st }
      let js := groupOf b c.step
      let s := if (b.steps[c.step]?.map (·.st == .booked)).getD false then s.count c.vd 0 5 js.length else s
      js.foldl (fun s j => s.modStep (keyOfHandle c.bk) j run) s

/-- The work of a command's step is done: the step is DONE with those attached to it, and its remaining slots are freed at the
next slot boundary (R80). A released, cancelled or voided step keeps its state. -/
def State.stepDone (s : State) (c : Cmd) : State :=
  if c.bk = 0 then s
  else
    match tget s.bk.bookings (keyOfHandle c.bk) with
    | none => s
    | some b =>
      if b.gen ≠ genOfHandle c.bk then s
      else
        let fin (t : BStep) : BStep := if t.st == .running then { t with st := .done } else t
        (groupOf b c.step).foldl (fun s j => s.modStep (keyOfHandle c.bk) j fin) s

/-! ### Moving steps (R76, R78) -/

/-- The starts that follow from a step's start and duration, by the relations. -/
def followStarts (start dur : Nat) : List BStep → List Nat
  | [] => []
  | t :: rest =>
    let a := if t.withRel then start + t.gap else start + dur + t.gap
    a :: followStarts a t.dur rest

/-- The unstarted steps of a booking from step `j` on, each with the start that follows when step `j` starts at `x`. -/
def movedSteps (b : Booking) (j x : Nat) : List (Nat × Nat × BStep) :=
  match b.steps.drop j with
  | [] => []
  | t :: rest =>
    ((t :: rest).zip (x :: followStarts x t.dur rest)).zipIdx.filterMap fun e =>
      if e.1.1.st == .booked && !e.1.1.consumed then some (j + e.2, e.1.2, e.1.1) else none

/-- Each moved step fits on its calendar beside everything but the moved steps' old intervals, and ends by `lim`. -/
def State.fitMoved (s : State) (key lim : Nat) (ms : List (Nat × Nat × BStep)) : Bool :=
  (ms.zipIdx).all fun e =>
    let m := e.1
    let old := (s.bk.ivals m.2.2.cal).filter fun i => !(i.book == key && ms.any fun x => x.1 == i.step)
    let new := ((ms.take e.2).filter fun x => x.2.2.cal == m.2.2.cal).map fun x =>
      ({ start := x.2.1, len := x.2.2.dur, rate := x.2.2.rate, book := key, step := x.1, req := 0 } : Ival)
    decide (m.2.1 + m.2.2.dur ≤ lim) && fitsIn true (old ++ new) (calBudget m.2.2.cal) m.2.1 m.2.2.dur m.2.2.rate

/-- Moves the first `n` unstarted steps of a booking from step `j` on to the first fit from slot `x` on that ends within the horizon of
a search begun now; none: no fit. -/
def State.moveFirst (s : State) (key j x n : Nat) : Option State :=
  match tget s.bk.bookings key with
  | none => none
  | some b =>
    match ((List.range 4096).map (x + ·)).find? fun a => s.fitMoved key (s.now + 4096) ((movedSteps b j a).take n) with
    | none => none
    | some a =>
      some (((movedSteps b j a).take n).foldl (fun s m => s.modStep key m.1 fun t => { t with start := m.2.1, len := t.dur, free := false, orig := m.2.1, late := 0 }) s)

/-- Moves step `j` of a booking and every later unstarted one. -/
def State.moveSteps (s : State) (key j x : Nat) : Option State := s.moveFirst key j x 8

/-- The steps from `j` on that have not started are cancelled for want of a fit (R76, R78). -/
def State.slipCancel (s : State) (key j : Nat) : State :=
  match tget s.bk.bookings key with
  | none => s
  | some b =>
    (movedSteps b j 0).foldl (fun s m => s.modStep key m.1 fun t => { t with st := .cancelled, slipCancel := true }) s

/-! ### Issue (R76, R82, R86, R368, R340) -/

/-- An operation for either engine. -/
inductive EngOp where
  | mx (o : MxOp)
  | cp (o : CpOp)
  deriving DecidableEq, Repr

/-- Its command. -/
def EngOp.cmd (o : EngOp) : Cmd := match o with | .mx o => o.c | .cp o => o.c

/-- A tag's latest copy, with the state that CPYQ returns of it (R197). -/
def State.noteCopy (s : State) (o : CpOp) (st : Nat) : State :=
  match o.tag with
  | some t => s.modTask o.c.task fun k => { k with cpq := tset k.cpq t.toNat { id := o.c.id, state := st, ents := 0, bytes := 0 } }
  | none => s

/-- A unit of a VD has stopped for its halt line (R282). -/
def State.unitHalted (s : State) (v : Nat) (u : HaltUnit) : Bool :=
  match (s.vd v).bind (·.halt) with | some h => h.stopped.contains u | none => false

/-- A unit may work for a VD: the package is not held stopped after a thermal trip (R13), and the VD's halt has not stopped it (R282). -/
def State.unitRuns (s : State) (v : Nat) (u : HaltUnit) : Bool := s.power == .run && !(s.unitHalted v u)

/-- The matrix engine and the copy engine of a core, as units. -/
def mxUnit (c : Nat) : HaltUnit := .matrix (BitVec.ofNat 10 c)
def cpUnit (c : Nat) : HaltUnit := .copy (BitVec.ofNat 10 c)

/-- An operation of plane `p` enters its engine (R171): its count rises, its step is used; a matrix operation's tile shows 2, or 3 in an
engine that a debug halt has stopped (R292). -/
def State.enterOp (s : State) (c : Nat) (p : BitVec 1) (o : EngOp) : State :=
  let booked := s.isBooked o.cmd
  let s := s.useStep o.cmd
  match o with
  | .mx o =>
    let s := s.modCore c fun k => ({ k with mx := k.mx ++ [o] }).modTile o.tile fun t => { t with st := if s.unitHalted o.c.vd (mxUnit c) then 3 else 2 }
    s.modPlane c p fun x => { x with oc := { x.oc with mxc := x.oc.mxc + 1 } }
  | .cp o =>
    let s := s.modCore c fun k => { k with cp := k.cp ++ [o] }
    let s := s.noteCopy o 1
    let s := if booked
      then s.modTask o.c.task fun k => { k with leads := k.leads ++ [{ id := o.c.id, tag := o.tag, done := none }] } else s
    s.modPlane c p fun x => { x with oc := { x.oc with cpc := x.oc.cpc + 1 } }

/-- An operation waits for its booked start: a tile shows 1. -/
def State.holdStart (s : State) (slot : Nat) (o : EngOp) : State :=
  match o with
  | .mx o => (s.modCore s.fc fun k => k.modTile o.tile fun t => { t with st := 1 }).holdOn (.startMx slot o)
  | .cp o => s.holdOn (.startCp slot o)

/-- An operation whose step is cancelled or PORTDOWN completes at once (R82): its tile shows 5, its tag is set. -/
def State.goneOp (s : State) (o : EngOp) : State :=
  match o with
  | .mx o => s.modCore s.fc fun k => k.modTile o.tile fun t => { t with st := 5 }
  | .cp o =>
    (s.noteCopy o 5).modPl fun x =>
      match o.tag with
      | some t => { x with sr := { x.sr with tags := x.sr.tags ||| ((1 : Word) <<< t.toNat) } }
      | none => x

/-- The count that an engine instruction raises is at 63 (R102). -/
def Plane.engFull (x : Plane) (copy : Bool) : Bool := if copy then x.oc.cpc == 63 else x.oc.mxc == 63

/-- An engine instruction after its operand checks: SCOPE, BOOKING, the count, the step's start (R228, R65, R102, R76); `enter` puts
the operation into its engine. -/
def State.engineIssue (s : State) (copy : Bool) (bk : BitVec 6) (step : BitVec 3) (ar : BitVec 2) (scp : BitVec 3) (mk : Cmd → EngOp)
    (enter : Nat → BitVec 1 → EngOp → State → State) : State :=
  match s.vd s.curVd with
  | none => s
  | some d =>
    match (if ar = 0 then .ok (scp, false) else scopeOf d.d scp) with
    | .error t => s.trap cSCOPE t
    | .ok (scp, clipped) =>
      let h := if bk = 0 then 0 else ((s.pl.rg bk).setWidth 24).toNat
      let go (s : State) (h : Nat) : State :=
        let o := mk (s.newCmd h step.toNat ar scp)
        let s := if clipped then s.clip s.curVd else s
        (enter s.fc s.fp o { s with nextId := s.nextId + 1 }).advance 2
      match s.stepUse s.curVd (s.pl.task.getD 0) h step.toNat copy with
      | .bad code => s.trap cBOOKING (BitVec.ofNat 64 code)
      | use =>
        if s.pl.engFull copy then s.holdOn (if copy then .counts 63 62 63 63 else .counts 62 63 63 63)
        else
          match use with
          | .bad _ => s
          | .unbooked => go s (if s.isReleased s.curVd h step.toNat then h else 0)
          | .gone => ({ s with nextId := s.nextId + 1 }.goneOp (mk (s.newCmd h step.toNat ar scp))).advance 2
          | .booked key t =>
            let wait (s : State) (a : Nat) : State :=
              let s := if clipped then s.clip s.curVd else s
              ({ s with nextId := s.nextId + 1 } : State).holdStart a (mk (s.newCmd h step.toNat ar scp))
            if s.now < t.start then wait (s.count s.curVd 0 8 1) t.start
            else if s.now < t.start + t.len then go (s.count s.curVd 0 9 1) h
            else
              match s.moveSteps key step.toNat (s.now + 1) with
              | some s =>
                let s := s.count s.curVd 0 2 1
                (match (tget s.bk.bookings key).bind fun b => b.steps[step.toNat]? with
                | some t => wait s t.start
                | none => s)
              | none => (s.slipCancel key step.toNat).trap cBOOKING 7

/-- `n` bytes at an address lie wholly in the own scratchpad window within the lease (R97); no byte lies outside it
(notes/assumptions/15.md). -/
def Plane.leased (x : Plane) (a : Word) (n : Nat) : Bool :=
  match winOf a with
  | .spad o => n == 0 || decide (x.leaseBase ≤ o ∧ o + n ≤ x.leaseBase + x.leaseSize)
  | _ => false

/-! ### Whose turn it is (R171, R86) -/

/-- The operation whose turn it is among those of an engine that are not over: the first, unless it is unbooked work that
consults the calendar and a booked operation has entered behind it. -/
def State.turnOf (s : State) (live : List (Cmd × Bool)) : Option Cmd :=
  match live with
  | [] => none
  | (c, consults) :: _ =>
    if consults && !s.isBooked c then
      (match live.find? fun o => s.isBooked o.1 with | some o => some o.1 | none => some c)
    else some c

/-- An operation that consults its calendar: MZERO and MBRD do not (R171). -/
def MxKind.consults (k : MxKind) : Bool := match k with | .mzero => false | .mbrd _ _ _ _ _ => false | _ => true

/-- A matrix operation is over when its work has ended and every row that it sent is acknowledged (R181). -/
def MxOp.isOver (o : MxOp) : Bool := o.c.st == .finished && o.acks == 0

/-- The matrix operation whose turn it is to work: one that waits for acknowledgements keeps the engine. -/
def State.mxTurn (s : State) (c : Nat) : Option MxOp :=
  let live := (s.core c).mx.filter fun o => !o.isOver
  match s.turnOf (live.map fun o => (o.c, o.kind.consults)) with
  | some x => live.find? fun o => o.c.id == x.id && o.c.st != .finished
  | none => none

/-- A copy is over when its work has ended and it awaits no answer. -/
def CpOp.isOver (o : CpOp) : Bool := o.c.st == .finished && !o.wait

/-- The copy whose turn it is. -/
def State.cpTurn (s : State) (c : Nat) : Option CpOp :=
  let live := (s.core c).cp.filter fun o => !o.isOver
  match s.turnOf (live.map fun o => (o.c, true)) with
  | some x => live.find? fun o => o.c.id == x.id && o.c.st != .finished
  | none => none

/-- An operation `x` that entered before the operation of `c` lets that one complete: another task's, or unbooked work that `c`, booked,
overtook (R86, R171, R221). -/
def State.letsComplete (s : State) (c x : Cmd) (consults : Bool) : Bool :=
  x.task != c.task || (consults && !(s.isBooked x) && c.bk != 0)

/-- The engine may do the operation's work in this slot (R78, R86): booked work that is not stopped, and that begins within its interval
with the slots it has overrun; unbooked work where no interval holds the engine's calendar. -/
def State.slotFree (s : State) (cal : Nat) (c : Cmd) : Bool :=
  match s.cmdStep c with
  | some (_, t) => if c.st = .waiting then decide (s.now < t.start + t.len) else c.st != .stopped
  | none => useAt (s.bk.working cal) s.now == 0

/-! ### Order against the task's accesses (R220, R222) -/

/-- The accesses of the command's task that precede it. -/
def State.beforeCmd (s : State) (core : Nat) (c : Cmd) : List Access :=
  let x := s.plane core c.plane
  if x.task == some c.task then x.acc.filter fun a => decide (a.id < c.before) else []

/-- An acquire or release of the command lets its work begin: earlier accesses have performed at its scope, and before an acquire earlier
acquires have performed (R222). -/
def State.cmdMay (s : State) (core : Nat) (c : Cmd) : Bool :=
  (s.beforeCmd core c).all fun a => (!(c.acq || c.rel) || a.doneAt c.scp) && (!(c.acq && a.acq) || a.performed)

/-- An element selects a byte among `n` bytes at a home. -/
def Elem.meets (x : Elem) (l : Loc) (n : Nat) : Bool :=
  match x.loc with
  | none => false
  | some y =>
    match l.dist y with
    | none => false
    | some k => (List.range x.len).any fun i => x.mask.getLsbD i && decide (0 ≤ k + i ∧ k + i < n)

/-- Every earlier access of the task that overlaps `n` bytes at a home has performed (R220). -/
def State.cmdClear (s : State) (core : Nat) (c : Cmd) (l : Loc) (n : Nat) : Bool :=
  (s.beforeCmd core c).all fun a => a.elems.all fun x => x.st == .performed || !(x.meets l n)

/-! ### Progress and faults -/

/-- Rewrites the matrix operation with a command id. -/
def State.modMx (s : State) (c id : Nat) (f : MxOp → MxOp) : State :=
  s.modCore c fun k => { k with mx := k.mx.map fun o => if o.c.id = id then f o else o }

/-- Rewrites the copy with a command id. -/
def State.modCp (s : State) (c id : Nat) (f : CpOp → CpOp) : State :=
  s.modCore c fun k => { k with cp := k.cp.map fun o => if o.c.id = id then f o else o }

/-- The work of a command has ended. -/
def Cmd.finish (c : Cmd) (code : Option Nat) : Cmd := { c with st := .finished, ended := code }

/-- STATE of an operation whose work has ended (R173, R197). -/
def Cmd.endState (c : Cmd) : Nat := c.ended.getD 4

/-- An asynchronous fault of a command (R198, R177, R280): SRC 1 matrix engine, 2 copy engine. -/
def State.cmdFault (s : State) (c : Cmd) (src code : Nat) (tval : Word) (state : Nat) : State :=
  s.addFault c.task { code := code, src := src, tval := tval, origin := c.pc, bkh := c.bk, step := if c.bk = 0 then 0 else c.step,
                      state := state }

/-- The trap value of an engine fault: with PERM the address (R198). No rule names another, so it is free (notes/assumptions/16.md). -/
def State.engTval (s : State) (code : Nat) (tval : Word) : Word := if code = cPERM then tval else Config.freeWord s.freeCtr

/-- An engine fault ends a matrix operation (R198, R166). -/
def State.mxFault (s : State) (core : Nat) (o : MxOp) (code : Nat) (tval : Word) : State :=
  (s.bump.modMx core o.c.id fun o => { o with c := o.c.finish (some 6) }).cmdFault o.c 1 code (s.engTval code tval) 6

/-- An engine fault ends a copy (R198). -/
def State.cpFault (s : State) (core : Nat) (o : CpOp) (code : Nat) (tval : Word) : State :=
  (s.bump.modCp core o.c.id fun o => { o with c := o.c.finish (some 6), wait := false }).cmdFault o.c 2 code (s.engTval code tval) 6

/-- OVERRUN ends an operation (R79, R86): the trap value is the slots elapsed. -/
def State.overrunStop (s : State) (core : Nat) (copy : Bool) (c : Cmd) (n : Nat) : State :=
  let s := if copy then s.modCp core c.id fun o => { o with c := o.c.finish (some 6) }
    else s.modMx core c.id fun o => { o with c := o.c.finish (some 6) }
  s.cmdFault c (if copy then 2 else 1) cOVERRUN (BitVec.ofNat 64 n) 6

end Sys2Proof.Machine
end

