-- ==== Sys2Proof/Machine/LoadStore.lean ====
section
/-! DEFINITION. Loads, stores, sector loads and stores, atomics, bobbin puts, and the vector loads and stores
(spec/17_ref_a_c.md R320 to R322, R330, R331, R335, spec/18_ref_d_l.md R361 to R365, spec/20_ref_s_t.md R397 to R401,
spec/21_ref_va_vm.md R426, R427, R430, R431, spec/22_ref_vn_x.md R441, R442, R448, R449). -/

namespace Sys2Proof.Machine

/-! ### Scalar loads and stores -/

/-- LD of `n` words at `va` (R362). -/
def State.loadAt (s : State) (g : BitVec 4) (n : Nat) (d : BitVec 6) (va : Word) (sz : BitVec 2) (sx : BitVec 1) (cl : BitVec 4)
    (ar : BitVec 2) (scp : BitVec 3) : State :=
  if s.pl.guard g then
    let len := 2 ^ sz.toNat
    if va.toNat % len ≠ 0 then s.trap cALIGN va
    else s.doAccess n (.ld d (sx == 1)) cl ar scp none anyPlace (oneElem va len [])
  else s.advance n

/-- LD, X = 0 (R362). -/
def execLd (o : Ld0) (s : State) : Out := .next (s.loadAt o.g 1 o.d (s.pl.rg o.a) o.sz o.s o.cl 0 0)

/-- LD, X = 1 (R362). -/
def execLdOff (o : Ld1) (s : State) : Out :=
  .next (s.loadAt o.g 2 o.d (s.pl.rg o.a + o.off.signExtend 64) o.sz o.s o.cl o.ar o.scp)

/-- ST of `n` words at `va` (R398). -/
def State.storeAt (s : State) (g : BitVec 4) (n : Nat) (d : BitVec 6) (va : Word) (sz : BitVec 2) (cl : BitVec 4) (ar : BitVec 2)
    (scp : BitVec 3) : State :=
  if s.pl.guard g then
    let len := 2 ^ sz.toNat
    if va.toNat % len ≠ 0 then s.trap cALIGN va
    else s.doAccess n .st cl ar scp none bobbinStore (oneElem va len ((wordBytes (s.pl.rg d)).take len))
  else s.advance n

/-- ST, X = 0 (R398). -/
def execSt (o : St0) (s : State) : Out := .next (s.storeAt o.g 1 o.d (s.pl.rg o.a) o.sz o.cl 0 0)

/-- ST, X = 1 (R398). -/
def execStOff (o : St1) (s : State) : Out :=
  .next (s.storeAt o.g 2 o.d (s.pl.rg o.a + o.off.signExtend 64) o.sz o.cl o.ar o.scp)

/-- The selected bytes of MR as a byte mask (R202). -/
def State.secMask (s : State) (mr : BitVec 6) : BitVec 64 := ((s.pl.rg mr).setWidth 32).setWidth 64

/-- Lanes 0 to 3 of a v register as 32 bytes. -/
def Plane.lowLanes (x : Plane) (v : BitVec 5) : List Byte := leBytes ((x.rv v).setWidth 256).toNat 32

/-- LDSEC (R365). Its count rises and falls at once where the mask is 0, and holds at 63 all the same (R102, R202). -/
def execLdsec (o : Sec) (s : State) : Out :=
  .next (
    if s.pl.guard o.g then
      let va := s.pl.rg o.a + o.off.signExtend 64
      let m := s.secMask o.mr
      if va &&& 31 ≠ 0 then s.trap cALIGN va
      else if m = 0 then
        (if s.pl.countFull (.ldsec o.v) then s.holdOn (.counts 63 63 63 62)
         else (s.modPl fun p => p.wv o.v (p.rv o.v &&& ~~~((BitVec.allOnes 256).setWidth 1024))).advance 2)
      else s.doAccess 2 (.ldsec o.v) o.cl o.ar o.scp none anyPlace (secElems (isHost va) va m (List.replicate 32 0))
    else s.advance 2)

/-- STSEC (R401). Its count rises and falls at once where the mask is 0, and holds at 63 all the same (R102, R202). -/
def execStsec (o : Sec) (s : State) : Out :=
  .next (
    if s.pl.guard o.g then
      let va := s.pl.rg o.a + o.off.signExtend 64
      let m := s.secMask o.mr
      if va &&& 31 ≠ 0 then s.trap cALIGN va
      else if m = 0 then (if s.pl.countFull .st then s.holdOn (.counts 63 63 62 63) else s.advance 2)
      else s.doAccess 2 .st o.cl o.ar o.scp none bobbinStore (secElems (isHost va) va m (s.pl.lowLanes o.v))
    else s.advance 2)

/-! ### Atomics -/

/-- An atomic of two words at ga + sext(OFF11) (R321): ALIGN first. -/
def State.atomicAt (s : State) (g : BitVec 4) (a : BitVec 6) (off : BitVec 11) (k : AccKind) (cl : BitVec 4) (ar : BitVec 2)
    (scp : BitVec 3) (place : Vd → List Elem → Option (Nat × Word)) (data : List Byte) : State :=
  if s.pl.guard g then
    let va := s.pl.rg a + off.signExtend 64
    if va &&& 7 ≠ 0 then s.trap cALIGN va
    else s.doAccess 2 k cl ar scp none place (oneElem va 8 data)
  else s.advance 2

/-- AMO (R321). -/
def execAmo (o : Amo) (s : State) : Out :=
  .next (s.atomicAt o.g o.a o.off (.amo o.d o.aop) o.cl o.ar o.scp (atomicPlace (o.aop == 1)) (wordBytes (s.pl.rg o.b)))

/-- CAS (R335). -/
def execCas (o : Cas) (s : State) : Out :=
  .next (s.atomicAt o.g o.a o.off (.cas o.d) o.cl o.ar o.scp (atomicPlace true) (wordBytes (s.pl.rg o.b) ++ wordBytes (s.pl.rg o.c)))

/-- BPUT (R331). -/
def execBput (o : Bput) (s : State) : Out :=
  .next (s.atomicAt o.g o.a o.off (.bput o.aop) o.cl o.ar o.scp bputPlace (wordBytes (s.pl.rg o.b)))

/-! ### Vector loads and stores -/

/-- VST of `n` words at `va` (R449). -/
def State.vstAt (s : State) (g : BitVec 4) (n : Nat) (v : BitVec 5) (va : Word) (cl : BitVec 4) (ar : BitVec 2) (scp : BitVec 3) :
    State :=
  let k := s.memLanes g
  if k = 0 then s.advance n
  else if va &&& 31 ≠ 0 then s.trap cALIGN va
  else s.doAccess n .st cl ar scp (laneSpan va k) bobbinStore (vecElems (isHost va) true va k (lane (s.pl.rv v)))

/-- VST, X = 0 (R449). -/
def execVst (o : Vst0) (s : State) : Out := .next (s.vstAt o.g 1 o.v (s.pl.rg o.a) o.cl 0 0)

/-- VST, X = 1 (R449). -/
def execVstOff (o : Vst1) (s : State) : Out :=
  .next (s.vstAt o.g 2 o.v (s.pl.rg o.a + o.off.signExtend 64) o.cl o.ar o.scp)

/-- The element address of lane `i` of a gather or scatter (R427). -/
def State.gatherVa (s : State) (o : Vgs) (i : Nat) : Word := s.pl.rg o.a + (lane (s.pl.rv o.vx) i <<< o.shf.toNat)

/-- The lanes among `k` whose addresses satisfy `p`, as a trap value. -/
def State.gatherMask (s : State) (o : Vgs) (k : BitVec 16) (p : Word → Bool) : Word :=
  (List.range 16).foldl (fun m i => if k.getLsbD i && p (s.gatherVa o i) then m ||| ((1 : Word) <<< i) else m) 0

/-- The elements of a gather or scatter, one per active lane. -/
def State.gatherElems (s : State) (o : Vgs) (k : BitVec 16) (src : VReg) : List Elem :=
  let len := 2 ^ o.esz.toNat
  ((List.range 16).filter fun i => k.getLsbD i).map fun i =>
    mkElem i [i] (s.gatherVa o i) len (lowMask len) ((wordBytes (lane src i)).take len)

/-- VGATH and VSCAT: alignment of every active lane first (R427, R442). -/
def State.gatherAt (s : State) (o : Vgs) (kind : AccKind) : State :=
  let k := s.memLanes o.g
  if k = 0 then s.advance 2
  else
    let bad := s.gatherMask o k fun va => va.toNat % 2 ^ o.esz.toNat ≠ 0
    let bob := s.gatherMask o k fun va =>
      kind == .st && o.esz != 3 && (match winOf va with
        | .bobbin _ => true
        | .peer _ w => (coreWin w).map (·.1) == some 1
        | .nodeCore _ _ w => (coreWin w).map (·.1) == some 1
        | _ => false)
    if bad ≠ 0 then s.trap cALIGN bad
    else if bob ≠ 0 then s.trap cALIGN bob
    else s.doAccess 2 kind o.cl o.ar o.scp none anyPlace (s.gatherElems o k (s.pl.rv o.v))

/-- VGATH (R427). -/
def execVgath (o : Vgs) (s : State) : Out := .next (s.gatherAt o (.vgath o.v o.esz))

/-- VSCAT (R442). -/
def execVscat (o : Vgs) (s : State) : Out := .next (s.gatherAt o .st)

/-! ### Decoding loads (R189 to R191, R431) -/

/-- The source of a decoding VLD: bytes per element, whether it is a block page and which geometry, and the delivered type. -/
structure DecSrc where
  ty : Nat
  dst : Nat
  bytes : Nat
  split : Bool
  deriving DecidableEq, Repr

/-- What R191 gives for a page's FMT: none where it raises PERM. -/
def decSrc (lay : BitVec 3) (fmt : BitVec 6) : Option DecSrc :=
  let ty := (fmt.extractLsb' 2 4).toNat
  let to32 := lay != 1
  let src (dst bytes : Nat) : Option DecSrc := some { ty := ty, dst := dst, bytes := bytes, split := fmt.getLsbD 0 }
  match ty with
  | 1 => if to32 then src 1 4 else none
  | 2 => src (if to32 then 1 else 2) 2
  | 3 => src (if to32 then 1 else 3) 2
  | 4 => src (if to32 then 1 else 2) 1
  | 5 => src (if to32 then 1 else 2) 1
  | 14 => src (if to32 then 1 else 3) 0
  | _ => none

/-- Elements delivered to each lane. -/
def decPerLane (lay : BitVec 3) : Nat := if lay = 1 then 4 else 2

/-- The address is one that a decoding load may name (R191). -/
def decAligned (lay : BitVec 3) (d : DecSrc) (va : Word) : Bool :=
  if d.bytes ≠ 0 then va &&& 31 == 0
  else
    let o := va.toNat % 4096
    let w := if d.split then 16 else 17
    o % w == 0 && decide (o / w < 240) && (lay != 1 || o / w % 2 == 0)

/-- The address of group `i` of the load, and of its scale byte (R190). -/
def decGroup (d : DecSrc) (va : Word) (i : Nat) : Word × Word :=
  let w := if d.split then 16 else 17
  let g := va + BitVec.ofNat 64 (w * i)
  (g, if d.split then (va &&& ~~~4095#64) + BitVec.ofNat 64 (3840 + va.toNat % 4096 / 16 + i) else g + 16)

/-- The source bytes that element `e` needs. -/
def decNeeds (d : DecSrc) (va : Word) (e : Nat) : List Word :=
  if d.bytes ≠ 0 then (List.range d.bytes).map fun i => va + BitVec.ofNat 64 (d.bytes * e + i)
  else
    let g := decGroup d va (e / 32)
    [g.1 + BitVec.ofNat 64 (e % 32 / 2), g.2]

/-- The elements of a decoding load: one per sector that an active lane needs, in address order. -/
def decElems (lay : BitVec 3) (d : DecSrc) (va : Word) (k : BitVec 16) : List Elem :=
  let n := decPerLane lay
  let needs := ((List.range 16).filter fun i => k.getLsbD i).flatMap fun i =>
    (List.range n).flatMap fun j => (decNeeds d va (n * i + j)).map fun a => (i, a)
  let sectors := (sortNat (needs.map fun x => x.2.toNat / 32)).eraseDups
  sectors.map fun sec =>
    let mine := needs.filter fun x => x.2.toNat / 32 == sec
    let f := (mine.head?.map (·.1)).getD 0
    let mask := mine.foldl (fun (m : BitVec 64) x => m ||| (1#64 <<< (x.2.toNat % 32))) 0
    mkElem f [f] ((mine.head?.map (·.2)).getD 0) 32 mask (List.replicate 32 0)

/-- The bytes that a decoding load checks off a block page: from the first active lane's elements to the last one's (R431). A block page
lies in one window. -/
def decSpan (lay : BitVec 3) (d : DecSrc) (va : Word) (k : BitVec 16) : Option (Word × Nat) :=
  let w := d.bytes * decPerLane lay
  let ls := (List.range 16).filter fun i => k.getLsbD i
  match ls.head?, ls.getLast? with
  | some a, some b => if d.bytes = 0 then none else some (va + BitVec.ofNat 64 (w * a), w * (b - a + 1))
  | _, _ => none

/-- A byte that a performed element took. -/
def Access.byteAt (a : Access) (va : Word) : Nat :=
  match a.elems.find? fun e => e.start == (va &&& ~~~31#64) with
  | some e => (e.res.getD (va.toNat % 32) 0).toNat
  | none => 0

/-- Element `e` of a performed decoding load, decoded (R154, R431). -/
def decElement (a : Access) (d : DecSrc) (va : Word) (e : Nat) : FRes :=
  let k : FCtl := { mode := 1, daz := false, ftz := false, euf := false }
  if d.bytes ≠ 0 then
    fpToFp d.ty d.dst k false (leNat ((decNeeds d va e).map fun x => BitVec.ofNat 8 (a.byteAt x)))
  else
    let g := decGroup d va (e / 32)
    let b := a.byteAt (g.1 + BitVec.ofNat 64 (e % 32 / 2))
    let sc := a.byteAt g.2
    FRes.ok ((fmtOf d.dst).encode (blockDy (sc / 64) (sc % 64) (if e % 2 = 0 then b % 16 else b / 16)))

/-- A performed decoding load gives its result (R431, R158). -/
def State.decFinish (s : State) (n : Nat) (k : BitVec 16) (v : BitVec 5) (lay : BitVec 3) (fmt : BitVec 6) (va : Word) (a : Access) :
    State :=
  match decSrc lay fmt with
  | none => s
  | some d =>
    let m := decPerLane lay
    let w := 64 / m
    let lanes := (List.range 16).filter fun i => k.getLsbD i
    let es := lanes.flatMap fun i => (List.range m).map fun j =>
      ({ lane := i, r := decElement a d va (m * i + j), fmt := some (fmtOf d.dst) } : FElem)
    let value (i : Nat) : Word :=
      BitVec.ofNat 64 ((List.range m).foldr (fun j acc => acc * 2 ^ w + (decElement a d va (m * i + j)).bits) 0)
    (s.modPl fun x => x.dropAccess a).fpEnd n es true fun x => x.wv v (lanes.foldl (fun r i => setLane r i (value i)) (x.rv v))

/-- The FMT of the page that holds `va`: a fault parks the task (R247 for an instruction to be executed again); a peer package's
page attribute is not known here, so it is free (notes/assumptions/11.md). -/
def State.pageFmt (s : State) (va : Word) : Option (BitVec 6) × State :=
  match s.vd s.curVd with
  | none => (none, s)
  | some d =>
    match s.target d s.fc va 1 with
    | .bad cause => (none, s.trap cause va)
    | .home (.rhbm _ _) _ => (some ((Config.freeWord s.freeCtr).setWidth 6), s.bump)
    | .home _ _ => (none, s.trap cPERM va)
    | .xlate =>
      match s.trNow s.fc s.curVd va .read with
      | (.ok t, s) => (some t.fmt, s)
      | (.integ, s) => (none, if s.planeFatal s.fc s.fp then s else s.trap cINTEGRITY va)
      | (.busy, s) => (none, s)
      | (.fault k l, s) =>
        match s.taskOf s.fc s.fp with
        | none => (none, s)
        | some (key, t) =>
          let s := s.postFault t.vd va k l 0 (s.taskId t) 0 (.task key va)
          (none, s.parkTask s.fc s.fp key va .again)

/-- The access is a decoding VLD. -/
def AccKind.isDec (k : AccKind) : Bool := match k with | .vld _ lay _ => lay != 0 | _ => false

/-- A decoding VLD of `n` words: its access, or its end (R431). -/
def State.decAt (s : State) (g : BitVec 4) (n : Nat) (v : BitVec 5) (va : Word) (lay : BitVec 3) (cl : BitVec 4) (ar : BitVec 2)
    (scp : BitVec 3) : State :=
  let k := s.pl.vguard g
  if k = 0 then s.advance n
  else
    match s.pl.mine AccKind.isDec with
    | some a =>
      if a.performed then
        (match a.kind with | .vld _ _ fmt => s.decFinish n k v lay fmt va a | _ => s)
      else s.holdOn (.accs [a.id] 0)
    | none =>
      match s.pageFmt va with
      | (none, s) => s
      | (some fmt, s) =>
        match decSrc lay fmt with
        | none => s.trap cPERM va
        | some d =>
          if decAligned lay d va then s.doAccess n (.vld v lay fmt) cl ar scp (decSpan lay d va k) anyPlace (decElems lay d va k)
          else s.trap cALIGN va

/-- VLD of `n` words at `va` (R431). -/
def State.vldAt (s : State) (g : BitVec 4) (n : Nat) (v : BitVec 5) (va : Word) (lay : BitVec 3) (cl : BitVec 4) (ar : BitVec 2)
    (scp : BitVec 3) : State :=
  if lay = 0 then
    let k := s.memLanes g
    if k = 0 then s.advance n
    else if va &&& 31 ≠ 0 then s.trap cALIGN va
    else s.doAccess n (.vld v 0 0) cl ar scp (laneSpan va k) anyPlace (vecElems (isHost va) false va k fun _ => 0)
  else s.decAt g n v va lay cl ar scp

/-- VLD, X = 0 (R431). -/
def execVld (o : Vld0) (s : State) : Out := .next (s.vldAt o.g 1 o.v (s.pl.rg o.a) o.lay o.cl 0 0)

/-- VLD, X = 1 (R431). -/
def execVldOff (o : Vld1) (s : State) : Out :=
  .next (s.vldAt o.g 2 o.v (s.pl.rg o.a + o.off.signExtend 64) o.lay o.cl o.ar o.scp)

end Sys2Proof.Machine
end

