-- ==== Sys2Proof/Machine/Copy.lean ====
section
/-! DEFINITION. The copy engine: CPY, CPYS and CPYQ, the entries of a chain, and how a copy's bytes move and complete
(spec/10_memory_streams.md R192 to R198, spec/17_ref_a_c.md R339 to R342, spec/13_virry.md R258, R265, R270). -/

namespace Sys2Proof.Machine

/-! ### Entries (R193) -/

/-- An entry of a chain. -/
inductive Entry where
  | fin
  | copy (ss ds rk : Bool) (dec : Nat) (len : Nat) (src dst : Word)
  | loopc (k n : Nat) (sinc dinc : Int)
  | ifc (k cond v : Nat) (a : Word)
  | tag (t : BitVec 6)
  deriving DecidableEq, Repr

/-- Words of an entry of a kind; none for a reserved kind. -/
def entryWords (w0 : IWord) : Option Nat :=
  match (w0.extractLsb' 28 4).toNat with
  | 0 => some 1 | 1 => some 6 | 2 => some 3 | 3 => some 3 | 4 => some 1 | _ => none

/-- The 64-bit value of two words, low first. -/
def wordPair (lo hi : IWord) : Word := hi ++ lo

/-- Reads an entry; none where R194 gives ILLEGAL (a reserved kind or bit, DEC 3, LEN beside a stream record), and for a LOOPC or IFC with
k = 0: R193 gives k from 1 to 15 and names no result for 0, and the model ends the copy with ILLEGAL (notes/assumptions/89.md). -/
def parseEntry (ws : List IWord) : Option Entry :=
  let w (i : Nat) : IWord := ws.getD i 0
  let f := w 0
  match (f.extractLsb' 28 4).toNat with
  | 0 => if f.extractLsb' 0 28 = 0 then some .fin else none
  | 1 =>
    let ss := f.getLsbD 27
    let ds := f.getLsbD 26
    let dec := (f.extractLsb' 23 2).toNat
    if f.extractLsb' 0 23 ≠ 0 || dec = 3 || ((ss || ds) && w 1 != 0) then none
    else some (.copy ss ds (f.getLsbD 25) dec (w 1).toNat (wordPair (w 2) (w 3)) (wordPair (w 4) (w 5)))
  | 2 =>
    if f.extractLsb' 24 4 = 0 then none
    else some (.loopc (f.extractLsb' 24 4).toNat (f.extractLsb' 0 24).toNat (w 1).toInt (w 2).toInt)
  | 3 =>
    if f.extractLsb' 20 2 ≠ 0 || f.extractLsb' 24 4 = 0 then none
    else some (.ifc (f.extractLsb' 24 4).toNat (f.extractLsb' 22 2).toNat (f.extractLsb' 0 20).toNat (wordPair (w 1) (w 2)))
  | 4 => if f.extractLsb' 6 22 = 0 then some (.tag (f.extractLsb' 0 6)) else none
  | _ => none

/-! ### The engine's reads and writes -/

/-- What a step of a copy's work comes to: bytes, a wait (the state says for what), an engine fault with its trap value. -/
inductive CpRes where
  | ok (bs : List Byte)
  | stop
  | fault (code : Nat) (tval : Word)
  deriving DecidableEq, Repr

/-- Where a piece of the engine's access goes. -/
inductive CpLoc where
  | at (l : Loc) (own : Bool)
  | stop
  | fault (code : Nat) (tval : Word)
  deriving DecidableEq, Repr

/-- A fault of an engine's access waits for its reply at its sector (R198, R247). -/
def State.cpWait (s : State) (c : Nat) (o : CpOp) (va : Word) (kind lvl acc : Nat) : State :=
  match s.task o.c.task with
  | none => s
  | some t =>
    (s.postFault o.c.vd va kind lvl acc (s.taskId t) o.c.bk (.engine c o.c.id va)).modCp c o.c.id fun o => { o with c := { o.c with waitFault := true } }

/-- The home of `n` bytes at an address for a copy (R188, R97, R198): `acc` 4 read, 5 write. -/
def State.cpLoc (s : State) (c : Nat) (o : CpOp) (va : Word) (n : Nat) (acc : Nat) : CpLoc × State :=
  match s.vd o.c.vd with
  | none => (.stop, s)
  | some d =>
    match s.target d c va n with
    | .bad code => (.fault (if code = 7 then 7 else 6) va, s)
    | .home l peer =>
      match l with
      | .spad _ off =>
        if !peer && !((s.plane c o.c.plane).inLease off n (lowMask n)) then (.fault 8 va, s) else (.at l (!peer), s)
      | l => (.at l (!peer), s)
    | .xlate =>
      match s.trNow c o.c.vd va (if acc = 5 then .write else .read) with
      | (.ok t, s) => (.at (.hbm (t.dpa va)) false, s)
      | (.fault k lvl, s) => (.stop, s.cpWait c o va k lvl acc)
      | (.busy, s) => (.stop, s)
      | (.integ, s) => (match (s.vd o.c.vd).bind (·.halt) with | some h => if h.fatal then .stop else .fault 16 va | none => .fault 16 va, s)

/-- A mismatch found by a copy (R264, R265). -/
def State.cpBad (s : State) (o : CpOp) (dpa : Nat) (va : Word) : CpRes × State :=
  let win := s.hbm.inWindow dpa
  (if win then .fault 16 va else .stop, s.mismatch dpa o.c.vd va)

/-! ### Room on the calendars (R60, R75, R86) -/

/-- The calendars of the steps attached to a booked copy's step, with their rates. -/
def State.attached (s : State) (o : CpOp) : List (Nat × Nat) :=
  if s.isBooked o.c then
    match s.booking o.c.vd o.c.bk with
    | some b => (attachedTo b.steps o.c.step).filterMap fun j => (b.steps[j]?).bind fun t => if t.holds then some (t.cal, t.rate) else none
    | none => []
  else []

/-- The bytes that a copy may still move in this slot through a calendar: r · 512 through an attached one, elsewhere what unbooked work may. -/
def State.cpLeft (s : State) (o : CpOp) (cal : Nat) : Nat :=
  match (s.attached o).find? fun a => a.1 == cal with
  | some a => 512 * a.2 - tgetD o.moved cal 0
  | none => s.leftOver cal - tgetD s.bk.loose cal 0

/-- A copy moves `n` bytes through a calendar. -/
def State.cpSpend (s : State) (c : Nat) (o : CpOp) (cal n : Nat) : State :=
  if (s.attached o).any fun a => a.1 == cal
  then s.modCp c o.c.id fun o => { o with moved := tset o.moved cal (tgetD o.moved cal 0 + n) } else s.spend cal n

/-- The ports a copy may use: those attached to it, or any that is up. -/
def State.cpPorts (s : State) (o : CpOp) : List Nat :=
  match (s.attached o).filter fun a => decide (2112 ≤ a.1 ∧ a.1 < 2128) with
  | [] => (List.range 16).filter fun p => (tgetD s.fab.ports p Port.reset).up
  | as => as.map fun a => a.1 - 2112

/-- The flit bytes of `n` bytes of data and their header (R309). -/
def portBytes (n : Nat) : Nat := 64 * (1 + ceilDiv n 64)

/-- Sends a request of a copy that moves `n` bytes of data through a port with room, and the copy awaits its answer; without room it waits
at its sector. -/
def State.cpSend (s : State) (c : Nat) (o : CpOp) (node n wrote : Nat) (m : FMsg) (bs : List Byte) : State :=
  match s.pick ((s.cpPorts o).filter fun p => decide (portBytes n ≤ s.cpLeft o (2112 + p))) with
  | none => s
  | some p =>
    ((s.bump.cpSpend c o (2112 + p) (portBytes n)).sendVia (some p) node m (.copy c o.c.id)).modCp c o.c.id fun o =>
      { o with wait := true, wrote := wrote, buf := some bs, flits := o.flits + (1 + m.ndata) }

/-- Sends an operation of a copy on `n` bytes of a host window in the same way. -/
def State.cpHost (s : State) (c : Nat) (o : CpOp) (h off n wrote : Nat) (mk : Nat → HostMsg) (bs : List Byte) : State :=
  if n ≤ s.cpLeft o 2128 then
    ((s.cpSpend c o 2128 n).hostOp o.c.vd h off (.copy c o.c.id) mk).modCp c o.c.id fun o =>
      { o with wait := true, wrote := wrote, buf := some bs, flits := o.flits + (1 + ceilDiv wrote 64) }
  else s

/-! ### Reads -/

/-- Reads `n` bytes at a home inside the package. -/
def State.cpReadNow (s : State) (c : Nat) (o : CpOp) (va : Word) (l : Loc) (own : Bool) (n : Nat) : CpRes × State :=
  match l with
  | .hbm a =>
    (match s.homeRead a n with
    | (some bs, s) => (.ok bs, s.modCp c o.c.id fun o => { o with doms := o.doms ++ [s.hbm.domOf a] })
    | (none, s) => s.cpBad o a va)
  | .spad d off => (.ok (s.coreBytes l n), if own then s.readSect o.c.vd d off n else s)
  | l => (.ok (s.coreBytes l n), s)

/-- Reads `n` bytes at a home for a copy, behind the `got` bytes of its piece, where the calendars have room; a home outside the package is
asked, and the copy waits for its answer. -/
def State.cpReadAt (s : State) (c : Nat) (o : CpOp) (got : List Byte) (va : Word) (l : Loc) (own : Bool) (n : Nat) : CpRes × State :=
  let ask (node : Nat) : CpRes × State :=
    (.stop, s.cpSend c o node n 0 (mkMsg 1 node s.node o.c.vd 0 (remoteAddr l) (BitVec.ofNat 64 n) 0 0 []) got)
  match l with
  | .host h off => (.stop, s.cpHost c o h off n 0 (fun id => .rdmaRead id h off n) got)
  | .rhbm node _ => ask node
  | .rcore node _ => ask node
  | .hbm a => if n ≤ s.cpLeft o (cgCal a) then (s.cpSpend c o (cgCal a) n).cpReadNow c o va l own n else (.stop, s)
  | l => s.cpReadNow c o va l own n

/-- A part of what a piece writes: bytes to be read, or bytes given. -/
inductive Part where
  | read (a : Word) (n : Nat)
  | fill (bs : List Byte)
  deriving DecidableEq, Repr

/-- The reads of a part, none crossing a 64-byte boundary. -/
def Part.cut (p : Part) : List Part :=
  match p with
  | .read a n => (blocks (a.toNat % 64) n).map fun b => .read (a + BitVec.ofNat 64 (b.1 - a.toNat % 64)) b.2
  | .fill bs => [.fill bs]

/-- Bytes of a part. -/
def Part.len (p : Part) : Nat := match p with | .read _ n => n | .fill bs => bs.length

/-- Rewrites what a copy has gathered for its current piece. -/
def State.cpGot (s : State) (c : Nat) (o : CpOp) (bs : List Byte) : State := s.modCp c o.c.id fun o => { o with buf := some bs }

/-- The copy with an id, as it stands. -/
def State.cpOp (s : State) (c id : Nat) : Option CpOp := (s.core c).cp.find? fun o => o.c.id == id

/-- Gathers the parts of a piece, going on behind the bytes already gathered. -/
def cpGather (s : State) (c id : Nat) (got : List Byte) (skip : Nat) : List Part → CpRes × State
  | [] => (.ok got, s)
  | p :: rest =>
    if p.len ≤ skip then cpGather s c id got (skip - p.len) rest
    else
      match p, s.cpOp c id with
      | _, none => (.stop, s)
      | .fill bs, some o => cpGather (s.cpGot c o (got ++ bs)) c id (got ++ bs) 0 rest
      | .read a n, some o =>
        match s.cpLoc c o a n 4 with
        | (.stop, s) => (.stop, s)
        | (.fault code v, s) => (.fault code v, s)
        | (.at l own, s) =>
          if !(s.cmdClear c o.c l n) then (.stop, s)
          else
            match s.cpReadAt c o got a l own n with
            | (.ok bs, s) => cpGather (s.cpGot c o (got ++ bs)) c id (got ++ bs) 0 rest
            | r => r

/-- Gathers the parts of the copy's current piece. -/
def State.gather (s : State) (c : Nat) (o : CpOp) (ps : List Part) : CpRes × State :=
  let got := o.buf.getD []
  cpGather s c o.c.id got got.length (ps.flatMap Part.cut)

/-- The bytes of a piece are written: `n` more bytes, `adv` more of the entry. What was gathered of a stream behind them, the rest of an
element, is kept (R200). -/
def State.pieceDone (s : State) (c id : Nat) (adv n : Nat) (rest : List Byte) : State :=
  s.modCp c id fun o =>
    { o with done := o.done + adv, bytes := o.bytes + n, wait := false, buf := if rest.isEmpty then none else some rest,
             doms := if rest.isEmpty then [] else o.doms.drop (o.doms.length - 1) }

/-- A booked copy wrote sectors of its own scratchpad (R88). -/
def State.markSect (s : State) (_c : Nat) (o : CpOp) (l : Loc) (own : Bool) (n : Nat) : State :=
  match l with
  | .spad d off =>
    if own && s.isBooked o.c then
      s.modCore d fun k => { k with sect := k.sect ++ ((List.range ((off + n - 1) / 32 - off / 32 + 1)).map (off / 32 + ·)).filter fun x => !k.sect.contains x }
    else s
  | _ => s

/-- Some bytes gathered come from HBM frames of another domain than that of an HBM destination (R270). -/
def State.crossDomain (s : State) (o : CpOp) (dst : Loc) : Bool :=
  match dst with | .hbm b => o.doms.any fun d => d != s.hbm.domOf b | _ => false

/-- Writes a piece at an address, `rest` having been gathered behind it: no byte of it is written where the answer is a wait or a fault. A
write to a migrating page is held at the home agent, and the copy waits for it (spec/12_translation.md R252). -/
def State.cpWrite (s : State) (c : Nat) (o : CpOp) (va : Word) (bs rest : List Byte) (adv : Nat) (rk : Bool) : CpRes × State :=
  let n := bs.length
  match s.cpLoc c o va n 5 with
  | (.stop, s) => (.stop, s)
  | (.fault code v, s) => (.fault code v, s)
  | (.at l own, s) =>
    let ask (node : Nat) : CpRes × State :=
      (.stop, s.cpSend c o node n n (mkMsg 3 node s.node o.c.vd 0 (remoteAddr l) (BitVec.ofNat 64 n) 0xFFFFFFFF 0 bs) (bs ++ rest))
    if l.coreKind = some 1 && (va &&& 7 ≠ 0 || n % 8 ≠ 0) then (.fault 7 va, s)
    else if s.crossDomain o l && !rk then (.fault 6 va, s)
    else if !(s.cmdClear c o.c l n) then (.stop, s)
    else
      match l with
      | .hbm a =>
        if s.cpLeft o (cgCal a) < n then (.stop, s)
        else
          let cross (s : State) : State := (if s.crossDomain o l then s.count o.c.vd 4 2 n else s).cpSpend c o (cgCal a) n
          (match s.hbm.migOf a with
          | some i =>
            if s.hbm.heldFull i then (.stop, s)
            else
              (.stop, (((cross s).holdOp i (.copy c o.c.id a va bs)).count o.c.vd 3 7 1).modCp c o.c.id fun o =>
                { o with wait := true, wrote := n, buf := some (bs ++ rest) })
          | none =>
            match s.homeWrite a bs true with
            | none => s.cpBad o a va
            | some s => (.ok [], (cross s).pieceDone c o.c.id adv n rest))
      | .host h off => (.stop, s.cpHost c o h off n n (fun id => .rdmaWrite id h off none bs) (bs ++ rest))
      | .rhbm node _ => ask node
      | .rcore node _ => ask node
      | l => (.ok [], ((s.coreWrite l bs).markSect c o l own n).pieceDone c o.c.id adv n rest)

/-! ### Pieces of a COPY entry (R195, R196, R199, R200) -/

/-- How much of a dense destination one event writes: one 32-byte sector, a whole 64-byte block in one request, or toward a peer package one
message of so many data bytes (R196, spec/13_virry.md R258, spec/16_fliurn.md R309; notes/assumptions/80.md). -/
inductive Grain where
  | sector
  | block
  | msg (cap : Nat)
  deriving DecidableEq, Repr

/-- The bytes of the piece of a dense destination at offset `done` of `total`. -/
def pieceLen (g : Grain) (dst : Word) (done total : Nat) : Nat :=
  let a := dst.toNat + done
  match g with
  | .msg cap => min (min cap (1024 - a % 1024)) (total - done)
  | .block => if a % 64 = 0 && decide (64 ≤ total - done) then 64 else min (32 - a % 32) (total - done)
  | .sector => min (32 - a % 32) (total - done)

/-- The parts of source bytes from `off` for `n` bytes of a stream source: one per element, the last of them whole (R200); of the first, what
no earlier piece took. -/
def streamParts (k : Core) (x : Plane) (t : Stream) (off n : Nat) : List (Except (Nat × Word) Part) :=
  let e0 := off / t.size
  (List.range ((off + n - 1) / t.size - e0 + 1)).map fun i =>
    let e := e0 + i
    let lo := max off (e * t.size) - e * t.size
    match t.elem (leaseIdx k x) e with
    | .pad => .ok (.fill (t.padBytes.drop lo))
    | .at a => .ok (.read (a + BitVec.ofNat 64 lo) (t.size - lo))
    | .bad code v => .error (code, v)

/-- The address of code group `i` from a source on a block page, and of its scale byte, chunk by chunk (R190). -/
def copyGroup (d : DecSrc) (src : Word) (i : Nat) : Word × Word :=
  let w := if d.split then 16 else 17
  let g := src.toNat % 4096 / w + i
  let chunk := (src &&& ~~~4095#64) + BitVec.ofNat 64 (4096 * (g / 240))
  let at_ := chunk + BitVec.ofNat 64 (w * (g % 240))
  (at_, if d.split then chunk + BitVec.ofNat 64 (3840 + g % 240) else at_ + 16)

/-- The reads that element `e` of a decoding copy needs. -/
def copyNeeds (d : DecSrc) (src : Word) (e : Nat) : List Part :=
  if d.bytes ≠ 0 then [.read (src + BitVec.ofNat 64 (d.bytes * e)) d.bytes]
  else
    let g := copyGroup d src (e / 32)
    [.read (g.1 + BitVec.ofNat 64 (e % 32 / 2)) 1, .read g.2 1]

/-- An element of a decoding copy from the bytes it needs (R154, R191). -/
def copyDecode (d : DecSrc) (e : Nat) (bs : List Byte) : FRes :=
  let k : FCtl := { mode := 1, daz := false, ftz := false, euf := false }
  if d.bytes ≠ 0 then fpToFp d.ty d.dst k false (leNat bs)
  else
    let b := (bs.getD 0 0).toNat
    let sc := (bs.getD 1 0).toNat
    FRes.ok ((fmtOf d.dst).encode (blockDy (sc / 64) (sc % 64) (if e % 2 = 0 then b % 16 else b / 16)))

/-- Consecutive elements decoded from what was gathered for them. -/
def decodeAll (d : DecSrc) (e : Nat) (bs : List Byte) : Nat → List FRes
  | 0 => []
  | n + 1 =>
    let m := if d.bytes ≠ 0 then d.bytes else 2
    copyDecode d e (bs.take m) :: decodeAll d (e + 1) (bs.drop m) n

/-- The page format of a decoding copy's source (R191): none with a wait or a fault. A peer package's is free
(notes/assumptions/11.md). -/
def State.cpFmt (s : State) (c : Nat) (o : CpOp) (src : Word) : Except CpRes (BitVec 6) × State :=
  match s.vd o.c.vd with
  | none => (.error .stop, s)
  | some d =>
    match s.target d c src 1 with
    | .bad code => (.error (.fault (if code = 7 then 7 else 6) src), s)
    | .home (.rhbm _ _) _ => (.ok (Config.peerFmt o.c.id), s)
    | .home _ _ => (.error (.fault 6 src), s)
    | .xlate =>
      match s.trNow c o.c.vd src .read with
      | (.ok t, s) => (.ok t.fmt, s)
      | (.fault k lvl, s) => (.error .stop, s.cpWait c o src k lvl 4)
      | (.busy, s) => (.error .stop, s)
      | (.integ, s) => (.error (.fault 16 src), s)

/-- What the next piece of an entry is: the entry's end, a piece skipped (a destination element out of bounds), or a piece: its
address, its parts, how its bytes come from what is gathered, how far the entry then is. -/
inductive Piece where
  | over
  | skip
  | piece (dst : Word) (ps : List Part) (dec : Option (DecSrc × Nat × Nat × Nat × Nat)) (adv : Nat)
  | bad (code : Nat) (tval : Word)
  deriving DecidableEq, Repr

/-- Collects parts, or the first fault. -/
def partsOf (ps : List (Except (Nat × Word) Part)) : Except (Nat × Word) (List Part) := ps.mapM id

/-- The next piece of a copy without decoding. -/
def State.rawPiece (s : State) (c : Nat) (gr : Grain) (o : CpOp) (ss ds : Bool) (len : Nat) (src dst : Word) (si di : Int) : Piece :=
  let k := s.core c
  let x := k.plane o.c.plane
  let srcT := if ss then (streamAt k x src si).map some else .ok none
  let dstT := if ds then (streamAt k x dst di).map some else .ok none
  match srcT, dstT with
  | .error e, _ => .bad e.1 e.2
  | _, .error e => .bad e.1 e.2
  | .ok st, .ok dt =>
    let src := src + BitVec.ofInt 64 si
    let dst := dst + BitVec.ofInt 64 di
    let from_ (off n : Nat) : Except (Nat × Word) (List Part) :=
      match st with
      | some t => partsOf (streamParts k x t off n)
      | none => .ok [.read (src + BitVec.ofNat 64 off) n]
    match dt with
    | some t =>
      let clash := match st with | some u => u.len != t.len || u.esz != t.esz | none => false
      if clash then .bad 1 dst
      else if t.len ≤ o.done then .over
      else
        match t.elem (leaseIdx k x) o.done with
        | .pad => .skip
        | .bad code v => .bad code v
        | .at a =>
          match from_ (o.done * t.size) t.size with
          | .ok ps => .piece a ps none 1
          | .error e => .bad e.1 e.2
    | none =>
      let total := match st with | some t => t.len * t.size | none => len
      if total ≤ o.done then .over
      else
        let n := pieceLen gr dst o.done total
        match from_ o.done n with
        | .ok ps => .piece (dst + BitVec.ofNat 64 o.done) ps none n
        | .error e => .bad e.1 e.2

/-- The next piece of a decoding copy of `len` elements. -/
def decPiece (gr : Grain) (o : CpOp) (dec : Nat) (d : DecSrc) (len : Nat) (src dst : Word) : Piece :=
  let w := if dec = 1 then 2 else 4
  let gw := if d.split then 16 else 17
  let g := src.toNat % 4096
  if d.bytes = 0 && (len % 32 != 0 || g % gw != 0 || decide (240 ≤ g / gw)) then .bad 7 src
  else if len * w ≤ o.done then .over
  else
    let n := pieceLen gr dst o.done (len * w)
    let e0 := o.done / w
    let cnt := (o.done + n - 1) / w - e0 + 1
    .piece (dst + BitVec.ofNat 64 o.done) ((List.range cnt).flatMap fun i => copyNeeds d src (e0 + i))
      (some (d, w, e0, cnt, o.done - e0 * w)) n

/-- The bytes of a piece from what was gathered, with the exceptions of decoding them. -/
def pieceBytes (dec : Option (DecSrc × Nat × Nat × Nat × Nat)) (n : Nat) (bs : List Byte) : List Byte × BitVec 6 :=
  match dec with
  | none => (bs.take n, 0)
  | some (d, w, e0, cnt, off) =>
    let rs := decodeAll d e0 bs cnt
    (((rs.flatMap fun r => leBytes r.bits w).drop off).take n, rs.foldl (fun a r => a ||| (r.fl &&& 0x1F) ||| (if r.sn then 0x20 else 0)) 0)

/-- Does the next piece of a COPY entry (R196): `.ok` where nothing of the entry is left behind it. What is gathered of a stream
beyond the piece belongs to the next one (R200). -/
def copyPiece (s : State) (c : Nat) (o : CpOp) (rk ss ds : Bool) (next : State → CpOp → Piece) : CpRes × State :=
  let after (s : State) : CpRes × State :=
    match s.cpOp c o.c.id with
    | some o => (match next s o with | .over => (.ok [], s) | _ => (.stop, s))
    | none => (.stop, s)
  match next s o with
  | .over => (.ok [], s)
  | .skip => after (s.pieceDone c o.c.id 1 0 [])
  | .bad code v => (.fault code v, s)
  | .piece dst ps dec adv =>
    match s.gather c o ps with
    | (.ok bs, s) =>
      let n := if ds then bs.length else adv
      let out := pieceBytes dec n bs
      let s := s.modCp c o.c.id fun o => { o with flags := o.flags ||| out.2 }
      (match s.cpOp c o.c.id with
      | none => (.stop, s)
      | some o =>
        match s.cpWrite c o dst out.1 (if ss && !ds then bs.drop n else []) adv rk with
        | (.ok _, s) => after s
        | r => r)
    | r => r

/-- The data bytes of a message to a peer package that the copy's port has room for in this slot. -/
def State.msgCap (s : State) (o : CpOp) : Nat :=
  let m := (s.cpPorts o).foldl (fun m p => max m (s.cpLeft o (2112 + p))) 0
  if m < 128 then 64 else min 1024 ((m - 64) / 64 * 64)

/-- The grain of a copy's next piece toward an address: inside the package and to the host a sector or a block, by free choice. -/
def State.grain (s : State) (o : CpOp) (dst : Word) (blockFits : Bool) : Grain :=
  match (winOf dst).own s.fab.node with
  | .nodeHbm _ _ => .msg (s.msgCap o)
  | .nodeCore _ _ _ => .msg (s.msgCap o)
  | _ => if blockFits then .block else .sector

/-- An address of a bobbin window. -/
def isBobbin (va : Word) : Bool :=
  match winOf va with
  | .bobbin _ => true
  | .peer _ w => (coreWin w).map (·.1) == some 1
  | .nodeCore _ _ w => (coreWin w).map (·.1) == some 1
  | _ => false

/-- A piece takes more than what `got` holds of its source. -/
def Piece.longer (p : Piece) (got : Nat) : Bool :=
  match p with | .piece _ ps _ _ => decide (got ≤ ps.foldl (fun n p => n + p.len) 0) | _ => true

/-- A COPY entry (R194 to R196): the increments of a LOOPC's pass are added to the addresses or bases. A piece already begun with a block's
bytes goes on as a block. R193 gives no meaning to a decode mode beside SS or DS: the model ignores the stream record, takes its address as the
source or destination, and decodes the LEN = 0 elements that R194 leaves, so that nothing moves (notes/assumptions/89.md). -/
def State.doCopy (s : State) (c : Nat) (o : CpOp) (ss ds rk : Bool) (dec len : Nat) (src dst : Word) : CpRes × State :=
  let si : Int := match o.loop with | some l => l.r * l.sinc | none => 0
  let di : Int := match o.loop with | some l => l.r * l.dinc | none => 0
  let s0 := src + BitVec.ofInt 64 si
  let d0 := dst + BitVec.ofInt 64 di
  let k := s.core c
  let total := if dec ≠ 0 then len * (if dec = 1 then 2 else 4)
    else if ss then (match streamAt k (k.plane o.c.plane) src si with | .ok t => t.len * t.size | .error _ => 0) else len
  let run (ss ds : Bool) (next : Grain → State → CpOp → Piece) : CpRes × State :=
    let big := if (o.buf.getD []).isEmpty then decide (Config.freePick s.freeCtr % 2 = 1)
      else !((next .sector s o).longer (o.buf.getD []).length)
    let g := s.grain o d0 big
    copyPiece s.bump c o rk ss ds (next g)
  if !ds && isBobbin d0 && total != 0 && (d0 &&& 7 != 0 || total % 8 != 0) then (.fault 7 d0, s)
  else if dec = 0 then run ss ds fun g s o => s.rawPiece c g o ss ds len src dst si di
  else
    match s.cpFmt c o s0 with
    | (.error r, s) => (r, s)
    | (.ok fmt, _) =>
      match decSrc (BitVec.ofNat 3 dec) fmt with
      | none => (.fault 6 s0, s)
      | some d => run false false fun g _ o => decPiece g o dec d len s0 d0

/-! ### Walking a chain -/

/-- Reads words of a chain for the engine, block by block: of the own scratchpad, within the lease, or of the HBM window, behind the task's
earlier stores to them (R192, R220). -/
def chainGo (s : State) (c : Nat) (o : CpOp) (va : Word) : List (Nat × Nat) → CpRes × State
  | [] => (.ok [], s)
  | (_, n) :: rest =>
    match s.cpLoc c o va n 4 with
    | (.stop, s) => (.stop, s)
    | (.fault code v, s) => (.fault code v, s)
    | (.at l own, s) =>
      if !(s.cmdClear c o.c l n) then (.stop, s)
      else
        let got := match l with
          | .spad _ _ => if own then s.cpReadNow c o va l own n else (.fault 6 va, s)
          | .hbm a => (match s.homeRead a n with | (some bs, s) => (.ok bs, s) | (none, s) => s.cpBad o a va)
          | _ => (.fault 6 va, s)
        match got with
        | (.ok bs, s) =>
          (match chainGo s c o (va + BitVec.ofNat 64 n) rest with
          | (.ok more, s) => (.ok (bs ++ more), s)
          | r => r)
        | r => r

/-- Reads `n` bytes of a chain. -/
def State.chainRead (s : State) (c : Nat) (o : CpOp) (va : Word) (n : Nat) : CpRes × State := chainGo s c o va (blocks (va.toNat % 64) n)

/-- The 32-bit words of a run of bytes. -/
def iwordsOf (bs : List Byte) : Nat → List IWord
  | 0 => []
  | n + 1 => BitVec.ofNat 32 (leNat (bs.take 4)) :: iwordsOf (bs.drop 4) n

/-- The words of the entry at a place of a chain, with the place: passes over ends of lines (R193). -/
def chainWords (s : State) (c : Nat) (o : CpOp) (line : Word) (w : Nat) : Nat → Except CpRes (Word × Nat × List IWord) × State
  | 0 => (.error .stop, s)
  | fuel + 1 =>
    match s.chainRead c o line 64 with
    | (.stop, s) => (.error .stop, s)
    | (.fault code v, s) => (.error (.fault code v), s)
    | (.ok bs, s) =>
      let ws := iwordsOf bs 16
      let k := ws.getD 0 0
      if linkOwn k != 1 then (.error (.fault 3 line), s)
      else if linkCnt k < w then
        (if linkEnd k then (.error (.fault 3 line), s) else chainWords s c o (linkNext line k) 1 fuel)
      else
        match entryWords (ws.getD w 0) with
        | none => (.error (.fault 1 (line + BitVec.ofNat 64 (4 * w))), s)
        | some n => if linkCnt k + 1 < w + n then (.error (.fault 3 line), s) else (.ok (line, w, (ws.drop w).take n), s)

/-- Reads the words of the entry at the copy's place: a CPYS has its six words at its address. The place behind it and its words. -/
def State.entryRead (s : State) (c : Nat) (o : CpOp) : Except CpRes (Word × Nat × List IWord) × State :=
  if o.chain then
    match chainWords s c o o.line o.word 4096 with
    | (.error e, s) => (.error e, s)
    | (.ok (line, w, ws), s) => (.ok (line, w + ws.length, ws), s)
  else
    match s.chainRead c o o.line 24 with
    | (.stop, s) => (.error .stop, s)
    | (.fault code v, s) => (.error (.fault code v), s)
    | (.ok bs, s) => (.ok (o.line, o.word, iwordsOf bs 6), s)

/-- The entry that a copy is at, from its words once they are read. -/
def CpOp.entry (o : CpOp) (line : Word) (w : Nat) (ws : List IWord) : Except CpRes (Word × Nat × Entry) :=
  match parseEntry ws with
  | some (.copy ss ds rk dec len src dst) => .ok (line, w, .copy ss ds rk dec len src dst)
  | some e => if o.chain then .ok (line, w, e) else .error (.fault 1 o.line)
  | none => .error (.fault 1 (if o.chain then line + BitVec.ofNat 64 (4 * (w - ws.length)) else o.line))

/-- The entry at the copy's place, read once. -/
def State.entryAt (s : State) (c : Nat) (o : CpOp) : Except CpRes (Word × Nat × Entry) × State :=
  match o.cur with
  | some (line, w, ws) => (o.entry line w ws, s)
  | none =>
    match s.entryRead c o with
    | (.error e, s) => (.error e, s)
    | (.ok (line, w, ws), s) => (o.entry line w ws, s.modCp c o.c.id fun o => { o with cur := some (line, w, ws) })

/-- Passes over `n` entries from a place of a chain. -/
def skipGo (s : State) (c : Nat) (o : CpOp) (line : Word) (w : Nat) : Nat → Except CpRes (Word × Nat) × State
  | 0 => (.ok (line, w), s)
  | n + 1 =>
    match chainWords s c o line w 4096 with
    | (.error e, s) => (.error e, s)
    | (.ok (line, w, ws), s) => skipGo s c o line (w + ws.length) n

/-- `n` entries of a LOOPC body are behind the engine: the next pass, or the place after the body. -/
def CpOp.bodyStep (o : CpOp) (n : Nat) : CpOp :=
  match o.loop with
  | none => o
  | some l =>
    if n < l.left then { o with loop := some { l with left := l.left - n } }
    else if l.r + 1 < l.n then { o with line := l.line, word := l.word, loop := some { l with left := l.k, r := l.r + 1 } }
    else { o with loop := none }

/-- An entry is complete, `n` entries counted with those it skipped; the copy goes on at a place. -/
def State.entryDone (s : State) (c : Nat) (o : CpOp) (line : Word) (w n : Nat) : State :=
  s.modCp c o.c.id fun o =>
    ({ o with line := line, word := w, ents := o.ents + 1, done := 0, buf := none, doms := [], wait := false, cur := none }).bodyStep n

/-- A copy's work ends. -/
def State.cpEnd (s : State) (c : Nat) (o : CpOp) : State := s.modCp c o.c.id fun o => { o with c := o.c.finish none }

/-- The copy whose turn it is may work now (R13, R86, R198, R222, R282). -/
def State.cpMay (s : State) (c : Nat) (o : CpOp) : Bool :=
  s.slotFree (1024 + c) o.c && !o.wait && !o.c.waitFault && s.cmdMay c o.c && s.unitRuns o.c.vd (cpUnit c)

/-- The copy engine of core `c` acts on the entry that comes next: `act` says what an entry of its kind does, none for another kind. An
entry that cannot be read is an engine fault under every kind. -/
def State.cpAct (s : State) (c : Nat) (act : CpOp → Word → Nat → Entry → State → Option (CpRes × State)) : State :=
  match s.cpTurn c with
  | none => s
  | some o =>
    if !(s.cpMay c o) then s
    else
      let fail (r : CpRes) (s : State) : State :=
        match r with | .fault code v => s.cpFault c o code v | .stop => s | .ok _ => s
      match s.entryAt c o with
      | (.error r, t) => fail r t
      | (.ok (line, w, e), t) =>
        let t := t.modCp c o.c.id fun o => { o with c := { o.c with st := .running } }
        match (t.cpOp c o.c.id).bind fun o => act o line w e t with
        | some (r, t) => fail r t
        | none => s

/-- COPY_ENTRY (R194 to R196): the next piece of a COPY entry, and with the last the entry's end; a CPYS ends with its entry. -/
def execCopyEntry (core : BitVec 10) (s : State) : Out :=
  let c := core.toNat
  .next (s.cpAct c fun o line w e s =>
    match e with
    | .copy ss ds rk dec len src dst =>
      some (match s.doCopy c o ss ds rk dec len src dst with
        | (.ok _, s) => (.ok [], let s := s.entryDone c o line w 1; if o.chain then s else s.cpEnd c o)
        | r => r)
    | _ => none)

/-- LOOPC (R194). -/
def execChainLoop (core : BitVec 10) (s : State) : Out :=
  let c := core.toNat
  .next (s.cpAct c fun o line w e s =>
    match e with
    | .loopc k n sinc dinc =>
      some (
        if o.loop.isSome then (.fault 1 line, s)
        else if n = 0 then
          match skipGo s c o line w k with
          | (.error r, s) => (r, s)
          | (.ok (line, w), s) => (.ok [], s.entryDone c o line w 1)
        else
          (.ok [], (s.entryDone c o line w 1).modCp c o.c.id fun o =>
            { o with loop := some { line := line, word := w, k := k, left := k, r := 0, n := n, sinc := sinc, dinc := dinc } }))
    | _ => none)

/-- The condition of an IFC: EQ, NE, LTU, GEU. -/
def ifcCond (cond : Nat) (x : Word) (v : Nat) : Bool :=
  match cond with | 0 => x.toNat == v | 1 => x.toNat != v | 2 => decide (x.toNat < v) | _ => decide (v ≤ x.toNat)

/-- IFC (R194). -/
def execChainIf (core : BitVec 10) (s : State) : Out :=
  let c := core.toNat
  .next (s.cpAct c fun o line w e s =>
    match e with
    | .ifc k cond v a =>
      some (
        let room := match o.loop with | some l => decide (k < l.left) | none => true
        if a &&& 7 ≠ 0 then (.fault 7 a, s)
        else if !room then (.fault 1 line, s)
        else
          match s.gather c o [.read a 8] with
          | (.stop, s) => (.stop, s)
          | (.fault code t, s) => (.fault code t, s)
          | (.ok bs, s) =>
            if ifcCond cond (leWord bs) v then (.ok [], s.entryDone c o line w 1)
            else
              match skipGo s c o line w k with
              | (.error r, s) => (r, s)
              | (.ok (line, w), s) => (.ok [], s.entryDone c o line w (k + 1)))
    | _ => none)

/-- Sets a tag of a command's task, in its plane (spec/05_core.md R101). -/
def State.setTag (s : State) (c : Nat) (cmd : Cmd) (t : BitVec 6) : State :=
  if (s.plane c cmd.plane).task == some cmd.task
  then s.modPlane c cmd.plane fun x => { x with sr := { x.sr with tags := x.sr.tags ||| ((1 : Word) <<< t.toNat) } } else s

/-- TAG (R194). -/
def execChainTag (core : BitVec 10) (s : State) : Out :=
  let c := core.toNat
  .next (s.cpAct c fun o line w e s =>
    match e with
    | .tag t => some (.ok [], (s.entryDone c o line w 1).setTag c o.c t)
    | _ => none)

/-- END (R194): inside a LOOPC body it is an engine fault. -/
def execChainEnd (core : BitVec 10) (s : State) : Out :=
  let c := core.toNat
  .next (s.cpAct c fun o line w e s =>
    match e with
    | .fin => some (if o.loop.isSome then (.fault 1 line, s) else (.ok [], (s.entryDone c o line w 1).cpEnd c o))
    | _ => none)

/-! ### Answers from outside the package -/

/-- Bytes that a peer package or the host returned for a copy. -/
def State.cpData (s : State) (c id : Nat) (bs : List Byte) : State :=
  s.modCp c id fun o => { o with buf := some (o.buf.getD [] ++ bs), wait := false }

/-- A write of `n` bytes of a copy has performed: the entry goes on behind it, by one element where its destination is a stream. -/
def State.copyAcked (s : State) (c id n : Nat) : State :=
  match s.cpOp c id with
  | none => s
  | some o =>
    let ds := match o.cur with
      | some (line, w, ws) => (match o.entry line w ws with | .ok (_, _, .copy _ ds _ _ _ _ _) => ds | _ => false)
      | none => false
    s.pieceDone c id (if ds then 1 else n) n ((o.buf.getD []).drop n)

/-! ### Completion and CPYQ -/

/-- The exceptions of a copy's decoding, under the enables at issue: an asynchronous SNAN or FPE, else the flags in the task's sr.fps (R158,
R191; notes/assumptions/89.md). -/
def State.cpExceptions (s : State) (c : Nat) (o : CpOp) : State :=
  if o.c.endState = 6 then s
  else if o.en.getLsbD 5 && o.flags.getLsbD 5 then s.bump.cmdFault o.c 2 cSNAN (Config.freeWord s.freeCtr) o.c.endState
  else if o.flags &&& o.en &&& 0x1F ≠ 0 then s.bump.cmdFault o.c 2 cFPE (Config.freeWord s.freeCtr) o.c.endState
  else if (s.plane c o.c.plane).task == some o.c.task
    then s.modPlane c o.c.plane fun x => { x with sr := { x.sr with fps := x.sr.fps ||| (o.flags &&& 0x1F) } } else s

/-- COPY_COMPLETE (R194, R340, R101): CPC falls, the tag is set, the step is done. -/
def State.cpComplete (s : State) (c : Nat) (o : CpOp) : State :=
  let p := o.c.plane
  let s := s.modCore c fun k => { k with cp := k.cp.filter fun x => x.c.id != o.c.id }
  let s := if (s.plane c p).task == some o.c.task then
      s.modPlane c p fun x => { x with oc := { x.oc with cpc := x.oc.cpc - 1 } }
    else s
  let now := s.now
  let s := s.modTask o.c.task fun k =>
    { k with leads := k.leads.map fun l => if l.id = o.c.id then { l with done := some now } else l,
             cpq := k.cpq.map fun e => if e.2.id = o.c.id then (e.1, { e.2 with state := o.c.endState, ents := o.ents, bytes := o.bytes }) else e }
  let s := match o.tag with | some t => s.setTag c o.c t | none => s
  (s.cpExceptions c o).stepDone o.c

/-- The copy that completes next: the first that is over and overtakes none of its own task (R221). -/
def State.cpDone (s : State) (c : Nat) : Option CpOp :=
  let ops := (s.core c).cp
  (ops.zipIdx.find? fun e => e.1.isOver && (ops.take e.2).all fun x => s.letsComplete e.1.c x.c true).map (·.1)

/-- COPY_COMPLETE: the next copy whose work has ended, with no answer awaited. -/
def execCopyComplete (core : BitVec 10) (s : State) : Out :=
  let c := core.toNat
  .next (
    match s.cpDone c with
    | some o => if s.unitRuns o.c.vd (cpUnit c) then s.cpComplete c o else s
    | none => s)

/-- The word of R197. -/
def cpyqWord (state ents bytes : Nat) : Word :=
  BitVec.ofNat 64 (1152921504606846976 * state + 1099511627776 * (ents % 65536) + bytes % 1099511627776)

/-- STATE of a copy still in its engine. -/
def OpSt.copyState (st : OpSt) : Nat := match st with | .waiting => 1 | .running => 2 | .stopped => 3 | .finished => 2

/-- CPYQ (R197, R342). -/
def execCpyq (o : Cpyq) (s : State) : Out :=
  let w := match s.curTask.bind fun t => tget t.cpq o.tag.toNat with
    | none => 0
    | some q =>
      match (s.core s.fc).cp.find? fun x => x.c.id == q.id with
      | some x => cpyqWord x.c.st.copyState x.ents x.bytes
      | none => cpyqWord q.state q.ents q.bytes
  .next (s.scalar o.g 1 o.d w)

/-! ### Issue -/

/-- The address checks of R192: a cause, or none. -/
def State.cpyBad (s : State) (a : Word) (align size : Nat) : Option Nat :=
  if a.toNat % align ≠ 0 then some cALIGN
  else
    match (winOf a).own s.fab.node with
    | .spad _ => if s.pl.leased a size then none else some cLEASE
    | .hbm _ => none
    | _ => some cPERM

/-- CPY and CPYS (R340). -/
def State.copyIssue (s : State) (o : Cpy) (chain : Bool) : State :=
  if s.pl.guard o.g then
    let a := s.pl.rg o.a
    match s.cpyBad a (if chain then 64 else 8) (if chain then 64 else 24) with
    | some code => s.trap code a
    | none =>
      s.engineIssue true o.bk o.step o.ar o.scp
        (fun c => .cp { c := c, chain := chain, line := a, word := if chain then 1 else 0, tag := if o.tg = 1 then some o.tag else none,
                        ents := 0, bytes := 0, done := 0, loop := none, buf := none, wait := false, wrote := 0, moved := [], flits := 0, doms := [],
                        en := s.pl.sr.fpen.setWidth 6, flags := 0, cur := none })
        (fun c p e s => s.enterOp c p e)
  else s.advance 2

/-- CPY (R340). -/
def execCpy (o : Cpy) (s : State) : Out := .next (s.copyIssue o true)

/-- CPYS (R340). -/
def execCpys (o : Cpy) (s : State) : Out := .next (s.copyIssue o false)

end Sys2Proof.Machine
end

