-- ==== Sys2Proof/Machine/Booking.lean ====
section
/-! DEFINITION. Booking: chain records and their checks, searches, senior holds, the exchange with other owners, commits and
refusals, backfill, and the instructions BOOK, BKQ, BKCAN and BKREL (spec/04_calendars.md R62 to R75, R79 to R89,
spec/16_fliurn.md R315, spec/17_ref_a_c.md R325 to R329, spec/23_programs_booking_memory.md R454, R455). -/

namespace Sys2Proof.Machine

/-! ### Chain records (R62 to R66) -/

/-- A field of a word. -/
def fld (w : Word) (lo n : Nat) : Nat := (w.extractLsb' lo n).toNat

/-- A step from its three words (R63). -/
def parseStep (w0 w1 w2 : Word) : CStep :=
  { kind := w0.extractLsb' 61 3, selm := w0.extractLsb' 59 2, rel := w0.getLsbD 58, rmt := w0.getLsbD 57, sk := w0.extractLsb' 54 3,
    dur := fld w0 43 11, gap := fld w0 32 11, node := fld w0 20 12, low := w0.extractLsb' 0 20, vol := fld w1 32 32,
    sel := w1.extractLsb' 0 32, addr := w2, homes := none }

/-- The steps of a record from the words behind its header. -/
def parseSteps (ws : List Word) : Nat → List CStep
  | 0 => []
  | n + 1 => parseStep (ws.getD 0 0) (ws.getD 1 0) (ws.getD 2 0) :: parseSteps (ws.drop 3) n

/-- A chain record (R62, R63); `n` steps are read. -/
def parseChain (ws : List Word) (n : Nat) : Chain :=
  let a := ws.getD 0 0
  let b := ws.getD 1 0
  { pri := a.extractLsb' 60 2, post := a.getLsbD 59, vdid := fld a 48 8, rcnt := fld a 40 8, nstep := fld a 32 4,
    deadline := fld a 16 12, early := fld a 0 12, fut := b,
    rsvd := a &&& 0xC70000F0F000F000#64 != 0 || b.extractLsb' 48 16 != 0, steps := parseSteps (ws.drop 2) n }

/-- The budget of a kind in units (R60). -/
def kindBudget (k : BitVec 3) : Nat := match k.toNat with | 2 => 112 | 3 => 40 | 4 => 18 | _ => 1

/-- A selector's bits lie in the fields of its row of R64, and its mask names something. -/
def CStep.selOk (t : CStep) (j : Nat) (steps : List CStep) : Bool :=
  let x := t.sel.toNat
  let mask (n : Nat) : Bool := x % 2 ^ n != 0
  match t.kind.toNat, t.selm.toNat with
  | 0, 0 => decide (x < 1024)
  | 1, 0 => decide (x < 1024)
  | 0, 1 => decide (x < 8388608) && mask 16 && (decide (x < 4194304) || x / 65536 % 64 == 0)
  | 1, 1 => decide (x < 8388608) && mask 16 && (decide (x < 4194304) || x / 65536 % 64 == 0)
  | 0, 2 => x == 0 && decide (t.sk.toNat < j) && (match steps[t.sk.toNat]? with | some u => u.engine | none => false)
  | 1, 2 => x == 0 && decide (t.sk.toNat < j) && (match steps[t.sk.toNat]? with | some u => u.engine | none => false)
  | 2, 0 => decide (x < 64)
  | 2, 1 => decide (x < 524288) && x / 256 % 256 == 0 && mask 8
  | 2, 3 => x == 0
  | 3, 0 => decide (x < 16)
  | 3, 1 => decide (x < 65536) && mask 16
  | 4, 0 => x == 0
  | _, _ => false

/-- A step is within the limits of R63 and R64. -/
def CStep.ok (t : CStep) (j : Nat) (steps : List CStep) : Bool :=
  decide (t.kind.toNat ≤ 4) && t.low == 0 && t.addr.extractLsb' 48 16 == 0 &&
  (decide (0 < j) || (!t.rel && t.gap == 0)) &&
  (if t.rmt then t.kind == 3 else t.node == 0) &&
  (t.selm == 2 || t.sk == 0) && (t.selm == 3 || t.addr == 0) &&
  decide (1 ≤ t.dur ∧ t.dur ≤ 1024) &&
  (if t.engine then t.vol == 0 else decide (1 ≤ t.vol ∧ t.vol ≤ t.dur * kindBudget t.kind * 512)) &&
  t.selOk j steps

/-- Every check of code 1 of R65. -/
def Chain.limits (c : Chain) : Bool :=
  !c.rsvd && decide (1 ≤ c.nstep ∧ c.nstep ≤ 8) && (c.steps.zipIdx).all (fun e => e.1.ok e.2 c.steps) && c.fut.toNat % 16 == 0

/-- The checks of R65 on a BOOK record, the lowest code first. -/
def Chain.bad (c : Chain) (v die : Nat) (d : VdDef) : Option Nat :=
  if !c.limits then some 1
  else if c.vdid ≠ v then some 2
  else if c.steps.any fun t => t.engine && (t.cores d die).any fun k => !(d.hanks.contains (hankOf k)) then some 3
  else if (c.post || c.steps.any (·.rmt)) && c.fut == 0 then some 4
  else none

/-- The checks of R66 on a chain template that has been read: codes 17 to 19. -/
def Chain.badTemplate (c : Chain) (d : VdDef) (dmask : BitVec 8) : Option Nat :=
  if !c.limits then some 17
  else if c.fut != 0 || c.steps.any fun t => t.selm == 3 || t.rmt then some 18
  else if c.steps.any fun t => t.engine && (if t.selm = 1 && t.sel.getLsbD 22 then false
      else (t.cores d 0).any fun k => !(d.hanks.contains (hankOf k)) || !(dmask.getLsbD (dieOf k))) then some 19
  else none

/-- The bytes of a record with a header word. -/
def recordLen (w0 : Word) : Nat := 16 + 24 * fld w0 32 4

/-- Reads a chain template from VD memory for the device. -/
def State.readTemplate (s : State) (v a : Nat) : Option Chain × State :=
  match s.devRead v a 16 with
  | (none, s) => (none, s)
  | (some h, s) =>
    let w0 := leWord (h.take 8)
    match s.devRead v a (recordLen w0) with
    | (none, s) => (none, s)
    | (some bs, s) => (some (parseChain (wordsOf bs (recordLen w0 / 8)) (fld w0 32 4)), s)

/-! ### Searching (R67) -/

/-- A port's calendar takes bookings. -/
def State.calUp (s : State) (cal : Nat) : Bool := cal < 2112 || 2128 ≤ cal || (tgetD s.fab.ports (cal - 2112) Port.reset).up

/-- What a round comes to (R67): a fit, a later start, a refusal with its cause. -/
inductive Placed where
  | fit (ps : List Pick)
  | shift (n : Nat)
  | refuse (cause : Nat)
  deriving DecidableEq, Repr

/-- What a search needs to know beside its start: the VD, the request, the requester's die, task and record, the search's slot, the slot and
length of the deadline; whether calendars of other owners are searched directly; whether the limit of R59 counts. -/
structure Look where
  req : Nat
  d : VdDef
  die : Nat
  task : Nat
  record : Word
  h0 : Nat
  s0 : Nat
  deadline : Nat
  direct : Bool
  deep : Bool
  deriving DecidableEq, Repr

/-- The intervals on a calendar as a request sees them: its own senior hold does not stand in its way (R69), nor do the holds that it freed
in an earlier round (R70; notes/assumptions/79.md). -/
def Bk.ivalsOf (k : Bk) (req task : Nat) (record : Word) (cal : Nat) : List Ival :=
  { k with holds := k.holds.filter fun h => h.senior != some (task, record) && !(h.dead && h.tentative req) }.ivals cal

/-- The intervals on a calendar as a search sees them. -/
def Bk.ivalsFor (k : Bk) (l : Look) (cal : Nat) : List Ival := k.ivalsOf l.req l.task l.record cal

/-- The picks of a round on a calendar, as intervals. -/
def pickIvals (ps : List Pick) (cal : Nat) : List Ival :=
  ps.filterMap fun p => if p.cal == some cal then some { start := p.start, len := p.dur, rate := p.rate, book := 0, step := 0, req := 0 } else none

/-- One round: the steps from the first not yet placed on. `last` is the start and length of the step before. -/
def placeGo (s : State) (l : Look) (all : List CStep) (t : Nat) (last : Option (Nat × Nat)) (ps : List Pick) : List CStep → Placed
  | [] => .fit ps
  | c :: rest =>
    let a := match last with
      | none => t
      | some (b, d) => if c.rel then b + c.gap else b + d + c.gap
    if l.h0 + 4096 < a + c.dur then .refuse 2
    else if 0 < l.deadline && l.s0 + l.deadline < a + c.dur then .refuse 3
    else
      let cs := (c.cands l.d l.die ps).filter s.calUp
      if c.kind == 3 && cs.isEmpty then .refuse 8
      else if !l.direct && c.owner l.d l.die all != l.die then
        placeGo s l all t (some (a, c.dur)) (ps ++ [{ cal := none, start := a, dur := c.dur, rate := c.rate }]) rest
      else
        let iv (cal : Nat) : List Ival := s.bk.ivalsFor l cal ++ pickIvals ps cal
        match cs.find? fun cal => fitsIn l.deep (iv cal) (calBudget cal) a c.dur c.rate with
        | some cal => placeGo s l all t (some (a, c.dur)) (ps ++ [{ cal := some cal, start := a, dur := c.dur, rate := c.rate }]) rest
        | none =>
          match sortNat (cs.filterMap fun cal => firstFit l.deep (iv cal) (calBudget cal) a c.dur c.rate (l.h0 + 4096)) with
          | [] => .refuse 2
          | nf :: _ => .shift (nf - a)

/-- What a search comes to: a fit in some round, or a refusal with cause and hint. -/
inductive Found where
  | fit (t : Nat) (ps : List Pick) (used : Nat)
  | refuse (cause : Nat) (hint : Option Nat)
  deriving DecidableEq, Repr

/-- Rounds from step-0 start `t` on (R67). -/
def searchGo (place : Nat → Placed) (s0 t used : Nat) : Nat → Found
  | 0 => .refuse 1 (some (t - s0))
  | n + 1 =>
    match place t with
    | .fit ps => .fit t ps (used + 1)
    | .shift k => searchGo place s0 (t + k) (used + 1) n
    | .refuse c => .refuse c none

/-- A search of at most `n` rounds: the cause is DEPTH where only the limit of R59 stood in the way. -/
def State.search (s : State) (l : Look) (steps : List CStep) (t n : Nat) : Found :=
  match searchGo (fun t => placeGo s l steps t none [] steps) l.s0 t 0 n with
  | .fit t ps u => .fit t ps u
  | .refuse c h =>
    match searchGo (fun t => placeGo s { l with deep := false } steps t none [] steps) l.s0 t 0 n with
    | .fit _ _ _ => .refuse 5 h
    | .refuse _ _ => .refuse c h

/-- What a request's search looks at. -/
def BReq.look (r : BReq) (d : VdDef) (direct : Bool) : Look :=
  { req := r.id, d := d, die := r.die, task := r.task, record := r.record, h0 := r.h0, s0 := r.s0, deadline := r.chain.deadline, direct := direct,
    deep := true }

/-! ### Requests -/

/-- The intervals of a booking that is over and that no boundary has freed yet (R87), as they stand without it. -/
def Booking.ghosts (b : Booking) : List RInt :=
  (b.steps.zipIdx).filterMap fun e =>
    if e.1.free then none
    else some { node := 4096, vd := b.vd, handle := 0, step := e.2, cal := e.1.cal, start := e.1.start, len := e.1.len, rate := e.1.rate, dead := true }

/-- Takes a free entry of a unit (R61): its next generation; an earlier booking of the entry is gone. -/
def State.takeHandle (s : State) (die : Nat) : Option (Nat × State) :=
  match s.newHandle die with
  | none => none
  | some h =>
    let left := match tget s.bk.bookings (keyOfHandle h) with | some b => b.ghosts | none => []
    some (h, s.bump.modBk fun k =>
      { k with gens := tset k.gens (keyOfHandle h) (genOfHandle h), bookings := terase k.bookings (keyOfHandle h), rints := k.rints ++ left })

/-- The offset toward a node, if valid (R316). -/
def State.offset (s : State) (node : Nat) : Option Int := (tget s.fab.offs node).bind (·.o)

/-! ### Refusal (R68, R69, R74, R80) -/

/-- HINT of a result word. -/
def hintOf (h : Option Nat) : Nat := match h with | some n => min n 65535 | none => 65535

/-- A senior request's search of the whole horizon, package calendars all searched directly, its own and foreign. -/
def State.seniorFit (s : State) (r : BReq) (d : VdDef) : Option (List Pick) :=
  match s.search (r.look d true) r.chain.steps (max (r.s0 + 1 + r.chain.early) (s.now + 1)) 4096 with
  | .fit _ ps _ => some ps
  | .refuse _ _ => none

/-- Places a senior hold of a fit (R69). -/
def State.placeSenior (s : State) (r : BReq) (ps : List Pick) : State :=
  s.modBk fun k =>
    { k with holds := k.holds.filter (fun h => h.senior != some (r.task, r.record)) ++ (ps.zipIdx).map fun e =>
        { cal := e.1.cal.getD 0, start := e.1.start, len := e.1.dur, rate := e.1.rate, req := 0, node := none, step := e.2, placed := s.now,
          senior := some (r.task, r.record), dead := false } }

/-- A BOOK that is refused: POSTPONED where P = 1 and an entry is free, else REFUSED. A request that was postponed before stays so. -/
def State.refuseBook (s : State) (r : BReq) (d : VdDef) (cause : Nat) (hint : Option Nat) : State :=
  if r.firstRef.isSome then s.modReq r.id fun r => { r with st := .postponed, back := false, rounds := 0, ans := [] }
  else
    let s := s.count r.vd 0 1 1
    let n := r.refusals + 1
    let s := if 16 ≤ n then (match s.seniorFit r d with | some ps => s.placeSenior r ps | none => s) else s
    let stay (s : State) (h : Nat) : State :=
      s.modReq r.id fun r => { r with st := .postponed, refusals := n, firstRef := some s.now, pendingH := h, told := true, rounds := 0, ans := [] }
    if r.chain.post then
      if r.pendingH ≠ 0 then
        if r.told then stay s r.pendingH
        else stay (s.deliver r (bookResult 3 cause (hintOf hint) r.pendingH)) r.pendingH
      else
        match s.takeHandle r.die with
        | some (h, s) => stay (s.deliver r (bookResult 3 cause (hintOf hint) h)) h
        | none => (s.dropReq r.id).deliver r (bookResult 1 cause (hintOf hint) 0)
    else (s.dropReq r.id).deliver r (bookResult 1 cause (hintOf hint) 0)

/-! ### Commit (R70, R84, R85, R88) -/

/-- The units that a fit charges. -/
def fitUnits (r : BReq) (fit : List (Nat × Nat)) : List (Nat × Nat × Nat) :=
  (r.chain.steps.zip fit).flatMap fun e => stepUnits e.2.2 e.1.dur e.1.rate e.2.1

/-- The fit is within the VD's quotas, or may borrow: step 0 starts within 8 slots of s0 (R85). -/
def Vd.admits (d : Vd) (r : BReq) (fit : List (Nat × Nat)) : Bool :=
  d.within (fitUnits r fit) || (match fit with | f :: _ => decide (f.2 ≤ r.s0 + 8) | [] => true)

/-- The remote interval of a step, as granted. -/
def BReq.remoteOf (r : BReq) (j : Nat) : Option (Nat × Nat × Nat) :=
  match r.chain.steps[j]?, tget r.ans (8 + j) with
  | some t, some (.grant cal start) => some (t.node, cal, start)
  | _, _ => none

/-- A request leaves with a commit: its tentative holds turn into the booking's intervals, and so does what the booking took of its senior
hold; the rest of that is freed (R69, R70). -/
def State.tookReq (s : State) (r : BReq) (steps : List BStep) : State :=
  let mine (h : CHold) : Bool := h.senior == some (r.task, r.record)
  let used (h : CHold) : Bool :=
    h.tentative r.id || (mine h && (steps[h.step]?.map fun t => t.cal == h.cal && t.start == h.start).getD false)
  (s.modBk fun k => ({ k with holds := k.holds.filter fun h => !(used h) }).freeHolds mine).dropReq r.id

/-- A booking is made under handle `h`: intervals, quotas, counters; a template's task is READY by a decrement (R74). -/
def State.commitReq (s : State) (r : BReq) (h : Nat) (fit : List (Nat × Nat)) : State :=
  let steps := ((r.chain.steps.zip fit).zipIdx).map fun e => stepOf e.1.1 e.1.2.1 e.1.2.2 (r.remoteOf e.2)
  let b : Booking := { vd := r.vd, owner := r.task, gen := genOfHandle h, pri := r.chain.pri, steps := steps }
  let s := (s.tookReq r steps).modBk fun k =>
    { k with bookings := tset k.bookings (keyOfHandle h) b, rints := k.rints.filter fun i => !(i.node == 4096 && i.handle == h) }
  let lent := match s.vd r.vd with | some d => (d.chargeAll (fitUnits r fit)).2 | none => 0
  let s := s.modVd r.vd fun d => (d.chargeAll (fitUnits r fit)).1
  let slots := steps.foldl (fun a t => a + t.len) 0
  let vols := (List.range steps.length).foldl (fun a j => if attachRoot steps j = j then a else a + (steps[j]?.map (·.vol)).getD 0) 0
  let s := (((s.count r.vd 0 0 1).count r.vd 0 4 slots).count r.vd 0 10 vols).count r.vd 0 21 lent
  let s := if r.back then s.count r.vd 0 7 slots else s
  if r.tmpl then
    match s.task r.task with
    | some t => (s.modTask r.task fun t => { t with bkh := h }).applyDec t.vd (s.taskId t)
    | none => s
  else s.deliver r (bookResult 0 0 0 h)

/-- A template that is refused (R74, R69): it stays postponed, and at 16 refusals the whole horizon is searched and a fit committed at
once. -/
def State.refuseTemplate (s : State) (r : BReq) (d : Vd) (hint : Option Nat) : State :=
  let s := s.count r.vd 0 1 1
  let n := r.refusals + 1
  let first := match r.firstRef with | some f => some f | none => some s.now
  let keep (s : State) : State :=
    s.modReq r.id fun r => { r with st := .postponed, refusals := n, firstRef := first, nextTry := hint.map (r.s0 + ·), back := false,
                                    rounds := 0, ans := [] }
  if 16 ≤ n then
    match s.seniorFit r d.d with
    | some ps =>
      let fit := ps.map fun p => (p.cal.getD 0, p.start)
      if d.admits r fit then
        match s.takeHandle r.die with
        | some (h, s) => s.commitReq r h fit
        | none => keep s
      else keep s
    | none => keep s
  else keep s

/-- The tentative holds of a request on its own unit's calendars are freed (R87). -/
def State.freeOwn (s : State) (r : BReq) : State := s.modBk fun k => k.freeHolds fun h => h.tentative r.id && calOwner h.cal == r.die

/-- A request is refused with a cause and hint. Its tentative holds are free. -/
def State.refuseReq (s : State) (r : BReq) (cause : Nat) (hint : Option Nat) : State :=
  let s := s.freeOwn r
  match s.vd r.vd with
  | none => s
  | some d => if r.tmpl then s.refuseTemplate r d hint else s.refuseBook r d.d cause hint

/-! ### The exchange (R70, R71) -/

/-- Begins an exchange: the booker's own intervals as tentative holds, PREPARE to each foreign owner and remote node. -/
def State.startExchange (s : State) (r : BReq) (d : VdDef) (ps : List Pick) (t used : Nat) : State :=
  let steps := r.chain.steps
  let own := (ps.zipIdx).filterMap fun e => match e.1.cal with
    | some cal => some ({ cal := cal, start := e.1.start, len := e.1.dur, rate := e.1.rate, req := r.id, node := none, step := e.2,
                          placed := s.now, senior := none, dead := false } : CHold)
    | none => none
  let r := { r with st := .preparing s.now, fit := ps.map fun p => (p.cal.getD 0, p.start), ans := [], t := t, rounds := r.rounds + used }
  let s := (s.modReq r.id fun _ => r).modBk fun k => { k with holds := k.holds ++ own }
  ((steps.zip ps).zipIdx).foldl (fun s e =>
    let c := e.1.1
    let p := e.1.2
    let s := match p.cal with
      | some _ => s
      | none => s.modBk fun k =>
        { k with msgs := k.msgs ++ [BMsg.prepare r.id e.2 p.start p.dur p.rate (c.cands d r.die [])
            (if c.engine && c.selm == 2 then some c.sk.toNat else none)] }
    if c.rmt then
      s.bookMsg 16 c.node r.vd (BitVec.ofInt 64 ((p.start : Int) + (s.offset c.node).getD 0 - 1))
        (ridOf r e.2 ||| (r.chain.pri.setWidth 64 <<< 30) ||| (3 <<< 27) ||| (BitVec.ofNat 64 (p.dur + 2) <<< 16) |||
          (BitVec.ofNat 64 p.rate <<< 10)) 0xFFFF
    else s) s

/-- Some remote step has no valid offset: its PREPARE is refused (R316). -/
def BReq.noOffset (r : BReq) (s : State) : Bool := r.chain.steps.any fun t => t.rmt && (s.offset t.node).isNone

/-- Searches for a request from its current start and rounds (R67): a commit, an exchange, or a refusal. -/
def State.tryReq (s : State) (r : BReq) : State :=
  match s.vd r.vd with
  | none => s
  | some d =>
    if r.noOffset s then s.refuseReq r 7 none
    else
      match s.search (r.look d.d false) r.chain.steps r.t (16 - r.rounds) with
      | .refuse c h => s.refuseReq r c h
      | .fit t ps used =>
        if (r.asked d.d).isEmpty then
          let fit := ps.map fun p => (p.cal.getD 0, p.start)
          if !(d.admits r fit) then s.refuseReq r 4 none
          else if r.pendingH ≠ 0 then s.commitReq r r.pendingH fit
          else match s.takeHandle r.die with
            | some (h, s) => s.commitReq r h fit
            | none => s.refuseReq r 6 none
        else s.startExchange r d.d ps t used

/-- The booker's own tentative holds for a request still stand: an expired one, or one on a port that has failed, is lost as an owner's is
(R70, R72; notes/assumptions/79.md). -/
def State.ownStands (s : State) (r : BReq) (d : VdDef) : Bool :=
  (r.chain.steps.zipIdx).all fun e =>
    e.1.owner d r.die r.chain.steps != r.die || s.bk.holds.any fun h => h.tentative r.id && h.step == e.2 && !h.dead

/-- What the owners inside the package confirmed under a handle still stands. -/
def State.innerStands (s : State) (r : BReq) (d : VdDef) : Bool :=
  (r.asked d).all fun j => decide (8 ≤ j) || s.bk.rints.any fun i => i.node == 4096 && i.handle == r.pendingH && i.step == j && !i.dead

/-- Every owner has granted: quota, handle, COMMIT to each (R70 step 4). -/
def State.sendCommits (s : State) (r : BReq) (d : Vd) : State :=
  let fit := (r.fit.zipIdx).map fun e => match tget r.ans e.2 with | some (.grant cal start) => (cal, start) | _ => e.1
  let go (s : State) (h : Nat) : State :=
    let s := s.modReq r.id fun r => { r with st := .committing s.now, fit := fit, pendingH := h }
    (r.asked d.d).foldl (fun s k =>
      s.tell r (fun j => .commit r.id j h) (fun s n j => s.bookMsg 19 n r.vd 0 (ridOf r j) (BitVec.ofNat 64 h)) k) s
  if !(s.ownStands r d.d) then (s.abortAll r).refuseReq r 7 none
  else if !(d.admits r fit) then (s.abortAll r).refuseReq r 4 none
  else if r.pendingH ≠ 0 then go s r.pendingH
  else match s.takeHandle r.die with
    | some (h, s) => go s h
    | none => (s.abortAll r).refuseReq r 6 none

/-- How much later step 0 must start for a REFUSE with a hint: the hint is the step's next start (R70, R315). -/
def BReq.delay (r : BReq) (s : State) (key : Nat) (hint : Nat) : Nat :=
  let j := key % 8
  let a := (r.fit[j]?.map (·.2)).getD 0
  let start := if key < 8 then (hint : Int)
    else (hint : Int) - (match r.chain.steps[j]? with | some t => (s.offset t.node).getD 0 | none => 0)
  (start - a).toNat

/-- Acts on the answers of an exchange once all have come (R70 step 4). -/
def State.actOnAnswers (s : State) (id : Nat) : State :=
  match s.bk.reqs.find? fun r => r.id == id with
  | none => s
  | some r =>
    match s.vd r.vd with
    | none => s
    | some d =>
      let ans := (r.asked d.d).map fun k => (k, tget r.ans k)
      if ans.any fun a => a.2.isNone then s
      else if ans.all fun a => (match a.2 with | some (.grant _ _) => true | _ => false) then s.sendCommits r d
      else
        let s := (s.abortAll r).freeOwn r
        if ans.any fun a => a.2 == some (.refuse none) then s.refuseReq r 2 none
        else
          let later := ans.foldl (fun m a => match a.2 with | some (.refuse (some h)) => max m (r.delay s a.1 h) | _ => m) 1
          let r := { r with t := r.t + later, ans := [], fit := [], st := .queued }
          if 16 ≤ r.rounds then s.refuseReq r 1 (some (r.t - r.s0))
          else (s.modReq r.id fun _ => r).tryReq r

/-- An answer of an owner arrives at the booker. -/
def State.answer (s : State) (id key : Nat) (a : Ans) : State :=
  match s.bk.reqs.find? fun r => r.id == id with
  | some r =>
    (match r.st with
    | .preparing _ => if (tget r.ans key).isNone then (s.modReq id fun r => { r with ans := tset r.ans key a }).actOnAnswers id else s
    | _ => s)
  | none => s

/-- An owner has lost its hold, or did not answer COMMIT: CANCEL for what is confirmed, REFUSED with cause REMOTE (R70). -/
def State.commitFails (s : State) (r : BReq) : State :=
  let s := (s.cancelConfirmed r).abortAll r
  let r := if r.told then r else { r with pendingH := 0 }
  (s.modReq r.id fun _ => r).refuseReq r 7 none

/-- A confirmation arrives; with the last the booking is made, if every hold and interval still stands (R70 step 5, R72, R455). -/
def State.confirmed (s : State) (id key : Nat) : State :=
  match s.bk.reqs.find? fun r => r.id == id with
  | none => s
  | some r =>
    match s.vd r.vd, r.st with
    | some d, .committing _ =>
      let r := { r with ans := tset r.ans (16 + key) .confirmed }
      let s := s.modReq id fun _ => r
      if (r.asked d.d).all fun k => (tget r.ans (16 + k)).isSome then
        (if s.ownStands r d.d && s.innerStands r d.d then s.commitReq r r.pendingH r.fit else s.commitFails r)
      else s
    | _, _ => s

/-- The message that a MsgRef names inside the package. -/
def State.inner (s : State) (m : MsgRef) : Option (Nat × BMsg) :=
  match m with
  | .inner i => (s.bk.msgs[i]?).map fun b => (i, b)
  | .outer _ => none

/-- Removes the `i`-th message. -/
def State.takeMsg (s : State) (i : Nat) : State := s.modBk fun k => { k with msgs := dropAt k.msgs i }

/-- The earliest fit of a rate on any of some calendars, the lowest-numbered first. -/
def State.findRoom (s : State) (iv : Nat → List Ival) (cs : List Nat) (start len rate : Nat) : Except (Option Nat) Nat :=
  match cs.find? fun cal => fitsIn true (iv cal) (calBudget cal) start len rate with
  | some cal => .ok cal
  | none =>
    .error (sortNat (cs.filterMap fun cal => firstFit true (iv cal) (calBudget cal) start len rate (s.now + 4096))).head?

/-- PREPARE at a foreign owner of the package: a tentative hold and GRANT, or REFUSE with the next free slot (R70). It waits behind
an ABORT of the same step, and for the step whose core it takes. -/
def State.prepareInner (s : State) (i : Nat) (id j start len rate : Nat) (cands : List Nat) (same : Option Nat) : State :=
  let late := (s.bk.msgs.take i).any fun m => m == .abort id j
  let other := same.bind fun k => s.bk.holds.find? fun h => h.tentative id && h.step == k && !h.dead
  match s.bk.reqs.find? fun r => r.id == id with
  | none => s.takeMsg i
  | some r =>
    let refusedOther : Option Ans := same.bind fun k => (match tget r.ans k with
      | some (.refuse h) => some (.refuse h)
      | _ => none)
    if late then s
    else
      let kindBase := match r.chain.steps[j]? with | some t => if t.kind = 1 then 1024 else 0 | none => 0
      let cs := (match same with
        | some _ => (match other with | some h => [kindBase + h.cal % 1024] | none => [])
        | none => cands).filter s.calUp
      match same.isSome && other.isNone, refusedOther with
      | true, some (.refuse h) => (s.takeMsg i).modBk fun k => { k with msgs := k.msgs ++ [BMsg.refuse id j h] }
      | true, _ => s
      | false, _ =>
        match s.findRoom (s.bk.ivalsOf id r.task r.record) cs start len rate with
        | .ok cal =>
          (s.takeMsg i).modBk fun k =>
            { k with msgs := k.msgs ++ [BMsg.grant id j cal start],
                     holds := k.holds ++ [{ cal := cal, start := start, len := len, rate := rate, req := id, node := none, step := j,
                                            placed := s.now, senior := none, dead := false }] }
        | .error h => (s.takeMsg i).modBk fun k => { k with msgs := k.msgs ++ [BMsg.refuse id j h] }

/-- PREPARE from a remote booker: the lowest-numbered free ingress port (R71, R315). NEXT is the start behind the guard slot. -/
def State.prepareOuter (s : State) (m : FMsg) : State :=
  let start := m.w1.toNat
  let len := fld m.w2 16 11
  let rate := fld m.w2 10 6
  let cs := (((List.range 16).filter fun i => m.w3.getLsbD i).map (2112 + ·)).filter s.calUp
  let answer (type : Nat) (w1 w2 : Word) : State := s.bookMsg type m.src m.vd w1 (w2 ||| (BitVec.ofNat 64 m.rid <<< 32)) 0
  let refuse (h : Option Nat) : State :=
    answer 18 (match h with | some f => BitVec.ofNat 64 (f + 1) | none => BitVec.allOnes 64) 0
  if start ≤ s.now || s.now + 4096 < start + len then
    refuse (match s.findRoom s.bk.ivals cs (max start (s.now + 1)) len rate with
      | .ok _ => if start ≤ s.now && decide (len ≤ 4095) then some (s.now + 1) else none
      | .error h => h)
  else
    match s.findRoom s.bk.ivals cs start len rate with
    | .ok cal =>
      (answer 17 m.w1 (BitVec.ofNat 64 cal)).modBk fun k =>
        { k with holds := k.holds ++ [{ cal := cal, start := start, len := len, rate := rate, req := m.rid, node := some m.src,
                                        step := m.rid % 8, placed := s.now, senior := none, dead := false }] }
    | .error h => refuse h

/-- PREPARE (R70, R71). -/
def execBookPrepare (m : MsgRef) (s : State) : Out :=
  .next (match m with
    | .outer f => s.receive f 16 fun _ => s.prepareOuter f
    | .inner i => (match s.bk.msgs[i]? with
      | some (.prepare id j start len rate cands same) => s.prepareInner i id j start len rate cands same
      | _ => s))

/-- GRANT (R70). -/
def execBookGrant (m : MsgRef) (s : State) : Out :=
  .next (match m with
    | .outer f => s.receive f 17 fun _ => s.answer (f.rid / 8) (8 + f.rid % 8) (.grant (fld f.w2 0 12) f.w1.toNat)
    | .inner i => (match s.bk.msgs[i]? with
      | some (.grant id j cal start) => (s.takeMsg i).answer id j (.grant cal start)
      | _ => s))

/-- REFUSE (R70). -/
def execBookRefuse (m : MsgRef) (s : State) : Out :=
  .next (match m with
    | .outer f => s.receive f 18 fun _ =>
        s.answer (f.rid / 8) (8 + f.rid % 8) (.refuse (if f.w1 = BitVec.allOnes 64 then none else some f.w1.toNat))
    | .inner i => (match s.bk.msgs[i]? with
      | some (.refuse id j h) => (s.takeMsg i).answer id j (.refuse h)
      | _ => s))

/-- A hold turns into a committed interval (R70 step 5): none where it has expired or been freed. -/
def State.commitHold (s : State) (q : CHold → Bool) (node vd handle : Nat) : Option State :=
  let p (h : CHold) : Bool := q h && !h.dead
  match s.bk.holds.find? p with
  | none => none
  | some h =>
    some (s.modBk fun k =>
      { k with holds := dropFirst p k.holds,
               rints := k.rints ++ [⟨node, vd, handle, h.step, h.cal, h.start, h.len, h.rate, false⟩] })

/-- COMMIT (R70). -/
def execBookCommit (m : MsgRef) (s : State) : Out :=
  .next (match m with
    | .outer f => s.receive f 19 fun _ =>
        match s.commitHold (fun h => h.node == some f.src && h.req == f.rid) f.src f.vd (fld f.w3 0 24) with
        | some s => s.bookMsg 23 f.src f.vd 0 (BitVec.ofNat 64 f.rid <<< 32) 0
        | none => s.bookMsg 22 f.src f.vd 0 (BitVec.ofNat 64 f.rid <<< 32) 0
    | .inner i => (match s.bk.msgs[i]? with
      | some (.commit id j h) =>
        (match (s.takeMsg i).commitHold (fun x => x.tentative id && x.step == j) 4096 (((s.bk.reqs.find? fun r => r.id == id).map (·.vd)).getD 0) h with
        | some s => s.modBk fun k => { k with msgs := k.msgs ++ [BMsg.confirm id j] }
        | none => (s.takeMsg i).modBk fun k => { k with msgs := k.msgs ++ [BMsg.lost id j] })
      | _ => s))

/-- CONFIRM (R70, R73, R455). -/
def execBookConfirm (m : MsgRef) (s : State) : Out :=
  .next (match m with
    | .outer f => s.receive f 23 fun _ => s.confirmed (f.rid / 8) (8 + f.rid % 8)
    | .inner i => (match s.bk.msgs[i]? with
      | some (.confirm id j) => (s.takeMsg i).confirmed id j
      | _ => s))

/-- ABORT (R70): the hold is freed, as searches see from the next boundary on (R87). -/
def execBookAbort (m : MsgRef) (s : State) : Out :=
  .next (match m with
    | .outer f => s.receive f 20 fun _ =>
        s.modBk fun k => k.freeHolds fun h => h.node == some f.src && h.req == f.rid
    | .inner i => (match s.bk.msgs[i]? with
      | some (.abort id j) =>
        (s.takeMsg i).modBk fun k => k.freeHolds fun h => h.tentative id && h.step == j
      | _ => s))

/-- A CANCEL inside the package frees the interval of an owner, or sends CANCEL to the node of a remote step (R81, R315). -/
def State.cancelInner (s : State) (h j : Nat) : State :=
  let s := s.modBk fun k => k.freeRints fun i => i.node == 4096 && i.handle == h && i.step == j
  match tget s.bk.bookings (keyOfHandle h) with
  | some b =>
    if b.gen = genOfHandle h then
      match (b.steps[j]?).bind (·.rem) with
      | some (n, _, _) => s.bookMsg 21 n b.vd 0 0 (BitVec.ofNat 64 (16777216 * j + h))
      | none => s
    else s
  | none => s

/-- CANCEL (R70, R72, R315): status 0 frees a remote booker's interval, status 6 makes the booker's step PORTDOWN. -/
def execBookCancel (m : MsgRef) (s : State) : Out :=
  .next (match m with
    | .outer f => s.receive f 21 fun _ =>
        let h := fld f.w3 0 24
        let j := fld f.w3 24 3
        if fld f.w3 28 4 = 6 then
          match s.booking f.vd h with
          | some b => if ((b.steps[j]?).bind (·.rem)).isSome then s.endStep (keyOfHandle h) j .portdown 5 else s
          | none => s
        else s.modBk fun k => k.freeRints fun i => i.node == f.src && i.handle == h && i.step == j
    | .inner i => (match s.bk.msgs[i]? with
      | some (.cancel h j) => (s.takeMsg i).cancelInner h j
      | _ => s))

/-- A LOST answer to COMMIT (R70). -/
def State.lost (s : State) (id : Nat) : State :=
  match s.bk.reqs.find? fun r => r.id == id with
  | some r => (match r.st with | .committing _ => s.commitFails r | _ => s)
  | none => s

/-- LOST (R70). -/
def execBookLost (m : MsgRef) (s : State) : Out :=
  .next (match m with
    | .outer f => s.receive f 22 fun _ => s.lost (f.rid / 8)
    | .inner i => (match s.bk.msgs[i]? with
      | some (.lost id _) => (s.takeMsg i).lost id
      | _ => s))

/-- PREPARE_TIMEOUT (R71): 32 slots without an answer of some owner. -/
def execPrepareTimeout (i : Nat) (s : State) : Out :=
  .next (match s.bk.reqs[i]? with
    | some r => (match r.st with
      | .preparing sent => if sent + 32 < s.now then (s.abortAll r).refuseReq r 7 none else s
      | _ => s)
    | none => s)

/-- COMMIT_TIMEOUT (R70): 32 slots without an answer to COMMIT. -/
def execCommitTimeout (i : Nat) (s : State) : Out :=
  .next (match s.bk.reqs[i]? with
    | some r => (match r.st with
      | .committing sent => if sent + 32 < s.now then s.commitFails r else s
      | _ => s)
    | none => s)

/-- A tentative hold is over after 32 slots (R70, R87), a senior hold after 64 (R69). -/
def CHold.due (h : CHold) (now : Nat) : Bool :=
  if h.senior.isSome then decide (h.placed + 64 ≤ now) else decide (h.placed + 32 ≤ now)

/-- TENTATIVE_HOLD_EXPIRY (R70): the `i`-th hold. -/
def execTentativeHoldExpiry (i : Nat) (s : State) : Out :=
  .next (match s.bk.holds[i]? with
    | some h => if h.senior.isNone && h.due s.now then s.modBk fun k => { k with holds := dropAt k.holds i } else s
    | none => s)

/-- SENIOR_HOLD_EXPIRY (R69): the `i`-th hold. -/
def execSeniorHoldExpiry (i : Nat) (s : State) : Out :=
  .next (match s.bk.holds[i]? with
    | some h => if h.senior.isSome && h.due s.now then s.modBk fun k => { k with holds := dropAt k.holds i } else s
    | none => s)

/-! ### Searches in turn, backfill, expiries -/

/-- The unit of a die is in an exchange (R67: one search at a time). -/
def State.searching (s : State) (die : Nat) : Bool :=
  s.bk.reqs.any fun r => r.die == die && (match r.st with | .preparing _ => true | _ => false)

/-- The start of step 0 of a request's own senior hold. -/
def State.seniorStart (s : State) (r : BReq) : Option Nat :=
  (s.bk.holds.find? fun h => h.senior == some (r.task, r.record) && h.step == 0 && !h.dead).map (·.start)

/-- BOOKING_SEARCH (R67, R69): the next request of a die in arrival order; one that may take a senior hold comes first. -/
def execBookingSearch (die : BitVec 3) (s : State) : Out :=
  let mine := s.bk.reqs.filter fun r => r.die == die.toNat && r.st == .queued
  let next := match mine.find? fun r => (s.seniorStart r).isSome with | some r => some r | none => mine.head?
  .next (match next with
    | none => s
    | some r =>
      if s.searching die.toNat || s.power != .run then s
      else
        let s0 := if r.tmpl then r.s0 else s.now
        let t := max (s0 + 1 + r.chain.early) (s.now + 1)
        let t := match s.seniorStart r with | some a => max t a | none => t
        let r := { r with s0 := s0, h0 := s.now, t := t, rounds := 0, ans := [] }
        (s.modReq r.id fun _ => r).tryReq r)

/-- TEMPLATE_RETRY (R74): a refused template whose retry slot has come is queued again; its s0 stays the firing slot (R454). -/
def execTemplateRetry (task : Nat) (s : State) : Out :=
  .next (match s.bk.reqs.find? fun r => r.tmpl && r.task == task && r.st == .postponed with
    | some r => (match r.nextTry with
      | some n => if n ≤ s.now then s.modReq r.id fun r => { r with st := .queued, nextTry := none } else s
      | none => s)
    | none => s)

/-- Backfill order (R80): senior first, then higher PRI, then earlier first refusal. -/
def BReq.before (a b : BReq) : Bool :=
  let key (r : BReq) : Nat := (if 16 ≤ r.refusals then 0 else 4) + (3 - r.chain.pri.toNat)
  decide (key a < key b) || (key a == key b && decide (a.firstRef.getD 0 ≤ b.firstRef.getD 0))

/-- Inserts a request into backfill order. -/
def insReq (r : BReq) : List BReq → List BReq
  | [] => [r]
  | x :: rest => if r.before x then r :: x :: rest else x :: insReq r rest

/-- BACKFILL (R80, R454): the postponed requests are searched in order, and each that fits is committed. -/
def State.backfill (s : State) : State :=
  ((s.bk.reqs.filter fun r => r.st == .postponed).foldr insReq []).foldl (fun s r =>
    match s.bk.reqs.find? fun x => x.id == r.id with
    | none => s
    | some r =>
      let t := max s.now (r.s0 + 1 + r.chain.early)
      let r := { r with h0 := s.now, t := t, rounds := 0, ans := [], back := true }
      (s.modReq r.id fun _ => { r with st := .queued }).tryReq { r with st := .queued }) s

/-- POSTPONED_EXPIRY (R80): a BOOK request unplaced after 256 slots receives EXPIRED, cause CONFLICT. -/
def execPostponedExpiry (i : Nat) (s : State) : Out :=
  .next (match s.bk.reqs[i]? with
    | some r => (match r.firstRef with
      | some f => if !r.tmpl && r.st == .postponed && decide (f + 256 ≤ s.now) then s.expireReq r 1 else s
      | none => s)
    | none => s)

/-- The earliest end of a chain's last step when step 0 starts at `t`, by relations and gaps. -/
def chainEnd (t : Nat) (last : Option (Nat × Nat)) : List CStep → Nat
  | [] => match last with | some (a, d) => a + d | none => t
  | c :: rest =>
    let a := match last with | none => t | some (b, d) => if c.rel then b + c.gap else b + d + c.gap
    chainEnd t (some (a, c.dur)) rest

/-- DEADLINE_PASS (R454): no placement could meet the deadline any more. -/
def execDeadlinePass (i : Nat) (s : State) : Out :=
  .next (match s.bk.reqs[i]? with
    | some r =>
      let e := chainEnd (max s.now (r.s0 + 1 + r.chain.early)) none r.chain.steps
      if !r.tmpl && r.st == .postponed && decide (0 < r.chain.deadline) && decide (r.s0 + r.chain.deadline < e) then s.expireReq r 3 else s
    | none => s)

/-! ### Watchdogs (R79, R86) -/

/-- The operations of an engine that have neither completed nor been ended: an MDADD whose rows are not all acknowledged is among them. -/
def State.liveCmds (s : State) (core : Nat) (copy : Bool) : List Cmd :=
  let k := s.core core
  (if copy then (k.cp.filter fun o => !o.isOver).map (·.c) else (k.mx.filter fun o => !o.isOver).map (·.c)).filter fun c => c.ended.isNone

/-- OVERRUN (R79): a running booked operation whose slots exceed max(4 · DUR, 64). -/
def execOverrun (core : BitVec 10) (copy : Bool) (s : State) : Out :=
  .next (match (s.liveCmds core.toNat copy).find? fun c => (match s.cmdStep c with
      | some (_, t) => decide (max (4 * t.dur) 64 < c.ran)
      | none => false) with
    | some c => s.overrunStop core.toNat copy c c.ran
    | none => s)

/-- UNBOOKED_OVERRUN (R86): unbooked work that has not completed 4,096 slots after it issued. -/
def execUnbookedOverrun (core : BitVec 10) (copy : Bool) (s : State) : Out :=
  .next (match (s.liveCmds core.toNat copy).find? fun c => !(s.isBooked c) && decide (c.issued + 4096 ≤ s.now) with
    | some c => s.overrunStop core.toNat copy c (s.now - c.issued)
    | none => s)

/-! ### BOOK (R328, R329) -/

/-- Translates the addresses of SELM 3 steps (R64, R65): the steps with their channel groups, or the state after a fault or trap. -/
def State.homesOf (s : State) (die : Nat) : List CStep → Except State (List CStep) × State
  | [] => (.ok [], s)
  | t :: rest =>
    if t.selm = 3 then
      match s.trNow s.fc s.curVd t.addr .read with
      | (.ok e, s) =>
        (match s.homesOf die rest with
        | (.ok ts, s) => (.ok ({ t with homes := some (e.dpa t.addr / 65536 % 64) } :: ts), s)
        | r => r)
      | (.integ, s) => (.error (if s.planeFatal s.fc s.fp then s else s.trap cINTEGRITY t.addr), s)
      | (.busy, s) => (.error s, s)
      | (.fault k l, s) =>
        match s.taskOf s.fc s.fp with
        | none => (.error s, s)
        | some (key, tk) =>
          let s := s.postFault tk.vd t.addr k l 6 (s.taskId tk) 0 (.task key t.addr)
          (.error (s.parkTask s.fc s.fp key t.addr .again), s)
    else
      match s.homesOf die rest with
      | (.ok ts, s) => (.ok (t :: ts), s)
      | r => r

/-- The accesses of the plane that BOOK's accesses to `n` bytes of its own scratchpad must follow: those that overlap (R212), and acquires
(R218). -/
def State.earlierOn (s : State) (off n : Nat) : List Access :=
  s.pl.acc.filter fun a => (a.acq && !a.performed) || a.elems.any fun e => e.st != .performed && e.meets (.spad s.fc off) n

/-- A request of the executing task for a checked chain. -/
def State.newReq (s : State) (t : Task) (key : Nat) (a : Word) (c : Chain) (h : Nat) : BReq :=
  { id := s.bk.nextReq, die := t.home, vd := t.vd, task := key, tmpl := false, record := a, chain := c, s0 := s.now, t := 0, rounds := 0,
    refusals := c.rcnt, firstRef := none, nextTry := none, pendingH := h, told := h != 0, back := false, h0 := s.now, st := .queued,
    fit := [], ans := [] }

/-- Enters a request behind the others (R67: arrival order). -/
def State.addReq (s : State) (r : BReq) : State := s.modBk fun k => { k with reqs := k.reqs ++ [r], nextReq := k.nextReq + 1 }

/-- Writes RCNT + 1 into the record at scratchpad offset `off` (R68). -/
def State.bumpRcnt (s : State) (c off : Nat) : State :=
  let n := (memRead (s.core c).spad (off + 5)).toNat
  s.coreWrite (.spad c (off + 5)) [BitVec.ofNat 8 (min 255 (n + 1))]

/-- BOOK with its record at scratchpad offset `off`, checked for alignment and lease. -/
def State.bookAt (s : State) (d : BitVec 6) (a : Word) (off : Nat) (t : Task) (key : Nat) (v : VdDef) : State :=
  let w0 := leWord (memBytes (s.core s.fc).spad off 8)
  let n := recordLen w0
  if !(s.pl.leased a n) then s.trap cLEASE a
  else
    let before := s.earlierOn off n
    if !before.isEmpty then s.holdOn (.accs (before.map (·.id)) 0)
    else
      let c := parseChain (wordsOf (memBytes (s.core s.fc).spad off n) (n / 8)) (fld w0 32 4)
      let s := s.readSect t.vd s.fc off n
      match c.bad t.vd t.home v with
      | some code => s.trap cBOOKING (BitVec.ofNat 64 code)
      | none =>
        match s.homesOf t.home c.steps with
        | (.error s, _) => s
        | (.ok steps, s) =>
          let c := { c with steps := steps }
          if steps.any (·.rmt) then
            match s.takeHandle t.home with
            | some (h, s) => ((s.addReq (s.newReq t key a c h)).modPl fun x => x.wg d (bookResult 2 0 0 h)).advance 1
            | none => (((s.count t.vd 0 1 1).bumpRcnt s.fc off).modPl fun x => x.wg d (bookResult 1 6 65535 0)).advance 1
          else (s.addReq (s.newReq t key a c 0)).holdOn (.book s.bk.nextReq)

/-- BOOK (R329). While it holds, its result is looked for. -/
def execBook (o : DA) (s : State) : Out :=
  .next (
    if s.pl.guard o.g then
      let a := s.pl.rg o.a
      let off := match winOf a with | .spad x => x | _ => 0
      match s.pl.hold with
      | some (.book id) =>
        (match tget s.bk.results id with
        | none => s
        | some w =>
          let s := s.modBk fun k => { k with results := terase k.results id }
          let s := if fld w 60 4 = 1 || fld w 60 4 = 3 then s.bumpRcnt s.fc off else s
          (s.modPl fun x => { x.wg o.d w with hold := none }).advance 1)
      | _ =>
        if a &&& 7 ≠ 0 then s.trap cALIGN a
        else if !(s.pl.leased a 16) then s.trap cLEASE a
        else
          match s.taskOf s.fc s.fp with
          | none => s
          | some (key, t) => (match s.vd t.vd with
            | none => s
            | some v =>
              let before := s.earlierOn off 16
              if before.isEmpty then s.bookAt o.d a off t key v.d else s.holdOn (.accs (before.map (·.id)) 0))
    else s.advance 1)

/-! ### BKQ, BKCAN, BKREL (R325 to R327) -/

/-- STATE of a step (R89). -/
def StepSt.code (t : StepSt) : Nat :=
  match t with
  | .booked => 1 | .running => 2 | .done => 3 | .cancelled => 4 | .released => 5 | .portdown => 6 | .voided => 7 | .expired => 10

/-- The word of R89. -/
def bkqWord (state cal len start : Nat) : Word :=
  BitVec.ofNat 64 (1152921504606846976 * state + 281474976710656 * cal + 4294967296 * (len % 8192) + start % 4294967296)

/-- BKQ's answer for a handle and step. -/
def State.bkq (s : State) (v h j : Nat) : Word :=
  match s.booking v h with
  | some b => (match b.steps[j]? with
    | some t => bkqWord t.st.code t.cal t.len t.start
    | none => 0)
  | none =>
    match s.pendingReq v h with
    | some r => if j < r.chain.steps.length then bkqWord (if r.firstRef.isSome then 9 else 8) 0 0 0 else 0
    | none => bkqWord 15 0 0 0

/-- BKQ (R327, R89). -/
def execBkq (o : Bkq) (s : State) : Out :=
  .next (s.scalar o.g 1 o.d (s.bkq s.curVd ((s.pl.rg o.a).setWidth 24).toNat o.step.toNat))

/-- BKCAN (R326, R81). -/
def execBkcan (o : A1) (s : State) : Out :=
  .next (
    if s.pl.guard o.g then
      let h := ((s.pl.rg o.a).setWidth 24).toNat
      let v := s.curVd
      (match s.booking v h with
      | some _ => s.cancelBooking (keyOfHandle h)
      | none => match s.pendingReq v h with
        | some r => (s.cancelConfirmed r).expireReq r 0
        | none => s).advance 1
    else s.advance 1)

/-- BKREL (R326, R81). -/
def execBkrel (o : Bkrel) (s : State) : Out :=
  .next (
    if s.pl.guard o.g then
      let h := ((s.pl.rg o.a).setWidth 24).toNat
      (match s.booking s.curVd h with
      | some _ => s.releaseStep (keyOfHandle h) o.step.toNat
      | none => s).advance 1
    else s.advance 1)

end Sys2Proof.Machine
end

