-- ==== Sys2Proof/Machine/Control.lean ====
section
/-! DEFINITION. CMP, the predicate and mask majors, transfers, loops, NOP, BRK, SVC and TRAP, CSRR and CSRW
(spec/17_ref_a_c.md R332 to R344, spec/18_ref_d_l.md R357, R366, R367, spec/19_ref_m_r.md R369, R385, R387,
spec/20_ref_s_t.md R404). -/

namespace Sys2Proof.Machine

/-! ### CMP and predicates -/

/-- CMP of `n` words (R338): both predicates are written even under a false guard; guard 0b1000 leaves them. -/
def State.compare (s : State) (g : BitVec 4) (n : Nat) (pd pq : BitVec 3) (c : Bool) : State :=
  if g = 8 then s.advance n
  else
    let t := s.pl.guard g
    (s.modPl fun p => (p.wp pd (t && c)).wp pq (t && !c)).advance n

/-- CMP, register form (R338). -/
def execCmpReg (o : CmpR) (s : State) : Out :=
  .next (s.compare o.g 1 o.pd o.pq (cmpCond o.cc (s.pl.rg o.a) (s.pl.rg o.b)))

/-- CMP, immediate form (R338). -/
def execCmpImm (o : CmpI) (s : State) : Out :=
  .next (s.compare o.g 2 o.pd o.pq (cmpCond o.cc (s.pl.rg o.a) (o.imm.signExtend 64)))

/-- A predicate major: p[D] := t under the guard (R370). -/
def State.predOp (s : State) (g : BitVec 4) (d : BitVec 3) (t : Bool) : State :=
  if s.pl.guard g then (s.modPl fun p => p.wp d t).advance 1 else s.advance 1

/-- A predicate source of LOG, inverted by NA or NB (R369). -/
def Plane.psrc (p : Plane) (r : BitVec 3) (n : BitVec 1) : Bool := p.rp r != (n == 1)

/-- A mask source of LOG. -/
def Plane.msrc (p : Plane) (r : BitVec 3) (n : BitVec 1) : BitVec 16 := if n = 1 then ~~~(p.rm r) else p.rm r

/-- PAND (R370). -/
def execPand (o : Log) (s : State) : Out := .next (s.predOp o.g o.d (s.pl.psrc o.a o.na && s.pl.psrc o.b o.nb))

/-- POR (R370). -/
def execPor (o : Log) (s : State) : Out := .next (s.predOp o.g o.d (s.pl.psrc o.a o.na || s.pl.psrc o.b o.nb))

/-- PXOR (R370). -/
def execPxor (o : Log) (s : State) : Out := .next (s.predOp o.g o.d (s.pl.psrc o.a o.na != s.pl.psrc o.b o.nb))

/-- PNOT (R370). -/
def execPnot (o : LogN) (s : State) : Out := .next (s.predOp o.g o.d (!(s.pl.rp o.a)))

/-- A mask major: the bits whose guard mask bit is 1 (R370). -/
def State.maskOp (s : State) (g : BitVec 4) (d : BitVec 3) (t : BitVec 16) : State :=
  let k := s.pl.vguard g
  (s.modPl fun p => p.wm d ((t &&& k) ||| (p.rm d &&& ~~~k))).advance 1

/-- MAND (R370). -/
def execMand (o : Log) (s : State) : Out := .next (s.maskOp o.g o.d (s.pl.msrc o.a o.na &&& s.pl.msrc o.b o.nb))

/-- MOR (R370). -/
def execMor (o : Log) (s : State) : Out := .next (s.maskOp o.g o.d (s.pl.msrc o.a o.na ||| s.pl.msrc o.b o.nb))

/-- MXOR (R370). -/
def execMxor (o : Log) (s : State) : Out := .next (s.maskOp o.g o.d (s.pl.msrc o.a o.na ^^^ s.pl.msrc o.b o.nb))

/-- MNOT (R370). -/
def execMnot (o : LogN) (s : State) : Out := .next (s.maskOp o.g o.d (~~~(s.pl.rm o.a)))

/-! ### Transfers (R113, R332, R334, R357, R387) -/

/-- The instruction word of an instruction, for the trap value of a decode trap (R116). -/
def word0Of (i : Instr) : Word := match encode i with | some w => w.1.setWidth 64 | none => 0

/-- A transfer or loop instruction that is not the last used word of its line (R106, R113). -/
def State.misplaced (s : State) : Bool :=
  match s.lineAt s.fc s.fp with
  | some l => wordIdx s.pl.pc != linkCnt (l.word 0)
  | none => false

/-- A target that raises FETCH: bits [5:0] not 0, 0, or outside the HBM window (R112, R332). -/
def badTarget (t : Word) : Bool := t &&& 63#64 != 0 || t == 0 || !(inHbmWindow t)

/-- FETCH at a target; the spec names no trap value, so it is free. A taken transfer ends a loop (R106). -/
def State.fetchAt (s : State) (t : Word) : State :=
  let v := Config.freeWord s.freeCtr
  let s := s.bump.modPl fun p => { p with loop := if p.loop.act then p.loop.stop else p.loop }
  s.trapAt s.fc s.fp cFETCH t v t

/-- A taken transfer: execution continues at word 1 of the target, and a running loop ends (R106, R113). -/
def State.goTo (s : State) (t : Word) : State :=
  if badTarget t then s.fetchAt t
  else s.modPl fun p => { p with pc := t + 4, hold := none, loop := if p.loop.act then p.loop.stop else p.loop }

/-- A transfer with its placement rule and guard. -/
def State.transfer (s : State) (i : Instr) (g : BitVec 4) (act : State → State) : State :=
  if g = 8 then s.advance 1
  else if s.misplaced then s.trap cILLEGAL (word0Of i)
  else if s.pl.guard g then act s
  else s.advance 1

/-- BR (R332). -/
def execBr (o : Br) (s : State) : Out :=
  .next (s.transfer (.br o) o.g fun s => s.goTo (lineOf s.pl.pc + 64 * o.off.signExtend 64))

/-- JMP (R357). -/
def execJmp (o : Jmp) (s : State) : Out := .next (s.transfer (.jmp o) o.g fun s => s.goTo (s.pl.rg o.a))

/-- The link of a CALL: the next line of its line, or 0 at a chain's end (R113). -/
def State.linkAddr (s : State) : Word :=
  match s.lineAt s.fc s.fp with
  | some l => if linkEnd (l.word 0) then 0 else linkNext (lineOf s.pl.pc) (l.word 0)
  | none => 0

/-- The effect of a true CALL (R334): a bad target leaves lk as it was. -/
def State.callTo (s : State) (t : Word) : State :=
  if badTarget t then s.fetchAt t
  else
    let lk := s.linkAddr
    (s.modPl fun p => p.wg 62 lk).goTo t

/-- CALL, relative form (R334). -/
def execCallRel (o : CallR) (s : State) : Out :=
  .next (s.transfer (.callRel o) o.g fun s => s.callTo (lineOf s.pl.pc + 64 * o.off.signExtend 64))

/-- CALL, register form (R334). -/
def execCallReg (o : CallG) (s : State) : Out := .next (s.transfer (.callReg o) o.g fun s => s.callTo (s.pl.rg o.a))

/-- RET (R387). -/
def execRet (o : G0) (s : State) : Out := .next (s.transfer (.ret o) o.g fun s => s.goTo (s.pl.rg 62))

/-! ### Loops (R106 to R108, R366, R367) -/

/-- LOOP and LOOPM: a misplaced one, or one while a loop runs, raises ILLEGAL whatever its guard. -/
def State.startLoop (s : State) (i : Instr) (g : BitVec 4) (a : BitVec 6) (mod : Bool) (ns : BitVec 2) : State :=
  if g = 8 then s.advance 1
  else if s.misplaced || s.pl.loop.act then s.trap cILLEGAL (word0Of i)
  else if s.pl.guard g then
    let n := (s.pl.rg a).setWidth 32
    let ends := match s.lineAt s.fc s.fp with | some l => linkEnd (l.word 0) | none => false
    let s := s.advance 1
    s.modPl fun p =>
      { p with loop := { act := n != 0 && !ends, mod := mod, ns := ns, j := 0, n := n,
                         first := if ends then 0 else lineOf p.pc, exit := 0 } }
  else s.advance 1

/-- LOOP (R107, R367). -/
def execLoop (o : Jmp) (s : State) : Out := .next (s.startLoop (.loop o) o.g o.a false 0)

/-- LOOPM (R108, R367). -/
def execLoopm (o : LoopM) (s : State) : Out := .next (s.startLoop (.loopm o) o.g o.a true o.ns)

/-! ### NOP, BRK, SVC, TRAP -/

/-- NOP (R385). -/
def execNop (_o : G0) (s : State) : Out := .next (s.advance 1)

/-- SVC (R404). -/
def execSvc (o : Code) (s : State) : Out :=
  .next (if s.pl.guard o.g then s.trapNext cSVC (o.code.setWidth 64) else s.advance 1)

/-- TRAP (R404). -/
def execTrap (o : Code) (s : State) : Out :=
  .next (if s.pl.guard o.g then s.trapNext cTRAP (o.code.setWidth 64) else s.advance 1)

/-- The BKH bit of a VD's debug control word (R290). -/
def State.brkHalts (s : State) : Bool := match s.vd s.curVd with | some d => d.d.brkHalt | none => false

/-- BRK (R333): the trap, or with BKH = 1 the halt line, reason DEBUG, after it has completed. -/
def execBrk (o : Code) (s : State) : Out :=
  .next (
    if s.pl.guard o.g then
      if s.brkHalts then (s.advance 1).raiseHalt s.curVd 6 (o.code.setWidth 64)
      else s.trapNext cBRK (o.code.setWidth 64)
    else s.advance 1)

/-! ### CSRR, CSRW (R343, R344) -/

/-- A register marked S named in T mode raises PRIV at decode, whatever the guard (R93, R116). -/
def State.csrPriv (s : State) (num : BitVec 12) : Bool := csrS num.toNat && !s.pl.sr.smode

/-- CSRR (R344). -/
def execCsrr (o : Csr) (s : State) : Out :=
  .next (
    if o.g = 8 then s.advance 1
    else if s.csrPriv o.num then s.trap cPRIV (word0Of (.csrr o))
    else s.scalar o.g 1 o.d (s.csrRead o.num.toNat))

/-- CSRW (R344). -/
def execCsrw (o : Csr) (s : State) : Out :=
  .next (
    if o.g = 8 then s.advance 1
    else if s.csrPriv o.num then s.trap cPRIV (word0Of (.csrw o))
    else if s.pl.guard o.g then
      let x := s.pl.rg o.d
      (s.modPl fun p => p.csrWrite o.num.toNat x).advance 1
    else s.advance 1)

end Sys2Proof.Machine
end

