-- ==== Sys2Proof/Machine/Lattice.lean ====
section
/-! DEFINITION. The frontier: descriptors and their checks, slabs, columns, eligible points, the column update, ghosts, gate
additions, statistics flushes, and how a sweep is accepted and leaves (spec/03_frontier.md R38 to R52, spec/02_execution_model.md R15,
R16, spec/08_numbers.md R160, R161, spec/18_ref_d_l.md R359, R360). -/

namespace Sys2Proof.Machine

/-! ### Descriptors (R38, R39) -/

/-- The lattice fields of a descriptor: axes (one less than their number), front axis, split axis, extents, schedule, face rules,
dependence vectors, the dies of the mask ascending. -/
structure Geo where
  nax : Nat
  f : Nat
  sax : Nat
  ndv : Nat
  ext : List Nat
  sched : List Nat
  faces : List Nat
  deps : List (List Int)
  dies : List Nat
  deriving DecidableEq, Repr

/-- Component `a` of the dependence vector in a 16-bit field. -/
def depComp (d : BitVec 16) (a : Nat) : Int := (d.extractLsb' (4 * a) 4).toInt

/-- The lattice of a descriptor. -/
def geoOf (desc : List Word) : Geo :=
  let w (i : Nat) : Word := desc.getD i 0
  { nax := fld (w 0) 0 2, f := fld (w 0) 4 2, sax := fld (w 0) 6 2, ndv := fld (w 0) 8 3,
    ext := (List.range 4).map fun a => fld (w 1) (16 * a) 16,
    sched := (List.range 4).map fun a => fld (w 2) (3 * a) 3,
    faces := (List.range 8).map fun k => fld (w 2) (16 + 2 * k) 2,
    deps := (List.range 4).map fun k => (List.range 4).map fun a => depComp ((w 3).extractLsb' (16 * k) 16) a,
    dies := (List.range 8).filter fun d => (w 0).getLsbD (40 + d) }

/-- The base priority of a descriptor's point tasks. -/
def descPri (desc : List Word) : BitVec 2 := (desc.getD 0 0).extractLsb' 30 2

/-- The completion scope of a descriptor as an SCP code (R39, R213). -/
def descScope (desc : List Word) : BitVec 3 :=
  let c := (desc.getD 0 0).extractLsb' 32 3
  if c = 0 then 2 else c - 1

/-- Extent of an axis. -/
def Geo.e (g : Geo) (a : Nat) : Nat := g.ext.getD a 1

/-- Both faces of the axis are WRAP. -/
def Geo.wraps (g : Geo) (a : Nat) : Bool := g.faces.getD (2 * a) 0 == 1 && g.faces.getD (2 * a + 1) 0 == 1

/-- The axes off the front, ascending. -/
def Geo.side (g : Geo) : List Nat := (List.range 4).filter fun a => a != g.f

/-- Component `a` of the `k`-th vector. -/
def Geo.dep (g : Geo) (k a : Nat) : Int := (g.deps.getD k []).getD a 0

/-- s · d. -/
def dot (s : List Nat) (d : List Int) : Int := (List.range 4).foldl (fun x a => x + (s.getD a 0 : Int) * d.getD a 0) 0

/-! ### Slabs and columns (R41) -/

/-- The split coordinates of the `j`-th die of the mask: first and end. -/
def Geo.slab (g : Geo) (j : Nat) : Nat × Nat :=
  let e := g.e g.sax
  let b := ceilDiv e g.dies.length
  (min (j * b) e, min ((j + 1) * b) e)

/-- The width of an axis in the `j`-th slab, and its lowest coordinate. -/
def Geo.span (g : Geo) (j a : Nat) : Nat × Nat :=
  if a = g.sax then let s := g.slab j; (s.2 - s.1, s.1) else (g.e a, 0)

/-- The columns of the `j`-th slab. -/
def Geo.slabCols (g : Geo) (j : Nat) : Nat :=
  let n := g.side.foldl (fun n a => n * (g.span j a).1) 1
  if (g.span j g.sax).1 = 0 then 0 else n

/-- The first sweep column number of the `j`-th slab. -/
def Geo.firstCol (g : Geo) (j : Nat) : Nat := (List.range j).foldl (fun n i => n + g.slabCols i) 0

/-- The columns of the lattice. -/
def Geo.ncol (g : Geo) : Nat := g.firstCol g.dies.length

/-- The slab that holds a split coordinate. -/
def Geo.rankOf (g : Geo) (x : Nat) : Nat :=
  ((List.range g.dies.length).find? fun j => decide ((g.slab j).1 ≤ x ∧ x < (g.slab j).2)).getD 0

/-- The slab that holds a column. -/
def Geo.rankOfCol (g : Geo) (c : Nat) : Nat :=
  ((List.range g.dies.length).find? fun j => decide (g.firstCol j ≤ c ∧ c < g.firstCol j + g.slabCols j)).getD 0

/-- The rank of a die in the mask. -/
def Geo.rankOfDie (g : Geo) (die : Nat) : Option Nat := g.dies.findIdx? fun d => d == die

/-- The sweep column number of a point's column. -/
def Geo.colOf (g : Geo) (p : List Nat) : Nat :=
  let j := g.rankOf (p.getD g.sax 0)
  let r := g.side.foldl (fun (acc : Nat × Nat) a =>
    let s := g.span j a
    (acc.1 + acc.2 * (p.getD a 0 - s.2), acc.2 * s.1)) (0, 1)
  g.firstCol j + r.1

/-- The point of column `c` at front index `q`. -/
def Geo.pointOf (g : Geo) (c q : Nat) : List Nat :=
  let j := g.rankOfCol c
  let r := g.side.foldl (fun (acc : List (Nat × Nat) × Nat) a =>
    let s := g.span j a
    (acc.1 ++ [(a, s.2 + acc.2 % s.1)], acc.2 / s.1)) ([], c - g.firstCol j)
  (List.range 4).map fun a => if a = g.f then q else ((r.1.find? fun x => x.1 == a).map (·.2)).getD 0

/-- How far ghosts reach on either side of a slab: the largest |dk[SAX]| (R51). -/
def Geo.reach (g : Geo) : Nat := (List.range g.ndv).foldl (fun m k => max m (g.dep k g.sax).natAbs) 0

/-- The split coordinates whose columns the `j`-th die keeps as ghosts: those of other slabs within that distance of its own slab's edges
(R51). -/
def Geo.ghosts (g : Geo) (j : Nat) : List Nat :=
  if g.sax = g.f then []
  else
    let s := g.slab j
    let e := g.e g.sax
    if s.2 ≤ s.1 then []
    else
      let r := g.reach
      let low : List Int := (List.range r).map fun (i : Nat) => (s.1 : Int) - 1 - (i : Int)
      let high : List Int := (List.range r).map fun (i : Nat) => (s.2 : Int) + (i : Int)
      let xs := (low ++ high).filterMap fun (x : Int) =>
        if g.wraps g.sax then some (x % (e : Int)).toNat
        else if 0 ≤ x ∧ x < e then some x.toNat else none
      (xs.filter fun x => decide (x < s.1 ∨ s.2 ≤ x)).eraseDups

/-- The ghost columns of the `j`-th die. -/
def Geo.ghostCols (g : Geo) (j : Nat) : Nat :=
  (g.ghosts j).length * (g.side.filter fun a => a != g.sax).foldl (fun n a => n * g.e a) 1

/-! ### Checks (R40, R359) -/

/-- The frontier checks, codes 1 to 10, the first that fails. -/
def frontierBad (desc : List Word) (d : VdDef) : Option Nat :=
  let w (i : Nat) : Word := desc.getD i 0
  let g := geoOf desc
  let above := (List.range 4).filter fun a => decide (g.nax < a)
  let s (a : Nat) : Nat := g.sched.getD a 0
  if !(decide (g.f ≤ g.nax ∧ g.sax ≤ g.nax) && (g.sax != g.f || g.dies.length == 1)) then some 1
  else if !((List.range 4).all fun a => if a ≤ g.nax then decide (1 ≤ g.e a) else g.e a == 1) then some 2
  else if !(decide (1 ≤ s g.f) && (List.range 4).all fun a => s a == 0 || (decide (a ≤ g.nax) && !(g.wraps a))) then some 3
  else if !(decide (g.ndv ≤ 4) && (List.range 4).all fun k =>
      if k < g.ndv then (List.range 4).all (fun a => g.dep k a != -8 && (decide (a ≤ g.nax) || g.dep k a == 0)) &&
        decide (1 ≤ dot g.sched (g.deps.getD k []) ∧ 0 ≤ g.dep k g.f)
      else (List.range 4).all fun a => g.dep k a == 0) then some 4
  else if !(g.faces.all (· != 3) && (List.range 4).all (fun a =>
        (g.faces.getD (2 * a) 0 == 1) == (g.faces.getD (2 * a + 1) 0 == 1) &&
        (a != g.f || g.faces.getD (2 * a) 0 != 1)) &&
      g.faces.getD (2 * g.f + 1) 0 == 0 &&
      above.all fun a => g.faces.getD (2 * a) 0 == 0 && g.faces.getD (2 * a + 1) 0 == 0) then some 5
  else if !((List.range g.dies.length).all fun j => decide (g.slabCols j ≤ 4096 ∧ g.ghostCols j ≤ 1024)) then some 6
  else if !(!g.dies.isEmpty && g.dies.all fun x => d.hanks.any fun h => h / 8 == x) then some 7
  else if 5 < fld (w 0) 32 3 then some 8
  else if w 13 == 0 || w 13 &&& 63 != 0 then some 9
  else if w 0 &&& 0xFFFF00F83FFFF80C#64 != 0 || w 2 &&& 0xFFFFFFFF0000F000#64 != 0 then some 10
  else none

/-- A completion action's words pass R299. -/
def actionOk (w6 w7 : Word) : Bool :=
  let act := fld w6 60 4
  decide (act ≤ 4) && w6 &&& 0x0FFFFFFFFFC0FFF8#64 == 0 &&
  (if act = 3 then w7 &&& 0xFFFFFFFF0000F000#64 == 0 else if act = 4 then w7 &&& 0xFFFFFFFF00000000#64 == 0 else true)

/-- The checks of codes 20 to 23 (R359). -/
def launchBad (desc : List Word) (d : VdDef) : Option Nat :=
  let w (i : Nat) : Word := desc.getD i 0
  let entry := (w 4).extractLsb' 0 48
  let lease := fld (w 4) 48 8
  if entry == 0 || entry.extractLsb' 0 6 != 0 then some 20
  else if 128 < lease || d.lmax < lease then some 21
  else if (w 4).extractLsb' 56 8 != 0 || w 14 != 0 || w 15 != 0 then some 22
  else if !(actionOk (w 6) (w 7)) then some 23
  else none

/-- Reads a template and checks it (R66): codes 16 to 19. -/
def State.templateBad (s : State) (v : Nat) (d : VdDef) (desc : List Word) : Option Nat × State :=
  let a := desc.getD 5 0
  if a = 0 then (none, s)
  else if a &&& 7 ≠ 0 then (some 16, s)
  else
    match s.readTemplate v a.toNat with
    | (none, s) => (some 16, s)
    | (some c, s) => (c.badTemplate d ((desc.getD 0 0).extractLsb' 40 8), s)

/-- Every check of a descriptor (R359): the first code that fails. -/
def State.checkDesc (s : State) (v : Nat) (d : VdDef) (desc : List Word) : Option Nat × State :=
  match frontierBad desc d with
  | some c => (some c, s)
  | none =>
    match s.templateBad v d desc with
    | (some c, s) => (some c, s)
    | (none, s) => (launchBad desc d, s)

/-! ### Sweeps -/

/-- A sweep's place in the turn order (R45). -/
def Sweep.turn (x : Sweep) : Nat := 4096 * x.vd + x.swid.toNat

/-- Rewrites the sweep with a key, if it is still there. -/
def State.modSweepKey (s : State) (key : Nat) (f : Sweep → Sweep) : State :=
  s.modFr fun r => { r with sweeps := r.sweeps.map fun x => if x.key == key then f x else x }

/-- The running sweep of a VD under an id. -/
def State.sweep (s : State) (v : Nat) (id : BitVec 12) : Option Sweep := s.fr.sweeps.find? fun x => x.vd == v && x.swid == id

/-- Rewrites the sweep of a VD under an id. -/
def State.modSweep (s : State) (v : Nat) (id : BitVec 12) (f : Sweep → Sweep) : State :=
  s.modFr fun r => { r with sweeps := r.sweeps.map fun x => if x.vd == v && x.swid == id then f x else x }

/-- The completion scope of a running sweep, or device scope (R355). -/
def State.sweepScope (s : State) (v : Nat) (id : BitVec 12) : BitVec 3 :=
  match s.sweep v id with | some x => descScope x.desc | none => 2

/-- Points of the lattice. -/
def Geo.points (g : Geo) : Nat := g.ext.foldl (· * ·) 1

/-- A sweep just accepted (R42, R50): every H, W, I and gate counter 0. -/
def Sweep.fresh (key v : Nat) (id : BitVec 12) (desc : List Word) (src : SweepSrc) : Sweep :=
  { key := key, vd := v, swid := id, desc := desc, st := .running, done := 0, cols := [], ghosts := [], gates := [], pend := [], src := src,
    acted := false }

/-- A free sweep id of a VD, by free choice (R15). -/
def State.freeSweepId (s : State) (v : Nat) : Option (BitVec 12) :=
  let used := sortNat (s.fr.sweeps.filterMap fun x => if x.vd == v then some x.swid.toNat else none)
  if used.length < 4095 then some (BitVec.ofNat 12 (nthFree (Config.freePick s.freeCtr % (4095 - used.length)) used)) else none

/-- A checked sweep takes a free id and runs, or waits in the front end (R15, R360). -/
def State.acceptSweep (s : State) (v : Nat) (desc : List Word) (src : SweepSrc) : Option (BitVec 12) × State :=
  match s.freeSweepId v with
  | some id => (some id, s.bump.modFr fun f => { f with sweeps := f.sweeps ++ [Sweep.fresh f.nextSweep v id desc src], nextSweep := f.nextSweep + 1 })
  | none => (none, s.modFr fun f => { f with waiting := f.waiting ++ [{ vd := v, desc := desc, src := src }] })

/-! ### Done, eligible (R42 to R44) -/

/-- The point at front index `q` is done in a column's frontier (R42). -/
def Col.isDone (c : Col) (q : Nat) : Bool := decide (q < c.h) || (decide (c.h < q ∧ q ≤ c.h + 32) && c.w.getLsbD (q - c.h - 1))

/-- The point at front index `q` is fired and not done. -/
def Col.inFlight (c : Col) (q : Nat) : Bool := decide (c.h ≤ q ∧ q ≤ c.h + 32) && c.i.getLsbD (q - c.h)

/-- The frontier of a column as a die sees it: its own, or its ghost. -/
def Sweep.colAt (x : Sweep) (g : Geo) (die c : Nat) : Col :=
  if g.rankOfDie die = some (g.rankOfCol c) then tgetD x.cols c Col.reset else tgetD x.ghosts (65536 * die + c) Col.reset

/-- A gate counter as a die holds it. -/
def Sweep.gate (x : Sweep) (die face : Nat) : Nat := tgetD x.gates (8 * die + face) 0

/-- The predecessor test (R44) of point `p` for one vector, at a die. -/
def Sweep.passes (x : Sweep) (g : Geo) (die : Nat) (p : List Nat) (d : List Int) : Bool :=
  let q := (List.range 4).map fun a =>
    let v : Int := (p.getD a 0 : Int) - d.getD a 0
    if g.wraps a then v % g.e a else v
  let at_ (a : Nat) : Int := q.getD a 0
  if (List.range 4).all fun a => decide (0 ≤ at_ a ∧ at_ a < g.e a) then
    let n := q.map Int.toNat
    (x.colAt g die (g.colOf n)).isDone (n.getD g.f 0)
  else
    (List.range 8).all fun k =>
      let a := k / 2
      let beyond := if k % 2 = 0 then decide (at_ a < 0) else decide ((g.e a : Int) ≤ at_ a)
      !beyond || g.faces.getD k 0 != 2 ||
        (if k = 2 * g.f then decide (1 ≤ x.gate die k) else decide (at_ g.f < (x.gate die k : Int)))

/-- A point may fire on its die, but for the pool (R43). -/
def Sweep.eligible (x : Sweep) (g : Geo) (die c q : Nat) : Bool :=
  let k := tgetD x.cols c Col.reset
  decide (q < g.e g.f) && decide (q ≤ k.h + 32) && !(k.isDone q) && !(k.inFlight q) &&
  (List.range g.ndv).all fun i => x.passes g die (g.pointOf c q) (g.deps.getD i [])

/-- The eligible points of a sweep on a die: (s · p, column, front index). -/
def Sweep.candidates (x : Sweep) (g : Geo) (die : Nat) : List (Nat × Nat × Nat) :=
  match g.rankOfDie die with
  | none => []
  | some j =>
    (List.range (g.slabCols j)).flatMap fun i =>
      let c := g.firstCol j + i
      let h := (tgetD x.cols c Col.reset).h
      ((List.range 33).filter fun n => x.eligible g die c (h + n)).map fun n =>
        ((dot g.sched ((g.pointOf c (h + n)).map Int.ofNat)).toNat, c, h + n)

/-- The eligible point that fires first: the smallest s · p, then the smallest column (R45). -/
def firstOf (ps : List (Nat × Nat × Nat)) : Option (Nat × Nat × Nat) :=
  ps.foldl (fun best p =>
    match best with
    | none => some p
    | some b => if p.1 < b.1 then some p else some b) none

/-! ### The column update (R47), edge messages (R51) -/

/-- The run of W bits that are set from position 0, one more than their number: how far H advances. -/
def runUp (w : BitVec 32) (n : Nat) : Nat → Nat
  | 0 => n
  | fuel + 1 => if n ≤ 32 && w.getLsbD (n - 1) then runUp w (n + 1) fuel else n

/-- The update of a column when its point at front index `q` exits (R47). -/
def Col.exit (c : Col) (q : Nat) : Col :=
  let j := q - c.h
  let i := c.i &&& ~~~(1#33 <<< j)
  if j = 0 then
    let n := runUp c.w 1 33
    { h := c.h + n, w := c.w >>> n, i := i >>> n }
  else { c with w := c.w ||| (1#32 <<< (j - 1)), i := i }

/-- Point coordinates as a word, and back (R19 word 1). -/
def pointWord (p : List Nat) : Word :=
  BitVec.ofNat 64 (p.getD 0 0 + 65536 * p.getD 1 0 + 4294967296 * p.getD 2 0 + 281474976710656 * p.getD 3 0)

/-- The coordinates in a word. -/
def wordPoint (w : Word) : List Nat := (List.range 4).map fun a => fld w (16 * a) 16

/-- Edge messages of a changed column to the dies that hold it as a ghost (R51). -/
def State.sendEdges (s : State) (x : Sweep) (g : Geo) (c : Nat) (k : Col) : State :=
  let j := g.rankOfCol c
  let coord := (g.pointOf c 0).getD g.sax 0
  let dsts := (List.range g.dies.length).filter fun r => r != j && (g.ghosts r).contains coord
  s.modFr fun f =>
    { f with edges := f.edges ++ dsts.map fun r =>
        { key := x.key, src := g.dies.getD j 0, dst := g.dies.getD r 0, vd := x.vd, swid := x.swid, col := c, h := k.h, w := k.w } }

/-! ### Statistics flush (R160, R161) -/

/-- Adds one count to a word of the statistics area, saturating: false where it faults. `q`: at a freeze, whose fault makes the VD unsaveable
(R286). -/
def State.flushWord (s : State) (q : Bool) (v a n : Nat) : Bool × State :=
  if n = 0 then (true, s)
  else
    match devReadGo s q v (blocks a 8) with
    | (.error _, s) => (false, s)
    | (.ok bs, s) =>
      let r := devWriteGo s q v (wordBytes (BitVec.ofNat 64 (min (leNat bs + n) 18446744073709551615))) (blocks a 8)
      (r.1.isNone, r.2)

/-- Flushes one entry; a count whose write faults is kept. -/
def State.flushEntry (s : State) (q : Bool) (v base id : Nat) (t : Stat) : State :=
  let one (s : State) (off n : Nat) : Nat × State :=
    match s.flushWord q v (base + 32 * id + off) n with
    | (true, s) => (0, s)
    | (false, s) => (n, s)
  let r0 := one s 0 t.sat
  let r1 := one r0.2 8 t.flush
  let r2 := one r1.2 16 t.nan
  let r3 := one r2.2 24 t.inf
  let left : Stat := { sat := r0.1, flush := r1.1, nan := r2.1, inf := r3.1 }
  r3.2.modVd v fun d => { d with stats := if left = Stat.reset then terase d.stats id else tset d.stats id left }

/-- A flush of a VD's statistics with a release at a scope (R160, R161). -/
def State.flushStats (s : State) (v : Nat) (scp : BitVec 3) (q : Bool) : State :=
  match s.vd v with
  | none => s
  | some d => (d.stats.foldl (fun s e => s.flushEntry q v d.d.stat e.1 e.2) s).clipped v scp

/-! ### Completion (R16, R49) -/

/-- The completion action's code (R299). -/
def Sweep.act (x : Sweep) : Nat := fld (x.desc.getD 6 0) 60 4

/-- A sweep leaves: its id is free (R15). -/
def State.freeSweep (s : State) (v : Nat) (id : BitVec 12) : State :=
  s.modFr fun f => { f with sweeps := f.sweeps.filter fun x => !(x.vd == v && x.swid == id) }

/-- The order in which sweeps complete is the order of the list's completing ones: a sweep that completes goes to its end. -/
def State.toEnd (s : State) (x : Sweep) : State :=
  s.modFr fun f => { f with sweeps := f.sweeps.filter (fun y => !(y.vd == x.vd && y.swid == x.swid)) ++ [x] }

/-- A sweep whose points are all done completes; with no action to perform and nobody to tell, it ends at once (R16, R299). In a freeze it
takes its place in that order, and its action waits for the restore. -/
def State.completeSweep (s : State) (x : Sweep) : State :=
  if x.st = .running then
    if x.act = 0 && x.src == .launch then (s.flushStats x.vd (descScope x.desc) false).freeSweep x.vd x.swid
    else s.toEnd { x with st := .completing }
  else s.toEnd x

/-- An entry tells of a sweep that is done. -/
def Post.ofSweep (p : Post) (v : Nat) (id : BitVec 12) : Bool := p.vd == v && p.swid == id.toNat && fld p.w0 60 4 == 0 && p.swid != 0xFFF

/-- An operation outside the package that delivers the completion action of the sweep with a key. -/
def Who.delivers (w : Who) (key : Nat) : Bool :=
  match w with
  | .action k => k == key
  | .full _ _ fin => fin == some key
  | .elem _ _ _ _ => false | .mdadd _ _ => false | .copy _ _ => false | .load => false | .gate => false

/-- A sweep's completion action, or a post that tells of it, is still on its way (R299). -/
def State.delivering (s : State) (x : Sweep) : Bool :=
  (s.fr.posts.any fun p => p.ofSweep x.vd x.swid) || (s.fr.decs.any fun d => d.fin == some x.key) ||
  (s.fr.gadds.any fun a => a.fin == some x.key) || (s.fab.opens.any fun o => o.who.delivers x.key) ||
  (s.fab.waits.any fun w => w.2.2.delivers x.key) || s.io.ops.any fun o => o.who.delivers x.key

/-- A sweep whose action has been delivered leaves, and its id is free (R15, R299). -/
def State.endSweep (s : State) (key : Nat) : State :=
  match s.fr.sweeps.find? fun x => x.key == key with
  | some x => if x.acted && !(s.delivering x) then s.freeSweep x.vd x.swid else s
  | none => s

/-- What had carried the action of a sweep, if of one, has arrived. -/
def State.endSweep? (s : State) (fin : Option Nat) : State := match fin with | some key => s.endSweep key | none => s

/-- The EXIT of a point task updates its column (R47), tells the neighbours (R51), and may complete the sweep. -/
def State.exitPoint (s : State) (t : Task) : State :=
  match s.sweep t.vd t.swid with
  | none => s
  | some x =>
    let g := geoOf x.desc
    let p := wordPoint t.orig
    let c := g.colOf p
    let old := tgetD x.cols c Col.reset
    let k := old.exit (p.getD g.f 0)
    let x := { x with cols := tset x.cols c k, done := x.done + 1 }
    let s := s.modSweep t.vd t.swid fun _ => x
    let s := if k.h = old.h && k.w = old.w then s else s.sendEdges x g c k
    if x.done = g.points then s.completeSweep x else s

/-- The I bit of a point is cleared: the point is unfired again (R37). -/
def State.unfire (s : State) (t : Task) : State :=
  s.modSweep t.vd t.swid fun x =>
    let g := geoOf x.desc
    let p := wordPoint t.orig
    let c := g.colOf p
    let k := tgetD x.cols c Col.reset
    { x with cols := tset x.cols c { k with i := k.i &&& ~~~(1#33 <<< (p.getD g.f 0 - k.h)) } }

/-! ### Gates (R50) -/

/-- A gate addition reaches the launch front end: stray without a sweep, kept while it is frozen, sent to each die otherwise; `fin`: the sweep
whose completion action it is. One that the front end has sent on belongs to the sweep that it named there, and to no later one with its
id (notes/assumptions/90.md). -/
def State.gateAdd (s : State) (fin : Option Nat) (v : Nat) (id : BitVec 12) (face amount : Nat) : State :=
  match s.sweep v id with
  | none => if amount = 0 then s else s.count v 6 7 1
  | some x =>
    if amount = 0 then s
    else if x.st = .frozen then
      s.modSweep v id fun x => { x with pend := tset x.pend face (min 65535 (tgetD x.pend face 0 + amount)) }
    else
      s.modFr fun f =>
        { f with gadds := f.gadds ++ (geoOf x.desc).dies.map fun d =>
            { key := x.key, fin := fin, vd := v, swid := id, die := d, face := face, amount := amount } }

end Sys2Proof.Machine
end

