-- ==== Sys2Proof/Machine/Order.lean ====
section
/-! DEFINITION. FENCE, FLUSHP, SHACQ, SHREL, WAIT and the tag majors (spec/11_memory_model.md R216, R217, R230,
spec/18_ref_d_l.md R348, R349, R353, spec/20_ref_s_t.md R393, R405 to R408, spec/22_ref_vn_x.md R450, R451), with the lead times
of booked copies (spec/04_calendars.md R88). -/

namespace Sys2Proof.Machine

/-! ### FENCE and FLUSHP -/

/-- Holds until the plane's earlier accesses that satisfy `p` have performed at scope `scp`, clipped or trapped by R228; then the
instruction completes. -/
def State.barrier (s : State) (scp : BitVec 3) (p : Access → Bool) : State :=
  match s.vd s.curVd with
  | none => s
  | some d =>
    match scopeOf d.d scp with
    | .error t => s.trap cSCOPE t
    | .ok (scp, clipped) =>
      let wait := s.pl.acc.filter fun a => p a && !(a.doneAt scp)
      if wait.isEmpty then (if clipped then s.clip s.curVd else s).advance 1
      else s.holdOn (.accs (wait.map (·.id)) scp)

/-- FENCE (R217, R349). -/
def execFence (o : Fence) (s : State) : Out :=
  .next (if s.pl.guard o.g then s.barrier o.scp fun a => a.kind.classed && o.m.getLsbD a.cls.toNat else s.advance 1)

/-- The access is a posted write (R215, R216): an FPUT is not (R353). -/
def Access.isPosted (a : Access) (c : Nat) : Bool := a.kind.isStore && a.posted c

/-- FLUSHP (R216, R353). -/
def execFlushp (o : Flushp) (s : State) : Out :=
  .next (if s.pl.guard o.g then s.barrier o.scp fun a => a.isPosted s.fc else s.advance 1)

/-! ### SHACQ and SHREL -/

/-- A VD is a party of the window. -/
def Window.party (w : Window) (v : Nat) : Bool := w.a == v || w.b == v

/-- The share window of VD `v` that an address lies in, by its number (R230, R269): both stages map the address to a frame of the window's
domain. An address that they do not map lies in none (notes/assumptions/95.md). -/
def State.windowAt (s : State) (v : Nat) (va : Word) : Option Nat :=
  if inHbmWindow va then
    match (s.walkQ true v va .read).1 with
    | .ok e =>
      let dom := s.hbm.domOf (e.dpa va)
      if dom < 256 then none else if (tget s.hbm.wins (dom - 256)).any fun w => w.party v then some (dom - 256) else none
    | _ => none
  else none

/-- The access of a SHREL or a SHACQ that is under way. -/
def AccKind.isShare (k : AccKind) : Bool := match k with | .shrel _ _ => true | .shacq _ _ => true | _ => false

/-- SHREL and SHACQ (R393): the window test, the hold, the access at the home agent, the result. The access holds no bytes. -/
def State.shareAt (s : State) (o : DA) (mk : Nat → AccKind) (ar : BitVec 2) (wait : List Access) : State :=
  if s.pl.guard o.g then
    match s.pl.mine AccKind.isShare with
    | some a =>
      if a.performed then
        (s.modPl fun x => (x.dropAccess a).wg o.d (leWord ((a.elems.head?.map (·.res)).getD []))).advance 1
      else s.holdOn (.accs [a.id] 0)
    | none =>
      let va := s.pl.rg o.a
      match s.windowAt s.curVd va with
      | none => s.trap cPERM va
      | some w =>
        if wait.isEmpty then s.startAccess 1 (mk w) 0 ar 4 [mkElem 0 [0] va 1 0 []]
        else s.holdOn (.accs (wait.map (·.id)) 4)
  else s.advance 1

/-- SHACQ (R230, R393): an acquire at system scope. -/
def execShacq (o : DA) (s : State) : Out := .next (s.shareAt o (.shacq o.d) 1 [])

/-- SHREL (R230, R393). -/
def execShrel (o : DA) (s : State) : Out :=
  .next (s.shareAt o (.shrel o.d) 2 (s.pl.acc.filter fun a => !a.kind.isShare && !(a.doneAt 4)))

/-! ### Lead times (R88) -/

/-- The bin of a lead time, counters 12 to 19. -/
def leadBin (n : Nat) : Nat :=
  if n = 0 then 12 else if n = 1 then 13 else if n ≤ 3 then 14 else if n ≤ 7 then 15 else if n ≤ 15 then 16 else if n ≤ 63 then 17
  else if n ≤ 255 then 18 else 19

/-- The executing task's booked copies that nothing covered yet. -/
def State.leads (s : State) : List Lead := match s.curTask with | some t => t.leads | none => []

/-- The executing task's booked copies that satisfy `p` are covered by the instruction that issues now. -/
def State.cover (s : State) (p : Lead → Bool) : State :=
  let v := s.curVd
  let hit := s.leads.filter p
  let s := hit.foldl (fun s l => s.count v 0 (match l.done with | some t => leadBin (s.now - t) | none => 12) 1) s
  match s.pl.task with
  | some key => s.modTask key fun t => { t with leads := t.leads.filter fun l => !(p l) }
  | none => s

/-- A mask covers the copy that names a tag in it. -/
def Lead.inMask (m : Word) (l : Lead) : Bool := match l.tag with | some t => m.getLsbD t.toNat | none => false

/-! ### WAIT and the tags -/

/-- WAIT with thresholds (R451); a copy threshold of `cp` covers every booked copy but the `cp` issued last. -/
def State.waitAt (s : State) (g : BitVec 4) (n ld st cp mx : Nat) : State :=
  if s.pl.guard g then
    let ids := (s.leads.take (s.leads.length - cp)).map (·.id)
    let s := if cp < 63 then s.cover fun l => ids.contains l.id else s
    let oc := s.pl.oc
    if oc.ldc.toNat ≤ ld ∧ oc.stc.toNat ≤ st ∧ oc.cpc.toNat ≤ cp ∧ oc.mxc.toNat ≤ mx then s.advance n
    else s.holdOn (.counts mx cp st ld)
  else s.advance n

/-- WAIT, register form (R450). -/
def execWaitReg (o : A1) (s : State) : Out :=
  let x := s.pl.rg o.a
  let f (i : Nat) : Nat := (x.extractLsb' i 6).toNat
  .next (s.waitAt o.g 1 (f 0) (f 6) (f 12) (f 18))

/-- WAIT, immediate form (R450). -/
def execWaitImm (o : WaitI) (s : State) : Out := .next (s.waitAt o.g 2 o.ldc.toNat o.stc.toNat o.cpc.toNat o.mxc.toNat)

/-- The tags that outstanding copies of the executing task name (R408). -/
def State.named (s : State) : Word := (s.core s.fc).namedTags (s.pl.task.getD 0)

/-- TWANY (R407, R408). -/
def execTwany (o : DA) (s : State) : Out :=
  .next (
    if s.pl.guard o.g then
      let m := s.pl.rg o.a
      let hit := s.pl.sr.tags &&& m
      if hit ≠ 0 ∨ m = 0 then ((s.cover (Lead.inMask m)).modPl fun x => x.wg o.d hit).advance 1
      else if s.named &&& m = 0 then s.trap cILLEGAL m
      else (s.cover (Lead.inMask m)).holdOn (.tagAny m)
    else s.advance 1)

/-- TWALL (R407, R408). -/
def execTwall (o : DA) (s : State) : Out :=
  .next (
    if s.pl.guard o.g then
      let m := s.pl.rg o.a
      if s.pl.sr.tags &&& m = m then ((s.cover (Lead.inMask m)).modPl fun x => x.wg o.d m).advance 1
      else if m &&& ~~~s.pl.sr.tags &&& ~~~s.named ≠ 0 then s.trap cILLEGAL m
      else (s.cover (Lead.inMask m)).holdOn (.tagAll m)
    else s.advance 1)

/-- The index of the lowest set bit, or 64. -/
def lowestBit (x : Word) : Nat := ((List.range 64).find? fun i => x.getLsbD i).getD 64

/-- TFIRST (R406). -/
def execTfirst (o : DA) (s : State) : Out :=
  .next (s.scalar o.g 1 o.d (BitVec.ofNat 64 (lowestBit (s.pl.sr.tags &&& s.pl.rg o.a))))

/-- TCLR (R406). -/
def execTclr (o : A1) (s : State) : Out :=
  .next (
    if s.pl.guard o.g then
      let m := s.pl.rg o.a
      (s.modPl fun x => { x with sr := { x.sr with tags := x.sr.tags &&& ~~~m } }).advance 1
    else s.advance 1)

end Sys2Proof.Machine
end

