-- ==== Sys2Proof/Machine/Launch.lean ====
section
/-! DEFINITION. The tasking instructions: SPAWN, SIGNAL, SUSP, EXIT, FGET, FPUT, LAUNCH, FRQ, FRGATE (spec/18_ref_d_l.md R347,
R350 to R360, spec/20_ref_s_t.md R394 to R396, R403, spec/02_execution_model.md R24, R28, spec/03_frontier.md R47, R50, R56, R57). -/

namespace Sys2Proof.Machine

/-! ### Releases -/

/-- A release at a scope by the executing instruction: it holds until every earlier access has performed there, then acts. -/
def State.releaseThen (s : State) (scp : BitVec 3) (clipped : Bool) (act : State → State) : State :=
  let wait := s.pl.acc.filter fun a => !(a.doneAt scp)
  if wait.isEmpty then act (if clipped then s.clip s.curVd else s) else s.holdOn (.accs (wait.map (·.id)) scp)

/-- A scope under a VD's ceiling, for a release that never traps (R228): the scope performed, and whether it is clipped. -/
def underCeil (d : VdDef) (scp : BitVec 3) : BitVec 3 × Bool := if d.ceil.toNat < scp.toNat then (d.ceil, true) else (scp, false)

/-- A release whose scope the instruction names: SCOPE, or the release and then `act` (R228). -/
def State.releaseOr (s : State) (d : VdDef) (scp : BitVec 3) (act : State → State) : State :=
  match scopeOf d scp with
  | .error t => s.trap cSCOPE t
  | .ok (scp, clipped) => s.releaseThen scp clipped act

/-! ### SPAWN (R395, R396) -/

/-- A free record for a spawned task: never the one at VA 0 (R396). -/
def State.spawnIdx (s : State) (v : Nat) (d : Vd) : Option Nat :=
  let lim := d.d.poolCount - 16
  let used := (s.usedIdx v).filter (· < lim)
  let used := if d.d.poolBase = 0 && !used.contains 0 then 0 :: used else used
  if used.length < lim then some (nthFree (Config.freePick s.freeCtr % (lim - used.length)) used) else none

/-- SPAWN with checked operands. -/
def State.spawnAt (s : State) (o : Spawn) (d : Vd) : State :=
  let rows := s.pl.rows
  let done (s : State) (w : Word) : State := (s.modPl fun p => p.wg o.d w).advance 1
  if d.d.lmax < rows then done s 0x8000000000000001
  else
    match s.spawnIdx s.curVd d with
    | none => done s 0
    | some idx =>
      s.releaseOr d.d 2 fun s =>
        let x := s.pl
        let t := Task.fresh s.curVd idx 1 o.pri (x.rg o.b).toNat (dieOf s.fc) x.sr.sweep x.sr.point rows
        done (s.bump.createTask t (x.rg o.a + 4) x.carried) (BitVec.ofNat 64 (taskVa d.d idx))

/-- SPAWN (R396). -/
def execSpawn (o : Spawn) (s : State) : Out :=
  let ga := s.pl.rg o.a
  let gb := s.pl.rg o.b
  .next (
    if s.pl.guard o.g then
      if ga &&& 63 ≠ 0 then s.trap cALIGN ga
      else if ga = 0 || !(inHbmWindow ga) then s.trap cPERM ga
      else if 32767 < gb.toNat then s.trap cILLEGAL gb
      else match s.vd s.curVd with
        | some d => s.spawnAt o d
        | none => s
    else s.advance 1)

/-! ### SIGNAL (R394) -/

/-- SIGNAL (R394): a decrement leaves after the release. -/
def execSignal (o : A1) (s : State) : Out :=
  let ga := s.pl.rg o.a
  .next (
    if s.pl.guard o.g then
      match s.vd s.curVd with
      | none => s
      | some d =>
        if ga &&& 63 ≠ 0 || (s.keyOfVa s.curVd ga.toNat).isNone then s.trap cPERM ga
        else s.releaseOr d.d 2 fun s => (s.sendDec none s.curVd ga.toNat).advance 1
    else s.advance 1)

/-! ### SUSP (R403) and EXIT (R347) -/

/-- SUSP or FGET in a running loop raises ILLEGAL whatever the guard (R106). -/
def State.inLoop (s : State) (i : Instr) (g : BitVec 4) (act : State → State) : State :=
  if g = 8 then s.advance 1
  else if s.pl.loop.act then s.trap cILLEGAL (word0Of i)
  else if s.pl.guard g then act s
  else s.advance 1

/-- SUSP (R403, R24): holds until every count is zero, then the task leaves its plane. -/
def execSusp (o : G0) (s : State) : Out :=
  .next (s.inLoop (.susp o) o.g fun s =>
    if s.pl.oc.zero then s.suspendTo s.fc s.fp (s.nextPc 1) else s.holdOn (.counts 0 0 0 0))

/-- The end of a task (R347): its release, its point or trapped task, its bookings, its record, its plane. -/
def State.exitTask (s : State) (key : Nat) (t : Task) : State :=
  let s := s.modPl fun p => { p with loop := p.loop.stop }
  let pc := s.nextPc 1
  let gs := s.pl.carried
  let c := s.fc
  let p := s.fp
  let s := s.clipped t.vd (if t.kind = 0 then s.sweepScope t.vd t.swid else 2)
  let s := if t.kind = 0 then s.exitPoint t
    else match t.trapped with
      | some k => s.killTask k 17
      | none => s
  ((s.cancelOwned key).finishTask key pc gs).freePlane c p

/-- EXIT (R347). -/
def execExit (o : G0) (s : State) : Out :=
  .next (
    if s.pl.guard o.g then
      match s.pl.task, s.curTask with
      | some key, some t => if s.pl.oc.zero then s.exitTask key t else s.holdOn (.counts 0 0 0 0)
      | _, _ => s
    else s.advance 1)

/-! ### FGET and FPUT (R350 to R352) -/

/-- The scope of a future by its address (R226). -/
def State.futureScope (s : State) (va : Word) : BitVec 3 :=
  match (winOf va).own s.fab.node with | .host _ _ => 4 | .nodeHbm _ _ => 3 | _ => 2

/-- A future lies in one of the windows of R350: ATOMIC otherwise. -/
def futurePlace (_d : Vd) (es : List Elem) : Option (Nat × Word) :=
  es.findSome? fun e =>
    match e.loc with
    | none => none
    | some (.rhbm _ _) => none
    | some (.host _ _) => none
    | some _ => some (cATOMIC, e.va)

/-- FGET's acquire is checked against the ceiling before the access (R228); it is counted when it acquires. -/
def fgetPlace (scp : BitVec 3) (d : Vd) (es : List Elem) : Option (Nat × Word) :=
  match futurePlace d es with
  | some x => some x
  | none => match scopeOf d.d scp with | .error t => some (cSCOPE, t) | .ok _ => none

/-- The access is an FGET's. -/
def AccKind.isFget (k : AccKind) : Bool := match k with | .fget _ => true | _ => false

/-- The access is an FPUT's. -/
def AccKind.isFput (k : AccKind) : Bool := match k with | .fput => true | _ => false

/-- A performed FGET: a value, a suspension, or ATOMIC (R352). -/
def State.fgetDone (s : State) (d : BitVec 6) (fa : Word) (a : Access) : State :=
  let bs := (a.elems.head?.map (·.res)).getD []
  let own := match a.elems.head?.bind (·.loc) with | some (.hbm _) => true | _ => false
  if leNat ((bs.drop 8).take 8) ≠ 0 then
    ((s.clipped s.curVd (s.futureScope fa)).modPl fun x => (x.dropAccess a).wg d (leWord (bs.take 8))).advance 1
  else if !own then (s.modPl fun x => x.dropAccess a).trap cATOMIC (fa ||| 1)
  else if bs.getD 16 0 = 2 then (s.modPl fun x => x.dropAccess a).trap cATOMIC (fa ||| 2)
  else if s.pl.oc.zero then s.suspendTo s.fc s.fp s.pl.pc
  else s.holdOn (.counts 0 0 0 0)

/-- FGET (R352). -/
def execFget (o : DA) (s : State) : Out :=
  let fa := s.pl.rg o.a
  .next (s.inLoop (.fget o) o.g fun s =>
    match s.pl.mine AccKind.isFget with
    | some a => if a.performed then s.fgetDone o.d fa a else s.holdOn (.accs [a.id] 0)
    | none =>
      if fa &&& 15 ≠ 0 then s.trap cALIGN fa
      else s.doAccess 1 (.fget o.d) 0 0 0 none (fgetPlace (s.futureScope fa)) [mkElem 0 [0] fa 16 (lowMask 16) []])

/-- FPUT (R352): it holds until FULL has been written at its home. -/
def execFput (o : Fput) (s : State) : Out :=
  let fa := s.pl.rg o.a
  let v := wordBytes (s.pl.rg o.b)
  let one := wordBytes 1
  .next (
    if s.pl.guard o.g then
      match s.pl.mine AccKind.isFput with
      | some a => if a.performed then (s.modPl fun x => x.dropAccess a).advance 1 else s.holdOn (.accs [a.id] 0)
      | none =>
        if fa &&& 15 ≠ 0 then s.trap cALIGN fa
        else
          let es := if isHost fa then [mkElem 0 [0] fa 8 (lowMask 8) v, mkElem 1 [1] (fa + 8) 8 (lowMask 8) one]
            else [mkElem 0 [0] fa 16 (lowMask 16) (v ++ one)]
          s.doAccess 1 .fput 0 2 (s.futureScope fa) none futurePlace es
    else s.advance 1)

/-! ### LAUNCH (R358 to R360) -/

/-- The access is LAUNCH's read of its descriptor. -/
def AccKind.isDesc (k : AccKind) : Bool := match k with | .desc _ => true | _ => false

/-- The result of LAUNCH (R358). -/
def launchWord (code : Nat) (id : BitVec 12) : Word := BitVec.ofNat 64 (16777216 * code + id.toNat)

/-- LAUNCH with its descriptor read: a rejected sweep has no effect; an accepted one is released, and takes an id or waits (R360). -/
def State.launchRead (s : State) (d : BitVec 6) (a : Access) (v : Vd) : State :=
  let desc := wordsOf (a.elems.flatMap (·.res)) 16
  let done (s : State) (w : Word) : State := (s.modPl fun x => (x.dropAccess a).wg d w).advance 1
  match s.checkDesc s.curVd v.d desc with
  | (some code, s) => done s (launchWord code 0xFFF)
  | (none, s) =>
    let c := underCeil v.d (descScope desc)
    let wait := s.pl.acc.filter fun b => b.id != a.id && !(b.doneAt c.1)
    if wait.isEmpty then
      let s := if c.2 then s.clip s.curVd else s
      match s.acceptSweep s.curVd desc .launch with
      | (some id, s) => done s (launchWord 0 id)
      | (none, s) => done s (launchWord 0 0xFFF)
    else s.holdOn (.accs (wait.map (·.id)) c.1)

/-- LAUNCH (R358). -/
def execLaunch (o : DA) (s : State) : Out :=
  let ga := s.pl.rg o.a
  .next (
    if s.pl.guard o.g then
      match s.pl.mine AccKind.isDesc, s.vd s.curVd with
      | some a, some v => if a.performed then s.launchRead o.d a v else s.holdOn (.accs [a.id] 0)
      | _, _ =>
        if ga &&& 63 ≠ 0 then s.trap cALIGN ga
        else s.doAccess 1 (.desc o.d) 0 0 0 (some (ga, 128)) anyPlace
          [mkElem 0 [0] ga 64 (lowMask 64) [], mkElem 8 [8] (ga + 64) 64 (lowMask 64) []]
    else s.advance 1)

/-! ### FRQ (R56, R356) -/

/-- STATE of FRQ STATUS (R56). -/
def SweepSt.code (t : SweepSt) : Nat := match t with | .running => 1 | .freezing => 2 | .frozen => 3 | .completing => 4

/-- What FRQ returns (R56). -/
def State.frqValue (s : State) (v : Nat) (id : BitVec 12) (sel : Nat) (idx : Word) : Word :=
  match s.sweep v id with
  | none => 0
  | some x =>
    let g := geoOf x.desc
    if sel = 0 then BitVec.ofNat 64 (4294967296 * x.done + x.st.code)
    else if sel = 1 then
      (if idx.toNat < 8 then BitVec.ofNat 64 (x.gate (g.dies.headD 0) idx.toNat) else BitVec.allOnes 64)
    else if idx.toNat < g.ncol then
      let k := tgetD x.cols idx.toNat Col.reset
      if sel = 2 then BitVec.ofNat 64 (16777216 * k.w.toNat + k.h) else BitVec.ofNat 64 k.i.toNat
    else BitVec.allOnes 64

/-- FRQ (R356). -/
def execFrq (o : Frq) (s : State) : Out :=
  .next (s.scalar o.g 2 o.d (s.frqValue s.curVd ((s.pl.rg o.a).setWidth 12) o.sel.toNat (s.pl.rg o.b)))

/-! ### FRGATE (R57, R355) -/

/-- FRGATE on a sweep of the own package: a release at its completion scope, never a trap, then the addition. -/
def State.gateHere (s : State) (d : VdDef) (id : BitVec 12) (face amount : Nat) : State :=
  let c := underCeil d (s.sweepScope s.curVd id)
  s.releaseThen c.1 c.2 fun s => (s.gateAdd none s.curVd id face amount).advance 2

/-- FRGATE on a sweep of another node: a release at span scope, then GATE. -/
def State.gateThere (s : State) (d : VdDef) (node : Nat) (id : BitVec 12) (face amount : Nat) : State :=
  s.releaseOr d 3 fun s =>
    (if amount = 0 then s
     else s.sendReq node (mkMsg 8 node s.node s.curVd 0 (BitVec.ofNat 64 (4294967296 * amount + 65536 * face + id.toNat)) 0 0 0 []) .gate).advance 2

/-- FRGATE (R355). -/
def execFrgate (o : Frgate) (s : State) : Out :=
  let ga := s.pl.rg o.a
  let amount := min (s.pl.rg o.b).toNat 65535
  let rm := ga.getLsbD 31
  let node := fld ga 16 12
  .next (
    if s.pl.guard o.g then
      match s.vd s.curVd with
      | none => s
      | some d =>
        if ga &&& 0x7000F000#64 ≠ 0 || (!rm && node ≠ 0) then s.trap cILLEGAL ga
        else if !rm || s.fab.node == some (BitVec.ofNat 12 node) then s.gateHere d.d (ga.setWidth 12) o.face.toNat amount
        else if !(d.span.contains node) then s.trap cPERM ga
        else s.gateThere d.d node (ga.setWidth 12) o.face.toNat amount
    else s.advance 2)

end Sys2Proof.Machine
end

