-- ==== Sys2Proof/Machine/Frontier.lean ====
section
/-! DEFINITION. The frontier units' and dispatchers' events: POINT_FIRE, EDGE_MESSAGE, GATE_ADDITION, SWEEP_ID_ASSIGN, TASK_STAGE,
PLANE_SWAP, SPILL, DECREMENT (spec/03_frontier.md R43 to R51, spec/02_execution_model.md R15, R25, R30 to R34,
spec/12_translation.md R242). An event that is not enabled leaves the state as it is (notes/assumptions/2.md). -/

namespace Sys2Proof.Machine

/-! ### The VD at work -/

/-- A VD runs on its hanks: not frozen, its halt line low. -/
def Vd.works (d : Vd) : Bool := d.run && d.halt.isNone && d.freeze.isNone

/-- VD `v` is at work. -/
def State.works (s : State) (v : Nat) : Bool := s.power == .run && (match s.vd v with | some d => d.works | none => false)

/-! ### POINT_FIRE (R43 to R46) -/

/-- The sweeps that have an eligible point on a die, each with the point that would fire first: (sweep, column, front index). -/
def State.ready (s : State) (die : Nat) : List (Sweep × Nat × Nat) :=
  s.fr.sweeps.filterMap fun x =>
    if x.st == .running && s.works x.vd && (match s.vd x.vd with | some d => (s.freeIdx x.vd d).isSome | none => false) then
      (firstOf (x.candidates (geoOf x.desc) die)).map fun p => (x, p.2.1, p.2.2)
    else none

/-- The first of them in the order of VD id and sweep id. -/
def leastSweep (xs : List (Sweep × Nat × Nat)) : Option (Sweep × Nat × Nat) :=
  xs.foldl (fun best x =>
    match best with
    | none => some x
    | some b => if x.1.turn < b.1.turn then some x else some b) none

/-- Whose turn it is on a die (R45): the first sweep after the one fired last, wrapping round. -/
def State.fireTurn (s : State) (die : Nat) : Option (Sweep × Nat × Nat) :=
  let xs := s.ready die
  match (tgetD s.dies die Die.reset).lastFired with
  | none => leastSweep xs
  | some (v, id) =>
    match leastSweep (xs.filter fun x => decide (4096 * v + id < x.1.turn)) with
    | some x => some x
    | none => leastSweep xs

/-- Books the template of a fired point (R74): the request, or none where the template cannot be read or fails its checks. -/
def State.bookTemplate (s : State) (x : Sweep) (d : VdDef) (die key : Nat) : Option BReq × State :=
  let a := x.desc.getD 5 0
  match s.templateBad x.vd d x.desc with
  | (some _, s) => (none, s.count x.vd 0 1 1)
  | (none, s) =>
    match s.readTemplate x.vd a.toNat with
    | (none, s) => (none, s.count x.vd 0 1 1)
    | (some c, s) =>
      (some { id := s.bk.nextReq, die := die, vd := x.vd, task := key, tmpl := true, record := a, chain := c, s0 := s.now, t := 0,
              rounds := 0, refusals := 0, firstRef := none, nextTry := none, pendingH := 0, told := false, back := false, h0 := s.now,
              st := .queued, fit := [], ans := [] }, s)

/-- The bookings of a fired point: its dependence count, with the request entered (R21, R74). -/
def State.fireBooking (s : State) (x : Sweep) (d : VdDef) (die key : Nat) : Int × State :=
  if x.desc.getD 5 0 = 0 then (0, s)
  else
    match s.bookTemplate x d die key with
    | (some r, s) => (1, s.addReq r)
    | (none, s) => (0, s)

/-- Fires the point of column `c` at front index `q` on a die (R46). -/
def State.firePoint (s : State) (die : Nat) (x : Sweep) (c q : Nat) : State :=
  match s.vd x.vd with
  | none => s
  | some d =>
    match s.freeIdx x.vd d with
    | none => s
    | some idx =>
      let g := geoOf x.desc
      let k := tgetD x.cols c Col.reset
      let s := s.bump.modSweep x.vd x.swid fun x => { x with cols := tset x.cols c { k with i := k.i ||| (1#33 <<< (q - k.h)) } }
      let s := ({ s with dies := tset s.dies die { tgetD s.dies die Die.reset with lastFired := some (x.vd, x.swid.toNat) } } : State).clipped
        x.vd (descScope x.desc)
      let w4 := x.desc.getD 4 0
      let r := s.fireBooking x d.d die (taskKey x.vd idx)
      let t := Task.fresh x.vd idx 0 (descPri x.desc) r.1 die x.swid (pointWord (g.pointOf c q)) (fld w4 48 8)
      r.2.createTask t ((w4.extractLsb' 0 48).setWidth 64 + 4) ((List.range 5).map fun i => x.desc.getD (8 + i) 0)

/-- POINT_FIRE (R45, R46): the frontier unit of a die fires one eligible point. -/
def execPointFire (die : BitVec 3) (s : State) : Out :=
  .next (match s.fireTurn die.toNat with
    | some (x, c, q) => s.firePoint die.toNat x c q
    | none => s)

/-! ### Messages of the frontier -/

/-- EDGE_MESSAGE (R51): the `i`-th in flight arrives; those from one die to another arrive in the order sent. One whose sweep has ended has
no effect. -/
def execEdgeMessage (i : Nat) (s : State) : Out :=
  .next (match s.fr.edges[i]? with
    | none => s
    | some e =>
      if (s.fr.edges.take i).any fun x => x.src == e.src && x.dst == e.dst then s
      else
        (s.modFr fun f => { f with edges := dropAt f.edges i }).modSweepKey e.key fun x =>
          { x with ghosts := tset x.ghosts (65536 * e.dst + e.col) { h := e.h, w := e.w, i := 0 } })

/-- GATE_ADDITION (R50): the `i`-th in flight reaches its die; the counter saturates. -/
def execGateAddition (i : Nat) (s : State) : Out :=
  .next (match s.fr.gadds[i]? with
    | none => s
    | some a =>
      ((s.modFr fun f => { f with gadds := dropAt f.gadds i }).modSweepKey a.key fun x =>
        { x with gates := tset x.gates (8 * a.die + a.face) (min 65535 (x.gate a.die a.face + a.amount)) }).endSweep? a.fin)

/-- SWEEP_ID_ASSIGN (R15): the first sweep of a VD that waits in the front end takes a free id. -/
def execSweepIdAssign (vd : BitVec 8) (s : State) : Out :=
  let v := vd.toNat
  .next (match s.fr.waiting.find? fun w => w.vd == v with
    | none => s
    | some w =>
      if s.works v && (s.freeSweepId v).isSome then
        ((s.modFr fun f => { f with waiting := dropFirst (fun x => x.vd == v) f.waiting }).acceptSweep v w.desc w.src).2
      else s)

/-- DECREMENT (R25): the `i`-th in flight reaches its task's home die. -/
def execDecrement (i : Nat) (s : State) : Out :=
  .next (match s.fr.decs[i]? with
    | none => s
    | some d => ((s.modFr fun f => { f with decs := dropAt f.decs i }).applyDec d.vd d.va).endSweep? d.fin)

/-! ### TASK_STAGE (R33, R34) -/

/-- The effective level of a READY task (R33). -/
def Task.level (t : Task) (now : Nat) : Nat := min 3 (t.pri.toNat + (now - t.readyAt) / 1024)

/-- Whether task `a` goes before task `b` (R33). -/
def Task.before (now : Nat) (a b : Task) : Bool :=
  decide (b.level now < a.level now) || (a.level now == b.level now && decide (a.readySeq < b.readySeq))

/-- The task that goes before the others. -/
def firstTask (now : Nat) (ts : List (Nat × Task)) : Option (Nat × Task) :=
  ts.foldl (fun best t =>
    match best with
    | none => some t
    | some b => if t.2.before now b.2 then some t else some b) none

/-- A READY task may run on a core of its die (R17, R34): its VD holds the hank, a bound core or a spill frame's core is this one. -/
def State.fitsCore (s : State) (c : Nat) (t : Task) : Bool :=
  t.state == .ready && t.home == dieOf c && tget s.hanks (hankOf c) == some t.vd && s.works t.vd &&
  s.boundTo t c &&
  (match t.frame with | some (_, fc, _) => fc == c | none => true)

/-- The plane of a core that a task would be staged into: the empty shadow plane, which the task's frame, if it has one, must name (R32,
R34). -/
def State.planeFor (s : State) (c : Nat) (t : Task) : Option (BitVec 1) :=
  let k := s.core c
  let sh : BitVec 1 := k.act + 1
  if (k.plane sh).task.isSome || k.freeRows < t.rows then none
  else
    match t.frame with
    | none => some sh
    | some (_, _, p) => if p = sh.toNat then some sh else none

/-- The task that the dispatcher would stage on core `c`, with its plane. -/
def State.stageAt (s : State) (c : Nat) : Option (Nat × BitVec 1) :=
  match firstTask s.now (s.fr.tasks.filter fun e => s.fitsCore c e.2 && (s.planeFor c e.2).isSome) with
  | some (key, t) => (s.planeFor c t).map fun p => (key, p)
  | none => none

/-- The first core of a die, after the one served last, that a task can be staged on. -/
def State.stageTurn (s : State) (die : Nat) : Option (Nat × Nat × BitVec 1) :=
  let last := (tgetD s.dies die Die.reset).lastCore
  (List.range 128).findSome? fun i =>
    let c := 128 * die + (last + 1 + i) % 128
    (s.stageAt c).map fun x => (c, x)

/-- TASK_STAGE (R34): a task marked CX is killed in place of being staged (R19); the first line of another is fetched (R99). -/
def execTaskStage (die : BitVec 3) (s : State) : Out :=
  .next (match s.stageTurn die.toNat with
    | none => s
    | some (c, key, p) =>
      let s := { s with dies := tset s.dies die.toNat { tgetD s.dies die.toNat Die.reset with lastCore := c % 128 } }
      if (match s.task key with | some t => t.cx | none => false) then s.killTask key 17
      else let s := s.loadTask c p key; s.wantLine c (s.vdOf c p) (lineOf (s.plane c p).pc))

/-! ### PLANE_SWAP (R30) -/

/-- A core may swap: its active plane is empty and its shadow is not, or its active task waits and its shadow's is STAGED. -/
def State.maySwap (s : State) (c : Nat) : Bool :=
  let k := s.core c
  let st (p : BitVec 1) : Option TState := ((k.plane p).task.bind s.task).map (·.state)
  match st k.act, st (k.act + 1) with
  | none, some _ => true
  | some .held, some .staged => true
  | some .parked, some .staged => true
  | _, _ => false

/-- PLANE_SWAP (R30). -/
def execPlaneSwap (core : BitVec 10) (s : State) : Out :=
  .next (if s.maySwap core.toNat then s.modCore core.toNat fun k => { k with act := k.act + 1 } else s)

/-! ### SPILL (R32, R242) -/

/-- An access of a parked task that lets it be spilled: it belongs to the instruction at the plane's pc, and none of its elements is under
way: each has performed, failed, waits for a reply, or is still to be translated or to perform (R242, R246). -/
def Access.spillable (a : Access) (pc : Word) : Bool :=
  a.pc == pc && a.elems.all fun e => match e.st with | .accepted _ => false | .half => false | .sent => false | _ => true

/-- The lanes of a parked access as its frame shows them: failed, or waiting (R242). -/
def Access.laneTable (a : Access) : Table LaneSt :=
  a.elems.foldl (fun t e =>
    let mk (l : Nat) : Option LaneSt :=
      let va := e.va + BitVec.ofNat 64 (8 * (l - e.idx))
      match e.st with | .performed => none | .failed k => some (.failed k va) | _ => some (.waiting va)
    e.lanes.foldl (fun t l => match mk l with | some x => tset t l x | none => t) t) []

/-- A parked access as its spill keeps it: what has not performed in HBM is translated afresh after the reload (R246). -/
def Access.laidBy (a : Access) : Access :=
  { a with elems := a.elems.map fun e =>
      match e.st, e.loc with
      | .walking, _ => { e with st := .translating }
      | .ready, some (.hbm _) => { e with st := .translating, loc := none }
      | _, _ => e }

/-- The counts that a parked access leaves in sr.oc. -/
def Plane.onlyParked (x : Plane) : Bool :=
  let ld := (x.acc.filter fun a => a.kind.inLdc).length
  let st := (x.acc.filter fun a => a.kind.isStore).length
  x.oc.ldc.toNat == ld && x.oc.stc.toNat == st && x.oc.cpc == 0 && x.oc.mxc == 0 && x.acc.all fun a => a.spillable x.pc

/-- What the frame of a parked task records: its instruction, words and lanes; the performed lanes have their values (R241). -/
def State.parkFrame (s : State) (c : Nat) (p : BitVec 1) (key : Nat) : State :=
  let x := s.plane c p
  match x.acc with
  | a :: _ =>
    (s.modPlane c p fun x => if a.kind.byInstr then x else x.putResult a).modTask key fun t =>
      { t with parkAt := some x.pc, parkWords := a.w1 ++ a.w0, lanes := a.laneTable, kept := some (a.laidBy, x.park) }
  | [] =>
    match x.park with
    | some .again =>
      let w := match s.lineAt c p with | some l => (l.word (wordIdx x.pc)).setWidth 64 | none => 0
      s.modTask key fun t => { t with parkAt := some x.pc, parkWords := w }
    | _ => s

/-- The dispatcher has a READY task for the core that would run in the plane, and no plane of the core is empty (R32). -/
def State.planeWanted (s : State) (c : Nat) (p : BitVec 1) : Bool :=
  (s.core c).p0.task.isSome && (s.core c).p1.task.isSome &&
  s.fr.tasks.any fun e => s.fitsCore c e.2 && (match e.2.frame with | some (_, _, q) => q == p.toNat | none => true)

/-- Spills a PARKED task into slot `n`. -/
def State.spillParked (s : State) (c : Nat) (p : BitVec 1) (key v n : Nat) (frozen : Bool) : State :=
  let s := (s.bump.parkFrame c p key).count v 3 6 1
  match s.spillTo c p n (s.plane c p).pc with
  | (none, s) => s.modTask key fun t => if t.kept.isSome then { t with lanes := [] } else t
  | (some k, s) => if frozen then s.unsaveable v else s.double v k

/-- SPILL (R32, R242): of a PARKED task, where a READY task wants the plane, or in a freeze of its VD (R54). -/
def execSpill (core : BitVec 10) (plane : BitVec 1) (s : State) : Out :=
  let c := core.toNat
  .next (match s.taskOf c plane with
    | none => s
    | some (key, t) =>
      match s.vd t.vd with
      | none => s
      | some d =>
        if t.state != .parked || d.halt.isSome || !((s.plane c plane).onlyParked) then s
        else if d.freeze.isSome then
          match s.freeSlot t.vd d with
          | some n => s.spillParked c plane key t.vd n true
          | none =>
            match s.freeKept t.vd d with
            | some n => s.spillParked c plane key t.vd n true
            | none => s.unsaveable t.vd
        else if s.planeWanted c plane then
          match s.freeSlot t.vd d with
          | some n => s.spillParked c plane key t.vd n false
          | none => s
        else s)

end Sys2Proof.Machine
end

