-- ==== Sys2Proof/Machine/Faults.lean ====
section
/-! DEFINITION. Events of tasks' accesses: walks, homes, answers, line fills; how waiting elements are answered; fault requests posted to
the ring (spec/12_translation.md R237 to R247, R252, spec/13_virry.md R258 to R265, spec/05_core.md R98, R99, R102,
spec/11_memory_model.md R215). -/

namespace Sys2Proof.Machine

/-! ### Elements in turn -/

/-- Element `el` of access `acc` of a plane. -/
def State.elemOf (s : State) (c : Nat) (p : BitVec 1) (acc el : Nat) : Option (Access × Elem) :=
  ((s.plane c p).access acc).bind fun a => a.elems[el]?.map fun e => (a, e)

/-- The elements that wait for a walk of a die: (core, plane, access, element). -/
def State.walkers (s : State) (die : Nat) (w : Walk) : List (Nat × BitVec 1 × Nat × Nat) :=
  s.cores.flatMap fun k =>
    if dieOf k.1 = die then
      ([(k.2.p0, (0 : BitVec 1)), (k.2.p1, 1)]).flatMap fun x =>
        if ((x.1.task.bind s.task).any fun t => t.vd == w.vd)
        then x.1.acc.flatMap fun a => (a.elems.zipIdx).filterMap fun e => if e.1.walksFor w.page then some (k.1, x.2, a.id, e.2) else none
        else []
    else []

/-- The result of a walk for one of the elements that wait for it: it fills its core's cache unless an invalidation forbids it (R249). -/
def State.walkedTo (s : State) (fill : Bool) (x : Nat × BitVec 1 × Nat × Nat) : State :=
  match s.elemOf x.1 x.2.1 x.2.2.1 x.2.2.2 with
  | some (a, e) =>
    if e.st == .walking then
      let r := s.walkRun (s.vdOf x.1 x.2.1) e.start a.kind.ty
      (if fill then r.2.tcFill x.1 r.1 else r.2).elemTr x.1 x.2.1 a x.2.2.2 e r.1
    else s
  | none => s

/-- WALK (R237, R240): the walk that an element waits for ends, if it has a slot: every miss of the die on the page takes its result, and
the slot goes to the next walk that waits. An element that a RETRY has asked for again is looked up again. -/
def execWalk (core : BitVec 10) (plane : BitVec 1) (acc el : Nat) (s : State) : Out :=
  let c := core.toNat
  .next (match s.elemOf c plane acc el with
    | some (a, e) =>
      if e.st == .translating then s.lookAll c plane { a with elems := a.elems.zipIdx.map fun x => if x.2 = el then x.1 else { x.1 with st := .performed } }
      else if e.st == .walking then
        match ((s.die (dieOf c)).walks.take 64).find? (Walk.of (s.vdOf c plane) ((hbmVa e.start).toNat / 65536)) with
        | some w =>
          let s := (s.walkers (dieOf c) w).foldl (State.walkedTo · w.fill) s
          (s.modDie (dieOf c) fun d => { d with walks := dropFirst (Walk.of w.vd w.page) d.walks }).startWalks (dieOf c)
        | none => s
      else s
    | none => s)

/-- HOME_AGENT_ACCESS (R252, R258): an element homed in HBM performs in its turn, where its channel group has room for unbooked bytes in this
slot (R60); a write to a migrating frame is held. -/
def execHomeAgentAccess (core : BitVec 10) (plane : BitVec 1) (acc el : Nat) (s : State) : Out :=
  let c := core.toNat
  .next (match s.elemOf c plane acc el with
    | some (a, e) =>
      (match e.loc with
      | some (.hbm dpa) =>
        if !(s.turnAt c plane a el e) || !(s.looseRoom (cgCal dpa) e.len) then s
        else
          match (if a.kind.writes then s.hbm.migOf dpa else none) with
          | some i =>
            if s.hbm.heldFull i then s
            else
              (((s.spend (cgCal dpa) e.len).holdOp i (.elem c plane.toNat acc el)).modElem c plane acc el fun e =>
                { e with st := if e.isAccepted then e.st else .sent }).count (s.vdOf c plane) 3 7 1
          | none => let r := (s.spend (cgCal dpa) e.len).perfHbm c plane a e dpa; r.2.elemDone c plane acc el r.1
      | _ => s)
    | none => s)

/-- The read of a split operation of a task on a core's scratchpad outside its own (R206). -/
def AccKind.splits (k : AccKind) (l : Loc) : Bool :=
  match k, l with | .amo _ _, .spad _ _ => true | .cas _, .spad _ _ => true | _, _ => false

/-- PEER_ACCESS (R98, R204, R206): an element homed in the memory of a core, through its peer window, performs in its turn; a split operation
first reads and then, by a second event, writes. -/
def execPeerAccess (core : BitVec 10) (plane : BitVec 1) (acc el : Nat) (s : State) : Out :=
  let c := core.toNat
  .next (match s.elemOf c plane acc el with
    | some (a, e) =>
      (match e.loc with
      | some l =>
        if l.coreKind.isNone || l.outside || e.own then s
        else if e.st == .half then
          let s := match a.kind.newBytes e e.res with | some bs => s.coreWrite l bs | none => s
          s.elemDone c plane acc el (.done e.res)
        else if !(s.turnAt c plane a el e) then s
        else if a.kind.splits l then
          if s.splitAt l then s else s.modElem c plane acc el fun e => { e with st := .half, res := s.coreBytes l e.len }
        else
          let r := s.perfCore (s.vdOf c plane) a.tensor a.kind l e
          r.2.elemDone c plane acc el (.done r.1)
      | none => s)
    | none => s)

/-- LOAD_RESULT (R102): the result of a performed load or atomic reaches its register. -/
def execLoadResult (core : BitVec 10) (plane : BitVec 1) (acc : Nat) (s : State) : Out :=
  let c := core.toNat
  .next (match (s.plane c plane).access acc with
    | some a => if a.performed && a.kind.inLdc && !a.kind.byInstr then s.finishAcc c plane a else s
    | none => s)

/-- POSTED_WRITE_ACK (R215): the acknowledgement of a performed posted store makes STC fall. -/
def execPostedWriteAck (core : BitVec 10) (plane : BitVec 1) (acc : Nat) (s : State) : Out :=
  let c := core.toNat
  .next (match (s.plane c plane).access acc with
    | some a => if a.performed && a.kind.isStore && a.posted c then s.finishAcc c plane a else s
    | none => s)

/-! ### Answers to what waits (R246, R247) -/

/-- An element waits for a fault reply, of its own package or of a peer package. -/
def Access.waits (a : Access) : Bool := a.elems.any fun e => e.st == .waiting

/-- A task with nothing left waiting leaves PARKED for STAGED, or SPILLED for READY (R246). -/
def State.unpark (s : State) (key : Nat) : State :=
  match s.task key with
  | none => s
  | some t =>
    if t.lanes.any fun e => e.2.isWaiting then s
    else
      match s.planeOf key with
      | some (c, p) =>
        if t.state != .parked || (s.plane c p).acc.any Access.waits then s
        else
          (s.modPlane c p fun x => { x with park := match x.park with | some (.fill _) => none | k => k }).setTState key .staged
      | none => if t.state == .spilled && !(t.kept.any fun k => k.1.waits) then s.enqueue key else s

/-- What an answer makes of a waiting element: translated again, or failed with a kind. -/
def replySt (fail : Option Nat) : ElemSt := match fail with | none => .translating | some k => .failed k

/-- What an answer makes of a waiting lane of a spilled task. -/
def replyLane (fail : Option Nat) (va : Word) : LaneSt := match fail with | none => .retry | some k => .failed k va

/-- The element waits in its own package, and serves a lane at an address. -/
def Elem.awaits (e : Elem) (lane : Nat) (va : Word) : Bool :=
  e.st == .waiting && e.loc.isNone && e.lanes.contains lane && e.va + BitVec.ofNat 64 (8 * (lane - e.idx)) == va

/-- The elements of an access that wait for an answer to a lane take it. -/
def Access.answer (a : Access) (lane : Nat) (va : Word) (fail : Option Nat) : Access :=
  { a with elems := a.elems.map fun e => if e.awaits lane va then { e with st := replySt fail } else e }

/-- An answer to a lane of a task: in its plane, or of the access that its spill has kept (R246). -/
def State.laneReply (s : State) (key lane : Nat) (va : Word) (fail : Option Nat) : State :=
  match s.task key with
  | none => s
  | some t =>
    match s.planeOf key, t.kept with
    | some (c, p), _ => (s.modPlane c p fun x => { x with acc := x.acc.map fun a => a.answer lane va fail }).unpark key
    | none, some (a, pk) => (s.modTask key fun t => { t with kept := some (a.answer lane va fail, pk) }).unpark key
    | none, none =>
      if (tget t.lanes lane).any LaneSt.isWaiting then
        (s.modTask key fun t => { t with lanes := tset t.lanes lane (replyLane fail va) }).unpark key
      else s

/-- An answer to a line fill or an instruction to be executed again: it goes on, or fails at its lane 0 (R247). -/
def State.taskReply (s : State) (key : Nat) (va : Word) (fail : Option Nat) : State :=
  match s.task key with
  | none => s
  | some t =>
    if (tget t.lanes 0).any LaneSt.isWaiting then
      (s.modTask key fun t => { t with lanes := match fail with | none => terase t.lanes 0 | some k => tset t.lanes 0 (.failed k va) }).unpark key
    else s

/-! ### LINE_FILL (R99, R247) -/

/-- The 32-bit words of a line. -/
def lineOfBytes (v : Nat) (addr : Word) (bs : List Byte) : Line := { vd := v, addr := addr, words := iwordsOf bs 16 }

/-- A line fill that fails for good: an integrity mismatch in a window (R265). -/
def State.fillFails (s : State) (c : Nat) (p : BitVec 1) (key : Nat) (va : Word) : State :=
  if s.planeFatal c p then s
  else (s.modPlane c p fun x => { x with hold := none }).modTask key fun t => { t with lanes := tset t.lanes 0 (.failed 16 va) }

/-- The lines that a plane's execution is certain to fetch: the current one and the next (R99, R111). -/
def State.certain (s : State) (c : Nat) (p : BitVec 1) : List (Nat × Word) :=
  let x := s.plane c p
  if x.task.isNone then []
  else
    let v := s.vdOf c p
    let line := lineOf x.pc
    (v, line) :: (match s.lineAt c p with
      | some l => if linkE (l.word 0) then [] else [(v, lineOf (x.lineEnd line (l.word 0)).pc)]
      | none => [])

/-- A line enters the line store; the least recently fetched of 1,024 leaves, but never the current line or the next certain line of either
plane (R99). -/
def State.putLine (s : State) (c : Nat) (l : Line) : State :=
  let keep := s.certain c 0 ++ s.certain c 1
  s.modCore c fun k =>
    { k with lines := l :: (if k.lines.length < 1024 then k.lines
               else (dropFirst (fun x => !(keep.contains (x.vd, x.addr))) k.lines.reverse).reverse) }

/-- The fill of a line for a plane's task. -/
def State.fillLine (s : State) (c : Nat) (p : BitVec 1) (key : Nat) (t : Task) (line : Word) : State :=
  match s.trNow c t.vd line .fetch with
  | (.ok e, s) =>
    (match s.homeRead (e.dpa line) 64 with
    | (some bs, s) => s.putLine c (lineOfBytes t.vd line bs)
    | (none, s) => (s.mismatch (e.dpa line) t.vd line).fillFails c p key line)
  | (.integ, s) => s.fillFails c p key line
  | (.busy, s) => s
  | (.fault k l, s) =>
    if t.kind = 2 && !t.st then s.fetchTrap c p (causeOfKind k) (s.plane c p).pc line
    else
      (s.postFault t.vd line k l 3 (s.taskId t) 0 (.task key line)).parkTask c p key line (.fill line)

/-- The fill of a line that is fetched ahead (R111). One that faults is given up: the fault is taken when execution comes to the line, and the
task then holds for it (notes/assumptions/63.md). -/
def State.fillAhead (s : State) (c v : Nat) (line : Word) : State :=
  let s := s.modCore c fun k => { k with want := k.want.filter fun w => w != (v, line) }
  if ((s.core c).findLine v line).isSome || !(inHbmWindow line) then s
  else
    match s.trNow c v line .fetch with
    | (.ok e, s) =>
      (match s.homeRead (e.dpa line) 64 with
      | (some bs, s) => s.putLine c (lineOfBytes v line bs)
      | (none, _) => s)
    | (_, s) => s

/-- LINE_FILL (R99, R111): the line that a plane's task holds for enters the line store, or the first line that its core fetches ahead. -/
def execLineFill (core : BitVec 10) (plane : BitVec 1) (s : State) : Out :=
  let c := core.toNat
  .next (match (s.plane c plane).hold, s.taskOf c plane, (s.core c).want with
    | some (.fill line), some (key, t), _ => if ((s.core c).findLine t.vd line).isSome then s else s.fillLine c plane key t line
    | _, _, (v, line) :: _ => s.fillAhead c v line
    | _, _, [] => s)

/-! ### FAULT_POST (R244) -/

/-- The four words of a request entry (R244). -/
def FReq.words (r : FReq) (rid : BitVec 32) : List Word :=
  [r.va, BitVec.ofNat 64 r.task,
   BitVec.ofNat 64 (1152921504606846976 * r.kind + 72057594037927936 * r.acc + 18014398509481984 * r.lvl + rid.toNat),
   BitVec.ofNat 64 r.bkh]

/-- Writes a word to a host-window address; a window that is not defined takes nothing. -/
def State.hostNote (s : State) (v : Nat) (d : Vd) (va : Word) (w : Word) : State :=
  match winOf va with
  | .host h o =>
    match tget d.hostw h with
    | some hw => if o + 8 ≤ hw.len then s.hostOp v h o .gate fun id => .rdmaWrite id h o none (wordBytes w) else s
    | none => s
  | _ => s

/-- FAULT_POST (R244): the first waiting request of a VD is posted when the ring has room. -/
def execFaultPost (vd : BitVec 8) (s : State) : Out :=
  let v := vd.toNat
  .next (match s.vd v, s.hbm.freqs.find? fun r => r.vd == v && !r.posted with
    | some d, some r =>
      (match s.sureWord v (d.d.fcb + 24) with
      | (none, s) => s
      | (some w, s) =>
        let rqh : BitVec 32 := w.setWidth 32
        if 2 ^ d.d.lgn ≤ (d.rqt - rqh).toNat then s
        else
          match s.mustWrite v (d.d.rqb + 32 * (d.rqt.toNat % 2 ^ d.d.lgn)) (r.words d.rqt) with
          | (false, s) => s
          | (true, s) =>
            let n := d.rqt + 1
            match s.mustWrite v (d.d.fcb + 16) [n.setWidth 64] with
            | (false, s) => s
            | (true, s) =>
              let s := s.modHbm fun h =>
                { h with freqs := h.freqs.map fun x => if FReq.same r.vd r.page r.kind x then { x with rid := d.rqt, posted := true } else x }
              let s := (s.modVd v fun d => { d with rqt := n }).count v 3 2 1
              let s := if d.d.pfut = 0 then s else s.devFill v d.d.pfut (n.setWidth 64)
              if d.d.hnot = 0 then s else s.hostNote v d d.d.hnot (n.setWidth 64))
    | _, _ => s)

end Sys2Proof.Machine
end

