-- ==== Sys2Proof/Machine/Vector.lean ====
section
/-! DEFINITION. The vector register majors (spec/21_ref_va_vm.md R409 to R433, spec/22_ref_vn_x.md R434 to R447): elements, the
shared form of R410, and one meaning per major. -/

namespace Sys2Proof.Machine

/-! ### Elements (spec/08_numbers.md R143) -/

/-- The width of a TYPE code (spec/06_encoding.md R122). -/
def tyWidth (ty : Nat) : Nat :=
  match ty with
  | 0 => 64 | 1 => 32 | 2 => 16 | 3 => 16 | 4 => 8 | 5 => 8
  | 6 => 64 | 7 => 32 | 8 => 16 | 9 => 8
  | 10 => 64 | 11 => 32 | 12 => 16 | _ => 8

/-- A floating-point TYPE. -/
def tyFp (ty : Nat) : Bool := decide (ty ≤ 5)

/-- A signed integer TYPE. -/
def tySigned (ty : Nat) : Bool := decide (6 ≤ ty ∧ ty ≤ 9)

/-- Element `e` of width `w`. -/
def elemAt (w : Nat) (v : VReg) (e : Nat) : Nat := (v.toNat >>> (w * e)) % 2 ^ w

/-- A register from its elements, element 0 first. -/
def ofElems (w : Nat) (xs : List Nat) : VReg := BitVec.ofNat 1024 (xs.foldr (fun x acc => acc * 2 ^ w + x % 2 ^ w) 0)

/-- The lane of an element (R143). -/
def elemLane (w e : Nat) : Nat := w * e / 64

/-- The second source: element `e` of `b`, or the low bits of GS (R410). -/
def elemB (w : Nat) (sc : BitVec 1) (gs : Word) (b : VReg) (e : Nat) : Nat :=
  if sc = 1 then gs.toNat % 2 ^ w else elemAt w b e

/-- What each element comes to: `none` where its lane is inactive. -/
def elemResults (w n : Nat) (k : BitVec 16) (f : Nat → FRes) : List (Option FRes) :=
  (List.range n).map fun e => if k.getLsbD (elemLane w e) then some (f e) else none

/-- The active elements of a list of results. -/
def activeElems (w : Nat) (fmt : Option Fmt) (rs : List (Option FRes)) : List FElem :=
  (rs.zipIdx).filterMap fun x => x.1.map fun r => { lane := elemLane w x.2, r := r, fmt := fmt }

/-- The register that a list of results makes. -/
def resultBits (w : Nat) (rs : List (Option FRes)) : VReg := ofElems w (rs.map fun r => match r with | some r => r.bits | none => 0)

/-- The shared form of R410 for an instruction of `n` words: each active element e takes `f e`; R158; the active lanes are
written. -/
def State.vecOp (s : State) (n : Nat) (g : BitVec 4) (w : Nat) (fmt : Option Fmt) (vd : BitVec 5) (f : Nat → FRes) : State :=
  let k := s.pl.vguard g
  let rs := elemResults w (1024 / w) k f
  s.fpEnd n (activeElems w fmt rs) true fun x => x.wv vd (mergeLanes k (x.rv vd) (resultBits w rs))

/-- Moves bits: each active element e takes `f e`, with no flag. -/
def State.vecMove (s : State) (n : Nat) (g : BitVec 4) (w : Nat) (vd : BitVec 5) (f : Nat → Nat) : State :=
  s.vecOp n g w none vd fun e => FRes.ok (f e)

/-- The format that counts NaNs and infinities: that of a floating-point TYPE. -/
def tyFmt (ty : Nat) : Option Fmt := if tyFp ty then some (fmtOf ty) else none

/-! ### VADD, VSUB, VMUL, VDIV, VSQRT, VFMA (R414, R422, R447, R425) -/

/-- The majors of two sources that R414 defines. -/
inductive Arith where
  | add | sub | mul
  deriving DecidableEq, Repr

/-- One floating-point element. -/
def Arith.fp (o : Arith) (f : Fmt) (k : FCtl) (a b : FVal) : FRes :=
  match o with
  | .add => f.add k a b
  | .sub => f.add k a (if b.isNan then b else b.flip)
  | .mul => f.mul k a b

/-- One integer element, exact. -/
def Arith.int (o : Arith) (a b : Int) : Int := match o with | .add => a + b | .sub => a - b | .mul => a * b

/-- One element of VADD, VSUB or VMUL in a TYPE. -/
def Arith.elem (o : Arith) (ty : Nat) (k : FCtl) (sat : Bool) (a b : Nat) : FRes :=
  if tyFp ty then
    let f := fmtOf ty
    let x := f.input k a
    let y := f.input k b
    (o.fp f k x.1 y.1).flushed (x.2 + y.2)
  else
    let w := tyWidth ty
    intInto (tySigned ty) w sat (o.int (intOf (tySigned ty) w a) (intOf (tySigned ty) w b))

/-- VADD, VSUB and VMUL of `n` words (R414). -/
def State.arith (s : State) (op : Arith) (n : Nat) (g : BitVec 4) (vd va vb : BitVec 5) (ty : BitVec 4) (rm : BitVec 3) (sat : BitVec 1)
    (sc : BitVec 1) (gs : BitVec 6) : State :=
  let t := ty.toNat
  let w := tyWidth t
  let x := s.pl
  let a := x.rv va
  let b := x.rv vb
  let v := x.rg gs
  s.vecOp n g w (tyFmt t) vd fun e => op.elem t (x.fctl rm) (sat == 1) (elemAt w a e) (elemB w sc v b e)

/-- VADD, X = 0 (R414). -/
def execVadd (o : V0) (s : State) : Out := .next (s.arith .add 1 o.g o.vd o.va o.vb o.ty 0 0 0 0)

/-- VADD, X = 1 (R414). -/
def execVaddX (o : V1) (s : State) : Out := .next (s.arith .add 2 o.g o.vd o.va o.vb o.ty o.rm o.sat o.sc o.gs)

/-- VSUB, X = 0 (R414). -/
def execVsub (o : V0) (s : State) : Out := .next (s.arith .sub 1 o.g o.vd o.va o.vb o.ty 0 0 0 0)

/-- VSUB, X = 1 (R414). -/
def execVsubX (o : V1) (s : State) : Out := .next (s.arith .sub 2 o.g o.vd o.va o.vb o.ty o.rm o.sat o.sc o.gs)

/-- VMUL, X = 0 (R414). -/
def execVmul (o : V0) (s : State) : Out := .next (s.arith .mul 1 o.g o.vd o.va o.vb o.ty 0 0 0 0)

/-- VMUL, X = 1 (R414). -/
def execVmulX (o : V1) (s : State) : Out := .next (s.arith .mul 2 o.g o.vd o.va o.vb o.ty o.rm o.sat o.sc o.gs)

/-- The three fused majors (R425): which of a · b and c is negated. -/
inductive Fused where
  | fma | fms | fnma
  deriving DecidableEq, Repr

/-- Negates a number; a NaN stays as it is. -/
def FVal.minus (v : FVal) : FVal := if v.isNan then v else v.flip

/-- One element of VFMA, VFMS or VFNMA. -/
def Fused.elem (o : Fused) (f : Fmt) (k : FCtl) (a b c : Nat) : FRes :=
  let x := f.input k a
  let y := f.input k b
  let z := f.input k c
  (match o with
  | .fma => f.fma k x.1 y.1 z.1
  | .fms => f.fma k x.1 y.1 z.1.minus
  | .fnma => f.fma k x.1.minus y.1 z.1).flushed (x.2 + y.2 + z.2)

/-- The fused majors (R425). -/
def State.fused (s : State) (op : Fused) (o : Fma) : State :=
  let t := o.ty.toNat
  let w := tyWidth t
  let x := s.pl
  let a := x.rv o.va
  let b := x.rv o.vb
  let c := x.rv o.vc
  let v := x.rg o.gs
  s.vecOp 2 o.g w (tyFmt t) o.vd fun e => op.elem (fmtOf t) (x.fctl o.rm) (elemAt w a e) (elemB w o.sc v b e) (elemAt w c e)

/-- VFMA (R425). -/
def execVfma (o : Fma) (s : State) : Out := .next (s.fused .fma o)

/-- VFMS (R425). -/
def execVfms (o : Fma) (s : State) : Out := .next (s.fused .fms o)

/-- VFNMA (R425). -/
def execVfnma (o : Fma) (s : State) : Out := .next (s.fused .fnma o)

/-- VDIV of `n` words (R422). -/
def State.vdivAt (s : State) (n : Nat) (g : BitVec 4) (vd va vb : BitVec 5) (ty : BitVec 4) (rm : BitVec 3) (sc : BitVec 1)
    (gs : BitVec 6) : State :=
  let t := ty.toNat
  let w := tyWidth t
  let f := fmtOf t
  let p := s.pl
  let k := p.fctl rm
  let a := p.rv va
  let b := p.rv vb
  let v := p.rg gs
  s.vecOp n g w (tyFmt t) vd fun e =>
    let x := f.input k (elemAt w a e)
    let y := f.input k (elemB w sc v b e)
    (f.div k x.1 y.1).flushed (x.2 + y.2)

/-- VDIV, X = 0 (R422). -/
def execVdiv (o : V0) (s : State) : Out := .next (s.vdivAt 1 o.g o.vd o.va o.vb o.ty 0 0 0)

/-- VDIV, X = 1 (R422). -/
def execVdivX (o : Vdiv1) (s : State) : Out := .next (s.vdivAt 2 o.g o.vd o.va o.vb o.ty o.rm o.sc o.gs)

/-- VSQRT of `n` words (R447). -/
def State.vsqrtAt (s : State) (n : Nat) (g : BitVec 4) (vd va : BitVec 5) (ty : BitVec 4) (rm : BitVec 3) : State :=
  let t := ty.toNat
  let w := tyWidth t
  let f := fmtOf t
  let k := s.pl.fctl rm
  let a := s.pl.rv va
  s.vecOp n g w (tyFmt t) vd fun e =>
    let x := f.input k (elemAt w a e)
    (f.sqrt k x.1).flushed x.2

/-- VSQRT, X = 0 (R447). -/
def execVsqrt (o : Vu0) (s : State) : Out := .next (s.vsqrtAt 1 o.g o.vd o.va o.ty 0)

/-- VSQRT, X = 1 (R447). -/
def execVsqrtX (o : Vsq1) (s : State) : Out := .next (s.vsqrtAt 2 o.g o.vd o.va o.ty o.rm)

/-! ### VMIN, VMAX, VABS, VNEG (R433, R412) -/

/-- One element of a minimum or maximum (R433). -/
def minMaxElem (ty : Nat) (k : FCtl) (isMax v1 : Bool) (a b : Nat) : FRes :=
  if tyFp ty then
    let f := fmtOf ty
    let x := f.input k a
    let y := f.input k b
    (f.minmax isMax v1 x.1 y.1).flushed (x.2 + y.2)
  else
    let less := decide (intOf (tySigned ty) (tyWidth ty) a < intOf (tySigned ty) (tyWidth ty) b)
    FRes.ok (if isMax then (if less then b else a) else (if less then a else b))

/-- VMIN and VMAX (R433). -/
def State.minMax (s : State) (isMax : Bool) (o : Vmm) : State :=
  let t := o.ty.toNat
  let w := tyWidth t
  let x := s.pl
  let a := x.rv o.va
  let b := x.rv o.vb
  s.vecOp (1 + o.x.toNat) o.g w (tyFmt t) o.vd fun e =>
    minMaxElem t (x.fctl 0) isMax (o.v1 == 1) (elemAt w a e) (elemAt w b e)

/-- VMIN (R433). -/
def execVmin (o : Vmm) (s : State) : Out := .next (s.minMax false o)

/-- VMAX (R433). -/
def execVmax (o : Vmm) (s : State) : Out := .next (s.minMax true o)

/-- One element of VABS or VNEG (R412): the sign bit of a floating-point type, or an integer. -/
def signElem (ty : Nat) (neg sat : Bool) (a : Nat) : FRes :=
  let w := tyWidth ty
  if tyFp ty then FRes.ok (if neg then (a + 2 ^ (w - 1)) % 2 ^ w else a % 2 ^ (w - 1))
  else
    let x := intOf true w a
    intInto true w sat (if neg || decide (x < 0) then -x else x)

/-- VABS and VNEG of `n` words (R412); a NaN or infinite result counts (R410). -/
def State.signOp (s : State) (n : Nat) (neg : Bool) (g : BitVec 4) (vd va : BitVec 5) (ty : BitVec 4) (sat : BitVec 1) : State :=
  let w := tyWidth ty.toNat
  let a := s.pl.rv va
  s.vecOp n g w (tyFmt ty.toNat) vd fun e => signElem ty.toNat neg (sat == 1) (elemAt w a e)

/-- VABS, X = 0 (R412). -/
def execVabs (o : Vu0) (s : State) : Out := .next (s.signOp 1 false o.g o.vd o.va o.ty 0)

/-- VABS, X = 1 (R412). -/
def execVabsX (o : Vab1) (s : State) : Out := .next (s.signOp 2 false o.g o.vd o.va o.ty o.sat)

/-- VNEG, X = 0 (R412). -/
def execVneg (o : Vu0) (s : State) : Out := .next (s.signOp 1 true o.g o.vd o.va o.ty 0)

/-- VNEG, X = 1 (R412). -/
def execVnegX (o : Vab1) (s : State) : Out := .next (s.signOp 2 true o.g o.vd o.va o.ty o.sat)

/-! ### VCMP, VSEL (R419, R443) -/

/-- One element of a comparison: whether it holds, and the flags (R419). COND: EQ, LT, LE, UN, TST. -/
def cmpElem (ty : Nat) (k : FCtl) (cond : Nat) (a b : Nat) : Bool × FRes :=
  if tyFp ty then
    let f := fmtOf ty
    let x := f.input k a
    let y := f.input k b
    let un := x.1.isNan || y.1.isNan
    let sn := x.1.isSn || y.1.isSn
    let c := fcmp x.1 y.1
    let t := match cond with
      | 0 => !un && c == 0
      | 1 => !un && decide (c < 0)
      | 2 => !un && decide (c ≤ 0)
      | _ => un
    (t, { FRes.ok 0 with fl := if sn || (un && (cond == 1 || cond == 2)) then fNV else 0, sn := sn })
  else
    let w := tyWidth ty
    let x := intOf (tySigned ty) w a
    let y := intOf (tySigned ty) w b
    (match cond with
      | 0 => x == y
      | 1 => decide (x < y)
      | 2 => decide (x ≤ y)
      | _ => Nat.land a b != 0, FRes.ok 0)

/-- The lanes of a mask in which every element of a list of (lane, truth) holds. -/
def allTrue (k : BitVec 16) (cs : List (Nat × Bool)) : BitVec 16 :=
  (List.range 16).foldl (fun m i =>
    if k.getLsbD i && cs.all (fun c => c.1 != i || c.2) then m ||| (1#16 <<< i) else m) 0

/-- VCMP (R419): both masks are written even where the guard is off; guard 0b1000 leaves them. -/
def execVcmp (o : Vcmp) (s : State) : Out :=
  .next (
    if o.g = 8 then s.advance 2
    else
      let t := o.ty.toNat
      let w := tyWidth t
      let x := s.pl
      let k := x.vguard o.g
      let a := x.rv o.va
      let b := x.rv o.vb
      let v := x.rg o.gs
      let es := ((List.range (1024 / w)).filter fun e => k.getLsbD (elemLane w e)).map fun e =>
        (elemLane w e, cmpElem t (x.fctl 0) o.cond.toNat (elemAt w a e) (elemB w o.sc v b e))
      let yes := allTrue k (es.map fun e => (e.1, e.2.1))
      s.fpEnd 2 (es.map fun e => { lane := e.1, r := e.2.2, fmt := none }) false fun x => (x.wm o.md yes).wm o.mq (k &&& ~~~yes))

/-- VSEL (R443). -/
def execVsel (o : Vsel) (s : State) : Out :=
  let x := s.pl
  let pick := x.rm o.ms
  let a := x.rv o.va
  let b := x.rv o.vb
  .next (s.vecMove 2 o.g 64 o.vd fun i => if pick.getLsbD i then elemAt 64 a i else elemAt 64 b i)

/-! ### Logic and shifts (R415, R440) -/

/-- VAND, VOR and VXOR of `n` words (R415). -/
def State.vlog (s : State) (n : Nat) (f : Nat → Nat → Nat) (g : BitVec 4) (vd va vb : BitVec 5) (sc : BitVec 1) (gs : BitVec 6) : State :=
  let x := s.pl
  let a := x.rv va
  let b := x.rv vb
  let v := x.rg gs
  s.vecMove n g 64 vd fun i => f (elemAt 64 a i) (elemB 64 sc v b i)

/-- VAND, X = 0 (R415). -/
def execVand (o : Vl0) (s : State) : Out := .next (s.vlog 1 Nat.land o.g o.vd o.va o.vb 0 0)

/-- VAND, X = 1 (R415). -/
def execVandX (o : Vl1) (s : State) : Out := .next (s.vlog 2 Nat.land o.g o.vd o.va o.vb o.sc o.gs)

/-- VOR, X = 0 (R415). -/
def execVor (o : Vl0) (s : State) : Out := .next (s.vlog 1 Nat.lor o.g o.vd o.va o.vb 0 0)

/-- VOR, X = 1 (R415). -/
def execVorX (o : Vl1) (s : State) : Out := .next (s.vlog 2 Nat.lor o.g o.vd o.va o.vb o.sc o.gs)

/-- VXOR, X = 0 (R415). -/
def execVxor (o : Vl0) (s : State) : Out := .next (s.vlog 1 Nat.xor o.g o.vd o.va o.vb 0 0)

/-- VXOR, X = 1 (R415). -/
def execVxorX (o : Vl1) (s : State) : Out := .next (s.vlog 2 Nat.xor o.g o.vd o.va o.vb o.sc o.gs)

/-- The three shifts (R440). -/
inductive Shift where
  | shl | shr | sar
  deriving DecidableEq, Repr

/-- A shift of `w` bits by `c` < w. -/
def Shift.elem (o : Shift) (w a c : Nat) : Nat :=
  match o with
  | .shl => a * 2 ^ c % 2 ^ w
  | .shr => a / 2 ^ c
  | .sar => wrapInt w (intOf true w a / 2 ^ c)

/-- The shifts, counts from VB modulo w (R440). -/
def State.vshift (s : State) (op : Shift) (o : Vsh) : State :=
  let w := tyWidth o.ty.toNat
  let a := s.pl.rv o.va
  let b := s.pl.rv o.vb
  s.vecMove (1 + o.x.toNat) o.g w o.vd fun e => op.elem w (elemAt w a e) (elemAt w b e % w)

/-- The shifts, one immediate count (R440). -/
def State.vshiftImm (s : State) (op : Shift) (o : VshI) : State :=
  let w := tyWidth o.ty.toNat
  let a := s.pl.rv o.va
  s.vecMove 2 o.g w o.vd fun e => op.elem w (elemAt w a e) o.cnt.toNat

/-- VSHL, vector counts (R440). -/
def execVshl (o : Vsh) (s : State) : Out := .next (s.vshift .shl o)

/-- VSHL, immediate count (R440). -/
def execVshlImm (o : VshI) (s : State) : Out := .next (s.vshiftImm .shl o)

/-- VSHR, vector counts (R440). -/
def execVshr (o : Vsh) (s : State) : Out := .next (s.vshift .shr o)

/-- VSHR, immediate count (R440). -/
def execVshrImm (o : VshI) (s : State) : Out := .next (s.vshiftImm .shr o)

/-- VSAR, vector counts (R440). -/
def execVsar (o : Vsh) (s : State) : Out := .next (s.vshift .sar o)

/-- VSAR, immediate count (R440). -/
def execVsarImm (o : VshI) (s : State) : Out := .next (s.vshiftImm .sar o)

/-! ### VCVT (R421) -/

/-- One converted element (R154, R155). -/
def convElem (src dst : Nat) (k : FCtl) (sat : Bool) (b : Nat) : FRes :=
  match tyFp src, tyFp dst with
  | true, true => fpToFp src dst k sat b
  | true, false => fpToInt src (tySigned dst) (tyWidth dst) k sat b
  | false, true => intToFp (tySigned src) (tyWidth src) dst k sat b
  | false, false => intInto (tySigned dst) (tyWidth dst) sat (intOf (tySigned src) (tyWidth src) b)

/-- VCVT (R421): destination elements past the last source element become 0. -/
def execVcvt (o : Vcvt) (s : State) : Out :=
  let src := o.src.toNat
  let dst := o.ty.toNat
  let ws := tyWidth src
  let w := tyWidth dst
  let n := 1024 / max ws w
  let x := s.pl
  let k := x.vguard o.g
  let a := x.rv o.va
  let rs := elemResults w n k fun e => convElem src dst (x.fctl o.rm) (o.sat == 1) (elemAt ws a e)
  .next (s.fpEnd 2 (activeElems w (tyFmt dst) rs) true fun x => x.wv o.vd (mergeLanes k (x.rv o.vd) (resultBits w rs)))

/-! ### VRED, VSCAN (R439) -/

/-- One combining step (R439): 0 add, 1 min, 2 max, 3 and, 4 or, 5 xor. -/
def redStep (ty : Nat) (k : FCtl) (op : Nat) (r a : Nat) : FRes :=
  match op with
  | 0 => Arith.add.elem ty k false r a
  | 1 => minMaxElem ty k false false r a
  | 2 => minMaxElem ty k true false r a
  | 3 => FRes.ok (Nat.land r a)
  | 4 => FRes.ok (Nat.lor r a)
  | _ => FRes.ok (Nat.xor r a)

/-- The first active element: an sNaN is consumed, a subnormal flushed under DAZ (R151, R153). -/
def redFirst (ty : Nat) (k : FCtl) (a : Nat) : FRes :=
  if tyFp ty then
    let f := fmtOf ty
    let x := f.input k a
    ((nanRule f [x.1]).getD (FRes.ok (f.encode x.1))).flushed x.2
  else FRes.ok a

/-- The identity of an operation in a type (R439). -/
def redIdentity (ty op : Nat) : Nat :=
  let w := tyWidth ty
  match op with
  | 1 => if tyFp ty then (fmtOf ty).inf false else if tySigned ty then 2 ^ (w - 1) - 1 else 2 ^ w - 1
  | 2 => if tyFp ty then (fmtOf ty).inf true else if tySigned ty then 2 ^ (w - 1) else 0
  | 3 => 2 ^ w - 1
  | _ => 0

/-- The steps over the active elements in ascending order: (element, result). -/
def redSteps (ty : Nat) (k : FCtl) (op : Nat) (v : VReg) (es : List Nat) : List (Nat × FRes) :=
  let w := tyWidth ty
  (es.foldl (fun (acc : List (Nat × FRes)) e =>
    match acc with
    | [] => [(e, redFirst ty k (elemAt w v e))]
    | r :: _ => (e, redStep ty k op r.2.bits (elemAt w v e)) :: acc) []).reverse

/-- VRED of `n` words (R439): element 0 of VD. -/
def State.reduce (s : State) (n : Nat) (g : BitVec 4) (vd va : BitVec 5) (ty : BitVec 4) (op : Nat) : State :=
  let t := ty.toNat
  let w := tyWidth t
  let x := s.pl
  let k := x.vguard g
  let rs := redSteps t (x.fctl 0) op (x.rv va) ((List.range (1024 / w)).filter fun e => k.getLsbD (elemLane w e))
  let r := match rs.getLast? with | some r => r.2.bits | none => redIdentity t op
  let es : List FElem := rs.map (fun r => { lane := elemLane w r.1, r := r.2, fmt := none }) ++ [{ lane := 0, r := FRes.ok r, fmt := tyFmt t }]
  s.fpEnd n es true fun x => x.wv vd (ofElems w (r :: (List.range (1024 / w - 1)).map fun e => elemAt w (x.rv vd) (e + 1)))

/-- VSCAN of `n` words (R439). -/
def State.scan (s : State) (n : Nat) (g : BitVec 4) (vd va : BitVec 5) (ty : BitVec 4) (op : Nat) : State :=
  let t := ty.toNat
  let w := tyWidth t
  let x := s.pl
  let k := x.vguard g
  let rs := redSteps t (x.fctl 0) op (x.rv va) ((List.range (1024 / w)).filter fun e => k.getLsbD (elemLane w e))
  let es : List FElem := rs.map fun r => { lane := elemLane w r.1, r := r.2, fmt := tyFmt t }
  s.fpEnd n es true fun x =>
    x.wv vd (mergeLanes k (x.rv vd) (ofElems w ((List.range (1024 / w)).map fun e =>
      match rs.find? fun r => r.1 == e with | some r => r.2.bits | none => 0)))

/-- VRED, X = 0: add (R438, R439). -/
def execVred (o : Vu0) (s : State) : Out := .next (s.reduce 1 o.g o.vd o.va o.ty 0)

/-- VRED, X = 1 (R439). -/
def execVredX (o : Vred1) (s : State) : Out := .next (s.reduce 2 o.g o.vd o.va o.ty o.rop.toNat)

/-- VSCAN, X = 0: add (R438, R439). -/
def execVscan (o : Vu0) (s : State) : Out := .next (s.scan 1 o.g o.vd o.va o.ty 0)

/-- VSCAN, X = 1 (R439). -/
def execVscanX (o : Vred1) (s : State) : Out := .next (s.scan 2 o.g o.vd o.va o.ty o.rop.toNat)

/-! ### Moves of elements (R416, R423, R437, R444, R417) -/

/-- VBCAST, scalar form (R416). -/
def execVbcastScalar (o : VbcS) (s : State) : Out :=
  let w := tyWidth o.ty.toNat
  let v := s.pl.rg o.gs
  .next (s.vecMove 2 o.g w o.vd fun _ => v.toNat % 2 ^ w)

/-- VBCAST, element form (R416). -/
def execVbcastElement (o : VbcE) (s : State) : Out :=
  let w := tyWidth o.ty.toNat
  let x := elemAt w (s.pl.rv o.va) o.el.toNat
  .next (s.vecMove 2 o.g w o.vd fun _ => x)

/-- VEXT (R423): the mask bit of the element's lane governs gd. -/
def execVext (o : Vext) (s : State) : Out :=
  let t := o.ty.toNat
  let w := tyWidth t
  let x := BitVec.ofInt 64 (intOf (tySigned t) w (elemAt w (s.pl.rv o.va) o.el.toNat))
  .next (if (s.pl.vguard o.g).getLsbD (elemLane w o.el.toNat) then (s.modPl fun p => p.wg o.gs x).advance 2 else s.advance 2)

/-- VPERM (R437). -/
def execVperm (o : Vsh) (s : State) : Out :=
  let w := tyWidth o.ty.toNat
  let a := s.pl.rv o.va
  let b := s.pl.rv o.vb
  .next (s.vecMove (1 + o.x.toNat) o.g w o.vd fun e => if elemAt w b e < 1024 / w then elemAt w a (elemAt w b e) else 0)

/-- VSLIDE (R444). -/
def execVslide (o : Vslide) (s : State) : Out :=
  let w := tyWidth o.ty.toNat
  let n := 1024 / w
  let d := o.dist.toNat
  let a := s.pl.rv o.va
  let b := s.pl.rv o.vb
  .next (s.vecMove 2 o.g w o.vd fun e =>
    if o.v1 = 0 then (if d ≤ e then elemAt w a (e - d) else elemAt w b (n - d + e))
    else (if e + d < n then elemAt w a (e + d) else elemAt w b (e + d - n)))

/-- VCLASS (R417). -/
def execVclass (o : Vcls) (s : State) : Out :=
  let w := tyWidth o.ty.toNat
  let f := fmtOf o.ty.toNat
  let a := s.pl.rv o.va
  .next (s.vecMove (1 + o.x.toNat) o.g w o.vd fun e => f.classOf (elemAt w a e))

/-! ### VSPLIT, VJOIN (R446, R429) -/

/-- Digit `t` of |a| / 2^e with |a| = m · 2^x < 2^e, toward zero (spec/09_matrix.md R184). -/
def splitDigit (m : Nat) (x e : Int) (t : Nat) : Nat :=
  let sh := x - e + 7 * (t + 1)
  (if 0 ≤ sh then m * 2 ^ sh.toNat else if sh < -2000 then 0 else m / 2 ^ (-sh).toNat) % 128

/-- One lane of VSPLIT: the digit with its flags, and VB. -/
def splitLane (k : FCtl) (e : Int) (t : Nat) (b : Nat) : FRes × Nat :=
  let f := fmtOf 0
  let i := f.input k b
  match i.1 with
  | .fin n m x =>
    if m = 0 then ((FRes.ok 0).flushed i.2, 0)
    else
      let ex := x + m.log2 + 1
      if e < ex then ({ FRes.ok 0 with fl := fNV, flush := i.2 }, wrapInt 64 ex)
      else
        let d := splitDigit m x e t
        ((FRes.ok (wrapInt 64 (if n then -(d : Int) else d))).flushed i.2, wrapInt 64 ex)
  | .inf _ => (FRes.ok 0, 2 ^ 63 - 1)
  | .nan _ sn _ => ({ FRes.ok 0 with fl := if sn then fNV else 0, sn := sn }, 2 ^ 63 - 1)

/-- VSPLIT (R446). -/
def execVsplit (o : Vsplit) (s : State) : Out :=
  let x := s.pl
  let k := x.vguard o.g
  let a := x.rv o.va
  let e := (x.rg o.gs).toInt
  let rs := (List.range 16).map fun i => splitLane (x.fctl 0) e o.t.toNat (elemAt 64 a i)
  let es : List FElem := ((rs.zipIdx).filter fun r => k.getLsbD r.2).map fun r => { lane := r.2, r := r.1.1, fmt := none }
  .next (s.fpEnd 2 es true fun x =>
    (x.wv o.vd (mergeLanes k (x.rv o.vd) (ofElems 64 (rs.map fun r => r.1.bits)))).wv o.vb
      (mergeLanes k (x.rv o.vb) (ofElems 64 (rs.map (·.2)))))

/-- The exponent of a join; beyond these bounds a finite sum rounds as it does at them. -/
def joinExp (e : Int) : Int := max (-4000) (min 4000 e)

/-- VJOIN (R429): one rounding by RNE. -/
def execVjoin (o : Vjoin) (s : State) : Out :=
  let x := s.pl
  let f := fmtOf 0
  let k : FCtl := { x.fctl 0 with mode := 1 }
  let a := x.rv o.va
  let b := x.rv o.vb
  let c := x.rv o.vc
  .next (s.vecOp 2 o.g 64 (some f) o.vd fun i =>
    let z := f.input k (elemAt 64 c i)
    let t := intOf true 64 (elemAt 64 a i)
    let e := joinExp (intOf true 64 (elemAt 64 b i) - 7 * (o.lv.toNat + 2))
    (f.add k z.1 (.fin (decide (t < 0)) t.natAbs (if t = 0 then 0 else e))).flushed z.2)

/-! ### VPACK4, VUNPK4 (R435, R436) -/

/-- VPACK4 (R435): one block, governed by bit 0 of the guard. -/
def execVpack4 (o : Pack) (s : State) : Out :=
  let x := s.pl
  let k := x.vguard o.g
  .next (
    if k.getLsbD 0 then
      let t := o.ty.toNat
      let w := tyWidth t
      let f := fmtOf t
      let c := x.fctl o.rm
      let a := x.rv o.va
      let ins := (List.range 32).map fun e => f.input c (elemAt w a e)
      let sc := blockScale o.bt.toNat (ins.map (·.1))
      let cs := ins.map fun i => blockCode o.bt.toNat c.mode sc (o.sat == 1) i.1
      let es : List FElem := (cs.zip ins).map fun z =>
        { lane := 0, r := { bits := z.1.1, fl := z.1.2.1, sn := z.2.1.isSn, flush := z.2.2, clamp := z.1.2.2 }, fmt := none }
      let codes := cs.foldr (fun z acc => acc * 16 + z.1) 0
      let r := BitVec.ofNat 1024 (codes + (64 * o.bt.toNat + sc) * 2 ^ 128)
      s.fpEnd 2 es true fun x => x.wv o.vd (mergeLanes (k ||| 7) (x.rv o.vd) r)
    else s.advance 2)

/-- One element of VUNPK4: above the FP16 range it is an infinity (R436). -/
def unpackElem (t : Nat) (k : FCtl) (v : FVal) : FRes :=
  match v with
  | .fin n m e =>
    if t = 2 && decide (65504 < m * 2 ^ e.toNat / 2 ^ (-e).toNat) then { FRes.ok ((fmtOf t).inf n) with fl := fOF ||| fNX }
    else (fmtOf t).round k false (t != 2) n m e
  | _ => FRes.ok 0

/-- VUNPK4 (R436). -/
def execVunpk4 (o : Unpack) (s : State) : Out :=
  let t := o.ty.toNat
  let w := tyWidth t
  let x := s.pl
  let k := x.vguard o.g
  let a := (x.rv o.va).toNat
  let e := a / 2 ^ 128 % 64
  let rs := elemResults w 32 k fun i => unpackElem t (x.fctl 0) (blockDy o.bt.toNat e (a / 2 ^ (4 * i) % 16))
  .next (s.fpEnd 2 (activeElems w (tyFmt t) rs) true fun x => x.wv o.vd (mergeLanes k (x.rv o.vd) (resultBits w rs)))

end Sys2Proof.Machine
end

