-- ==== Sys2Proof/Machine/Matrix.lean ====
section
/-! DEFINITION. The matrix engine: MMT, MZERO, MDRAIN, MDADD, MBRD and MSTAT, their work boundary by boundary, and its end
(spec/09_matrix.md R162 to R183, spec/19_ref_m_r.md R368, R373 to R384). -/

namespace Sys2Proof.Machine

/-! ### Operands of MMT (R164 to R168) -/

/-- Bytes of an element of TYPE (0 for the 4-bit block type). -/
def mmtSize (ty : Nat) : Nat := if ty = 14 then 0 else tyWidth ty / 8

/-- K-steps of a K dimension (R162). -/
def kSteps (k : Nat) : Nat := ceilDiv k 32

/-- The row pitch of a dense A (R166). -/
def mmtPitch (ty k : Nat) : Nat := if ty = 14 then ceilDiv (17 * kSteps k) 32 * 32 else ceilDiv (k * mmtSize ty) 32 * 32

/-- Code `i` of a 17-byte group as an exact value; codes past K read as 0 (R146, R166). -/
def groupVal (bs : List Byte) (i : Nat) : FVal :=
  let sc := (bs.getD 16 0).toNat
  let b := (bs.getD (i / 2) 0).toNat
  blockDy (sc / 64) (sc % 64) (if i % 2 = 0 then b % 16 else b / 16)

/-- An element's bytes as a value: integers as exact numbers. -/
def mmtVal (ty : Nat) (bs : List Byte) : FVal :=
  if tyFp ty then (fmtOf ty).decode (leNat bs)
  else
    let x := intOf (tySigned ty) (tyWidth ty) (leNat bs)
    .fin (decide (x < 0)) x.natAbs 0

/-- Element `k` of column `j` of B, in slice `j` of the creel (R164). -/
def mmtB (c : Core) (ty cb j k : Nat) : FVal :=
  let byte (x : Nat) : Byte := memRead c.creel (16384 * j + (cb + x) % 16384)
  if ty = 14 then groupVal ((List.range 17).map fun x => byte (17 * (k / 32) + x)) (k % 32)
  else mmtVal ty ((List.range (mmtSize ty)).map fun x => byte (k * mmtSize ty + x))

/-- The bytes of an A element, or of the group that holds it, in a dense A at scratchpad offset `o`. -/
def denseA (c : Core) (ty kd o i k : Nat) : List Byte :=
  if ty = 14 then memBytes c.spad (o + i * mmtPitch ty kd + 17 * (k / 32)) 17
  else memBytes c.spad (o + i * mmtPitch ty kd + k * mmtSize ty) (mmtSize ty)

/-- The bytes of an A element or group from a stream record (R166, R200); LEASE outside the lease. -/
def streamA (c : Core) (x : Plane) (t : Stream) (ty kd i k : Nat) : Except (Nat × Word) (List Byte) :=
  let n := if ty = 14 then i * kSteps kd + k / 32 else i * kd + k
  match t.elem (leaseIdx c x) n with
  | .pad => .ok (if ty = 14 then List.replicate 16 (t.pad.setWidth 8) ++ [(t.pad.extractLsb' 8 8)] else t.padBytes)
  | .bad code v => .error (code, v)
  | .at a =>
    match (spadOff a).bind fun o => leaseBytes c x o (if ty = 14 then 17 else t.size) with
    | some bs => .ok bs
    | none => .error (8, a)

/-- A values of one K-step of row `i`: elements `32g` on. -/
def rowA (c : Core) (x : Plane) (st : Option Stream) (ty kd o i g : Nat) : Except (Nat × Word) (List FVal) :=
  ((List.range (min 32 (kd - 32 * g))).map (32 * g + ·)).mapM fun k =>
    match (match st with | some t => streamA c x t ty kd i k | none => .ok (denseA c ty kd o i k)) with
    | .ok bs => .ok (if ty = 14 then groupVal bs (k % 32) else mmtVal ty bs)
    | .error e => .error e

/-! ### Group sums (R167, R168) -/

/-- A product of two numbers that are no NaNs, none where it is 0 · ∞. -/
def prodVal (a b : FVal) : Option FVal :=
  match a, b with
  | .fin na ma ea, .fin nb mb eb => some (.fin (na != nb) (ma * mb) (ea + eb))
  | .fin _ m _, b => if m = 0 then none else some (.inf (a.neg != b.neg))
  | a, .fin _ m _ => if m = 0 then none else some (.inf (a.neg != b.neg))
  | a, b => some (.inf (a.neg != b.neg))

/-- The exact sum of finite values; a zero sum is −0 only when every term is −0 (R168). -/
def exactSum (vs : List FVal) : FVal :=
  let ts := vs.filterMap fun v => match v with | .fin n m e => if m = 0 then none else some (n, m, e) | _ => none
  let lo := ts.foldl (fun (a : Option Int) t => match a with | none => some t.2.2 | some x => some (min x t.2.2)) none
  match lo with
  | none => .fin (vs.all fun v => v.neg) 0 0
  | some e =>
    let t : Int := ts.foldl (fun a t => let y : Int := t.2.1 * 2 ^ (t.2.2 - e).toNat; if t.1 then a - y else a + y) 0
    .fin (decide (t < 0)) t.natAbs e

/-- A group sum: its value, NV, and whether an sNaN was an operand. -/
def groupSum (src : Fmt) (ps : List (FVal × FVal)) : FVal × Bool × Bool :=
  let ops := ps.flatMap fun p => [p.1, p.2]
  let dst := fmtOf 1
  match ops.find? FVal.isNan with
  | some v =>
    let sn := ops.any FVal.isSn
    (dst.decode (match v with | .nan n _ p => nanInto src dst n p | _ => dst.nan false), sn, sn)
  | none =>
    let prods := ps.map fun p => prodVal p.1 p.2
    let infs := prods.filterMap fun p => match p with | some (.inf n) => some n | _ => none
    if prods.any Option.isNone || (infs.contains true && infs.contains false) then (dst.decode (dst.nan false), true, false)
    else match infs with
      | n :: _ => (.inf n, false, false)
      | [] => (exactSum (prods.filterMap id), false, false)

/-- An exact value as an integer. -/
def FVal.toInt (v : FVal) : Int := match v with | .fin n m e => (let y : Int := m * 2 ^ e.toNat; if n then -y else y) | _ => 0

/-! ### Work (R167, R179, R181, R183) -/

/-- The bobbin offset of an entry (R173). -/
def entryOff (tile : BitVec 3) (i j : Nat) : Nat := 131072 * tile.toNat + 8 * (128 * i + j)

/-- What the work of a step leaves: the core, flags with [5] an sNaN consumed, and events. -/
structure Work where
  k : Core
  fl : BitVec 6
  stat : Stat
  deriving DecidableEq, Repr

/-- The flags of a result as an engine captures them (R177). -/
def FRes.engine (r : FRes) : BitVec 6 := (r.fl &&& 0x1F) ||| (if r.sn then 0x20 else 0)

/-- Flushes and clamps of a result; NaNs and infinities of a written value are counted where it ends. -/
def FRes.flushStat (r : FRes) : Stat := { sat := if r.clamp then 1 else 0, flush := r.flush, nan := 0, inf := 0 }

/-- Adds one group sum to an entry; `euf` as captured at issue (R177). -/
def Work.addGroup (w : Work) (euf : Bool) (o : Nat) (ty : Nat) (ps : List (FVal × FVal)) : Work :=
  if tyFp ty || ty = 14 then
    let g := groupSum (fmtOf (if ty = 14 then 1 else ty)) ps
    let k := if g.2.1 then w.k.modTile (tileAt o) fun t => { t with fl := t.fl ||| fNV } else w.k
    let r := k.portFp o false euf g.1
    { k := r.1, fl := w.fl ||| r.2.engine ||| (if g.2.1 then fNV else 0) ||| (if g.2.2 then 0x20 else 0), stat := w.stat.add r.2.flushStat }
  else { w with k := w.k.portInt o ((ps.map fun p => p.1.toInt * p.2.toInt).foldl (· + ·) 0) }

/-- One K-step of an MMT: every group sum of step `g`, or an engine fault (R166, R167). A stream record is read anew at each K-step
(notes/assumptions/79.md). -/
def mmtStep (c : Core) (x : Plane) (tile : BitVec 3) (a : Word) (m n kd cb : Nat) (ty : Nat) (stream euf : Bool) (g : Nat) :
    Except (Nat × Word) Work :=
  match (if stream then (streamAt c x a 0).map some else .ok none) with
  | .error e => .error e
  | .ok st =>
    match (List.range m).mapM fun i => rowA c x st ty kd ((spadOff a).getD 0) i g with
    | .error e => .error e
    | .ok rows =>
      let cols := (List.range n).map fun j => (List.range (min 32 (kd - 32 * g))).map fun k => mmtB c ty cb j (32 * g + k)
      .ok ((rows.zipIdx).foldl (fun w r =>
        (cols.zipIdx).foldl (fun (w : Work) col => w.addGroup euf (entryOff tile r.2 col.2) ty (r.1.zip col.1)) w)
        { k := c, fl := 0, stat := Stat.reset })

/-- Clears entries i < m, j < n of a tile (R167). -/
def Core.clearTile (k : Core) (tile : BitVec 3) (m n : Nat) : Core :=
  (List.range m).foldl (fun k i => { k with bobbin := memClear k.bobbin (entryOff tile i 0) (8 * n) }) k

/-- The accumulator format of a TYPE (R167). -/
def accFmt (ty : Nat) : BitVec 2 := if ty = 9 || ty = 13 then 1 else 2

/-- An entry converted to TYPE as MDRAIN and MBRD convert (R179, R180). -/
def drainElem (t : Tile) (mode : Nat) (euf sat : Bool) (ty x : Nat) : FRes :=
  let k : FCtl := { mode := mode, daz := false, ftz := t.fz, euf := euf }
  convElem (if t.fmt = 3 then 0 else if t.fmt = 2 then 1 else 6) ty k sat (if t.fmt = 2 then x % 2 ^ 32 else x)

/-- The events of a converted element, its NaN or infinity included. -/
def drainStat (ty : Nat) (r : FRes) : Stat :=
  if tyFp ty then evOf (fmtOf ty) r else r.flushStat

/-- One row of a tile converted: bytes, flags for the tile, engine flags, events. -/
def drainRow (k : Core) (tile : BitVec 3) (mode : Nat) (euf sat : Bool) (ty i j0 n : Nat) : List Nat × BitVec 6 × BitVec 6 × Stat :=
  let t := k.tile tile
  let rs := (List.range n).map fun j => drainElem t mode euf sat ty (k.entry (entryOff tile i (j0 + j)))
  (rs.map (·.bits), rs.foldl (fun a r => a ||| r.fl) 0, rs.foldl (fun a r => a ||| r.engine) 0,
    rs.foldl (fun a r => a.add (drainStat ty r)) Stat.reset)

/-- An MDADD's entry as it is sent (R181): its bits in the add's format, and whether its conversion was inexact. -/
def mdaddSent (sf : BitVec 2) (fp : Bool) (x : Nat) : Nat × Bool :=
  if fp && (sf = 0 || sf = 1) then
    let r := intToFp true 64 1 { mode := 1, daz := false, ftz := false, euf := false } false x
    (r.bits, r.fl &&& fNX != 0)
  else (x, false)

/-- The format of an MDADD's adds (R375): 1 INT64, 2 FP32, 3 FP64. -/
def mdaddFmt (sf : BitVec 2) (fp : Bool) : BitVec 2 := if !fp then 1 else if sf = 3 then 3 else 2

/-- Adds one row of sent entries to a destination tile row at bobbin offset `o`; `euf` as the MDADD captured it (R177). -/
def addRow (k : Core) (euf : Bool) (o : Nat) (f : BitVec 2) (xs : List Nat) : Work :=
  (xs.zipIdx).foldl (fun (w : Work) x =>
    let r := w.k.portBits (o + 8 * x.2) f euf x.1
    { k := r.1, fl := w.fl ||| r.2.engine,
      stat := w.stat.add (if f = 1 then Stat.reset else evOf (fmtOf (if f = 3 then 0 else 1)) r.2) })
    { k := k, fl := 0, stat := Stat.reset }

/-- The destination of an MDADD's row: a core of the package, or a node with the offset in its core window. -/
inductive RowDst where
  | core (c o : Nat)
  | node (n w : Nat)
  | none
  deriving DecidableEq, Repr

/-- The row `i` of the tile at address `a` (R181). -/
def State.rowDst (s : State) (c : Nat) (a : Word) (i : Nat) : RowDst :=
  match (winOf a).own s.fab.node with
  | .bobbin o => .core c (o + 1024 * i)
  | .peer d w => .core d (w - 0x100000 + 1024 * i)
  | .nodeCore n d w => .node n (0x400000 * d + w + 1024 * i)
  | _ => .none

/-! ### Beginning (R163, R171, R379, R178, R384) -/

/-- The stream record of an MMT fits its TYPE and holds enough elements (R166). -/
def streamFits (t : Stream) (ty m kd : Nat) : Bool :=
  if ty = 14 then t.esz == 0 && decide (m * kSteps kd ≤ t.len) else t.size == mmtSize ty && decide (m * kd ≤ t.len)

/-- The engine of core `c` may work for the operation now (R13, R78, R86, R282). -/
def State.mxMay (s : State) (c : Nat) (o : MxOp) : Bool :=
  (!o.kind.consults || s.slotFree c o.c) && s.unitRuns o.c.vd (mxUnit c)

/-- The test of an MMT's stream record (R166), made when the operation enters the engine, or once its acquire and the task's earlier stores to
the record let it be read (R220, R222). -/
def State.testStream (s : State) (c : Nat) (o : MxOp) : State :=
  match o.kind with
  | .mmt a m n kd _ ty true _ =>
    if o.tested || o.c.st != .waiting || m = 0 || n = 0 || kd = 0 || !(s.cmdMay c o.c) || !(s.unitRuns o.c.vd (mxUnit c)) ||
        !(s.cmdClear c o.c (.spad c ((spadOff a).getD 0)) 64) then s
    else
      let s := s.readSect o.c.vd c ((spadOff a).getD 0) 64
      match streamAt (s.core c) (s.plane c o.c.plane) a 0 with
      | .error e => s.mxFault c o e.1 e.2
      | .ok t => if streamFits t ty.toNat m kd then s.modMx c o.c.id fun o => { o with tested := true } else s.mxFault c o 1 a
  | _ => s

/-- An MMT whose stream record is still to be tested. -/
def MxOp.untested (o : MxOp) : Bool :=
  match o.kind with | .mmt _ m n kd _ _ true _ => !o.tested && m != 0 && n != 0 && kd != 0 | _ => false

/-- What an operation clears as it begins is clear of the task's earlier accesses (R220). -/
def State.clearMay (s : State) (c : Nat) (o : MxOp) : Bool :=
  match o.kind with
  | .mzero => s.cmdClear c o.c (.bobbin c (entryOff o.tile 0 0)) 131072
  | .mmt _ m n _ _ _ _ true => (List.range m).all fun i => s.cmdClear c o.c (.bobbin c (entryOff o.tile i 0)) (8 * n)
  | _ => true

/-- An operation begins its work when its turn comes and the engine may work for it: an MMT sets KST and, zero-first, clears its entries and
the status word; MZERO does all it does. -/
def State.beginMx (s : State) (c : Nat) : State :=
  match s.mxTurn c with
  | none => s
  | some o =>
    if o.untested then s.testStream c o
    else if o.c.st != .waiting || !(s.cmdMay c o.c) || !(s.mxMay c o) || !(s.clearMay c o) then s
    else
      let run (s : State) (st : OpSt) : State :=
        s.modMx c o.c.id fun o => { o with c := { o.c with st := st }, sf := ((s.core c).tile o.tile).fmt }
      match o.kind with
      | .mzero =>
        run (s.modCore c fun k =>
          ({ k with bobbin := memClear k.bobbin (entryOff o.tile 0 0) 131072 }).modTile o.tile fun t =>
            { t with kst := 0, fmt := 0, mix := false, iov := false, fl := 0, fz := o.ftz }) .finished
      | .mmt _ m n kd _ ty _ zf =>
        if m = 0 || n = 0 || (kd = 0 && !zf) then run s .finished
        else
          let s := s.modCore c fun k =>
            let k := k.modTile o.tile fun t => { t with kst := 0 }
            if zf then
              (k.clearTile o.tile m n).modTile o.tile fun t =>
                { t with fmt := accFmt ty.toNat, fz := o.ftz, mix := false, iov := false, fl := 0 }
            else k
          run s (if kd = 0 then .finished else .running)
      | .mdrain _ _ _ _ => run s .running
      | .mdadd _ _ => run s .running
      | .mbrd _ _ _ _ _ => run s .running

/-- A matrix operation enters the engine, where its stream record is tested (R166), and begins if its turn has come (R171). -/
def State.enterMatrix (c : Nat) (p : BitVec 1) (o : EngOp) (s : State) : State :=
  let s := s.enterOp c p o
  (match o with | .mx o => s.testStream c o | .cp _ => s).beginMx c

/-! ### Issue -/

/-- An operation of the executing task, with the controls captured at issue (R177). -/
def State.mxOp (s : State) (tile : BitVec 3) (kind : MxKind) (c : Cmd) : EngOp :=
  .mx { c := c, kind := kind, tile := tile, en := s.pl.sr.fpen.setWidth 6 &&& 0x3D, tensor := s.pl.sr.tensor,
        ftz := s.pl.sr.fpen.getLsbD 12, prog := 0, acks := 0, flags := 0, srcNx := false, stat := Stat.reset, sf := 0,
        tested := false }

/-- The issue of a matrix major. -/
def State.mxIssue (s : State) (bk : BitVec 6) (step : BitVec 3) (ar : BitVec 2) (scp : BitVec 3) (tile : BitVec 3) (kind : MxKind) : State :=
  s.engineIssue false bk step ar scp (s.mxOp tile kind) State.enterMatrix

/-- MMT (R165, R379). -/
def execMmt (o : Mmt) (s : State) : Out :=
  .next (
    if s.pl.guard o.g then
      let a := s.pl.rg o.a
      let b := s.pl.rg o.b
      let m := (b.extractLsb' 0 8).toNat
      let n := (b.extractLsb' 8 8).toNat
      let kd := (b.extractLsb' 16 16).toNat
      let cb := (b.extractLsb' 32 14).toNat
      let stream := o.st == 1
      let size := if stream then 64 else m * mmtPitch o.ty.toNat kd
      if 128 < m ∨ 128 < n ∨ b.extractLsb' 46 18 ≠ 0 then s.trap cILLEGAL b
      else if cb % 32 ≠ 0 ∨ a &&& 31 ≠ 0 then s.trap cALIGN a
      else if !(s.pl.leased a size) then s.trap cLEASE a
      else s.mxIssue o.bk o.step o.ar o.scp o.tile (.mmt a m n kd cb o.ty stream (o.f == 1))
    else s.advance 2)

/-- MZERO (R178, R384). -/
def execMzero (o : Mzero) (s : State) : Out :=
  .next (if s.pl.guard o.g then s.mxIssue 0 0 0 0 o.tile .mzero else s.advance 2)

/-- MDRAIN (R179, R377). -/
def execMdrain (o : Mdrain) (s : State) : Out :=
  .next (
    if s.pl.guard o.g then
      let a := s.pl.rg o.a
      let rm := BitVec.ofNat 3 (s.pl.mode o.rm)
      if a &&& 31 ≠ 0 then s.trap cALIGN a
      else if !(s.pl.leased a (16384 * (tyWidth o.ty.toNat / 8))) then s.trap cLEASE a
      else s.mxIssue o.bk o.step o.ar o.scp o.tile (.mdrain a o.ty rm (o.sat == 1))
    else s.advance 2)

/-- The destination check of MDADD (R374): a cause, or none. -/
def State.mdaddBad (s : State) (d : Vd) (a : Word) : Option Nat :=
  let tiled (o : Nat) : Option Nat := if o % 131072 = 0 then none else some cALIGN
  let peer (w : Nat) (ok : Bool) : Option Nat :=
    if (coreWin w).map (·.1) = some 1 then
      (match tiled (w - 0x100000) with
      | some c => some c
      | none => if ok then none else some cPERM)
    else some cATOMIC
  match (winOf a).own s.fab.node with
  | .bobbin o => tiled o
  | .peer n w => peer w (ownsCore d n)
  | .nodeCore n _ w => peer w (d.span.contains n)
  | _ => some cATOMIC

/-- MDADD (R181, R374). -/
def execMdadd (o : Mdadd) (s : State) : Out :=
  .next (
    if s.pl.guard o.g then
      let a := s.pl.rg o.a
      match s.vd s.curVd with
      | none => s
      | some d =>
        match s.mdaddBad d a with
        | some code => s.trap code a
        | none => s.mxIssue o.bk o.step o.ar o.scp o.tile (.mdadd a (o.f == 1))
    else s.advance 2)

/-- MBRD (R180, R373). -/
def execMbrd (o : Mbrd) (s : State) : Out :=
  .next (
    if s.pl.guard o.g then
      let a := s.pl.rg o.a
      let e := 1024 / tyWidth o.ty.toNat
      let q := (a.extractLsb' 7 4).toNat
      if a.extractLsb' 11 53 ≠ 0 ∨ 128 ≤ q * e then s.trap cILLEGAL a
      else s.mxIssue 0 0 0 0 o.tile (.mbrd (a.extractLsb' 0 7).toNat q o.ty o.v (BitVec.ofNat 3 (s.pl.mode 0)))
    else s.advance 2)

/-- MSTAT (R182, R381). -/
def execMstat (o : Mstat) (s : State) : Out := .next (s.scalar o.g 1 o.d ((s.core s.fc).tile o.tile).word)

/-! ### Steps of the work -/

/-- What a boundary of an operation leaves: its core's new contents, and the operation's progress. -/
def State.mxWork (s : State) (c : Nat) (o : MxOp) (w : Work) (last : Bool) : State :=
  (s.setCore c w.k).modMx c o.c.id fun o =>
    { o with prog := o.prog + 1, flags := o.flags ||| w.fl, stat := o.stat.add w.stat,
             c := if last then o.c.finish none else o.c }

/-- The sectors of A that a K-step reads: scratchpad offsets and lengths. -/
def mmtReads (ty kd m o g : Nat) : List (Nat × Nat) :=
  (List.range m).map fun i =>
    if ty = 14 then (o + i * mmtPitch ty kd + 17 * g, 17) else (o + i * mmtPitch ty kd + 32 * g * mmtSize ty, 32 * mmtSize ty)

/-- The creel bytes that a K-step reads: a whole slice where its column wraps (R164). -/
def mmtCreel (ty n cb g : Nat) : List (Nat × Nat) :=
  let at_ := (cb + (if ty = 14 then 17 * g else 32 * g * mmtSize ty)) % 16384
  let len := if ty = 14 then 17 else 32 * mmtSize ty
  (List.range n).map fun j => if at_ + len ≤ 16384 then (16384 * j + at_, len) else (16384 * j, 16384)

/-- The scratchpad bytes that a K-step of an MMT reads through its stream record: the record, and of each element or group the index and
the bytes (R166, R200). -/
def streamReads (k : Core) (x : Plane) (a : Word) (ty m kd g : Nat) : List (Nat × Nat) :=
  match streamAt k x a 0 with
  | .error _ => []
  | .ok t =>
    let nums (i : Nat) : List Nat :=
      if ty = 14 then [i * kSteps kd + g] else (List.range (min 32 (kd - 32 * g))).map fun e => i * kd + 32 * g + e
    ((spadOff a).getD 0, 64) :: ((List.range m).flatMap nums).flatMap fun n =>
      (if t.ind then [(t.ibase + (indicesOf t.dims n).getD t.idim 0 * 2 ^ (t.isz + 1), 2 ^ (t.isz + 1))] else []) ++
      (match t.elem (leaseIdx k x) n with
      | .at y => (match spadOff y with | some o => [(o, if ty = 14 then 17 else t.size)] | none => [])
      | _ => [])

/-- One boundary's work of the operation whose turn it is: a K-step of MMT, a row of MDRAIN or MDADD (R183). -/
def State.mxBoundary (s : State) (c : Nat) (o : MxOp) : State :=
  let k := s.core c
  match o.kind with
  | .mmt a m n kd cb ty stream _ =>
    let g := o.prog
    let reads := if stream then streamReads k (k.plane o.c.plane) a ty.toNat m kd g else mmtReads ty.toNat kd m ((spadOff a).getD 0) g
    if !(reads.all fun r => s.cmdClear c o.c (.spad c r.1) r.2) ||
        !((mmtCreel ty.toNat n cb g).all fun r => s.cmdClear c o.c (.creel c r.1) r.2) ||
        !((List.range m).all fun i => s.cmdClear c o.c (.bobbin c (entryOff o.tile i 0)) (8 * n)) then s
    else
      match mmtStep k (k.plane o.c.plane) o.tile a m n kd cb ty.toNat stream (o.en.getLsbD 3) g with
      | .error e => s.mxFault c o e.1 e.2
      | .ok w =>
        let w := { w with k := w.k.modTile o.tile fun t => { t with kst := BitVec.ofNat 16 (g + 1) } }
        let s := s.mxWork c o w (decide (kSteps kd ≤ g + 1))
        reads.foldl (fun s r => s.readSect o.c.vd c r.1 r.2) s
  | .mdrain a ty rm sat =>
    let b := tyWidth ty.toNat / 8
    let at_ := (spadOff a).getD 0 + 128 * b * o.prog
    if !(s.cmdClear c o.c (.spad c at_) (128 * b)) || !(s.cmdClear c o.c (.bobbin c (entryOff o.tile o.prog 0)) 1024) then s
    else
      let r := drainRow k o.tile rm.toNat (o.en.getLsbD 3) sat ty.toNat o.prog 0 128
      let k := ({ k with spad := memWrite k.spad at_ (r.1.flatMap fun x => leBytes x b) }).modTile o.tile fun t => { t with fl := t.fl ||| r.2.1 }
      s.mxWork c o { k := k, fl := r.2.2.1, stat := r.2.2.2 } (o.prog == 127)
  | .mdadd a fp =>
    if !(s.cmdClear c o.c (.bobbin c (entryOff o.tile o.prog 0)) 1024) then s
    else
      let sent := (List.range 128).map fun j => mdaddSent o.sf fp (k.entry (entryOff o.tile o.prog j))
      let nx := sent.any (·.2)
      let xs := sent.map (·.1)
      let f := mdaddFmt o.sf fp
      let s := if nx then
        (s.modCore c fun k => k.modTile o.tile fun t => { t with fl := t.fl ||| fNX }).modMx c o.c.id fun o => { o with srcNx := true }
        else s
      match s.rowDst c a o.prog with
      | .core d off =>
        if !(s.cmdClear c o.c (.bobbin d off) 1024) then s
        else
          let w := addRow (s.core d) (o.en.getLsbD 3) off f xs
          (s.setCore d w.k).modMx c o.c.id fun o =>
            { o with prog := o.prog + 1, flags := o.flags ||| w.fl, stat := o.stat.add w.stat,
                     c := if o.prog = 127 then o.c.finish none else o.c }
      | .node n w =>
        if !(s.cmdClear c o.c (.rcore n w) 1024) then s
        else
          let m := mkMsg 7 n s.node o.c.vd 0 (remoteAddr (.rcore n w)) (BitVec.ofNat 64 ((if fp then 1 else 0) + (if f = 3 then 2 else 0))) 0 0
            (xs.flatMap fun x => leBytes x 8)
          (s.sendReq n m (.mdadd c o.c.id)).modMx c o.c.id fun o =>
            { o with prog := o.prog + 1, acks := o.acks + 1, c := if o.prog = 127 then o.c.finish none else o.c }
      | .none => s.mxFault c o cPERM a
  | .mzero => s
  | .mbrd _ _ _ _ _ => s

/-- K_STEP (R162, R167, R183): the operation whose turn it is begins, or does one boundary's work. -/
def execKStep (core : BitVec 10) (s : State) : Out :=
  let c := core.toNat
  .next (
    match s.mxTurn c with
    | none => s
    | some o => if o.c.st = .waiting then s.beginMx c else if s.mxMay c o then s.mxBoundary c o else s)

/-- MBRD_READY (R180, R373): the row's segment is read, converted and written to the register, whose task may use it. -/
def execMbrdReady (core : BitVec 10) (s : State) : Out :=
  let c := core.toNat
  .next (
    match s.mxTurn c with
    | none => s
    | some o =>
      match o.kind with
      | .mbrd row seg ty v rm =>
        if !(s.mxMay c o) || o.c.st != .running then s
        else
          let w := tyWidth ty.toNat
          let e := 1024 / w
          if !(s.cmdClear c o.c (.bobbin c (entryOff o.tile row (seg * e))) (8 * e)) then s
          else
            let r := drainRow (s.core c) o.tile rm.toNat (o.en.getLsbD 3) false ty.toNat row (seg * e) e
            let k := (s.core c).modTile o.tile fun t => { t with fl := t.fl ||| r.2.1 }
            let s := s.mxWork c o { k := k, fl := r.2.2.1, stat := r.2.2.2 } true
            if (s.plane c o.c.plane).task == some o.c.task then s.modPlane c o.c.plane fun x => x.wv v (ofElems w r.1) else s
      | _ => s)

/-! ### Completion -/

/-- NaNs and infinities among the FP32 entries that an MMT wrote, as they end (R177). -/
def mmtStat (k : Core) (tile : BitVec 3) (ty m n : Nat) : Stat :=
  if accFmt ty = 1 then Stat.reset
  else
    (List.range m).foldl (fun a i => (List.range n).foldl (fun (a : Stat) j =>
      let e := evOf (fmtOf 1) (FRes.ok (k.entry (entryOff tile i j) % 2 ^ 32))
      { a with nan := a.nan + e.nan, inf := a.inf + e.inf }) a) Stat.reset

/-- The status word that a fault of an operation's exceptions names (R177): of MDADD, the destination's, or the source's where the
only enabled exception is the conversion's NX. That of a tile in a peer package is not known here, so it is free. -/
def State.mxStatusWord (s : State) (c : Nat) (o : MxOp) : Word :=
  match o.kind with
  | .mdadd a _ =>
    if o.flags &&& o.en = 0 then ((s.core c).tile o.tile).word
    else (match s.rowDst c a 0 with
      | .core d off => ((s.core d).tile (tileAt off)).word
      | _ => Config.freeWord s.freeCtr)
  | _ => ((s.core c).tile o.tile).word

/-- The asynchronous SNAN or FPE of an operation whose work raised an enabled exception (R177). -/
def State.mxExceptions (s : State) (c : Nat) (o : MxOp) : State :=
  let en := o.en
  let hit := (o.flags &&& en) ||| (if o.srcNx then en &&& fNX else 0)
  let st := o.c.endState
  if en.getLsbD 5 && o.flags.getLsbD 5 then s.bump.cmdFault o.c 1 cSNAN (s.mxStatusWord c o) st
  else if hit &&& 0x1F ≠ 0 then s.bump.cmdFault o.c 1 cFPE (s.mxStatusWord c o) st
  else s

/-- STATE of an operation's tile, which the most recent operation that names the tile keeps (R173, R368): not while another has entered
later, nor where one that has not entered shows 1 or 5. -/
def Core.tileState (k : Core) (o : MxOp) (st : BitVec 4) : Core :=
  if k.mx.any fun x => x.tile == o.tile && decide (o.c.id < x.c.id) then k
  else k.modTile o.tile fun t => if t.st = 2 ∨ t.st = 3 then { t with st := st } else t

/-- STATE of the tile at the end of an operation (R368). -/
def Core.endTile (k : Core) (o : MxOp) : Core := k.tileState o (BitVec.ofNat 4 o.c.endState)

/-- An operation whose work has ended completes (R163, R368): MXC falls, its statistics and exceptions are reported, its step is
done. -/
def State.mxComplete (s : State) (c : Nat) (o : MxOp) : State :=
  let st := match o.kind with
    | .mmt _ m n _ _ ty _ _ => if o.prog = 0 then o.stat else o.stat.add (mmtStat (s.core c) o.tile ty.toNat m n)
    | _ => o.stat
  let s := s.modCore c fun k => let k := k.endTile o; { k with mx := k.mx.filter fun x => x.c.id != o.c.id }
  let s := s.statAdd o.c.vd o.tensor st
  let s := if (s.plane c o.c.plane).task == some o.c.task
    then s.modPlane c o.c.plane fun x => { x with oc := { x.oc with mxc := x.oc.mxc - 1 } } else s
  let s := if o.c.ended = some 6 then s else s.mxExceptions c o
  s.stepDone o.c |>.beginMx c

/-- The operation that completes next: the first that is over and does not overtake one of its own task (R221). -/
def State.mxDone (s : State) (c : Nat) : Option MxOp :=
  let ops := (s.core c).mx
  (ops.zipIdx.find? fun e => e.1.isOver && (ops.take e.2).all fun x => s.letsComplete e.1.c x.c x.kind.consults).map (·.1)

/-- MATRIX_COMPLETE (R163): the next operation whose work has ended, with every row acknowledged. -/
def execMatrixComplete (core : BitVec 10) (s : State) : Out :=
  let c := core.toNat
  .next (
    match s.mxDone c with
    | some o => if s.unitRuns o.c.vd (mxUnit c) then s.mxComplete c o else s
    | none => s)

end Sys2Proof.Machine
end

