-- ==== Sys2Proof/Machine/Fabric.lean ====
section
/-! DEFINITION. The Fliurn fabric: remote accesses served and answered, transport of requests, time offsets, ports
(spec/16_fliurn.md R309 to R316, spec/04_calendars.md R72). -/

namespace Sys2Proof.Machine

/-! ### Serving a request (R313) -/

/-- Where the bytes of a request lie in this package. -/
inductive HomeAt where
  | hbm (va : Nat)
  | core (l : Loc)
  | bad
  deriving DecidableEq, Repr

/-- The home of `n` bytes that a request of a VD names (R188, R313; notes/assumptions/10.md). -/
def homeAt (d : Vd) (addr : Word) (n : Nat) : HomeAt :=
  let a := addr.toNat
  if a + n ≤ 281474976710656 then .hbm a
  else if a < 0x2000000000000 then .bad
  else
    let x := a - 0x2000000000000
    let c := x / 0x400000
    let w := x % 0x400000
    if c < 1024 && ownsCore d c && (coreWin w).isSome && (coreWin w).map (·.1) == (coreWin (w + n - 1)).map (·.1)
    then .core (coreLoc c w) else .bad

/-- What serving a request comes to: performed with the bytes to answer, a translation fault, a refusal, held by a migration. -/
inductive Served where
  | ok (bs : List Byte)
  | fault (va : Word) (kind lvl : Nat)
  | nack (code kind : Nat)
  | held (mig : Nat)
  deriving DecidableEq, Repr

/-- The refusal of an access that met an integrity mismatch at a DPA: in a share window a NACK that stands for INTEGRITY, in a VD's own domain
an error completion (R264, R265; notes/assumptions/13.md). -/
def State.servedBad (s : State) (dpa : Nat) : Served := if s.hbm.inWindow dpa then .nack 2 5 else .nack 2 3

/-- Translates the pieces of a request. -/
def trPieces (s : State) (v : Nat) (acc : AccTy) : List (Nat × Nat) → Except Served (List (Nat × Nat)) × State
  | [] => (.ok [], s)
  | (a, n) :: rest =>
    let va := BitVec.ofNat 64 a
    match s.walk v va acc with
    | (.fault k l, s) => (.error (.fault va k l), s)
    | (.integ, s) => (.error (.nack 2 3), s)
    | (.busy, s) => (.error (.nack 2 3), s)
    | (.ok e, s) =>
      match trPieces s v acc rest with
      | (.ok ps, s) => (.ok ((e.dpa va, n) :: ps), s)
      | r => r

/-- Reads pieces at their homes. -/
def readPieces (s : State) (v : Nat) (va : Word) : List (Nat × Nat) → Option (List Byte) × State
  | [] => (some [], s)
  | (p, n) :: rest =>
    match s.homeRead p n with
    | (none, s) => (none, s.mismatch p v va)
    | (some bs, s) =>
      match readPieces s v va rest with
      | (some more, s) => (some (bs ++ more), s)
      | r => r

/-- Writes pieces at their homes; false at a mismatch. `rep`: a whole block is replaced, as only a copy engine, a VST or a migration
does (R258): of the messages from a peer package only their WRITEs carry a whole block. -/
def writePieces (s : State) (rep : Bool) (v : Nat) (va : Word) (data : List Byte) : List (Nat × Nat) → Bool × State
  | [] => (true, s)
  | (p, n) :: rest =>
    match s.homeWrite p (data.take n) rep with
    | none => (false, s.mismatch p v va)
    | some s => writePieces s rep v va (data.drop n) rest

/-- The new value of an ATOMIC message, if it writes (R313, R335). -/
def atomicNew (m : FMsg) (old : Word) : Option Word :=
  if m.w2.getLsbD 4 then (if old = m.w3 then some m.w4 else none) else some (amoNew (m.w2.setWidth 4) old m.w3)

/-- The bytes that a WRITE stores over `old`: those its mask selects (R313). -/
def writeBytes (m : FMsg) (old : List Byte) : List Byte :=
  if m.data.length = 32 then mergeBytes (m.w3.setWidth 32 |>.setWidth 64) old m.data else m.data

/-- An access to HBM for a peer package, its pieces translated. -/
def State.serveHbm (s : State) (m : FMsg) (ps : List (Nat × Nat)) : Served × State :=
  let v := m.vd
  let bad := s.servedBad ((ps.head?.map (·.1)).getD 0)
  match (if m.type = 1 then none else ps.findSome? fun p => s.hbm.migOf p.1) with
  | some i => (.held i, s)
  | none =>
    if m.type = 1 then
      match readPieces s v m.w1 ps with
      | (some bs, s) => (.ok bs, s)
      | (none, s) => (bad, s)
    else if m.type = 3 then
      let old := ps.flatMap fun p => memBytes s.hbm.mem p.1 p.2
      match writePieces s true v m.w1 (writeBytes m old) ps with
      | (true, s) => (.ok [], s)
      | (false, s) => (bad, s)
    else
      match readPieces s v m.w1 ps with
      | (none, s) => (bad, s)
      | (some old, s) =>
        match atomicNew m (leWord old) with
        | none => (.ok old, s)
        | some w =>
          match writePieces s false v m.w1 (wordBytes w) ps with
          | (true, s) => (.ok old, s)
          | (false, s) => (bad, s)

/-- An access to a core's memory for a peer package (R204, R181); what it reads counts as read (R88). A split operation reads and writes in
this one step, and the tensor events and exceptions of an MDADD or BPUT are counted and raised on neither side, since the messages of
R313 carry neither a tensor id nor enables, and their answers nothing (R159, R177, R206; notes/assumptions/93.md). -/
def State.serveCore (s : State) (m : FMsg) (l : Loc) (n : Nat) : Served × State :=
  let old := s.coreBytes l n
  let s := if m.type = 3 || m.type = 7 then s else match l.spadOf with | some (c, o) => s.readSect m.vd c o n | none => s
  if m.type = 1 then (.ok old, s)
  else if m.type = 3 then (.ok [], s.coreWrite l (writeBytes m old))
  else
    match l with
    | .bobbin c o =>
      if m.type = 7 then
        let f : BitVec 2 := if m.w2.getLsbD 0 then (if m.w2.getLsbD 1 then 3 else 2) else 1
        (.ok [], s.setCore c (addRow (s.core c) false o f ((wordsOf m.data 128).map (·.toNat))).k)
      else (.ok old, s.setCore c ((s.core c).bput o (m.w2.setWidth 4) m.w3).1)
    | .spad _ _ =>
      if m.type = 7 then (.nack 3 0, s)
      else
        match atomicNew m (leWord old) with
        | none => (.ok old, s)
        | some w => (.ok old, s.coreWrite l (wordBytes w))
    | _ => (.nack 3 0, s)

/-- The length of a request's access. -/
def reqSpan (m : FMsg) : Nat := if m.type = 7 then 1024 else if m.type = 5 then 8 else fld m.w2 0 11

/-- The access type that a request's translation checks (R238). -/
def reqAcc (m : FMsg) : AccTy := match m.type with | 1 => .read | 3 => .write | _ => .atomic

/-- Serves an access request of a VD. -/
def State.serve (s : State) (m : FMsg) (d : Vd) : Served × State :=
  if (reqSpan m) = 0 || 1024 < (reqSpan m) then (.nack 3 0, s)
  else
    match homeAt d m.w1 (reqSpan m) with
    | .bad => (.nack 3 0, s)
    | .core l => s.serveCore m l (reqSpan m)
    | .hbm a =>
      if m.type = 7 then (.nack 3 0, s)
      else
        match trPieces s m.vd (reqAcc m) (blocks a (reqSpan m)) with
        | (.error e, s) => (e, s)
        | (.ok ps, s) => s.serveHbm m ps

/-- The response of R313 to a served request. -/
def responseTo (m : FMsg) (node : Nat) (bs : List Byte) : FMsg :=
  match m.type with
  | 1 => mkMsg 2 m.src node m.vd m.tid 0 0 0 0 bs
  | 5 => mkMsg 6 m.src node m.vd m.tid (leWord bs) 0 0 0 []
  | _ => mkMsg 4 m.src node m.vd m.tid 0 0 0 0 []

/-- Sends a response and keeps it (R314). -/
def State.respond (s : State) (m r : FMsg) : State :=
  (s.sendMsg r).modFab fun f => { f with kept := f.kept ++ [(m.src, m.tid, r, s.now)] }

/-- What a served request sends (R313): its response, FAULTED with a request posted here, a NACK, or nothing yet. One that a migration holds and
for which the home agent has no room performs nothing, so it waits at its requester, which sends it again (R253, R314). -/
def State.answerReq (s : State) (m : FMsg) (r : Served) : State :=
  match r with
  | .ok bs => s.respond m (responseTo m s.node bs)
  | .nack code kind => s.respond m (mkMsg 10 m.src s.node m.vd m.tid (BitVec.ofNat 64 code) (BitVec.ofNat 64 kind) 0 0 [])
  | .held i => if s.hbm.heldFull i then s else (s.holdOp i (.msg m)).count m.vd 3 7 1
  | .fault va kind lvl =>
    (s.postFault m.vd va kind lvl (reqAcc m).code 0 0 (.remote m.src m.tid m)).sendMsg (mkMsg 9 m.src s.node m.vd m.tid va 0 0 0 [])

/-- A request of a node that is under way here: it waits for a fault reply or a migration. -/
def State.underWay (s : State) (m : FMsg) : Bool :=
  (s.hbm.freqs.any fun r => r.att.any fun a => match a with | .remote n t _ => n == m.src && t == m.tid | _ => false) ||
  (s.hbm.migs.any fun g => g.held.any fun h => match h with | .msg x => x.src == m.src && x.tid == m.tid | _ => false)

/-- A request comes in: a duplicate has its response resent, and performs nothing again (R314). -/
def State.request (s : State) (m : FMsg) (act : State) : State :=
  match s.fab.kept.find? fun k => k.1 == m.src && k.2.1 == m.tid with
  | some k =>
    (s.sendMsg k.2.2.1).modFab fun f =>
      { f with kept := f.kept.map fun x => if x.1 == m.src && x.2.1 == m.tid then (x.1, x.2.1, x.2.2.1, s.now) else x }
  | none => if s.underWay m then s else act

/-- An access request that comes in is served and answered. -/
def State.accessReq (s : State) (m : FMsg) (d : Vd) : State :=
  s.request m (let r := s.serve m d; r.2.answerReq m r.1)

/-- READ (R313). -/
def execMsgRead (m : FMsg) (s : State) : Out := .next (s.receive m 1 fun d => s.accessReq m d)

/-- WRITE (R313): answered only after it has performed at its home. -/
def execMsgWrite (m : FMsg) (s : State) : Out := .next (s.receive m 3 fun d => s.accessReq m d)

/-- ATOMIC (R313). -/
def execMsgAtomic (m : FMsg) (s : State) : Out := .next (s.receive m 5 fun d => s.accessReq m d)

/-- MDADD (R181, R313): one tile row added through the write port. -/
def execMsgMdadd (m : FMsg) (s : State) : Out := .next (s.receive m 7 fun d => s.accessReq m d)

/-- GATE (R50, R313): the addition reaches this package's launch front end. -/
def execMsgGate (m : FMsg) (s : State) : Out :=
  .next (s.receive m 8 fun _ =>
    s.request m ((s.gateAdd none m.vd (m.w1.setWidth 12) (fld m.w1 16 3) (fld m.w1 32 16)).respond m (responseTo m s.node [])))

/-! ### Responses at the requester (R313, R314) -/

/-- The open request toward a node under an id. -/
def State.openOf (s : State) (node tid : Nat) : Option OpenReq := s.fab.opens.find? fun r => r.node == node && r.tid == tid

/-- A request is no longer open; its id rests (R314). -/
def State.closeReq (s : State) (r : OpenReq) : State :=
  s.modFab fun f =>
    { f with opens := f.opens.filter fun x => !(x.node == r.node && x.tid == r.tid),
             rest := (f.rest.filter fun x => decide (s.now < x.2.2 + 4096)) ++ [(r.node, r.tid, r.sent)] }

/-- What an answer makes of an element that was sent off: performed with bytes, or failed with a kind (R246). -/
def Elem.answered (e : Elem) (r : Except Nat (List Byte)) : Elem :=
  if e.st == .sent || e.st == .waiting then
    match r with | .ok bs => { e with st := .performed, res := bs } | .error k => { e with st := .failed k }
  else e

/-- The spilled task that keeps access `acc` of a plane (R242, R246). -/
def State.keptBy (s : State) (c p acc : Nat) : Option Nat :=
  (s.fr.tasks.find? fun e =>
    (match e.2.frame with | some (_, d, q) => d == c && q == p | none => false) && e.2.kept.any fun k => k.1.id == acc).map (·.1)

/-- An element that was sent off takes its answer, in its plane or in the access that its task's spill has kept; a store to a share window that met a
mismatch is discarded with an asynchronous fault (R265). -/
def State.elemAnswer (s : State) (c p acc el : Nat) (r : Except Nat (List Byte)) : State :=
  let q : BitVec 1 := BitVec.ofNat 1 p
  match s.elemOf c q acc el, (s.plane c q).task with
  | some (a, e), some key =>
    let lost := a.kind.isStore && (match r with | .error k => k == 16 | .ok _ => false)
    let s := s.modElem c q acc el fun e => e.answered (if lost then .ok [] else r)
    (if lost then s.storeBad key a e.va else s).unpark key
  | _, _ =>
    match s.keptBy c p acc with
    | some key =>
      (s.modTask key fun t =>
        { t with kept := t.kept.map fun k => ({ k.1 with elems := modAt k.1.elems el fun e => e.answered r }, k.2) }).unpark key
    | none => s

/-- The VA that names a peer package's byte (R188), from a request. -/
def peerVa (node : Nat) (addr : Word) : Word :=
  if addr.toNat < 281474976710656 then BitVec.ofNat 64 (0x1000000000000000 + 0x1000000000000 * node + addr.toNat)
  else BitVec.ofNat 64 (0x2000000000000000 + 0x1000000000000 * node + (addr.toNat - 0x2000000000000))

/-- A row of an MDADD has been acknowledged (R313). -/
def State.rowAcked (s : State) (c id : Nat) : State := s.modMx c id fun o => { o with acks := o.acks - 1 }

/-- The requester takes the bytes of a response; an acknowledged completion action has been delivered (R299). -/
def State.took (s : State) (r : OpenReq) (bs : List Byte) : State :=
  match r.who with
  | .elem c p acc el => s.elemAnswer c p acc el (.ok bs)
  | .copy c id => if r.msg.type = 1 then s.cpData c id bs else s.copyAcked c id (reqSpan r.msg)
  | .mdadd c id => s.rowAcked c id
  | .action key => s.endSweep key
  | .full _ _ _ => s
  | .load => s
  | .gate => s

/-- The cause of an engine fault that a failed request of a kind ends in (R265, R314). -/
def engCause (kind : Nat) : Nat := if kind = 16 then cINTEGRITY else cPERM

/-- A copy's remote operation has failed: the copy ends with an engine fault, or, if its work is over, awaits nothing more. -/
def State.copyFails (s : State) (c id code : Nat) (va : Word) : State :=
  match s.cpOp c id with
  | some o => if o.c.st == .finished then s.modCp c id fun o => { o with wait := false } else s.cpFault c o code va
  | none => s

/-- What a failed operation does to the one that awaits it: a task's element as on a FAIL reply of a kind, an engine an engine fault with the address
(R246, R314). -/
def State.whoFails (s : State) (w : Who) (kind : Nat) (va : Word) : State :=
  match w with
  | .elem c p acc el => s.elemAnswer c p acc el (.error kind)
  | .copy c id => s.copyFails c id (engCause kind) va
  | .mdadd c id =>
    let s := match (s.core c).mx.find? fun o => o.c.id == id with
      | some o => if o.c.ended.isSome then s else s.mxFault c o (engCause kind) va
      | none => s
    s.rowAcked c id
  | .action key => s.endSweep key
  | .full _ _ fin => s.endSweep? fin
  | .load => (match s.fw.load with
    | some (h, v, _, _) => ({ s with fw := { s.fw with load := none } } : State).toHost (.reply 13 v h.seq 1 [])
    | none => s)
  | .gate => s

/-- A request has failed. -/
def State.reqFails (s : State) (r : OpenReq) (kind : Nat) : State :=
  (s.closeReq r).whoFails r.who kind (peerVa r.node r.msg.w1)

/-- A response that matches an open request of a TYPE closes it; any other is discarded (R314). -/
def State.response (s : State) (m : FMsg) (types : List Nat) (bs : List Byte) : State :=
  match s.openOf m.src m.tid with
  | some r => if types.contains r.msg.type then (s.closeReq r).took r bs else s
  | none => s

/-- RDATA (R313). -/
def execMsgRdata (m : FMsg) (s : State) : Out :=
  .next (s.receive m 2 fun _ =>
    match s.openOf m.src m.tid with
    | some r => if m.data.length = (reqSpan r.msg) then s.response m [1] m.data else s
    | none => s)

/-- ACK (R215, R313). -/
def execMsgAck (m : FMsg) (s : State) : Out := .next (s.receive m 4 fun _ => s.response m [3, 7, 8] [])

/-- ARSP (R313). -/
def execMsgArsp (m : FMsg) (s : State) : Out := .next (s.receive m 6 fun _ => s.response m [5] (wordBytes m.w1))

/-- FAULTED (R247, R313): the timer stops, and a task's element waits for its fault's reply. -/
def execMsgFaulted (m : FMsg) (s : State) : Out :=
  .next (s.receive m 9 fun _ =>
    match s.openOf m.src m.tid with
    | none => s
    | some r =>
      let s := s.modFab fun f =>
        { f with opens := f.opens.map fun x => if x.node == r.node && x.tid == r.tid then { x with stopped := true } else x }
      match r.who with
      | .elem c p acc el => s.modElem c (BitVec.ofNat 1 p) acc el fun e => if e.st == .sent then { e with st := .waiting } else e
      | _ => s)

/-- The fault kind that a NACK stands for (R246, R313): code 2 names it, 5 an integrity mismatch in a share window (R265;
notes/assumptions/13.md); codes 1 and 3 are refused windows (R188). -/
def nackKind (m : FMsg) : Nat := if fld m.w1 0 8 = 2 then (if fld m.w2 0 4 = 5 then 16 else fld m.w2 0 4) else 1

/-- NACK (R311, R313). -/
def execMsgNack (m : FMsg) (s : State) : Out :=
  .next (s.receive m 10 fun _ =>
    match s.openOf m.src m.tid with
    | some r => s.reqFails r (nackKind m)
    | none => s)

/-! ### Transport (R314) -/

/-- The ports over which an open request is sent again: others than its last, where one is up with room (R314, R60). -/
def State.otherPorts (s : State) (r : OpenReq) : List Nat :=
  let free := s.freePorts (flitBytes r.msg)
  let others := free.filter (· != r.port)
  if others.isEmpty then free else others

/-- REQUEST_RETRANSMIT (R314): the `i`-th open request, 256 slots unanswered, is sent over another route; after 8 retransmissions it fails. -/
def execRequestRetransmit (i : Nat) (s : State) : Out :=
  .next (match s.fab.opens[i]? with
    | none => s
    | some r =>
      if r.stopped || s.now < r.sent + 256 || s.flitsHeld r.msg.vd then s
      else if 8 ≤ r.tries then s.reqFails r 3
      else
        match s.pick (s.otherPorts r) with
        | none => s
        | some p =>
          ((s.bump.spend (2112 + p) (flitBytes r.msg)).sendMsg r.msg).modFab fun f =>
            { f with opens := modAt f.opens i fun x => { x with sent := s.now, tries := x.tries + 1, port := p } })

/-- RESPONSE_EXPIRY (R314): the `i`-th kept response, 4,096 slots after it was last sent. -/
def execResponseExpiry (i : Nat) (s : State) : Out :=
  .next (match s.fab.kept[i]? with
    | some k => if k.2.2.2 + 4096 ≤ s.now then s.modFab fun f => { f with kept := dropAt f.kept i } else s
    | none => s)

/-- TID_ALLOCATE (R314): the first request that waits for an id toward a node takes one, and a port with room (R60); those of a halted VD are
held (R282). -/
def execTidAllocate (node : BitVec 12) (s : State) : Out :=
  let n := node.toNat
  let next (w : Nat × FMsg × Who) : Bool := w.1 == n && !(s.flitsHeld w.2.1.vd)
  .next (match s.fab.waits.find? next with
    | none => s
    | some (_, m, who) =>
      let used := s.busyTids n
      match s.pick (s.freePorts (flitBytes m)) with
      | none => s
      | some p =>
        if used.length < 2097152 then
          let s := s.bump
          let tid := nthFree (Config.freePick s.freeCtr % (2097152 - used.length)) used
          let m := m.withTid tid
          let r : OpenReq := { node := n, tid := tid, msg := m, sent := s.now, tries := 0, stopped := false, who := who, port := p }
          (s.bump.spend (2112 + p) (flitBytes m)).modFab fun f =>
            { f with waits := dropFirst next f.waits, opens := f.opens ++ [r], out := f.out ++ [m] }
        else s)

/-- The address of an operation on a host window. -/
def HostOp.va (o : HostOp) : Word := BitVec.ofNat 64 (0x4000000000000 + 1099511627776 * o.win + o.off)

/-- An operation on a host window has failed: the spec names no effect; a task's element fails as a refused window, a copy with cause PERM. -/
def State.hostFailed (s : State) (o : HostOp) : State := s.whoFails o.who 1 o.va

/-- Every request of a VD that is halted for good receives an error completion, in flight or waiting (R283). -/
def State.discardFlits (s : State) (v : Nat) : State :=
  let opens := s.fab.opens.filter fun r => r.msg.vd == v
  let waits := s.fab.waits.filter fun w => w.2.1.vd == v
  let ops := s.io.ops.filter fun o => o.vd == v
  let s : State := { s with io := { s.io with ops := s.io.ops.filter fun o => o.vd != v } }
  let s := s.modFab fun f => { f with waits := f.waits.filter fun w => w.2.1.vd != v }
  let s := opens.foldl (fun s r => s.reqFails r 3) s
  let s := waits.foldl (fun s w => s.whoFails w.2.2 3 (peerVa w.1 w.2.1.w1)) s
  ops.foldl State.hostFailed s

/-! ### Time offsets (R316) -/

/-- The nodes of this package's spans, but itself. -/
def State.spanNodes (s : State) : List Nat := ((s.vds.flatMap fun e => e.2.span).filter (· != s.node)).eraseDups

/-- The VD under which TIME goes to a node: one whose span lists it (R311, R316; notes/assumptions/94.md). -/
def State.timeVd (s : State) (node : Nat) : Nat := ((s.vds.find? fun e => e.2.span.contains node).map (·.1)).getD 0

/-- Sends TIME to a node. -/
def State.sendTime (s : State) (node : Nat) : State :=
  let o : Offset := tgetD s.fab.offs node { o := none, validAt := 0, probe := none }
  (s.sendMsg (mkMsg 24 node s.node (s.timeVd node) 0 s.slot 0 0 0 [])).modFab fun f =>
    { f with offs := tset f.offs node { o with probe := some s.now } }

/-- TIME (R316): answered with the slots of its receipt and of the answer. -/
def execMsgTime (m : FMsg) (s : State) : Out :=
  .next (s.receive m 24 fun _ => s.sendMsg (mkMsg 25 m.src s.node m.vd m.tid m.w1 s.slot s.slot 0 []))

/-- Half of a sum, rounded; the spec names no rounding of a tie, so it is free. -/
def State.halfOf (s : State) (x : Int) : Int :=
  if x % 2 = 0 then x / 2 else if Config.freePick s.freeCtr % 2 = 0 then (x - 1) / 2 else (x + 1) / 2

/-- The ports that have trained come up with an answered time exchange (R310). -/
def State.exchanged (s : State) : State :=
  s.modFab fun f => { f with ports := tmap f.ports fun _ x => if x.xchg then Port.reset else x }

/-- TIME_RSP (R316): a measurement whose round trip is at most 4 slots gives the offset. -/
def execMsgTimeRsp (m : FMsg) (s : State) : Out :=
  .next (s.receive m 25 fun _ =>
    match tget s.fab.offs m.src with
    | none => s
    | some o =>
      if o.probe != some m.w1.toNat then s
      else
        let t0 : Int := m.w1.toNat
        let r1 : Int := m.w2.toNat
        let r2 : Int := m.w3.toNat
        let t3 : Int := s.now
        let o := if 4 < (t3 - t0) - (r2 - r1) then { o with probe := none }
          else { o := some (s.halfOf ((r1 - t0) + (r2 - t3))), validAt := s.now, probe := none }
        (s.bump.modFab fun f => { f with offs := tset f.offs m.src o }).exchanged)

/-- The periodic TIME of a node is due: 4,096 slots after the last one, or the first (R316). -/
def State.timeDue (s : State) (node : Nat) : Bool :=
  match (tget s.fab.offs node).bind (·.sent) with | some t => decide (t + 4096 ≤ s.now) | none => true

/-- TIME_PROBE (R316): every 4,096 slots TIME goes to each node of a span. -/
def execTimeProbe (node : BitVec 12) (s : State) : Out :=
  let n := node.toNat
  .next (if s.spanNodes.contains n && s.timeDue n then
      (s.sendTime n).modFab fun f => { f with offs := tmap f.offs fun m o => if m = n then { o with sent := some s.now } else o }
    else s)

/-- OFFSET_EXPIRY (R316): an offset that is 65,536 slots old is valid no more. -/
def execOffsetExpiry (node : BitVec 12) (s : State) : Out :=
  .next (match tget s.fab.offs node.toNat with
    | some o =>
      if o.o.isSome && decide (o.validAt + 65536 ≤ s.now) then s.modFab fun f => { f with offs := tset f.offs node.toNat { o with o := none } }
      else s
    | none => s)

/-! ### Ports (R309, R310, R72) -/

/-- PORT_FAILURE (R72, R315): every hold and every interval on the port that no booking has committed here expires, committed steps are PORTDOWN,
and remote bookers are sent CANCEL. -/
def State.portFailure (s : State) (p : Nat) : State :=
  let cal := 2112 + p
  let lost := s.bk.rints.filter fun r => r.cal == cal && r.node != 4096 && !r.dead
  let s := s.modBk fun k => (k.freeHolds fun h => h.cal == cal).freeRints fun r => r.cal == cal
  let s := (s.bk.bookings.flatMap fun e => (e.2.steps.zipIdx).filterMap fun t => if t.1.cal == cal then some (e.1, t.2) else none).foldl
    (fun s x => s.endStep x.1 x.2 .portdown 5) s
  lost.foldl (fun s r => s.bookMsg 21 r.node r.vd 0 0 (BitVec.ofNat 64 (6 * 268435456 + 16777216 * r.step + r.handle))) s

/-- A port goes down (R310). -/
def State.portFails (s : State) (p : Nat) : State :=
  let x := tgetD s.fab.ports p Port.reset
  if x.up then (s.modFab fun f => { f with ports := tset f.ports p { x with up := false } }).portFailure p else s

/-- PORT_DOWN (R310). -/
def execPortDown (port : BitVec 4) (s : State) : Out := .next (if s.power = .run then s.portFails port.toNat else s)

/-- PORT_UP (R310, R316): the port has trained again: TIME goes to every node of the spans, and the port is up after that time exchange, or at
once where no span has another node (notes/assumptions/45.md). -/
def execPortUp (port : BitVec 4) (s : State) : Out :=
  let p := port.toNat
  let x := tgetD s.fab.ports p Port.reset
  .next (
    if x.up || x.xchg || s.power != .run then s
    else if s.spanNodes.isEmpty then s.modFab fun f => { f with ports := tset f.ports p Port.reset }
    else s.spanNodes.foldl (fun s n => s.sendTime n) (s.modFab fun f => { f with ports := tset f.ports p { x with xchg := true } }))

/-- FRAME_RETRANSMIT (R309, R310): a frame is sent once more, the same as last time or another; the sixteenth time in a row the port goes
down. -/
def execFrameRetransmit (f : PortFrame) (s : State) : Out :=
  let p := f.port.toNat
  let x := tgetD s.fab.ports p Port.reset
  let n := if f.again then x.resent + 1 else 1
  .next (
    if !x.up || s.power != .run then s
    else
      let s := s.modFab fun f => { f with ports := tset f.ports p { x with resent := n } }
      if 16 ≤ n then s.portFails p else s)

end Sys2Proof.Machine
end

