-- ==== Sys2Proof/Machine/Rings.lean ====
section
/-! DEFINITION. The fault reply ring, what a reply does, page migration, and the host's RDMA accesses to the HBM window
(spec/12_translation.md R243 to R247, R250 to R253, spec/13_virry.md R266, spec/15_virtual_devices.md R294). -/

namespace Sys2Proof.Machine

/-! ### Host RDMA (R294) -/

/-- What a host RDMA access comes to: done with bytes, an error completion, held by a migration, or left at its requester for want of
room there (R253). -/
inductive Rdma where
  | ok (bs : List Byte)
  | err
  | held (mig : Nat)
  | later
  deriving DecidableEq, Repr

/-- Translates the bytes of a host access; its write to a migrating frame is held (R252). -/
def State.rdmaTr (s : State) (v : Nat) (va : Word) (n : Nat) (acc : AccTy) : Except Rdma (List (Nat × Nat)) × State :=
  if n = 0 || 281474976710656 < va.toNat + n then (.error .err, s)
  else
    match trPieces s v acc (blocks va.toNat n) with
    | (.error _, s) => (.error .err, s)
    | (.ok ps, s) =>
      match (if acc = .read then none else ps.findSome? fun p => s.hbm.migOf p.1) with
      | some i => (.error (if s.hbm.heldFull i then .later else .held i), s)
      | none => (.ok ps, s)

/-- A host RDMA READ. -/
def State.rdmaRead (s : State) (v : Nat) (va : Word) (n : Nat) : Rdma × State :=
  match s.rdmaTr v va n .read with
  | (.error e, s) => (e, s)
  | (.ok ps, s) => (match readPieces s v va ps with | (some bs, s) => (.ok bs, s) | (none, s) => (.err, s))

/-- A host RDMA WRITE. -/
def State.rdmaWrite (s : State) (v : Nat) (va : Word) (data : List Byte) : Rdma × State :=
  match s.rdmaTr v va data.length .write with
  | (.error e, s) => (e, s)
  | (.ok ps, s) => (match writePieces s false v va data ps with | (true, s) => (.ok [], s) | (false, s) => (.err, s))

/-- A host RDMA atomic: a native AMO add, or CAS, of 8 aligned bytes (R204). -/
def State.rdmaAtomic (s : State) (v : Nat) (va : Word) (cas : Bool) (op new : Word) : Rdma × State :=
  if va &&& 7 ≠ 0 then (.err, s)
  else
    match s.rdmaTr v va 8 .atomic with
    | (.error e, s) => (e, s)
    | (.ok ps, s) =>
      match readPieces s v va ps with
      | (none, s) => (.err, s)
      | (some old, s) =>
        let w := leWord old
        if cas && w != op then (.ok old, s)
        else
          match writePieces s false v va (wordBytes (if cas then new else w + op)) ps with
          | (true, s) => (.ok old, s)
          | (false, s) => (.err, s)

/-- The response to a host access, or its hold (R252). -/
def State.rdmaDone (s : State) (v : Nat) (r : Rdma) (h : HeldOp) : State :=
  match r with
  | .ok bs => s.toHost (.response v true bs)
  | .err => s.toHost (.response v false [])
  | .held i => (s.holdOp i h).count v 3 7 1
  | .later => s

/-! ### Held operations (R252, R253) -/

/-- Where a DPA of frame `f` lies once the frame's page is in frame `g`. -/
def movedTo (f g x : Nat) : Nat := if x / 65536 = f then 65536 * g + x % 65536 else x

/-- Performs an operation that a migration held; `f` moved to `g`. -/
def State.release (s : State) (f g : Nat) (o : HeldOp) : State :=
  match o with
  | .elem c p acc el =>
    let p : BitVec 1 := BitVec.ofNat 1 p
    match s.elemOf c p acc el with
    | some (a, e) =>
      (match e.loc with
      | some (.hbm x) =>
        let e := { e with loc := some (.hbm (movedTo f g x)) }
        let s := s.modElem c p acc el fun _ => e
        let r := s.perfHbm c p a e (movedTo f g x)
        r.2.elemDone c p acc el r.1
      | _ => s)
    | none => s
  | .msg m => (match s.vd m.vd with | some d => let r := s.serve m d; r.2.answerReq m r.1 | none => s)
  | .rdmaWrite v _ va data => let r := s.rdmaWrite v va data; r.2.rdmaDone v r.1 o
  | .rdmaAtomic v va cas op new => let r := s.rdmaAtomic v va cas op new; r.2.rdmaDone v r.1 o
  | .copy c id x va data =>
    (match s.homeWrite (movedTo f g x) data true with
    | some s => s.copyAcked c id data.length
    | none =>
      let v := ((s.cpOp c id).map fun o => o.c.vd).getD 0
      let s := s.mismatch (movedTo f g x) v va
      if s.hbm.inWindow (movedTo f g x) then s.copyFails c id cINTEGRITY va else s)
  | .device v va x data =>
    (match s.homeWrite (movedTo f g x) data false with
    | some s => s
    | none => s.mismatch (movedTo f g x) v (BitVec.ofNat 64 va))

/-! ### Stage-2 changes (R250) -/

/-- The VPA pages that a frame backs, with their VDs: its domain's, or those of a share window's parties. -/
def Hbm.mapsOf (h : Hbm) (f : Nat) : List (Nat × Nat) :=
  match tget h.frames f with
  | none => []
  | some fr =>
    if fr.dom < 256 then [(fr.dom, fr.page)]
    else match tget h.wins (fr.dom - 256) with | some w => [(w.a, w.aPage + fr.page), (w.b, w.bPage + fr.page)] | none => []

/-- A stage-2 invalidation of a frame's entries, steps 2 and 3 of R249 (R250): every cached entry built from one goes, and walks of the VDs
under way install none. -/
def State.s2Inval (s : State) (f : Nat) : State :=
  let vs := (s.hbm.mapsOf f).map (·.1)
  ({ s with cores := tmap s.cores fun _ k => { k with tc := k.tc.filter fun e => !(decide (e.dpage ≤ f ∧ f < e.dpage + e.n)) } } : State).walksNoFill
    fun w => vs.contains w.vd

/-- The accesses that an invalidation of a frame's entries waits for: those that used one, or may by a walk under way (R250). -/
def State.s2Users (s : State) (f : Nat) : List (Nat × Nat × Nat) :=
  let vs := (s.hbm.mapsOf f).map (·.1)
  (s.usersBy fun v e =>
    (match e.loc with | some (.hbm x) => x / 65536 == f | _ => false) || (e.st == .walking && vs.contains v)).filter fun a => !(s.accSettled a)

/-- Every stage-2 entry that names frame `f` is written: frame `g`, its W, and M (one 8-byte store each). -/
def State.s2Write (s : State) (f g : Nat) (m : Bool) : State :=
  (s.hbm.mapsOf f).foldl (fun s x =>
    match s.vd x.1 with
    | none => s
    | some d =>
      match s.hbm.stage2 d.s2root (65536 * x.2) with
      | some l => if l.dpage = f then s.s2Put x.1 d.s2root x.2 (s2Leaf g l.w m) else s
      | none => s) s

/-! ### Migration (R252, R253, R266) -/

/-- Copies the blocks of frame `f` to frame `g` through R258; false at a mismatch. -/
def State.copyBlocks (s : State) (f g : Nat) : List Nat → Bool × State
  | [] => (true, s)
  | i :: rest =>
    match s.homeRead (65536 * f + 64 * i) 64 with
    | (none, s) => (false, s)
    | (some bs, s) =>
      match s.homeWrite (65536 * g + 64 * i) bs true with
      | none => (false, s)
      | some s => s.copyBlocks f g rest

/-- Group `g` of a frame takes over the counter blocks of frame `f` (R266). -/
def Hbm.takeCtrs (h : Hbm) (f g : Nat) : Hbm :=
  { h with ctrs := (List.range 16).foldl (fun t i =>
      match tget t (16 * f + i) with | some c => tset t (16 * g + i) c | none => terase t (16 * g + i)) h.ctrs }

/-- The page's leaves leave the counter store of frame `f`'s home agent where frame `g` has another (R263). -/
def State.dropLeaves (s : State) (f g : Nat) : State :=
  if agentOf (65536 * f) = agentOf (65536 * g) then s
  else
    let ks := (List.range 16).filterMap fun i => s.hbm.leafKey (65536 * f + 4096 * i)
    s.modHbm fun h => { h with store := tmod h.store (agentOf (65536 * f)) fun l => l.filter fun k => !ks.contains k }

/-- The entries of a migration's page are written and invalidated, and it goes on to a step that waits for the invalidation (R252). -/
def State.migInval (s : State) (i : Nat) (m : Mig) (g : Nat) (move : Bool) (st : MigSt) : State :=
  let s := (s.s2Write m.f g move).s2Inval m.f
  let waits := s.s2Users m.f
  s.modHbm fun h => { h with migs := modAt h.migs i fun m => { m with st := st, waits := waits } }

/-- Step 4 (R252), or the end of a failed copy (R253): the page lies in `new`, held operations perform in arrival order, and frame `old` leaves
the domain. -/
def State.endMig (s : State) (i : Nat) (m : Mig) (old new : Nat) : State :=
  let s := s.modHbm fun h =>
    { h with migs := dropAt h.migs i,
             wins := tmap h.wins fun _ w => { w with frames := w.frames.map fun x => if x = m.f then new else x } }
  let s := s.modFr fun r =>
    { r with watches := r.watches.map fun w => { w with agent := agentOf (movedTo m.f new w.dpa), dpa := movedTo m.f new w.dpa } }
  let s := m.held.foldl (fun s o => s.release m.f new o) s
  s.freeFrame old

/-- A migration goes on where the accesses that its invalidation waits for have performed, or are parked or held (R249, R250, R252). -/
def State.migOn (s : State) (i : Nat) : State :=
  match s.hbm.migs[i]? with
  | none => s
  | some m =>
    if !(m.waits.all s.accSettled) then s
    else
      match m.st with
      | .first => s.modHbm fun h => { h with migs := modAt h.migs i fun m => { m with st := .copying, waits := [] } }
      | .copying => s
      | .last => s.endMig i m m.f m.g
      | .undo => s.endMig i m m.g m.f

/-- Every migration goes on that can. -/
def State.settleMigs (s : State) : State := (List.range s.hbm.migs.length).reverse.foldl (fun s i => s.migOn i) s

/-- MIGRATION_COPY_END (R252, R266): the copy engine has copied every sector; step 3 writes G. -/
def execMigrationCopyEnd (i : Nat) (s : State) : Out :=
  .next (match s.hbm.migs[i]? with
    | none => s
    | some m =>
      if m.st != .copying then s
      else
        match (s.modHbm fun h => h.takeCtrs m.f m.g).copyBlocks m.f m.g (List.range 1024) with
        | (true, s) => (s.dropLeaves m.f m.g).migInval i m m.g false .last
        | (false, s) => (s.mismatch (65536 * m.f) m.vd (BitVec.ofNat 64 (65536 * m.page))).migInval i m m.f false .undo)

/-- MIGRATION_COPY_FAIL (R253): firmware writes F again. -/
def execMigrationCopyFail (i : Nat) (s : State) : Out :=
  .next (match s.hbm.migs[i]? with
    | none => s
    | some m => if m.st == .copying then s.migInval i m m.f false .undo else s)

/-! ### Replies (R245, R246, R247) -/

/-- What a reply does to one of the requesters attached to its request. -/
def State.attachReply (s : State) (r : FReq) (fail : Bool) (a : Attach) : State :=
  let k := if fail then some r.kind else none
  match a with
  | .lane key l va => s.laneReply key l va k
  | .task key va => s.taskReply key va k
  | .engine c id va =>
    (match s.cpOp c id with
    | some o =>
      if o.c.waitFault then
        let s := s.modCp c id fun o => { o with c := { o.c with waitFault := false } }
        if fail && o.c.ended.isNone then s.cpFault c o cPERM va else s
      else s
    | none => s)
  | .remote _ _ m =>
    if fail then s.respond m (mkMsg 10 m.src s.node m.vd m.tid 2 (BitVec.ofNat 64 r.kind) 0 0 [])
    else (match s.vd m.vd with | some d => let x := s.serve m d; x.2.answerReq m x.1 | none => s)

/-- A reply acts on the elements attached to its request, which is then outstanding no more. -/
def State.replyTo (s : State) (r : FReq) (fail : Bool) : State :=
  let s := s.modHbm fun h => { h with freqs := h.freqs.filter fun x => !(FReq.same r.vd r.page r.kind x) }
  r.att.foldl (fun s a => s.attachReply r fail a) (s.count r.vd 3 (if fail then 4 else 3) 1)

/-- A VD whose rings the front end serves: its halt, if any, is not fatal. -/
def State.served (s : State) (v : Nat) : Option Vd :=
  if s.power = .run then (s.vd v).bind fun d => if d.halt.any (·.fatal) then none else some d else none

/-- The front end takes the reply tail, and skips replies that the ring has lost (R245). -/
def State.pollTail (s : State) (v : Nat) : State :=
  match s.served v with
  | none => s
  | some d =>
    match s.sureWord v (d.d.fcb + 32) with
    | (none, s) => s
    | (some w, s) =>
      let rpt : BitVec 32 := w.setWidth 32
      let s := s.modVd v fun d => { d with rpt := rpt }
      let n := (rpt - d.rph).toNat
      if n ≤ 2 ^ d.d.lgn then s
      else
        let h := rpt - BitVec.ofNat 32 (2 ^ d.d.lgn)
        let s := (s.modVd v fun d => { d with rph := h }).count v 3 5 (n - 2 ^ d.d.lgn)
        (s.mustWrite v (d.d.fcb + 40) [h.setWidth 64]).2

/-- The reply at the head of the ring, if any. -/
def State.headReply (s : State) (v : Nat) : Option Word × State :=
  match s.served v with
  | none => (none, s)
  | some d =>
    if d.rpt = d.rph then (none, s)
    else
      s.sureWord v (d.d.rpb + 8 * (d.rph.toNat % 2 ^ d.d.lgn))

/-- The head of the ring has been consumed. -/
def State.tookReply (s : State) (v : Nat) : State :=
  match s.vd v with
  | none => s
  | some d =>
    let h := d.rph + 1
    ((s.modVd v fun d => { d with rph := h }).mustWrite v (d.d.fcb + 40) [h.setWidth 64]).2

/-- The outstanding request that a reply names, unless the reply is malformed (R245). -/
def State.repliedTo (s : State) (v : Nat) (w : Word) : Option FReq :=
  if w.getLsbD 63 || w.extractLsb' 32 30 ≠ 0 then none
  else s.hbm.freqs.find? fun r => r.vd == v && r.posted && decide (r.kind < 3) && r.rid == w.setWidth 32

/-- RING_POLL (R245): the front end reads RPT, and consumes a stray reply at the head. -/
def execRingPoll (vd : BitVec 8) (s : State) : Out :=
  let v := vd.toNat
  .next (match (s.pollTail v).headReply v with
    | (none, s) => s
    | (some w, s) => if (s.repliedTo v w).isSome then s else (s.tookReply v).count v 3 5 1)

/-- A reply from the ring with CODE `code`, or from firmware. -/
def State.takeReply (s : State) (v : Nat) (src : ReplySrc) (fail : Bool) : State :=
  match src with
  | .ring =>
    (match (s.pollTail v).headReply v with
    | (none, s) => s
    | (some w, s) =>
      if w.getLsbD 63 || w.getLsbD 62 != fail then s
      else
        let s := s.tookReply v
        match s.repliedTo v w with
        | some r => s.replyTo r fail
        | none => s.count v 3 5 1)
  | .firmware i =>
    match (s.hbm.freqs.filter fun r => r.vd == v && decide (3 ≤ r.kind))[i]? with
    | some r => if (s.served v).isSome then s.replyTo r fail else s
    | none => s

/-- REPLY_RETRY (R246). -/
def execReplyRetry (vd : BitVec 8) (src : ReplySrc) (s : State) : Out := .next (s.takeReply vd.toNat src false)

/-- REPLY_FAIL (R246, R247). -/
def execReplyFail (vd : BitVec 8) (src : ReplySrc) (s : State) : Out := .next (s.takeReply vd.toNat src true)

end Sys2Proof.Machine
end

