-- ==== Sys2Proof/Machine/Device.lean ====
section
/-! DEFINITION. Halts and freezes of a VD: units that stop, the thermal trip, freeze, save, world switch and restore
(spec/14_traps_preemption.md R282 to R288, spec/01_device.md R13, spec/02_execution_model.md R37, spec/03_frontier.md R52 to R55,
spec/04_calendars.md R83, spec/13_virry.md R263, R268, spec/15_virtual_devices.md R303). -/

namespace Sys2Proof.Machine

/-! ### Stop records (R284) -/

/-- Words 0 to 7 of a stop record. -/
def stopRecord (reason vd plane unit kind slot state step bkh : Nat) (prog task origin tval : Word) : List Word :=
  [BitVec.ofNat 64 (1099511627776 * reason + 4294967296 * vd + 67108864 * plane + 65536 * unit + kind), BitVec.ofNat 64 slot,
   BitVec.ofNat 64 (268435456 * state + 16777216 * step + bkh), prog, task, origin.setWidth 48 |>.setWidth 64, tval, 0]

/-- The task id behind a task's key; 0 where the task is gone. -/
def State.idOf (s : State) (key : Nat) : Word :=
  match s.task key with | some t => BitVec.ofNat 64 (s.taskId t) | none => 0

/-- What a unit's stop record says of the work it holds: STATE, BKH, STEP, PROG, task id, ORIGIN. -/
structure StopWork where
  state : Nat
  bkh : Nat
  step : Nat
  prog : Nat
  task : Word
  origin : Word
  deriving DecidableEq, Repr

/-- STATE of a copy in its engine or just out of it (R197). -/
def CpOp.stopState (o : CpOp) : Nat := match o.c.st with | .finished => o.c.endState | st => st.copyState

/-- A matrix operation's record: the tile's STATE. -/
def State.mxStop (s : State) (c : Nat) (o : MxOp) (prog : Nat) : StopWork :=
  { state := ((s.core c).tile o.tile).st.toNat, bkh := o.c.bk, step := o.c.step, prog := prog, task := s.idOf o.c.task, origin := o.c.pc }

/-- A copy's record. -/
def State.cpStop (s : State) (o : CpOp) (prog : Nat) : StopWork :=
  { state := o.stopState, bkh := o.c.bk, step := o.c.step, prog := prog, task := s.idOf o.c.task, origin := o.c.pc }

/-- The record of a port that carries `flits` flits for a requester: a copy's or an MDADD's, whose flits are counted from their start (an MDADD sends
17 for each row); a task's own access, or a message of the device, has no STATE that the spec names, so it is free. -/
def State.portWork (s : State) (w : Who) (flits : Nat) : StopWork :=
  let none_ : StopWork := { state := (Config.freeWord s.freeCtr).toNat % 16, bkh := 0, step := 0, prog := flits, task := 0, origin := 0 }
  match w with
  | .elem c p acc _ =>
    let x := s.plane c (BitVec.ofNat 1 p)
    { none_ with task := (x.task.map s.idOf).getD 0, origin := ((x.access acc).map (·.pc)).getD 0 }
  | .mdadd c id => (match (s.core c).mx.find? fun o => o.c.id == id with | some o => s.mxStop c o (17 * o.prog) | none => none_)
  | .copy c id => (match s.cpOp c id with | some o => s.cpStop o o.flits | none => none_)
  | _ => none_

/-- The copy that a running step of VD `v` on a calendar is attached to, or the booked work itself: core, command id (R75). -/
def State.calWork (s : State) (v cal : Nat) : Option Who :=
  s.bk.bookings.findSome? fun e =>
    if e.2.vd = v then
      (e.2.steps.findIdx? fun t => t.st == .running && t.cal == cal).bind fun j =>
        let r := attachRoot e.2.steps j
        ((e.2.steps[r]?).bind BStep.core?).bind fun c =>
          ((s.core c).cp.find? fun o => o.c.under (handleOf e.1 e.2) r).map fun o => .copy c o.c.id
    else none

/-- What a unit holds of VD `v` (R282, R284): of a port first the booked work, then the oldest open request. -/
def State.workOf (s : State) (v : Nat) (u : HaltUnit) : Option StopWork :=
  match u with
  | .plane c p =>
    ((s.plane c.toNat p).task.bind s.task).map fun t =>
      { state := t.state.code, bkh := t.bkh, step := 0, prog := 0, task := BitVec.ofNat 64 (s.taskId t), origin := (s.plane c.toNat p).pc }
  | .matrix c => ((s.core c.toNat).mx.find? fun o => o.c.of v).map fun o => s.mxStop c.toNat o o.prog
  | .copy c => ((s.core c.toNat).cp.find? fun o => o.c.of v).map fun o => s.cpStop o o.bytes
  | .port p =>
    (match s.calWork v (2112 + p.toNat), s.fab.opens.find? fun r => r.port == p.toNat && r.msg.vd == v with
    | some w, _ => some (s.portWork w 0)
    | none, some r => some (s.portWork r.who (1 + r.msg.ndata))
    | none, none => none)
  | .hostPort => (s.io.ops.find? fun o => o.vd == v).map fun o => s.portWork o.who (1 + ceilDiv (o.wrote.getD 0) 64)

/-- PL, UNIT and KIND of a unit's record. -/
def unitCode (u : HaltUnit) : Nat × Nat × Nat :=
  match u with
  | .plane c p => (p.toNat, c.toNat, 0)
  | .matrix c => (0, c.toNat, 1)
  | .copy c => (0, c.toNat, 2)
  | .port p => (0, p.toNat, 3)
  | .hostPort => (0, 0, 4)

/-- The stop record of a unit (R284). -/
def State.stopOf (s : State) (v : Nat) (h : Halt) (u : HaltUnit) : List Word :=
  let w := (s.workOf v u).getD { state := 0, bkh := 0, step := 0, prog := 0, task := 0, origin := 0 }
  stopRecord h.reason v (unitCode u).1 (unitCode u).2.1 (unitCode u).2.2 s.now w.state w.step w.bkh (BitVec.ofNat 64 w.prog) w.task w.origin h.tval

/-- The place of a stop record: planes by core and plane, then matrix, copy, ports (R284). -/
def stopKey (r : List Word) : Nat :=
  let w := r.getD 0 0
  4096 * (w.setWidth 8).toNat + 2 * fld w 16 10 + fld w 26 1

/-- A VD's other records, and this one in its place; an earlier record of the same unit is gone. -/
def insStop (v : Nat) (r : List Word) : List (Nat × List Word) → List (Nat × List Word)
  | [] => [(v, r)]
  | e :: rest =>
    if e.1 == v && stopKey r == stopKey e.2 then (v, r) :: rest
    else if e.1 == v && decide (stopKey r < stopKey e.2) then (v, r) :: e :: rest
    else e :: insStop v r rest

/-! ### UNIT_STOP (R282, R283) -/

/-- A debugger's step is still to issue on the unit: the line is raised again only then (R292). -/
def Vd.steppingOn (d : Vd) (u : HaltUnit) : Bool :=
  match u, d.step with
  | .plane c p, some x => x == (c.toNat, p.toNat)
  | _, _ => false

/-- The tiles of stopped matrix work show 6 at a fatal halt, 3 at a debug halt (R283, R292). -/
def State.stopTiles (s : State) (v : Nat) (u : HaltUnit) (fatal : Bool) : State :=
  match u with
  | .matrix c =>
    if fatal then s.fatalTiles v [u]
    else s.modCore c.toNat fun k => (k.mx.filter fun o => o.c.of v && o.c.st == .running).foldl (fun k o => k.modTile o.tile fun t => { t with st := 3 }) k
  | _ => s

/-- Tells the host that a VD has halted, with its stop records (R304). -/
def State.tellHalt (s : State) (v : Nat) : State :=
  s.toHost (.unsolicited 128 v ((s.fw.emerg.filter fun e => e.1 == v).flatMap fun e => e.2.flatMap wordBytes))

/-- A unit of a VD stops at its boundary (R282). -/
def State.stopUnit (s : State) (v : Nat) (d : Vd) (h : Halt) (u : HaltUnit) : State :=
  let old := if h.stopped.isEmpty then s.fw.emerg.filter fun e => e.1 != v else s.fw.emerg
  let s := s.stopTiles v u h.fatal
  let s := ({ s with fw := { s.fw with emerg := insStop v (s.stopOf v h u) old } } : State).bump
  let s := match u with | .plane c p => s.modPlane c.toNat p fun x => { x with stepping := false } | _ => s
  let h := { h with stopped := h.stopped ++ [u] }
  let s := s.modVd v fun _ => { d with halt := some h }
  if (s.unitsOf v).all fun x => h.stopped.contains x then (if h.fatal then s.tellHalt v |>.discardFlits v else s.tellHalt v) else s

/-- UNIT_STOP (R282): the halt line has reached a unit that holds the VD's work. -/
def execUnitStop (vd : BitVec 8) (u : HaltUnit) (s : State) : Out :=
  let v := vd.toNat
  .next (match s.vd v with
    | none => s
    | some d =>
      match d.halt with
      | none => s
      | some h =>
        if (s.unitsOf v).contains u && !h.stopped.contains u && !d.steppingOn u && (s.power == .run || s.power == .tripped)
        then s.stopUnit v d h u else s)

/-! ### THERMAL_POLL (R13) -/

/-- The dies that carry a sensor: eight compute dies, eight creel dies, the hub die, as the table of spec/01_device.md lists them
(notes/assumptions/97.md). -/
def sensors : Nat := 17

/-- THERMAL_POLL (R13, R307): firmware reads every sensor, once every 4,096 slots; a die at 105 degrees trips the package, which then holds
every core and engine stopped (State.unitRuns, State.step). -/
def execThermalPoll (temps : List Nat) (s : State) : Out :=
  .next (
    if s.power != .run || temps.length != sensors || (s.fw.polled.any fun t => decide (s.now < t + 4096)) then s
    else
      let s : State := { s with fw := { s.fw with polled := some s.now } }
      if !(temps.any fun t => decide (105 ≤ t)) then s
      else
        let s := (s.vds.filter fun e => e.2.run).foldl (fun s e => s.raiseHalt e.1 5 0) s
        { s.toHost (.unsolicited 129 0 []) with power := .tripped })

/-! ### FREEZE (R285 steps 1 to 3, R37, R83) -/

/-- Every request of a VD. -/
def State.freezeReqs (s : State) (v : Nat) : State := (s.bk.reqs.filter fun r => r.vd == v).foldl State.freezeReq s

/-- A task leaves its plane, its lease with it. -/
def State.leavePlane (s : State) (key : Nat) : State :=
  match s.planeOf key with | some (c, p) => s.freePlane c p | none => s

/-- A point task that never issued is removed (R37): its point is unfired, its record free. A write of the record that faults makes
the VD unsaveable (R286). -/
def State.removeUnissued (s : State) (key : Nat) (t : Task) : State :=
  let s := ((s.unfire t).voidOwned key).leavePlane key
  let d := { t with state := .done }
  let r := s.quietWrite t.vd (s.taskId t + 16) (wordBytes d.word2)
  let s := r.2.modFr fun f => { f with tasks := terase f.tasks key }
  if r.1.isNone then s else s.unsaveable t.vd

/-- What a freeze does with one task (R37). -/
def State.freezeTask (s : State) (key : Nat) : State :=
  match s.task key with
  | none => s
  | some t =>
    let s := match t.state with
      | .active => s
      | .held => s
      | .staged => if t.st then s else s.voidOwned key
      | _ => s.voidOwned key
    if !t.st && t.kind == 0 && (t.state == .ready || t.state == .staged) then s.removeUnissued key t
    else if !t.st && t.state == .staged then (s.leavePlane key).enqueue key
    else s

/-- The keys of a VD's tasks. -/
def State.tasksOf (s : State) (v : Nat) : List Nat := (s.fr.tasks.filter fun e => e.2.vd == v).map (·.1)

/-- Steps 1 to 3 of a freeze (R285): the VD's frontier units stop firing, its requests end, its unissued point tasks are removed. -/
def State.freezeVd (s : State) (v : Nat) : State :=
  let s := (s.modVd v fun d => { d with freeze := some { start := s.now, saved := false }, retmpl := [] }).count v 5 3 1
  let s := s.modFr fun f => { f with sweeps := f.sweeps.map fun x => if x.vd == v && x.st == .running then { x with st := .freezing } else x }
  let s := (s.tasksOf v).foldl State.freezeTask (s.freezeReqs v)
  s.modVd v fun d => { d with retmpl := d.retmpl.filter fun k => (s.task k).isSome }

/-- FREEZE (R285): at the switch slot. -/
def execFreeze (vd : BitVec 8) (s : State) : Out :=
  let v := vd.toNat
  .next (match s.vd v with
    | none => s
    | some d => if s.power != .run || !d.run || d.halt.isSome || d.freeze.isSome || d.unsave then s else s.freezeVd v)

/-- FLIM_KILL (R288): a task still issued FLIM slots after the freeze began. -/
def execFlimKill (task : Nat) (s : State) : Out :=
  .next (match s.task task with
    | none => s
    | some t =>
      match (s.vd t.vd).bind fun d => d.freeze.map fun f => (d, f) with
      | some (d, f) =>
        if !f.saved && d.halt.isNone && decide (f.start + d.d.flim ≤ s.now) && (t.state == .active || t.state == .held || t.state == .staged)
        then (s.killTask task 17).count t.vd 5 5 1 else s
      | none => s)

/-! ### FREEZE_SAVE (R285 steps 5 to 7, R52 to R54) -/

/-- A sweep's point tasks that are not DONE, in the order of R54: (column, front index, key, task). -/
def State.pointTasks (s : State) (x : Sweep) : List (Nat × Nat × Nat × Task) :=
  let g := geoOf x.desc
  let ts := (s.fr.tasks.filter fun e => e.2.vd == x.vd && e.2.swid == x.swid && e.2.kind == 0).map fun e =>
    let p := wordPoint e.2.orig
    (g.colOf p, p.getD g.f 0, e.1, e.2)
  ts.foldr (fun t acc => (acc.takeWhile fun u => decide (u.1 < t.1 ∨ (u.1 = t.1 ∧ u.2.1 < t.2.1))) ++
    t :: acc.dropWhile fun u => decide (u.1 < t.1 ∨ (u.1 = t.1 ∧ u.2.1 < t.2.1))) []

/-- Word 0 of a frontier record (R52). -/
def Sweep.word0 (x : Sweep) : Word :=
  let w := x.desc.getD 0 0
  let rag := x.cols.any fun e => e.2.i != 0
  let cpend := x.done == (geoOf x.desc).points && !x.acted
  (BitVec.ofNat 8 x.vd : BitVec 8) ++ x.swid ++ (0 : BitVec 4) ++ w.extractLsb' 40 8 ++ w.extractLsb' 30 2 ++ w.extractLsb' 32 3 ++
    (0 : BitVec 16) ++ w.extractLsb' 8 3 ++ w.extractLsb' 6 2 ++ w.extractLsb' 4 2 ++ BitVec.ofBool rag ++ BitVec.ofBool cpend ++
    w.extractLsb' 0 2

/-- Four 16-bit counters in a word, the lowest face first. -/
def gateWord (x : Sweep) (die face : Nat) : Word :=
  BitVec.ofNat 64 (x.gate die face + 65536 * x.gate die (face + 1) + 4294967296 * x.gate die (face + 2) + 281474976710656 * x.gate die (face + 3))

/-- The two words of a column entry (R53). -/
def Col.words (c : Col) : List Word :=
  let e : BitVec 128 := (0 : BitVec 39) ++ c.i ++ c.w ++ BitVec.ofNat 24 c.h
  [e.setWidth 64, e.extractLsb' 64 64]

/-- The words of a frontier record (R52, R53). -/
def Sweep.record (x : Sweep) (ids : List Word) : List Word :=
  let g := geoOf x.desc
  let die := g.dies.getD 0 0
  [x.word0, x.desc.getD 1 0, x.desc.getD 2 0, x.desc.getD 3 0, BitVec.ofNat 64 (4294967296 * g.ncol + x.done), gateWord x die 0,
   gateWord x die 4, BitVec.ofNat 64 ids.length] ++
  (List.range g.ncol).flatMap (fun c => (tgetD x.cols c Col.reset).words) ++ ids

/-- The sweeps of a VD. -/
def State.sweepsOf (s : State) (v : Nat) : List Sweep := s.fr.sweeps.filter fun x => x.vd == v

/-- Writes the frontier record of each sweep; false where a write faults. -/
def saveSweeps (s : State) : List Sweep → Bool × State
  | [] => (true, s)
  | x :: rest =>
    let ids := (s.pointTasks x).map fun t => BitVec.ofNat 64 (s.taskId t.2.2.2)
    match s.quietWrite x.vd (x.desc.getD 13 0).toNat ((x.record ids).flatMap wordBytes) with
    | (some _, s) => (false, s)
    | (none, s) => saveSweeps (s.modSweep x.vd x.swid fun x => { x with st := .frozen }) rest

/-- The 256 words of the counter banks as CSRR reads them (R303): the ordering status word (R229) and the current debt (R88) among them. -/
def State.banks (s : State) (v : Nat) : List Word := (List.range 256).map fun i => s.counter v (i / 32) (i % 32)

/-- The VD may be saved: none of its tasks is in a plane, nothing of its frontiers is under way (R54). -/
def State.quiet (s : State) (v : Nat) : Bool :=
  !((s.fr.tasks.any fun e => e.2.vd == v && (match e.2.state with | .staged => true | .active => true | .held => true | .parked => true | _ => false)) ||
    (s.fr.edges.any fun e => e.vd == v) || s.fr.gadds.any fun a => a.vd == v)

/-- FREEZE_SAVE (R285, R286): statistics, frontier records, counters. A write that faults, in translation or integrity, abandons the save. A point
task with ST = 0 that a decrement has made READY since the freeze removed such tasks is saved as READY: R37 does not say whether it is
removed or saved (notes/assumptions/96.md). -/
def execFreezeSave (vd : BitVec 8) (s : State) : Out :=
  let v := vd.toNat
  .next (match s.vd v with
    | none => s
    | some d =>
      match d.freeze with
      | none => s
      | some f =>
        if f.saved || d.halt.isSome || !(s.quiet v) || s.power != .run then s
        else
          let s := (s.tasksOf v).foldl State.voidOwned (s.freezeReqs v)
          let s := s.flushStats v 2 true
          if (match s.vd v with | some d => !d.stats.isEmpty | none => false) then s.unsaveable v
          else
            match saveSweeps s (s.sweepsOf v) with
            | (false, s) => s.unsaveable v
            | (true, s) =>
              match s.quietWrite v d.d.csa ((s.banks v).flatMap wordBytes) with
              | (some _, s) => s.unsaveable v
              | (none, s) => s.modVd v fun d => { d with freeze := some { f with saved := true }, savedTasks := s.tasksOf v })

/-! ### Restore (R55) -/

/-- The bits of I that stand beyond the front extent or on a done point. -/
def Col.clash (c : Col) (e : Nat) : Bool :=
  (List.range 33).any fun k => c.i.getLsbD k && (decide (e ≤ c.h + k) || c.isDone (c.h + k)) ||
    (k != 0 && c.w.getLsbD (k - 1) && decide (e ≤ c.h + k))

/-- A column as a record's entry holds it. -/
def colOfWords (lo hi : Word) : Col :=
  let e : BitVec 128 := hi ++ lo
  { h := (e.extractLsb' 0 24).toNat, w := e.extractLsb' 24 32, i := e.extractLsb' 56 33 }

/-- The number of bits set in a die mask. -/
def maskCount (m : BitVec 8) : Nat := ((List.range 8).filter fun i => m.getLsbD i).length

/-- A record that passes the checks of R55: the sweep as restored, before its ghosts are rebuilt. -/
def State.checkRecord (s : State) (x : Sweep) (d : VdDef) (ws : List Word) : Option Sweep :=
  let g := geoOf x.desc
  let w (i : Nat) : Word := ws.getD i 0
  let mask := (w 0).extractLsb' 32 8
  let same := 0xFFFFFF00FFFFFFFF#64
  let tasks := s.pointTasks x
  let ids := tasks.map fun t => BitVec.ofNat 64 (s.taskId t.2.2.2)
  let cols := (List.range g.ncol).map fun c => colOfWords (w (8 + 2 * c)) (w (9 + 2 * c))
  let old (c : Nat) : Col := tgetD x.cols c Col.reset
  let owned (c : Nat) (k : Col) : BitVec 33 :=
    tasks.foldl (fun m t => if t.1 = c && decide (k.h ≤ t.2.1) then m ||| (1#33 <<< (t.2.1 - k.h)) else m) 0
  if w 0 &&& same == x.word0 &&& same && maskCount mask == g.dies.length &&
     (List.range 8).all (fun i => !(mask.getLsbD i) || d.hanks.any fun h => h / 8 == i) &&
     w 1 == x.desc.getD 1 0 && w 2 == x.desc.getD 2 0 && w 3 == x.desc.getD 3 0 &&
     w 4 == BitVec.ofNat 64 (4294967296 * g.ncol + x.done) && w 7 == BitVec.ofNat 64 ids.length &&
     (cols.zipIdx).all (fun e => (w (9 + 2 * e.2)).extractLsb' 25 39 == 0 && e.1.h == (old e.2).h && e.1.w == (old e.2).w &&
       !(e.1.clash (g.e g.f))) &&
     (ws.drop (8 + 2 * g.ncol)) == ids &&
     tasks.all (fun t => (cols.getD t.1 Col.reset).inFlight t.2.1)
  then
    let desc := x.desc.set 0 (((x.desc.getD 0 0) &&& ~~~(0xFF0000000000#64)) ||| (mask.setWidth 64 <<< 40))
    let dies := (geoOf desc).dies
    let face (k : Nat) : Nat := min 65535 (fld (w (5 + k / 4)) (16 * (k % 4)) 16 + tgetD x.pend k 0)
    let kept := (cols.zipIdx).foldl (fun t e =>
      let c := { e.1 with i := e.1.i &&& owned e.2 e.1 }
      if c = Col.reset then t else t ++ [(e.2, c)]) []
    some { x with desc := desc, cols := kept, pend := [], ghosts := [],
                  gates := dies.flatMap fun die => (List.range 8).map fun k => (8 * die + k, face k),
                  st := if x.done = g.points then .completing else .running }
  else none

/-- The ghost columns rebuilt from the columns (R51, R55). -/
def Sweep.ghosted (x : Sweep) : Sweep :=
  let g := geoOf x.desc
  let gs := (List.range g.dies.length).foldl (fun t r =>
    let die := g.dies.getD r 0
    let coords := g.ghosts r
    x.cols.foldl (fun t e =>
      if g.rankOfCol e.1 != r && coords.contains ((g.pointOf e.1 0).getD g.sax 0)
      then tset t (65536 * die + e.1) { e.2 with i := 0 } else t) t) []
  { x with ghosts := gs }

/-- Reads and checks the records of a VD's sweeps: the sweeps as restored, or none where a check fails. -/
def restoreSweeps (s : State) (d : VdDef) : List Sweep → Option (List Sweep) × State
  | [] => (some [], s)
  | x :: rest =>
    let n := 64 + 16 * (geoOf x.desc).ncol + 8 * (s.pointTasks x).length
    match s.devRead x.vd (x.desc.getD 13 0).toNat n with
    | (none, s) => (none, s)
    | (some bs, s) =>
      match s.checkRecord x d (wordsOf bs (n / 8)) with
      | none => (none, s)
      | some y =>
        match restoreSweeps s d rest with
        | (some ys, s) => (some (y.ghosted :: ys), s)
        | r => r

/-- The template of a saved point task is booked afresh (R83); one that fails makes the task READY (R74). -/
def State.rebook (s : State) (key : Nat) : State :=
  match s.task key with
  | none => s
  | some t =>
    match s.vd t.vd, s.sweep t.vd t.swid with
    | some d, some x =>
      (match s.bookTemplate x d.d t.home key with
      | (some r, s) => s.addReq r
      | (none, s) => s.applyDec t.vd (s.taskId t))
    | _, _ => s

/-- A restore fails: firmware halts the VD (R55). -/
def State.restoreFails (s : State) (v : Nat) : State := s.raiseHalt v 4 0

/-- The reserved bits of the ordering status word read 0 (R1, R229). -/
def ordWord (w : Word) : Word := w &&& 0xFFFFFFFF00000001#64

/-- The incoming VD is restored: counters, tasks, frontier records last (R285, R303, R55). READY tasks return to their queues in the order in which
they stood before the freeze, while their waits count from the restore: R37 gives no order among them (notes/assumptions/96.md). -/
def State.restoreVd (s : State) (v : Nat) (d : Vd) : State :=
  match s.devRead v d.d.csa 2048 with
  | (none, s) => s.restoreFails v
  | (some bs, s) =>
    let ws := wordsOf bs 256
    let cnt := (ws.zipIdx).filterMap fun e => if e.1 = 0 || !(kept (e.2 / 32) (e.2 % 32)) then none else some (e.2, e.1)
    let s := s.modVd v fun d => { d with cnt := cnt, ord := ordWord (ws.getD 64 0) }
    if s.tasksOf v != d.savedTasks then s.restoreFails v
    else
      match restoreSweeps s d.d (s.sweepsOf v) with
      | (none, s) => s.restoreFails v
      | (some xs, s) =>
        let s := s.modFr fun f =>
          { f with sweeps := f.sweeps.map fun x => (xs.find? fun y => y.key == x.key).getD x,
                   tasks := tmap f.tasks fun _ t => if t.vd = v && t.state == .ready then { t with readyAt := s.now } else t }
        let s := s.modVd v fun d => { d with freeze := none, savedTasks := [], retmpl := [] }
        d.retmpl.foldl State.rebook s

/-! ### WORLD_SWITCH (R285, R268, R263) -/

/-- A core after a scrub: memories 0, tiles reset, line store and translation cache empty (R268). -/
def Core.scrub (k : Core) : Core :=
  { k with lines := [], tc := [], spad := [], creel := [], bobbin := [], tiles := Vector.replicate 8 Tile.reset, sect := [], want := [] }

/-- The cores of a hank are scrubbed. -/
def State.scrubHank (s : State) (h : Nat) : State := { s with cores := tmap s.cores fun c k => if hankOf c = h then k.scrub else k }

/-- A hank that no running VD but `v` holds. -/
def State.hankFree (s : State) (v h : Nat) : Bool :=
  match tget s.hanks h with
  | none => true
  | some u => u == v || !(match s.vd u with | some d => d.run | none => false)

/-- VD `v` takes a hank: one that ran another VD last is scrubbed (R268). -/
def State.takeHank (s : State) (v h : Nat) : State :=
  let s := match tget s.hanks h with | some u => if u = v then s else s.scrubHank h | none => s
  { s with hanks := tset s.hanks h v }

/-- A frozen VD leaves its hanks: its lines and translations go, its counters are written back, and its root moves to secure SRAM, until a home agent
serves it again (R285, R263; State.rootHome). -/
def State.leaveHanks (s : State) (v : Nat) : State :=
  let s := { s with cores := tmap s.cores fun _ k =>
    { k with lines := k.lines.filter fun l => l.vd != v, tc := k.tc.filter fun e => e.vd != v, want := k.want.filter fun w => w.1 != v } }
  ((s.storeFlush v).modHbm fun h => { h with doms := tmod h.doms v fun d => { d with root := none } }).modVd v fun d => { d with run := false }

/-- A VD that has left its hanks, or may leave them now. -/
def State.mayLeave (s : State) (v : Nat) : Bool :=
  match s.vd v with
  | none => true
  | some d => !d.run || (match d.freeze with | some f => f.saved && d.halt.isNone | none => false)

/-- WORLD_SWITCH (R285): firmware exchanges a saved VD for another on the hanks. -/
def execWorldSwitch (out inn : BitVec 8) (s : State) : Out :=
  let o := out.toNat
  let i := inn.toNat
  .next (match s.vd i with
    | none => s
    | some d =>
      let ready := (o == i || !d.run) && d.halt.isNone && !d.unsave && (match d.freeze with | some f => f.saved | none => !d.run)
      if s.power != .run || !(s.mayLeave o) || !ready then s
      else
        let t := if (match s.vd o with | some x => x.run | none => false) then s.leaveHanks o else s
        if !(d.d.hanks.all fun h => t.hankFree i h) then s
        else
          let t := d.d.hanks.foldl (fun t h => t.takeHank i h) t
          let t := (t.rootHome i).modVd i fun d => { d with run := true }
          if d.freeze.isSome then t.restoreVd i d else t)

end Sys2Proof.Machine
end

