-- ==== Sys2Proof/Machine/Queues.lean ====
section
/-! DEFINITION. The launch front end: queues, notifies, reconcile, commands, launch graphs, completion actions and posts, and the
host's RDMA (spec/15_virtual_devices.md R294 to R301, spec/18_ref_d_l.md R350, R352, R359). -/

namespace Sys2Proof.Machine

/-! ### Queues (R295) -/

/-- A queue that a VD's definition gives no shadow for (notes/assumptions/18.md). -/
def Queue.plain : Queue := { head := 0, tail := 0, seq := 0, ctail := 0, pri := 3, maxs := 4095, open_ := 0 }

/-- Queue `q` of a VD. -/
def Vd.queue (d : Vd) (q : Nat) : Queue := tgetD d.queues q Queue.plain

/-- Rewrites a queue. -/
def State.modQueue (s : State) (v q : Nat) (f : Queue → Queue) : State :=
  s.modVd v fun d => { d with queues := tset d.queues q (f (d.queue q)) }

/-- The fields of a guest's queue control block that the device takes (R295). -/
structure QBlock where
  ring : Nat
  vdid : Nat
  pri : Nat
  lgn : Nat
  clg : Nat
  maxs : Nat
  tgen : Nat
  tail : BitVec 32
  crb : Nat
  chead : BitVec 32
  cfut : Nat
  deriving DecidableEq, Repr

/-- A control block from its eight words. -/
def qblockOf (ws : List Word) : QBlock :=
  let w (i : Nat) : Word := ws.getD i 0
  { ring := fld (w 0) 0 48, vdid := fld (w 1) 56 8, pri := fld (w 1) 54 2, lgn := fld (w 1) 48 4, clg := fld (w 1) 44 4,
    maxs := fld (w 1) 0 12, tgen := fld (w 2) 48 16, tail := (w 2).setWidth 32, crb := fld (w 4) 0 48, chead := (w 6).setWidth 32,
    cfut := fld (w 7) 0 48 }

/-- The VA of a queue's control block. -/
def qcbVa (d : VdDef) (q : Nat) : Nat := d.qcb + 64 * q

/-- Reads a guest's control block; none where it cannot be read. -/
def State.readQueue (s : State) (v : Nat) (d : VdDef) (q : Nat) : Option QBlock × State :=
  match s.devRead v (qcbVa d q) 64 with
  | (some bs, s) => (some (qblockOf (wordsOf bs 8)), s)
  | (none, s) => (none, s)

/-- RING, LGN and CLG within their limits (R295). -/
def QBlock.ok (b : QBlock) : Bool := b.ring % 64 == 0 && decide (4 ≤ b.lgn) && decide (4 ≤ b.clg)

/-! ### Completion entries (R300) -/

/-- Word 0 of a completion entry. -/
def postWord (kind code node tag : Nat) : Word :=
  BitVec.ofNat 64 (1152921504606846976 * kind + 4503599627370496 * code + 4294967296 * (node % 65536) + tag)

/-- An entry waits for its ring. -/
def State.post (s : State) (v q : Nat) (w0 : Word) (swid : Nat) : State :=
  s.modFr fun f => { f with posts := f.posts ++ [{ vd := v, q := q, w0 := w0, swid := swid }] }

/-- COMPLETION_POST (R300): the first entry that waits for a queue's ring is written when the ring has room. -/
def execCompletionPost (vd : BitVec 8) (q : BitVec 6) (s : State) : Out :=
  let v := vd.toNat
  let n := q.toNat
  .next (match s.served v, s.fr.posts.find? fun p => p.vd == v && p.q == n with
    | some d, some p =>
      (match s.readQueue v d.d n with
      | (none, s) => s
      | (some b, s) =>
        let ct := (d.queue n).ctail
        if !b.ok || ct - b.chead == BitVec.ofNat 32 (2 ^ b.clg) then s
        else
          let w1 : Word := d.gen ++ (0 : BitVec 36) ++ BitVec.ofNat 12 p.swid
          match s.devWords v (b.crb + 16 * (ct.toNat % 2 ^ b.clg)) [p.w0, w1] with
          | (false, s) => s
          | (true, s) =>
            let s := s.modFr fun f => { f with posts := dropFirst (fun x => x.vd == v && x.q == n) f.posts }
            let s := if fld p.w0 60 4 = 0 then s.clipped v 4 else s
            let s := ((s.modQueue v n fun k => { k with ctail := ct + 1 }).devWords v (qcbVa d.d n + 40) [(ct + 1).setWidth 64]).2
            let s := if b.cfut = 0 then s else s.devFill v b.cfut ((ct + 1).setWidth 64)
            (match s.sweep v (BitVec.ofNat 12 p.swid) with | some x => s.endSweep x.key | none => s))
    | _, _ => s)

/-! ### Notifies and reconcile (R297, R298) -/

/-- The last two tests of R297 pass. -/
def tailOk (k : Queue) (b : QBlock) (tail : BitVec 32) : Bool :=
  decide ((tail - k.head).toNat ≤ 2 ^ b.lgn) && decide ((tail - k.tail).toNat < 2147483648)

/-- A write of a VD's queue pair waits for a migration's end: the next write of the pair starts only after it (R294). -/
def Hbm.qpBusy (h : Hbm) (v qp : Nat) : Bool :=
  h.migs.any fun m => m.held.any fun o => match o with | .rdmaWrite w q _ _ => w == v && q == qp | _ => false

/-- NOTIFY (R297): in the order of its queue pair (R294); held while the VD is halted (R282). -/
def execNotify (q : HostQp) (w0 w1 : Word) (s : State) : Out :=
  let v := q.vd.toNat
  .next (match (if s.power = .run && !(s.hbm.qpBusy v q.qp) && !(s.flitsHeld v) then s.vd v else none) with
    | none => s
    | some d =>
      if w0.extractLsb' 48 16 ≠ d.gen then s.count v 6 1 1
      else
        let q := fld w0 32 6
        let tail : BitVec 32 := w0.setWidth 32
        match s.readQueue v d.d q with
        | (none, s) => s.count v 6 2 1
        | (some b, s) =>
          let k := d.queue q
          if w1.toNat ≤ k.seq.toNat || !(tailOk k b tail) then s.count v 6 2 1
          else (s.modQueue v q fun k => { k with tail := tail, seq := w1 }).count v 6 0 1)

/-- A queue's reconcile is due: 64 slots after the last one, or the first (R298). -/
def Queue.due (k : Queue) (now : Nat) : Bool := match k.polled with | some t => decide (t + 64 ≤ now) | none => true

/-- RECONCILE (R298): one queue of a pass, every 64 slots. -/
def execReconcile (vd : BitVec 8) (q : BitVec 6) (s : State) : Out :=
  let v := vd.toNat
  let n := q.toNat
  .next (match (if s.power = .run then s.vd v else none) with
    | none => s
    | some d =>
      if !((d.queue n).due s.now) then s
      else
        match s.readQueue v d.d n with
        | (none, s) => s
        | (some b, s) =>
          let k := d.queue n
          let s := if b.vdid = v && b.pri = k.pri && b.maxs = k.maxs then s else s.count v 6 4 1
          let s := if b.ok then s else s.count v 6 5 1
          let took := b.tgen = d.gen.toNat && tailOk k b b.tail
          let s := s.modQueue v n fun k => { k with tail := if took then b.tail else k.tail, polled := some s.now }
          if took then s.count v 6 3 1 else s)

/-! ### Sweeps of commands and graphs -/

/-- The queue of the command that launched a sweep. -/
def State.queueOf (s : State) (src : SweepSrc) : Option Nat :=
  match src with | .launch => none | .queue q _ => some q | .graph g _ => (tget s.fr.graphs g).map (·.q)

/-- The sweeps of a queue that run, or wait for an id. -/
def State.sweepsRunning (s : State) (v q : Nat) : Nat :=
  (s.fr.sweeps.filter fun x => x.vd == v && !x.acted && s.queueOf x.src == some q).length +
  (s.fr.waiting.filter fun x => x.vd == v && s.queueOf x.src == some q).length

/-- A descriptor's PRI lowered to a queue's (R296). -/
def lowerPri (desc : List Word) (pri : Nat) : List Word :=
  let w := desc.getD 0 0
  if pri < fld w 30 2 then desc.set 0 ((w &&& ~~~(0xC0000000#64)) ||| (BitVec.ofNat 64 pri <<< 30)) else desc

/-- Launches the sweep of a command: the code that rejects it, if any (R359). -/
def State.launchFrom (s : State) (v : Nat) (d : VdDef) (addr pri : Nat) (src : SweepSrc) : Option Nat × State :=
  if addr % 64 ≠ 0 then (some 24, s)
  else
    match s.devRead v addr 128 with
    | (none, s) => (some 25, s)
    | (some bs, s) =>
      let desc := lowerPri (wordsOf bs 16) pri
      match s.checkDesc v d desc with
      | (some c, s) => (some c, s)
      | (none, s) => (none, (s.acceptSweep v desc src).2)

/-! ### Launch graphs (R301) -/

/-- Rewrites a graph. -/
def State.modGraph (s : State) (g : Nat) (f : Graph → Graph) : State := s.modFr fun r => { r with graphs := tmod r.graphs g f }

/-- Launches the nodes of a graph among `ns` whose count is 0, in order, until one is rejected. -/
def launchNodes (s : State) (v : Nat) (d : VdDef) (g pri : Nat) : List Nat → State
  | [] => s
  | n :: rest =>
    match tget s.fr.graphs g with
    | none => s
    | some x =>
      if x.reject.isSome then s
      else if x.counts.getD n 0 ≠ 0 || x.launched.contains n then launchNodes s v d g pri rest
      else
        let s' := match s.devWord v (x.table.toNat + 16 * n) with
          | (none, s) => (some 25, s)
          | (some w, s) => s.launchFrom v d (fld w 0 48) pri (.graph g n)
        match s' with
        | (some c, s) => s.modGraph g fun x => { x with reject := some (c, n) }
        | (none, s) => launchNodes (s.modGraph g fun x => { x with launched := x.launched ++ [n] }) v d g pri rest

/-- A graph that is done posts its KIND 2 entry, and its command is complete. -/
def State.endGraph (s : State) (g : Nat) : State :=
  match tget s.fr.graphs g with
  | none => s
  | some x =>
    let idle := x.launched.all fun n => x.done.contains n
    let go (code node : Nat) : State :=
      ((s.modFr fun f => { f with graphs := terase f.graphs g }).post x.vd x.q (postWord 2 code node x.tag) 0xFFF).modQueue x.vd x.q
        fun k => { k with open_ := k.open_ - 1 }
    match x.reject with
    | some (c, n) => if idle then go c n else s
    | none => if idle && x.launched.length == x.nnode then go 0 0 else s

/-- Launches what a graph has to launch, and ends it where it is over. -/
def State.runGraph (s : State) (g : Nat) : State :=
  match tget s.fr.graphs g with
  | none => s
  | some x =>
    match s.vd x.vd with
    | none => s
    | some d => (launchNodes s x.vd d.d g (d.queue x.q).pri (List.range x.nnode)).endGraph g

/-- GRAPH_ADVANCE (R301): the sweep of a node is over; it decrements its successors. -/
def State.advanceGraph (s : State) (g n : Nat) : State :=
  match tget s.fr.graphs g with
  | none => s
  | some x =>
    let s := s.modGraph g fun x => { x with done := x.done ++ [n] }
    let bad (s : State) (c : Nat) : State := s.modGraph g fun x => { x with reject := match x.reject with | none => some (c, n) | r => r }
    let s := match s.devWord x.vd (x.table.toNat + 16 * n + 8) with
      | (none, s) => bad s 25
      | (some w, s) =>
        match s.devRead x.vd (fld w 0 48) (4 * fld w 48 16) with
        | (none, s) => bad s 25
        | (some bs, s) =>
          let idx := (iwordsOf bs (fld w 48 16)).map fun (i : IWord) => i.toNat
          let s := s.modGraph g fun x =>
            { x with counts := idx.foldl (fun cs i => cs.modify i (· - 1)) x.counts }
          if idx.any fun i => decide (x.nnode ≤ i) then bad s 49 else s
    s.runGraph g

/-! ### Commands (R296) -/

/-- A command as read: its OP, SER, TAG and words. -/
structure QCmd where
  op : Nat
  ser : Bool
  tag : Nat
  w1 : Word
  w2 : Word
  ok : Bool
  deriving DecidableEq, Repr

/-- A command from its four words; `ok`: no reserved OP, no nonzero field shown as 0, NNODE within its limits. -/
def qcmdOf (ws : List Word) : QCmd :=
  let w (i : Nat) : Word := ws.getD i 0
  let op := fld (w 0) 60 4
  { op := op, ser := (w 0).getLsbD 59, tag := fld (w 0) 0 32, w1 := w 1, w2 := w 2,
    ok := decide (op ≤ 2) && fld (w 0) 32 27 == 0 && fld (w 1) 48 16 == 0 && w 3 == 0 &&
      (if op = 2 then decide (1 ≤ (w 2).toNat ∧ (w 2).toNat ≤ 65536) else w 2 == 0) }

/-- The next command of a queue that the front end may take, with the queue. -/
def State.nextCmd (s : State) (v : Nat) (d : Vd) (q : Nat) : Option QCmd × State :=
  let k := d.queue q
  if k.head = k.tail || !(s.works v) || decide (k.maxs ≤ s.sweepsRunning v q) then (none, s)
  else
    match s.readQueue v d.d q with
    | (none, s) => (none, s)
    | (some b, s) =>
      if !b.ok then (none, s)
      else
        match s.devRead v (b.ring + 32 * (k.head.toNat % 2 ^ b.lgn)) 32 with
        | (none, s) => (none, s)
        | (some bs, s) =>
          let c := qcmdOf (wordsOf bs 4)
          (if c.ser && k.open_ != 0 then none else some c, s)

/-- The front end takes a command: HEAD advances (R296). -/
def State.takeCmd (s : State) (v : Nat) (d : Vd) (q : Nat) : State :=
  let h := (d.queue q).head + 1
  ((s.modQueue v q fun k => { k with head := h }).devWords v (qcbVa d.d q + 24) [h.setWidth 64]).2

/-- The command is rejected: KIND 1 with a code. -/
def State.rejectCmd (s : State) (v q code tag : Nat) : State := s.post v q (postWord 1 code 0 tag) 0xFFF

/-- Takes the next command of a queue if `mine` says that this event performs its OP, and `act` on it; a malformed one completes with
code 48. -/
def State.runCmd (s : State) (v q : Nat) (mine : Nat → Bool) (act : State → Vd → QCmd → State) : State :=
  match s.vd v with
  | none => s
  | some d =>
    match s.nextCmd v d q with
    | (none, s) => s
    | (some c, s) =>
      if !(mine c.op) then s
      else
        let s := s.takeCmd v d q
        if c.ok then act s d c else s.rejectCmd v q 48 c.tag

/-- SWEEP_COMMAND (R296). -/
def execSweepCommand (vd : BitVec 8) (q : BitVec 6) (s : State) : Out :=
  let v := vd.toNat
  let n := q.toNat
  .next (s.runCmd v n (· == 1) fun s d c =>
    match s.launchFrom v d.d (fld c.w1 0 48) (d.queue n).pri (.queue n c.tag) with
    | (some code, s) => s.rejectCmd v n code c.tag
    | (none, s) => s.modQueue v n fun k => { k with open_ := k.open_ + 1 })

/-- GRAPH_COMMAND (R301). -/
def execGraphCommand (vd : BitVec 8) (q : BitVec 6) (s : State) : Out :=
  let v := vd.toNat
  let n := q.toNat
  .next (s.runCmd v n (· == 2) fun s _ c =>
    let a := fld c.w1 0 48
    let m := c.w2.toNat
    let g := s.nextId
    let s := ({ s with nextId := g + 1 } : State).modQueue v n fun k => { k with open_ := k.open_ + 1 }
    let x : Graph := { vd := v, q := n, tag := c.tag, table := BitVec.ofNat 64 a, nnode := m, counts := [], launched := [], done := [],
                       reject := none }
    match s.devRead v a (16 * m) with
    | (none, s) => (s.modFr fun f => { f with graphs := tset f.graphs g { x with reject := some (25, 0) } }).endGraph g
    | (some bs, s) =>
      let ws := wordsOf bs (2 * m)
      (s.modFr fun f =>
        { f with graphs := tset f.graphs g { x with counts := (List.range m).map fun i => fld (ws.getD (2 * i) 0) 48 16 } }).runGraph g)

/-- NOP_COMMAND (R296): completes at once; a reserved OP completes with KIND 1 and CODE 48. -/
def execNopCommand (vd : BitVec 8) (q : BitVec 6) (s : State) : Out :=
  let v := vd.toNat
  let n := q.toNat
  .next (s.runCmd v n (fun op => op == 0 || decide (2 < op)) fun s _ c => s.post v n (postWord 0 0 0 c.tag) 0xFFF)

/-! ### Completion actions (R299) -/

/-- The queues that a sweep's completion posts to. -/
def Sweep.targets (x : Sweep) : List Nat :=
  (if x.act = 4 then [fld (x.desc.getD 6 0) 16 6] else []) ++ (match x.src with | .queue q _ => [q] | _ => [])

/-- A sweep may perform its action: no sweep that completed before it and is still to act posts to a queue that it posts to (R300). -/
def State.mayAct (s : State) (x : Sweep) : Bool :=
  (s.served x.vd).isSome && x.st == .completing && !x.acted &&
  ((s.fr.sweeps.takeWhile fun y => y.key != x.key).filter fun y => y.vd == x.vd && y.st == .completing && !y.acted).all fun y =>
    !(y.targets.any fun q => x.targets.contains q)

/-- The device fills a future as FPUT does (R226, R299, R350): in HBM, in a peer package, or in a host window, FULL behind VALUE; for the
completion action of the sweep with a key. -/
def State.fillFuture (s : State) (key v : Nat) (d : Vd) (fa : Word) (value : Word) : State :=
  if fa &&& 15 ≠ 0 then s.count v 6 6 1
  else
    match s.target d 0 fa 16 with
    | .xlate => (s.clipped v 2).devFill v (hbmVa fa).toNat value
    | .home (.rhbm node a) _ =>
      (s.clipped v 3).sendReq node (mkMsg 3 node s.node v 0 (remoteAddr (.rhbm node a)) 16 0xFFFFFFFF 0 (wordBytes value ++ wordBytes 1)) (.action key)
    | .home (.host h o) _ => (s.clipped v 4).hostOp v h o (.full h (o + 8) (some key)) fun id => .rdmaWrite id h o none (wordBytes value)
    | .home _ _ => s
    | .bad _ => s

/-- Performs a completion action after the flush (R161, R299). -/
def State.doAction (s : State) (x : Sweep) (d : Vd) : State :=
  let w6 := x.desc.getD 6 0
  let w7 := x.desc.getD 7 0
  match x.act with
  | 1 => (s.clipped x.vd 2).sendDec (some x.key) x.vd w7.toNat
  | 2 => s.fillFuture x.key x.vd d w7 1
  | 3 =>
    let id : BitVec 12 := w7.setWidth 12
    (s.clipped x.vd (s.sweepScope x.vd id)).gateAdd (some x.key) x.vd id (fld w6 0 3) (fld w7 16 16)
  | 4 => s.post x.vd (fld w6 16 6) (postWord 0 0 0 (fld w7 0 32)) x.swid.toNat
  | _ => s

/-- Completes a sweep: the flush, the action, what its launcher is told, once. -/
def State.act (s : State) (x : Sweep) : State :=
  match s.vd x.vd with
  | none => s
  | some d =>
    let s := s.flushStats x.vd (descScope x.desc) false
    let s := (s.doAction x d).modSweep x.vd x.swid fun x => { x with acted := true }
    let s := match x.src with
      | .queue q tag =>
        (s.post x.vd q (postWord 0 0 0 tag) x.swid.toNat).modQueue x.vd q fun k => { k with open_ := k.open_ - 1 }
      | .graph g n => s.advanceGraph g n
      | .launch => s
    s.endSweep x.key

/-- The action of a completed sweep, named by 4,096 times its VD and its id, if its ACT is one of some. -/
def State.actIf (s : State) (turn : Nat) (acts : List Nat) : State :=
  match s.fr.sweeps.find? fun x => x.turn == turn with
  | some x => if s.mayAct x && acts.contains x.act then s.act x else s
  | none => s

/-- ACTION_SIGNAL (R299, R25, R225). -/
def execActionSignal (sweep : Nat) (s : State) : Out := .next (s.actIf sweep [1])

/-- ACTION_FPUT (R299, R226). -/
def execActionFput (sweep : Nat) (s : State) : Out := .next (s.actIf sweep [2])

/-- ACTION_GATE (R299, R50). -/
def execActionGate (sweep : Nat) (s : State) : Out := .next (s.actIf sweep [3])

/-- ACTION_POST (R299, R300): also the KIND 0 entry of a command's sweep that has no action. -/
def execActionPost (sweep : Nat) (s : State) : Out := .next (s.actIf sweep [0, 4])

/-! ### The host's RDMA (R294) -/

/-- A host access of a VD: an error completion without the VD or after a fatal halt; held while it is halted (R282, R283;
notes/assumptions/92.md). -/
def State.hostAccess (s : State) (v : Nat) (go : State → State) : State :=
  if s.power ≠ .run then s
  else
    match s.vd v with
    | none => s.toHost (.response v false [])
    | some d =>
      match d.halt with
      | none => go s
      | some h => if h.fatal then s.toHost (.response v false []) else s

/-- A read of the notify window: R294 allows it, and no rule names what it returns, so its bytes are free (notes/assumptions/97.md). -/
def State.notifyRead (s : State) (va : Word) (len : Nat) : Rdma × State :=
  if len = 0 || 16 < va.toNat + len then (.err, s)
  else (.ok ((List.range len).map fun i => (Config.freeWord (s.freeCtr + i)).setWidth 8), { s with freeCtr := s.freeCtr + len })

/-- HOST_RDMA_READ (R294): of the HBM window, or of the notify window. -/
def execHostRdmaRead (r : RdmaSource) (va : Word) (len : Nat) (s : State) : Out :=
  .next (s.hostAccess r.vd.toNat fun s =>
    let a := if r.notify then s.notifyRead va len else s.rdmaRead r.vd.toNat va len
    a.2.rdmaDone r.vd.toNat a.1 (.rdmaWrite r.vd.toNat 0 va []))

/-- HOST_RDMA_WRITE (R294, R252), in the order of its queue pair. -/
def execHostRdmaWrite (q : HostQp) (va : Word) (data : List Byte) (s : State) : Out :=
  .next (s.hostAccess q.vd.toNat fun s =>
    if s.hbm.qpBusy q.vd.toNat q.qp then s
    else
      let r := s.rdmaWrite q.vd.toNat va data
      r.2.rdmaDone q.vd.toNat r.1 (.rdmaWrite q.vd.toNat q.qp va data))

/-- HOST_RDMA_ATOMIC (R294, R204). -/
def execHostRdmaAtomic (vd : BitVec 8) (va : Word) (cas : Bool) (op new : Word) (s : State) : Out :=
  .next (s.hostAccess vd.toNat fun s =>
    let r := s.rdmaAtomic vd.toNat va cas op new
    r.2.rdmaDone vd.toNat r.1 (.rdmaAtomic vd.toNat va cas op new))

end Sys2Proof.Machine
end

