-- ==== Sys2Proof/Machine/Virry.lean ====
section
/-! DEFINITION. What the HBM stacks hold outside the dies: ciphertext, tags, encrypted counter blocks and tree nodes, as functions of the
state (spec/13_virry.md R254 to R257, R261, R262). No access of a VD reads them; they say what Virry leaves visible outside. AES-256, GHASH and
the multiplication in GF(2^128) are Config's (notes/assumptions/4.md). -/

namespace Sys2Proof.Machine

/-- The sixteen bytes of chunk `j` of a 64-byte block as a 128-bit value, low byte first (R2). -/
def chunkOf (bs : List Byte) (j : Nat) : BitVec 128 := BitVec.ofNat 128 (leNat ((bs.drop (16 * j)).take 16))

/-- The VDID of a domain: the VD id, or the window number (R255). -/
def vdidOf (dom : Nat) : BitVec 8 := BitVec.ofNat 8 dom

/-- The IV of R255: domain, block address VPA [41:6], minor and major counter, DOM, chunk. -/
def ivOf (dom ba min : Nat) (maj : Word) (use : BitVec 2) (j : BitVec 2) : BitVec 128 :=
  vdidOf dom ++ BitVec.ofNat 36 ba ++ BitVec.ofNat 7 min ++ maj ++ use ++ (0 : BitVec 9) ++ j

/-- The VPA of a DPA, over its frame's page (R255). -/
def Frame.vpa (f : Frame) (dpa : Nat) : Nat := 65536 * f.page + dpa % 65536

/-- The counter block of a DPA's group. -/
def Hbm.ctrOf (h : Hbm) (dpa : Nat) : Ctr := tgetD h.ctrs (dpa / 4096) Ctr.reset

/-- The IV of the block at `dpa`, of domain frame `f`. -/
def Hbm.iv (h : Hbm) (f : Frame) (dpa : Nat) (use : BitVec 2) (j : BitVec 2) : BitVec 128 :=
  ivOf f.dom (f.vpa dpa / 64) (tgetD (h.ctrOf dpa).mins (blockOf dpa % 64) 0) (h.ctrOf dpa).maj use j

/-- The data key of a domain (R254). -/
def Hbm.keyKD (h : Hbm) (dom : Nat) : BitVec 256 :=
  Config.dataKey (match tget h.doms dom with | some d => d.keys | none => 0)

/-- The node key of a domain (R254). -/
def Hbm.keyKN (h : Hbm) (dom : Nat) : BitVec 256 :=
  Config.nodeKey (match tget h.doms dom with | some d => d.keys | none => 0)

/-- The hash subkey H of a domain (R254). -/
def Hbm.keyH (h : Hbm) (dom : Nat) : BitVec 128 := Config.aes256 (h.keyKD dom) 0

/-- The four ciphertext chunks of the block at `dpa` (R255). -/
def Hbm.cipher (h : Hbm) (f : Frame) (dpa : Nat) : List (BitVec 128) :=
  let p := memBytes h.mem (64 * blockOf dpa) 64
  (List.range 4).map fun j => chunkOf p j ^^^ Config.aes256 (h.keyKD f.dom) (h.iv f dpa 0 (BitVec.ofNat 2 j))

/-- The length block: 0 bits of additional data, 512 bits of ciphertext (R256). -/
def lengthBlock : BitVec 128 := (0 : BitVec 64) ++ (512 : BitVec 64)

/-- The tag of the block at `dpa` (R256). -/
def Hbm.tag (h : Hbm) (f : Frame) (dpa : Nat) : Word :=
  (Config.ghash (h.keyH f.dom) (h.cipher f dpa ++ [lengthBlock]) ^^^ Config.aes256 (h.keyKD f.dom) (h.iv f dpa 1 0)).extractLsb' 64 64

/-- A counter block as 512 bits (R257): MAJ, then 64 minor counters of 7 bits. -/
def Ctr.leafBits (c : Ctr) : BitVec 512 :=
  (List.range 64).foldl (fun b i => b ||| (BitVec.ofNat 512 (tgetD c.mins i 0) <<< (64 + 7 * i))) (c.maj.setWidth 512)

/-- A tree node as 512 bits (R262): CHK, MAJ, then 64 minor counters of 6 bits. -/
def Ctr.nodeBits (c : Ctr) (level idx : Nat) : BitVec 512 :=
  (List.range 64).foldl (fun b i => b ||| (BitVec.ofNat 512 (tgetD c.mins i 0) <<< (128 + 6 * i)))
    ((c.maj.setWidth 512 <<< 64) ||| BitVec.ofNat 512 (281474976710656 * level + idx))

/-- The value whose encryption under KN is the tweak of a node or leaf, under its parent's counters (R262). -/
def tweakOf (dom level idx pmin : Nat) (pmaj : Word) : BitVec 128 :=
  vdidOf dom ++ BitVec.ofNat 4 level ++ BitVec.ofNat 30 idx ++ BitVec.ofNat 6 pmin ++ pmaj ++ (0 : BitVec 16)

/-- The parent of node `idx` at `level` below the root. -/
def Hbm.parentOf (h : Hbm) (dom level idx : Nat) : Ctr :=
  tgetD h.nodes (nodeKey dom (level + 1) (if level + 1 = 5 then 0 else idx / 64)) Ctr.reset

/-- The chunks of a node or leaf below the root as HBM holds them: AES-256 under KN in XEX form (R262). -/
def Hbm.nodeCipher (h : Hbm) (dom level idx : Nat) (plain : BitVec 512) : List (BitVec 128) :=
  let par := h.parentOf dom level idx
  let t := Config.aes256 (h.keyKN dom) (tweakOf dom level idx (tgetD par.mins (idx % 64) 0) par.maj)
  (List.range 4).map fun j =>
    let tj := Config.xexMul t j
    Config.aes256 (h.keyKN dom) (plain.extractLsb' (128 * j) 128 ^^^ tj) ^^^ tj

/-- A leaf of DPA group `dpa` as HBM holds it. -/
def Hbm.leafCipher (h : Hbm) (f : Frame) (dpa : Nat) : List (BitVec 128) :=
  h.nodeCipher f.dom 0 (16 * f.page + dpa / 4096 % 16) (h.ctrOf dpa).leafBits

/-- A tree node at levels 1 to 4 as HBM holds it. -/
def Hbm.treeCipher (h : Hbm) (dom level idx : Nat) : List (BitVec 128) :=
  h.nodeCipher dom level idx ((tgetD h.nodes (nodeKey dom level idx) Ctr.reset).nodeBits level idx)

end Sys2Proof.Machine
end

