-- ==== Sys2Proof/Machine/Firmware.lean ====
section
/-! DEFINITION. Warun firmware: the management messages, share windows, VD reset and teardown, debug commands, attestation and updates,
power, and responses of the host (spec/15_virtual_devices.md R293, R294, R302 to R307, spec/12_translation.md R252, spec/13_virry.md
R267 to R271, spec/14_traps_preemption.md R290 to R292, spec/16_fliurn.md R311). -/

namespace Sys2Proof.Machine

/-! ### The management channel (R304) -/

/-- The reply to a management request: status 0 done, 1 refused, 2 bad message. -/
def State.reply (s : State) (op v : Nat) (seq : BitVec 32) (status : Nat) (body : List Byte) : State :=
  s.toHost (.reply op v seq status body)

/-- The header of a request of OP `op` is right (R304): its OP, which names a message, word 1, and the body length `len`. -/
def hdrOk (op len : Nat) (h : MgmtHdr) : Bool := h.op.toNat == op && h.w1 == 0 && h.len.toNat == len

/-- The length of a body that names `n` list entries; a body of TEARDOWN or RESET is none, and the header has 16 bits for it (R304; notes/assumptions/98.md). -/
def bodyOf (op n : Nat) : Nat := if op = 2 || op = 3 then 0 else Config.bodyLen (256 * n + op) % 65536

/-- Firmware answers a request in RUN, one with a wrong header with status 2; tripped, it refuses all (R304, R307). Answering shows that it is
alive (R306). A request waits behind a LOAD that has still to be answered. -/
def State.managed (s : State) (op v : Nat) (h : MgmtHdr) (len : Nat) (act : State → State) : State :=
  let t : State := { s with fw := { s.fw with alive := s.now } }
  match s.power with
  | .run => if s.fw.load.isSome then s else if hdrOk op len h then act t else t.reply h.op.toNat v h.seq 2 []
  | .tripped => t.reply h.op.toNat v h.seq 1 []
  | _ => t

/-- A request that names a defined VD; refused where it is not defined. -/
def State.managedVd (s : State) (op v : Nat) (h : MgmtHdr) (len : Nat) (act : State → Vd → State) : State :=
  s.managed op v h len fun s => match s.vd v with | some d => act s d | none => s.reply op v h.seq 1 []

/-! ### DEFINE (R293) -/

/-- The capacity of a class in a period of 4,096 slots (R84). -/
def classCap (cls : Nat) : Nat :=
  4096 * (if cls < 16 then 128 else if cls < 24 then 8 * 112 else if cls = 24 then 16 * 40 else 18)

/-- No value occurs twice. -/
def distinct (xs : List Nat) : Bool := xs.eraseDups.length == xs.length

/-- The units of a class that a definition asks for. -/
def defQuota (d : VdDef) (cls : Nat) : Nat := match d.quotas.find? fun q => q.1 == cls with | some q => q.2 | none => 0

/-- HNOT is 0 or an address in a host window (R243). -/
def hnotOk (a : Word) : Bool := a == 0 || (match winOf a with | .host _ _ => true | _ => false)

/-- The addresses of a definition are in the HBM window, aligned as their rules say. -/
def defAddrsOk (d : VdDef) : Bool :=
  let ok (a al n : Nat) : Bool := a % al == 0 && decide (a + n ≤ 281474976710656)
  ok d.s1root 4096 4096 && ok d.poolBase 64 (64 * d.poolCount) && ok d.tvec 64 64 && ok d.tra 64 1024 && ok d.stat 64 8192 &&
  ok d.spb 4096 (64 * ceilDiv (8 * d.nslot) 64 + d.nslot * (4864 + 6144 * d.lmax)) && ok d.fcb 64 64 && d.fcb != 0 &&
  ok d.rqb 64 (32 * 2 ^ d.lgn) && ok d.rpb 64 (8 * 2 ^ d.lgn) && ok d.pfut 1 1 && ok d.qcb 4096 4096 && ok d.csa 64 2048 && ok d.locks 64 32768 && hnotOk d.hnot

/-- The other limits of R293: a VD has one or more hanks (R9), VPAs below 2^42 (R261), and frames outside the part of HBM that holds metadata and
firmware's tables (R9, R232; notes/assumptions/87.md). -/
def defLimitsOk (d : VdDef) : Bool :=
  !d.hanks.isEmpty && d.hanks.all (fun h => decide (h < 64)) && distinct d.hanks && d.sched.all (fun e => d.hanks.contains e.1) &&
  d.frames.all (fun f => decide (f.1 < 67108864 ∧ f.2.1 < tenantFrames)) && distinct (d.frames.map (·.1)) && distinct (d.frames.map (·.2.1)) &&
  d.quotas.all (fun q => decide (q.1 ≤ 25)) && distinct (d.quotas.map (·.1)) &&
  decide (64 ≤ d.poolCount ∧ d.poolCount ≤ 1048576) && decide (32 ≤ d.nslot ∧ d.nslot ≤ 65536) && decide (d.lmax ≤ 128) &&
  decide (4 ≤ d.lgn ∧ d.lgn ≤ 15) && d.fpen &&& ~~~(0x373F#64) == 0 && decide (1 ≤ fld d.fpen 8 3 ∧ fld d.fpen 8 3 ≤ 5) &&
  decide (64 ≤ d.flim ∧ d.flim ≤ 65536) && decide (d.ceil.toNat ≤ 4) &&
  d.shadow.all (fun q => decide (q.1 < 64 ∧ q.2.1 ≤ 3 ∧ 1 ≤ q.2.2 ∧ q.2.2 ≤ 4095)) && distinct (d.shadow.map (·.1))

/-- No hank, quota or frame would belong to two VDs at once (R293, R84): a hank that another VD runs on must come by the schedule. -/
def State.sharesOk (s : State) (v : Nat) (d : VdDef) : Bool :=
  d.hanks.all (fun h => s.hankFree v h || d.sched.any fun e => e.1 == h) &&
  d.frames.all (fun f => (tget s.hbm.frames f.2.1).isNone) &&
  (List.range 26).all fun c => decide (s.vds.foldl (fun n e => n + defQuota e.2.d c) (defQuota d c) ≤ classCap c)

/-- A VD as it is defined, with the root of its stage-2 tables. -/
def Vd.fresh (d : VdDef) (run : Bool) (root : Nat) : Vd :=
  { d := d, run := run, gen := 0, s2root := root,
    queues := d.shadow.foldl (fun t q => tset t q.1 { Queue.plain with pri := q.2.1, maxs := q.2.2 }) [],
    rqt := 0, rpt := 0, rph := 0, cnt := [], ord := 0, stats := [], hostw := [], span := [], halt := none, freeze := none,
    unsave := false, charged := [], debt := [], savedTasks := [], retmpl := [], step := none }

/-- `n` frames from `f` on, 64 apart and so in one channel group, that `used` does not list; `fuel` bounds the search. -/
def takeFrames (used : List Nat) (n f : Nat) : Nat → List Nat
  | 0 => []
  | fuel + 1 =>
    if n = 0 then []
    else if used.contains f then takeFrames used n (f + 64) fuel
    else f :: takeFrames used (n - 1) (f + 64) fuel

/-- The nodes, of 64 bytes, of a tree over VPA pages (R261): those of levels 1 to 4 that cover a page. -/
def treeNodes (pages : List Nat) : Nat :=
  let level (n : Nat) : Nat := (pages.map (· / n)).eraseDups.length
  level 4 + level 256 + level 16384 + level 1048576

/-- The frames of a new tree area, in channel group `g`: frames that no stage-2 entry maps (R261; notes/assumptions/87.md). -/
def Hbm.treeArea (h : Hbm) (g : Nat) (pages : List Nat) : List Nat :=
  let used := h.doms.flatMap fun d => d.2.tree
  let n := max 1 (ceilDiv (treeNodes pages) 1024)
  takeFrames used n (14500032 + g) (n + used.length)

/-- A domain over VPA pages with new keys (R254) and a tree area (R261), whose home agent holds the root if `die`. -/
def State.newDomain (s : State) (dom : Nat) (pages : List Nat) (die : Bool) : State :=
  s.bump.modHbm fun h =>
    let tree := h.treeArea (Config.freePick s.freeCtr % 64) pages
    let d : Domain := { keys := h.nextKeys, root := none, tree := tree }
    { h with doms := tset h.doms dom { d with root := if die then some d.agent else none }, nextKeys := h.nextKeys + 1 }

/-- Firmware's values go into the fault control block (R243). Fresh memory holds no stage-1 table yet (R267), so firmware writes the block at the
VPA of its address, where stage 2 maps that (notes/assumptions/99.md). The device takes the values from firmware's own copy. -/
def State.writeFcb (s : State) (d : VdDef) (root : Nat) : State :=
  let ws := [BitVec.ofNat 64 (281474976710656 * d.lgn + d.rqb), BitVec.ofNat 64 d.rpb, 0, 0, 0, 0, BitVec.ofNat 64 d.pfut, d.hnot]
  match s.hbm.stage2 root d.fcb with
  | some l => if l.w then (s.homeWrite (l.dpa d.fcb) (ws.flatMap wordBytes) false).getD s else s
  | none => s

/-- Builds a VD's stage-2 tables (R232, R233): a leaf of 64 KiB for each page the host named, and one of 2 MiB where 32 of them are one run. -/
def State.buildMap (s : State) (v root : Nat) (fs : List (Nat × Nat × Bool)) : State :=
  let s := fs.foldl (fun s f => s.s2Put v root f.1 (s2Leaf f.2.1 f.2.2 false)) s
  s.modHbm fun h => (fs.filter fun f => f.1 % 32 == 0).foldl (fun h f => h.s2Join root f.1) h

/-- Defines a VD. -/
def State.define (s : State) (v : Nat) (d : VdDef) : State :=
  let run := d.hanks.all (s.hankFree v)
  let n := s.hbm.newTab v
  let s := s.modHbm fun _ => n.2
  let s := { s with vds := tset s.vds v (Vd.fresh d run n.1) }
  let s := s.newDomain v (d.frames.map (·.1)) run
  let s := d.frames.foldl (fun s f => s.assignFrame f.2.1 v f.1) s
  let s := s.buildMap v n.1 d.frames
  let s := if run then d.hanks.foldl (fun s h => s.takeHank v h) s else s
  s.writeFcb d n.1

/-- The list entries that a DEFINE names. -/
def defCount (d : VdDef) : Nat := d.hanks.length + d.sched.length + d.frames.length + d.quotas.length + d.shadow.length

/-- DEFINE (R293): accepted only with every parameter within its limits. -/
def execFwDefine (h : MgmtHdr) (vd : BitVec 8) (d : VdDef) (s : State) : Out :=
  let v := vd.toNat
  .next (s.managed 1 v h (bodyOf 1 (defCount d)) fun s =>
    if (s.vd v).isNone && defAddrsOk d && defLimitsOk d && s.sharesOk v d then (s.define v d).reply 1 v h.seq 0 []
    else s.reply 1 v h.seq 1 [])

/-! ### What a reset or a teardown discards (R302, R268) -/

/-- The engine operations of a VD leave their engines. -/
def Core.dropWork (v : Nat) (k : Core) : Core := { k with mx := k.mx.filter fun o => !(o.c.of v), cp := k.cp.filter fun o => !(o.c.of v) }

/-- What the front end, dispatchers and frontier units hold of a VD. -/
def Front.without (f : Front) (v : Nat) : Front :=
  { f with sweeps := f.sweeps.filter fun x => x.vd != v, waiting := f.waiting.filter fun x => x.vd != v,
           graphs := tfilter f.graphs fun _ g => g.vd != v, posts := f.posts.filter fun p => p.vd != v,
           decs := f.decs.filter fun d => d.vd != v, edges := f.edges.filter fun e => e.vd != v,
           gadds := f.gadds.filter fun a => a.vd != v, watches := f.watches.filter fun w => w.vd != v }

/-- Discards a VD's tasks, requests, bookings, engine work and sweeps, and what they had under way. -/
def State.discard (s : State) (v : Nat) : State :=
  let s := (s.bk.reqs.filter fun r => r.vd == v).foldl (fun s r => ((s.cancelConfirmed r).abortAll r).endReq r) s
  let s := (s.tasksOf v).foldl (fun s k => s.killTask k 17) s
  let s := (s.bk.bookings.filter fun e => e.2.vd == v).foldl (fun s e => s.cancelBooking e.1) s
  let s : State := { s with cores := tmap s.cores fun _ k => k.dropWork v }
  let s := s.modHbm fun h => { h with freqs := h.freqs.filter fun r => !(r.vd == v && !r.posted) }
  (s.modFr fun f => f.without v).discardFlits v

/-! ### RESET (R302) -/

/-- Every unit of a halted VD stops, with its record (R282, R284). -/
def State.stopAll (s : State) (v : Nat) : State :=
  (s.unitsOf v).foldl (fun s u =>
    match s.vd v with
    | none => s
    | some d => (match d.halt with
      | some h => if h.stopped.contains u then s else s.stopUnit v d h u
      | none => s)) s

/-- Steps 3 and 4 for one queue: its tails are taken anew, its KIND 3 entry waits. -/
def State.resetQueue (s : State) (v : Nat) (d : VdDef) (q : Nat) : State :=
  let r := s.readQueue v d q
  let b : QBlock := r.1.getD (qblockOf [])
  let s := r.2.modQueue v q fun k => { k with head := b.tail, tail := b.tail, seq := 0, ctail := b.chead, open_ := 0 }
  let s := (s.devWords v (qcbVa d q + 24) [b.tail.setWidth 64]).2
  let s := (s.devWords v (qcbVa d q + 40) [b.chead.setWidth 64]).2
  s.post v q (postWord 3 0 0 0) 0xFFF

/-- RESET (R302). -/
def execFwReset (h : MgmtHdr) (vd : BitVec 8) (s : State) : Out :=
  let v := vd.toNat
  .next (s.managedVd 3 v h 0 fun s d =>
    let s := if d.run then (s.raiseHalt v 7 0).stopAll v else s
    let s := (s.discard v).modVd v fun d =>
      { d with halt := none, freeze := none, unsave := false, step := none, savedTasks := [], retmpl := [], gen := d.gen + 1 }
    ((List.range 64).foldl (fun s q => s.resetQueue v d.d q) s).reply 3 v h.seq 0 [])

/-! ### Share windows (R269, R271) -/

/-- What Virry and firmware keep of a domain is discarded: its keys, root and tree (R268, R271). -/
def State.dropTree (s : State) (dom : Nat) : State :=
  s.modHbm fun h =>
    { h with doms := terase h.doms dom, nodes := tfilter h.nodes fun k _ => keyDom k != dom, badNodes := h.badNodes.filter fun k => keyDom k != dom,
             store := tmap h.store fun _ l => l.filter fun k => keyDom k != dom }

/-- A frame leaves the stage-2 maps of its VDs, with the invalidation (R250). -/
def State.unmapFrame (s : State) (f : Nat) : State :=
  ((s.hbm.mapsOf f).foldl (fun s x => match s.vd x.1 with | some d => s.s2Put x.1 d.s2root x.2 0 | none => s) s).s2Inval f

/-- Window `n` begins to end (R271, step 1): both mappings go, and the invalidations wait for the accesses that used them. -/
def State.closeWindow (s : State) (n : Nat) : State :=
  match tget s.hbm.wins n with
  | none => s
  | some w =>
    if w.closing.isSome then s
    else
      let waits := w.frames.flatMap s.s2Users
      (w.frames.foldl State.unmapFrame s).modHbm fun h => { h with wins := tset h.wins n { w with closing := some waits } }

/-- Step 2 of R271, where both invalidations are complete: keys, root and sequence are discarded, and the frames are free. -/
def State.endWindow (s : State) (n : Nat) : State :=
  match tget s.hbm.wins n with
  | none => s
  | some w =>
    match w.closing with
    | none => s
    | some waits =>
      if !(waits.all s.accSettled) then s
      else
        (((w.frames.foldl State.freeFrame s).dropTree (256 + n)).modHbm fun h =>
          { h with wins := terase h.wins n, migs := h.migs.filter fun m => !(w.frames.contains m.f) })

/-- Migrations and the ends of windows go on that can. -/
def State.settleMaps (s : State) : State :=
  let s := s.settleMigs
  (s.hbm.wins.filter fun w => w.2.closing.isSome).foldl (fun s w => s.endWindow w.1) s

/-- Pages [p, p + n) of a VD's VPA are below 2^42 and unmapped. -/
def State.pagesFree (s : State) (d : Vd) (p n : Nat) : Bool :=
  decide (p + n ≤ 67108864) && (List.range n).all fun i => (s.hbm.stage2 d.s2root (65536 * (p + i))).isNone

/-- A request for a window is well formed and its frames are free. -/
def State.windowOk (s : State) (v : Nat) (d : Vd) (r : WindowReq) : Bool :=
  let n := r.size / 65536
  r.size % 65536 == 0 && n != 0 && r.frames.length == n && distinct r.frames &&
  r.frames.all (fun f => decide (f < tenantFrames) && (tget s.hbm.frames f).isNone) && (tget s.hbm.wins r.num.toNat).isNone &&
  r.peer.toNat != v && (s.vd r.peer.toNat).isSome && s.pagesFree d r.vpaPage n

/-- Maps the frames of a window into a VD's stage 2. -/
def State.mapFrames (s : State) (v p : Nat) (w : Bool) (fs : List Nat) : State :=
  match s.vd v with
  | some d => s.buildMap v d.s2root ((fs.zipIdx).map fun f => (p + f.2, f.1, w))
  | none => s

/-- Creates a window that both hosts have requested (R269). -/
def State.createWindow (s : State) (v : Nat) (r : WindowReq) (u : Nat) (q : WindowReq) : State :=
  let n := r.num.toNat
  let s := s.newDomain (256 + n) (List.range r.frames.length) true
  let s := (r.frames.zipIdx).foldl (fun s f => s.assignFrame f.1 (256 + n) f.2) s
  let s := (s.mapFrames u q.vpaPage q.rw r.frames).mapFrames v r.vpaPage r.rw r.frames
  s.modHbm fun h =>
    { h with wins := tset h.wins n { a := u, b := v, aw := q.rw, bw := r.rw, aPage := q.vpaPage, bPage := r.vpaPage, size := r.size,
                                     frames := r.frames, seq := 0, closing := none },
             winReqs := h.winReqs.filter fun x => !(x.2.num == r.num && (x.1 == u || x.1 == v)) }

/-- WINDOW (R269, R271). A request to end one is answered when its mappings are gone (notes/assumptions/98.md). -/
def execFwWindow (h : MgmtHdr) (vd : BitVec 8) (w : WindowReq) (s : State) : Out :=
  let v := vd.toNat
  .next (s.managedVd 7 v h (bodyOf 7 w.frames.length) fun s d =>
    let n := w.num.toNat
    let refuse := s.reply 7 v h.seq 1 []
    if w.close then
      match tget s.hbm.wins n with
      | some x => if !(x.party v) || x.closing.isSome then refuse else ((s.closeWindow n).endWindow n).reply 7 v h.seq 0 []
      | none => refuse
    else if !(s.windowOk v d w) then refuse
    else
      match s.hbm.winReqs.find? fun x => x.1 == w.peer.toNat && x.2.num == w.num && x.2.peer == vd with
      | some (u, q) =>
        if q.size != w.size || q.frames != w.frames then refuse
        else (s.createWindow v w u q).reply 7 v h.seq 0 []
      | none =>
        (s.modHbm fun h => { h with winReqs := h.winReqs.filter (fun x => !(x.1 == v && x.2.num == w.num)) ++ [(v, w)] }).reply 7 v h.seq 0 [])

/-! ### TEARDOWN (R268) -/

/-- The share windows of a VD. -/
def State.windowsOf (s : State) (v : Nat) : List (Nat × Window) := s.hbm.wins.filter fun e => e.2.party v

/-- What the home agents, the hub and firmware hold of a VD is discarded; its frames are free. -/
def State.dropDomain (s : State) (v : Nat) : State :=
  let fs := (s.hbm.frames.filter fun e => e.2.dom == v).map (·.1)
  let s := fs.foldl (fun s f => (s.s2Inval f).freeFrame f) s
  (s.dropTree v).modHbm fun h =>
    { h with tabs := tfilter h.tabs fun _ t => t.vd != v, freqs := h.freqs.filter fun r => r.vd != v, migs := h.migs.filter fun m => m.vd != v,
             winReqs := h.winReqs.filter fun x => x.1 != v && x.2.peer.toNat != v }

/-- The hanks that a VD ran on last are scrubbed and free (R268). -/
def State.scrubHanks (s : State) (v : Nat) : State :=
  let hs := (s.hanks.filter fun e => e.2 == v).map (·.1)
  let s := hs.foldl (fun s h => s.scrubHank h) s
  { s with hanks := tfilter s.hanks fun _ u => u != v }

/-- Step 1 of a teardown: a running VD is frozen, unless it is already, and halted; its tasks then issue nothing further (R268). -/
def State.freezeHalt (s : State) (v : Nat) (d : Vd) : State :=
  if d.run then ((if d.freeze.isSome || d.halt.isSome then s else s.freezeVd v).raiseHalt v 7 0).stopAll v else s

/-- TEARDOWN (R268, R160). -/
def execFwTeardown (h : MgmtHdr) (vd : BitVec 8) (s : State) : Out :=
  let v := vd.toNat
  .next (s.managedVd 2 v h 0 fun s d =>
    let s := ((s.freezeHalt v d).discard v).flushStats v 2 false
    let s := (s.windowsOf v).foldl (fun s e => s.closeWindow e.1) s
    let s := (s.dropDomain v).scrubHanks v
    (({ s with vds := terase s.vds v } : State).reply 2 v h.seq 0 []).settleMaps)

/-! ### SCHEDULE, HOSTWIN, SPAN, MIGRATE -/

/-- SCHEDULE (R304): the switch slots per hank. -/
def execFwSchedule (h : MgmtHdr) (vd : BitVec 8) (sched : List (Nat × Nat)) (s : State) : Out :=
  let v := vd.toNat
  .next (s.managedVd 4 v h (bodyOf 4 sched.length) fun s d =>
    if sched.all fun e => d.d.hanks.contains e.1
    then (s.modVd v fun d => { d with d := { d.d with sched := sched } }).reply 4 v h.seq 0 []
    else s.reply 4 v h.seq 1 [])

/-- HOSTWIN (R294). -/
def execFwHostwin (h : MgmtHdr) (vd : BitVec 8) (w : HostWin) (s : State) : Out :=
  let v := vd.toNat
  .next (s.managedVd 5 v h (bodyOf 5 0) fun s _ =>
    if w.len ≤ 1099511627776 then (s.modVd v fun d => { d with hostw := tset d.hostw w.h.toNat w }).reply 5 v h.seq 0 []
    else s.reply 5 v h.seq 1 [])

/-- SPAN (R311): the first one after BOOT also sets the node id. -/
def execFwSpan (h : MgmtHdr) (vd : BitVec 8) (own : BitVec 12) (nodes : List Nat) (s : State) : Out :=
  let v := vd.toNat
  .next (s.managedVd 6 v h (bodyOf 6 nodes.length) fun s _ =>
    if nodes.all fun n => decide (n < 4096) then
      ((s.modFab fun f => { f with node := match f.node with | some n => some n | none => some own }).modVd v fun d =>
        { d with span := nodes }).reply 6 v h.seq 0 []
    else s.reply 6 v h.seq 1 [])

/-- Frame `f` may move to frame `t`, for VD `v`: the VPA page it backs there. -/
def State.migPage (s : State) (v f t : Nat) : Option Nat :=
  if (tget s.hbm.frames t).isSome || tenantFrames ≤ t || s.hbm.migs.any fun m => m.f == f || m.g == f then none
  else ((s.hbm.mapsOf f).find? fun x => x.1 == v).map (·.2)

/-- MIGRATE (R252): step 1; once its invalidation is complete the copy runs, until MIGRATION_COPY_END or MIGRATION_COPY_FAIL. -/
def execFwMigrate (h : MgmtHdr) (vd : BitVec 8) (f t : Nat) (s : State) : Out :=
  let v := vd.toNat
  .next (s.managedVd 8 v h (bodyOf 8 0) fun s _ =>
    match s.migPage v f t, tget s.hbm.frames f with
    | some p, some fr =>
      let m : Mig := { st := .first, waits := [], vd := v, page := p, f := f, g := t, held := [] }
      let n := s.hbm.migs.length
      let s := (s.assignFrame t fr.dom fr.page).modHbm fun h => { h with migs := h.migs ++ [m] }
      ((s.migInval n m f true .first).migOn n).reply 8 v h.seq 0 []
    | _, _ => s.reply 8 v h.seq 1 [])

/-! ### Debug (R290 to R292) -/

/-- A command of a debugger: refused without DBG. -/
def State.debugged (s : State) (op v : Nat) (h : MgmtHdr) (act : State → Vd → State) : State :=
  s.managedVd op v h (bodyOf op 0) fun s d => if d.d.dbg then act s d else s.reply op v h.seq 1 []

/-- A command that needs a debug halt. -/
def State.atHalt (s : State) (op v : Nat) (h : MgmtHdr) (act : State → Vd → Halt → State) : State :=
  s.debugged op v h fun s d =>
    match d.halt with
    | some x => if x.fatal then s.reply op v h.seq 1 [] else act s d x
    | none => s.reply op v h.seq 1 []

/-- HALT (R291). -/
def execFwHalt (h : MgmtHdr) (vd : BitVec 8) (s : State) : Out :=
  let v := vd.toNat
  .next (s.debugged 9 v h fun s d => if d.run then (s.raiseHalt v 6 0).reply 9 v h.seq 0 [] else s.reply 9 v h.seq 1 [])

/-- Stopped work of a VD goes on (R291): booked work when its calendars have room, as R78 says, other work at once. -/
def State.resumeCore (s : State) (v : Nat) (h : Halt) (c : Nat) : State :=
  let stop (b : Bool) (k : Cmd) : Cmd := if b && k.of v && k.st == .running && s.isBooked k then { k with st := .stopped } else k
  let mx := h.stopped.contains (.matrix (BitVec.ofNat 10 c))
  let cp := h.stopped.contains (.copy (BitVec.ofNat 10 c))
  let s := s.modCore c fun k =>
    { k with p0 := { k.p0 with stepping := false }, p1 := { k.p1 with stepping := false },
             mx := k.mx.map fun o => { o with c := stop mx o.c }, cp := k.cp.map fun o => { o with c := stop cp o.c } }
  ((s.core c).mx.filter fun o => mx && o.c.of v && o.c.st == .running).foldl (fun s o => s.modCore c fun k => k.modTile o.tile fun t => { t with st := 2 }) s

/-- RESUME (R291). -/
def execFwResume (h : MgmtHdr) (vd : BitVec 8) (s : State) : Out :=
  let v := vd.toNat
  .next (s.atHalt 10 v h fun s d x =>
    let cs := (s.cores.filter fun e => ownsCore d e.1).map (·.1)
    let s := cs.foldl (fun s c => s.resumeCore v x c) s
    (s.modVd v fun d => { d with halt := none, step := none }).reply 10 v h.seq 0 [])

/-- STEP (R292): the plane leaves the stopped units for one instruction. -/
def execFwStep (h : MgmtHdr) (vd : BitVec 8) (core : BitVec 10) (plane : BitVec 1) (s : State) : Out :=
  let v := vd.toNat
  let c := core.toNat
  .next (s.atHalt 11 v h fun s _ x =>
    let ok := match s.taskOf c plane with | some (_, t) => t.vd == v && (t.state == .active || t.state == .held) | none => false
    if ok && x.stopped.contains (.plane core plane) then
      ((s.modVd v fun d => { d with step := some (c, plane.toNat),
                                    halt := some { x with stopped := x.stopped.filter (· != .plane core plane) } }).modPlane c plane fun x =>
        { x with stepping := true }).reply 11 v h.seq 0 []
    else s.reply 11 v h.seq 1 [])

/-- The bytes of a halted plane in the layout of a spill frame (R291, R242): a parked instruction is that of a PARKED task. -/
def State.planeBytes (s : State) (c : Nat) (p : BitVec 1) (key : Nat) : List Byte :=
  let parked := (s.task key).any fun t => t.state == .parked
  let s' := if parked then s.parkFrame c p key else s.modTask key fun t => { t with parkAt := none, parkWords := 0, lanes := [] }
  match s'.task key with
  | some t =>
    let x := s'.plane c p
    frameBytes x c p t ++ memBytes (s.core c).spad x.leaseBase x.leaseSize
  | none => []

/-- DUMP (R291): a halted plane goes to a host window. -/
def execFwDump (h : MgmtHdr) (vd : BitVec 8) (core : BitVec 10) (plane : BitVec 1) (win : BitVec 4) (s : State) : Out :=
  let v := vd.toNat
  let c := core.toNat
  .next (s.atHalt 12 v h fun s d x =>
    match (if x.stopped.contains (.plane core plane) then s.taskOf c plane else none), tget d.hostw win.toNat with
    | some (key, _), some hw =>
      let bs := s.planeBytes c plane key
      if hw.len < bs.length then s.reply 12 v h.seq 1 []
      else (s.hostOp v win.toNat 0 .gate fun id => .rdmaWrite id win.toNat 0 none bs).reply 12 v h.seq 0 []
    | _, _ => s.reply 12 v h.seq 1 [])

/-- A plane with the registers of a frame's bytes (R291): its lease, task and next instruction stay. -/
def Plane.loadedFrom (x : Plane) (bs : List Byte) : Plane := { x with regs := frameRegs bs, sr := x.sr.framed bs, loop := Loop.framed bs }

/-- What a frame's word of waiting and failed lanes makes of an element (R242): failed, waiting, or neither, and then it has performed. -/
def Elem.framed (w : Word) (free : Nat) (e : Elem) : Option Elem :=
  if e.lanes.any fun l => w.getLsbD (16 + l) then some { e with st := match e.st with | .failed k => .failed k | _ => .failed (free % 5) }
  else if e.lanes.any fun l => w.getLsbD l then
    some { e with st := match e.st with | .performed => .translating | .failed _ => .translating | st => st }
  else none

/-- The parked instruction of a PARKED task as a LOAD leaves it: none, or its elements by the frame's lanes (R291; notes/assumptions/88.md). -/
def State.loadParked (s : State) (c : Nat) (p : BitVec 1) (key : Nat) (bs : List Byte) : State :=
  let w := wordsOf (bs.drop 4728) 3
  let here := w.getD 0 0 == (s.plane c p).pc
  if (s.task key).any fun t => t.state == .parked then
    (s.bump.modPlane c p fun x =>
      if here then { x with acc := x.acc.map fun a => if a.pc == x.pc then { a with elems := a.elems.filterMap (Elem.framed (w.getD 2 0) (Config.freePick s.freeCtr)) } else a }
      else
        let x := { x with park := none }
        (x.acc.filter fun a => a.pc == x.pc).foldl Plane.dropAccess x).unpark key
  else s

/-- LOAD (R291): firmware reads a frame from the host window; the answer follows the host's. -/
def execFwLoad (h : MgmtHdr) (vd : BitVec 8) (core : BitVec 10) (plane : BitVec 1) (win : BitVec 4) (s : State) : Out :=
  let v := vd.toNat
  let c := core.toNat
  .next (s.atHalt 13 v h fun s d x =>
    match tget d.hostw win.toNat with
    | some hw =>
      if hw.len < 4864 || !(x.stopped.contains (.plane core plane)) || (s.taskOf c plane).isNone then s.reply 13 v h.seq 1 []
      else
        let s : State := { s with fw := { s.fw with load := some (h, v, c, plane.toNat) } }
        s.hostOp v win.toNat 0 .load fun id => .rdmaRead id win.toNat 0 4864
    | none => s.reply 13 v h.seq 1 [])

/-- The frame of a LOAD has come: the plane takes it (R291). -/
def State.loadCame (s : State) (bs : List Byte) : State :=
  match s.fw.load with
  | none => s
  | some (h, v, c, p) =>
    let p : BitVec 1 := BitVec.ofNat 1 p
    let s : State := { s with fw := { s.fw with load := none } }
    match (if bs.length = 4864 then (s.plane c p).task else none) with
    | some key => ((s.modPlane c p fun x => x.loadedFrom bs).loadParked c p key bs).reply 13 v h.seq 0 []
    | none => s.reply 13 v h.seq 1 []

/-! ### Counters, attestation, updates (R303, R305, R306) -/

/-- COUNTERS (R303). -/
def execFwCounters (h : MgmtHdr) (vd : BitVec 8) (bank : BitVec 3) (s : State) : Out :=
  let v := vd.toNat
  .next (s.managedVd 14 v h (bodyOf 14 0) fun s _ =>
    s.reply 14 v h.seq 0 ((List.range 32).flatMap fun i => wordBytes (s.counter v bank.toNat i)))

/-- The bytes of a VD's definition, as its digest covers them. -/
def defBytes (d : VdDef) : List Byte :=
  ([d.s1root, d.poolBase, d.poolCount, d.tvec, d.tra, d.stat, d.spb, d.nslot, d.lmax, d.fcb, d.lgn, d.rqb, d.rpb, d.pfut, d.hnot.toNat,
    d.qcb, d.csa, d.fpen.toNat, d.flim, d.locks, d.pmode.toNat, d.hmode.toNat, d.sctrap.toNat, d.ceil.toNat, d.brkHalt.toNat, d.dbg.toNat] ++
   d.hanks ++ d.sched.flatMap (fun e => [e.1, e.2]) ++ d.frames.flatMap (fun f => [f.1, f.2.1, f.2.2.toNat]) ++
   d.quotas.flatMap (fun q => [q.1, q.2]) ++ d.shadow.flatMap fun q => [q.1, q.2.1, q.2.2]).flatMap fun n => wordBytes (BitVec.ofNat 64 n)

/-- An attestation report (R305): the nonce, the digests of both images, of the VD's definition, the generation, the signature. -/
def State.report (s : State) (d : Vd) (nonce : List Byte) : List Byte :=
  let r := nonce ++ Config.digest s.fw.img0 ++ Config.digest s.fw.img1 ++ Config.digest (defBytes d.d) ++ leBytes d.gen.toNat 2
  r ++ Config.sign r

/-- ATTEST (R305): a nonce of 1 to 64 bytes, which is the body. -/
def execFwAttest (h : MgmtHdr) (vd : BitVec 8) (nonce : List Byte) (s : State) : Out :=
  let v := vd.toNat
  .next (s.managedVd 15 v h nonce.length fun s d =>
    if nonce.isEmpty || 64 < nonce.length then s.reply 15 v h.seq 2 [] else s.reply 15 v h.seq 0 (s.report d nonce))

/-- The complex that stands by. -/
def Fw.standbyOk (f : Fw) : Bool := if f.active = 0 then f.ok1 else f.ok0

/-- UPDATE (R305, R306): the standby boots the image and imports the table, or the update is refused and nothing changes. -/
def execFwUpdate (h : MgmtHdr) (vd : BitVec 8) (image : FwImage) (s : State) : Out :=
  let v := vd.toNat
  .next (s.managed 16 v h (bodyOf 16 0) fun s =>
    if !image.signed || !image.importsTable then s.reply 16 v h.seq 1 []
    else
      let fw := if s.fw.active = 0 then { s.fw with ver1 := image.version, img1 := image.bytes, ok1 := true, takeover := true }
        else { s.fw with ver0 := image.version, img0 := image.bytes, ok0 := true, takeover := true }
      ({ s with fw := fw } : State).reply 16 v h.seq 0 [])

/-- The standby becomes the active complex, with message 130 (R304, R306). -/
def State.takeOver (s : State) : State :=
  ({ s with fw := { s.fw with active := s.fw.active + 1, takeover := false, alive := s.now } } : State).toHost (.unsolicited 130 0 [])

/-- COMPLEX_TAKEOVER (R306): between management packets. -/
def execComplexTakeover (s : State) : Out := .next (if s.power = .run && s.fw.takeover then s.takeOver else s)

/-- WATCHDOG_TAKEOVER (R306): 4,096 slots without an answer of the active complex; a standby that boot has not started takes nothing over. -/
def execWatchdogTakeover (s : State) : Out :=
  .next (if s.power = .run && s.fw.standbyOk && decide (s.fw.alive + 4096 ≤ s.now) then s.takeOver else s)

/-! ### Power (R307) -/

/-- Nothing survives OFF or BOOT but the firmware images, which the boot ROM checks (notes/assumptions/73.md); the random source goes on, so that no
key comes again (R254); the schedule and the numbers of the free values are the model's own. -/
def State.cleared (s : State) (p : Power) : State :=
  { State.reset with
    power := p, focus := s.focus, agenda := s.agenda, freeCtr := s.freeCtr, hbm := { Hbm.reset with nextKeys := s.hbm.nextKeys }
    fw := { Fw.reset with img0 := s.fw.img0, img1 := s.fw.img1, ver0 := s.fw.ver0, ver1 := s.fw.ver1 } }

/-- POWER_ON (R307): power-on, or a device reset. -/
def execPowerOn (s : State) : Out := .next (s.cleared .boot)

/-- POWER_OFF (R307). -/
def execPowerOff (s : State) : Out := .next (s.cleared .off)

/-- BOOT_COMPLETE (R305, R307): each complex whose image passes its check starts, and with one the package runs; complex 0 is active if it has
started. -/
def execBootComplete (ok : ImagesOk) (s : State) : Out :=
  .next (if s.power = .boot && (ok.ok0 || ok.ok1)
    then { s with power := .run, fw := { s.fw with ok0 := ok.ok0, ok1 := ok.ok1, active := if ok.ok0 then 0 else 1 } } else s)

/-! ### HOST_WINDOW_RESPONSE (R294, R204, R206) -/

/-- An element's response: a split operation's read brings its write (R206). -/
def State.hostElem (s : State) (o : HostOp) (c p acc el : Nat) (data : List Byte) : State :=
  let pl : BitVec 1 := BitVec.ofNat 1 p
  match s.elemOf c pl acc el with
  | none => s
  | some (a, e) =>
    match a.kind with
    | .amo _ aop =>
      if aop = 1 then s.elemAnswer c p acc el (.ok data)
      else if o.wrote.isSome then s.elemAnswer c p acc el (.ok e.res)
      else
        let new := wordBytes (amoNew aop (leWord data) (leWord e.data))
        (s.modElem c pl acc el fun e => { e with res := data }).hostOp o.vd o.win o.off o.who fun id => .rdmaWrite id o.win o.off none new
    | _ => s.elemAnswer c p acc el (.ok (if o.wrote.isSome then [] else data))

/-- A response that succeeded; the FULL of a future follows its VALUE (R352), and with it a completion action has been delivered (R299). -/
def State.hostDone (s : State) (o : HostOp) (data : List Byte) : State :=
  match o.who with
  | .elem c p acc el => s.hostElem o c p acc el data
  | .copy c id => (match o.wrote with | some n => s.copyAcked c id n | none => s.cpData c id data)
  | .full h off fin =>
    s.hostOp o.vd h off (match fin with | some key => .action key | none => .gate) fun id => .rdmaWrite id h off none (wordBytes 1)
  | .action key => s.endSweep key
  | .load => s.loadCame data
  | .mdadd _ _ => s
  | .gate => s

/-- HOST_WINDOW_RESPONSE (R294): the response to the `i`-th operation under way; that of a halted VD's work is held (R282). -/
def execHostWindowResponse (i : Nat) (ok : Bool) (data : List Byte) (s : State) : Out :=
  .next (match s.io.ops[i]? with
    | none => s
    | some o =>
      if s.power ≠ .run || (s.flitsHeld o.vd && o.who != .load) then s
      else
        let s : State := { s with io := { s.io with ops := dropAt s.io.ops i } }
        if ok then s.hostDone o data else s.hostFailed o)

end Sys2Proof.Machine
end

