-- ==== Sys2Proof/Machine/Scalar.lean ====
section
/-! DEFINITION. The scalar arithmetic, logic, shift, bit-field and constant majors (spec/17_ref_a_c.md R318 to R336,
spec/18_ref_d_l.md R345, R363, spec/19_ref_m_r.md R371 to R386, spec/20_ref_s_t.md R389 to R402, spec/22_ref_vn_x.md R453). -/

namespace Sys2Proof.Machine

/-! ### What each major computes -/

/-- ADD (R319). -/
def fAdd (w : BitVec 1) (a b : Word) : Word := ws w (wz w a + wz w b)
/-- SUB (R402). -/
def fSub (w : BitVec 1) (a b : Word) : Word := ws w (wz w a - wz w b)
/-- AND (R319). -/
def fAnd (w : BitVec 1) (a b : Word) : Word := ws w (wz w a &&& wz w b)
/-- ANDN (R319). -/
def fAndn (w : BitVec 1) (a b : Word) : Word := ws w (wz w a &&& ~~~(wz w b))
/-- OR (R372). -/
def fOr (w : BitVec 1) (a b : Word) : Word := ws w (wz w a ||| wz w b)
/-- XOR (R453). -/
def fXor (w : BitVec 1) (a b : Word) : Word := ws w (wz w a ^^^ wz w b)
/-- MUL (R383). -/
def fMul (w : BitVec 1) (a b : Word) : Word := ws w (ws w a * ws w b)
/-- MULH: bits [127:64] of the signed product (R383). -/
def fMulh (_w : BitVec 1) (a b : Word) : Word := (a.signExtend 128 * b.signExtend 128).extractLsb' 64 64
/-- MULHU: bits [127:64] of the unsigned product (R383). -/
def fMulhu (_w : BitVec 1) (a b : Word) : Word := (a.setWidth 128 * b.setWidth 128).extractLsb' 64 64
/-- The shift count: modulo 32 under W, else modulo 64 (R390). -/
def shCount (w : BitVec 1) (b : Word) : Nat := if w = 1 then b.toNat % 32 else b.toNat % 64
/-- SHL (R390). -/
def fShl (w : BitVec 1) (a b : Word) : Word := ws w (wz w a <<< shCount w b)
/-- SHR (R390). -/
def fShr (w : BitVec 1) (a b : Word) : Word := ws w (wz w a >>> shCount w b)
/-- SAR (R390). -/
def fSar (w : BitVec 1) (a b : Word) : Word := ws w ((ws w a).sshiftRight (shCount w b))
/-- MIN (R372). -/
def fMin (w : BitVec 1) (a b : Word) : Word := ws w (if (ws w a).slt (ws w b) then ws w a else ws w b)
/-- MAX (R372). -/
def fMax (w : BitVec 1) (a b : Word) : Word := ws w (if (ws w a).slt (ws w b) then ws w b else ws w a)
/-- MINU (R372). -/
def fMinu (w : BitVec 1) (a b : Word) : Word := ws w (if (wz w a).ult (wz w b) then wz w a else wz w b)
/-- MAXU (R372). -/
def fMaxu (w : BitVec 1) (a b : Word) : Word := ws w (if (wz w a).ult (wz w b) then wz w b else wz w a)
/-- DIV of extended sources, toward zero; −2^63 by −1 gives −2^63 (R346). -/
def fDiv (w : BitVec 1) (a b : Word) : Word := ws w (BitVec.ofInt 64 (a.toInt.tdiv b.toInt))
/-- DIVU (R346). -/
def fDivu (w : BitVec 1) (a b : Word) : Word := ws w (a / b)
/-- REM: the sign of the dividend (R386). -/
def fRem (w : BitVec 1) (a b : Word) : Word := ws w (BitVec.ofInt 64 (a.toInt.tmod b.toInt))
/-- REMU (R386). -/
def fRemu (w : BitVec 1) (a b : Word) : Word := ws w (a % b)
/-- Leading zeros among the low `n` bits (R336). -/
def clzGo (x : Word) : Nat → Nat
  | 0 => 0
  | n + 1 => if x.getLsbD n then 0 else 1 + clzGo x n
/-- CLZ (R336). -/
def fClz (w : BitVec 1) (a : Word) : Word := ws w (BitVec.ofNat 64 (clzGo (wz w a) 64))
/-- The number of 1 bits among the low `n` (R380). -/
def popGo (x : Word) : Nat → Nat
  | 0 => 0
  | n + 1 => (if x.getLsbD n then 1 else 0) + popGo x n
/-- POPC (R380). -/
def fPopc (w : BitVec 1) (a : Word) : Word := ws w (BitVec.ofNat 64 (popGo (wz w a) 64))
/-- MOV (R380). -/
def fMov (w : BitVec 1) (a : Word) : Word := ws w (wz w a)
/-- The low `len` bits. -/
def lowBits (len : Nat) : Word := BitVec.ofNat 64 (2 ^ len - 1)
/-- BFXU: the field, zero-extended (R324). -/
def fBfxu (pos len : Nat) (a : Word) : Word := (a >>> pos) &&& lowBits len
/-- BFX: the field, sign-extended from its bit len − 1 (R324). -/
def fBfx (pos len : Nat) (a : Word) : Word := ((a >>> pos) <<< (64 - len)).sshiftRight (64 - len)
/-- BFI: the field of gd replaced (R324). -/
def fBfi (pos len : Nat) (d a : Word) : Word :=
  (d &&& ~~~(lowBits len <<< pos)) ||| ((a &&& lowBits len) <<< pos)
/-- pos and len of the register form: len cut at 64 − pos (R323). -/
def bfPos (b : Word) : Nat := (b.extractLsb' 0 6).toNat
def bfLen (b : Word) : Nat := min ((b.extractLsb' 8 6).toNat + 1) (64 - bfPos b)

/-! ### The meanings -/

/-- ADD, TRI form (R319). -/
def execAddTri (o : Tri) (s : State) : Out := .next (s.scalarTri o (fAdd o.w))

/-- ADD, SIM form (R319). -/
def execAddSim (o : Sim) (s : State) : Out := .next (s.scalarSim o (fAdd o.w))

/-- ADD, LIM form (R319). -/
def execAddLim (o : Lim) (s : State) : Out := .next (s.scalarLim o (fAdd o.w))

/-- SUB, TRI form (R402). -/
def execSubTri (o : Tri) (s : State) : Out := .next (s.scalarTri o (fSub o.w))

/-- SUB, SIM form (R402). -/
def execSubSim (o : Sim) (s : State) : Out := .next (s.scalarSim o (fSub o.w))

/-- SUB, LIM form (R402). -/
def execSubLim (o : Lim) (s : State) : Out := .next (s.scalarLim o (fSub o.w))

/-- AND, TRI form (R319). -/
def execAndTri (o : Tri) (s : State) : Out := .next (s.scalarTri o (fAnd o.w))

/-- AND, SIM form (R319). -/
def execAndSim (o : Sim) (s : State) : Out := .next (s.scalarSim o (fAnd o.w))

/-- AND, LIM form (R319). -/
def execAndLim (o : Lim) (s : State) : Out := .next (s.scalarLim o (fAnd o.w))

/-- ANDN, TRI form (R319). -/
def execAndnTri (o : Tri) (s : State) : Out := .next (s.scalarTri o (fAndn o.w))

/-- ANDN, SIM form (R319). -/
def execAndnSim (o : Sim) (s : State) : Out := .next (s.scalarSim o (fAndn o.w))

/-- ANDN, LIM form (R319). -/
def execAndnLim (o : Lim) (s : State) : Out := .next (s.scalarLim o (fAndn o.w))

/-- OR, TRI form (R372). -/
def execOrTri (o : Tri) (s : State) : Out := .next (s.scalarTri o (fOr o.w))

/-- OR, SIM form (R372). -/
def execOrSim (o : Sim) (s : State) : Out := .next (s.scalarSim o (fOr o.w))

/-- OR, LIM form (R372). -/
def execOrLim (o : Lim) (s : State) : Out := .next (s.scalarLim o (fOr o.w))

/-- XOR, TRI form (R453). -/
def execXorTri (o : Tri) (s : State) : Out := .next (s.scalarTri o (fXor o.w))

/-- XOR, SIM form (R453). -/
def execXorSim (o : Sim) (s : State) : Out := .next (s.scalarSim o (fXor o.w))

/-- XOR, LIM form (R453). -/
def execXorLim (o : Lim) (s : State) : Out := .next (s.scalarLim o (fXor o.w))

/-- MUL, TRI form (R383). -/
def execMulTri (o : Tri) (s : State) : Out := .next (s.scalarTri o (fMul o.w))

/-- MUL, SIM form (R383). -/
def execMulSim (o : Sim) (s : State) : Out := .next (s.scalarSim o (fMul o.w))

/-- MUL, LIM form (R383). -/
def execMulLim (o : Lim) (s : State) : Out := .next (s.scalarLim o (fMul o.w))

/-- MULH, TRI form (R383). -/
def execMulhTri (o : Tri) (s : State) : Out := .next (s.scalarTri o (fMulh o.w))

/-- MULH, SIM form (R383). -/
def execMulhSim (o : Sim) (s : State) : Out := .next (s.scalarSim o (fMulh o.w))

/-- MULH, LIM form (R383). -/
def execMulhLim (o : Lim) (s : State) : Out := .next (s.scalarLim o (fMulh o.w))

/-- MULHU, TRI form (R383). -/
def execMulhuTri (o : Tri) (s : State) : Out := .next (s.scalarTri o (fMulhu o.w))

/-- MULHU, SIM form (R383). -/
def execMulhuSim (o : Sim) (s : State) : Out := .next (s.scalarSim o (fMulhu o.w))

/-- MULHU, LIM form (R383). -/
def execMulhuLim (o : Lim) (s : State) : Out := .next (s.scalarLim o (fMulhu o.w))

/-- SHL, TRI form (R390). -/
def execShlTri (o : Tri) (s : State) : Out := .next (s.scalarTri o (fShl o.w))

/-- SHL, SIM form (R390). -/
def execShlSim (o : Sim) (s : State) : Out := .next (s.scalarSim o (fShl o.w))

/-- SHL, LIM form (R390). -/
def execShlLim (o : Lim) (s : State) : Out := .next (s.scalarLim o (fShl o.w))

/-- SHR, TRI form (R390). -/
def execShrTri (o : Tri) (s : State) : Out := .next (s.scalarTri o (fShr o.w))

/-- SHR, SIM form (R390). -/
def execShrSim (o : Sim) (s : State) : Out := .next (s.scalarSim o (fShr o.w))

/-- SHR, LIM form (R390). -/
def execShrLim (o : Lim) (s : State) : Out := .next (s.scalarLim o (fShr o.w))

/-- SAR, TRI form (R390). -/
def execSarTri (o : Tri) (s : State) : Out := .next (s.scalarTri o (fSar o.w))

/-- SAR, SIM form (R390). -/
def execSarSim (o : Sim) (s : State) : Out := .next (s.scalarSim o (fSar o.w))

/-- SAR, LIM form (R390). -/
def execSarLim (o : Lim) (s : State) : Out := .next (s.scalarLim o (fSar o.w))

/-- MIN, TRI form (R372). -/
def execMinTri (o : Tri) (s : State) : Out := .next (s.scalarTri o (fMin o.w))

/-- MIN, SIM form (R372). -/
def execMinSim (o : Sim) (s : State) : Out := .next (s.scalarSim o (fMin o.w))

/-- MIN, LIM form (R372). -/
def execMinLim (o : Lim) (s : State) : Out := .next (s.scalarLim o (fMin o.w))

/-- MAX, TRI form (R372). -/
def execMaxTri (o : Tri) (s : State) : Out := .next (s.scalarTri o (fMax o.w))

/-- MAX, SIM form (R372). -/
def execMaxSim (o : Sim) (s : State) : Out := .next (s.scalarSim o (fMax o.w))

/-- MAX, LIM form (R372). -/
def execMaxLim (o : Lim) (s : State) : Out := .next (s.scalarLim o (fMax o.w))

/-- MINU, TRI form (R372). -/
def execMinuTri (o : Tri) (s : State) : Out := .next (s.scalarTri o (fMinu o.w))

/-- MINU, SIM form (R372). -/
def execMinuSim (o : Sim) (s : State) : Out := .next (s.scalarSim o (fMinu o.w))

/-- MINU, LIM form (R372). -/
def execMinuLim (o : Lim) (s : State) : Out := .next (s.scalarLim o (fMinu o.w))

/-- MAXU, TRI form (R372). -/
def execMaxuTri (o : Tri) (s : State) : Out := .next (s.scalarTri o (fMaxu o.w))

/-- MAXU, SIM form (R372). -/
def execMaxuSim (o : Sim) (s : State) : Out := .next (s.scalarSim o (fMaxu o.w))

/-- MAXU, LIM form (R372). -/
def execMaxuLim (o : Lim) (s : State) : Out := .next (s.scalarLim o (fMaxu o.w))

/-- DIV, TRI form (R346). -/
def execDivTri (o : Tri) (s : State) : Out :=
  .next (s.divide o.g 1 o.d (ws o.w (s.pl.rg o.a)) (ws o.w (s.pl.rg o.b)) (fDiv o.w))

/-- DIV, SIM form (R346). -/
def execDivSim (o : Sim) (s : State) : Out :=
  .next (s.divide o.g 1 o.d (ws o.w (s.pl.rg o.d)) (ws o.w (o.imm.signExtend 64)) (fDiv o.w))

/-- DIV, LIM form (R346). -/
def execDivLim (o : Lim) (s : State) : Out :=
  .next (s.divide o.g 2 o.d (ws o.w (s.pl.rg o.a)) (ws o.w (o.imm.signExtend 64)) (fDiv o.w))

/-- DIVU, TRI form (R346). -/
def execDivuTri (o : Tri) (s : State) : Out :=
  .next (s.divide o.g 1 o.d (wz o.w (s.pl.rg o.a)) (wz o.w (s.pl.rg o.b)) (fDivu o.w))

/-- DIVU, SIM form (R346). -/
def execDivuSim (o : Sim) (s : State) : Out :=
  .next (s.divide o.g 1 o.d (wz o.w (s.pl.rg o.d)) (wz o.w (o.imm.signExtend 64)) (fDivu o.w))

/-- DIVU, LIM form (R346). -/
def execDivuLim (o : Lim) (s : State) : Out :=
  .next (s.divide o.g 2 o.d (wz o.w (s.pl.rg o.a)) (wz o.w (o.imm.signExtend 64)) (fDivu o.w))

/-- REM, TRI form (R386). -/
def execRemTri (o : Tri) (s : State) : Out :=
  .next (s.divide o.g 1 o.d (ws o.w (s.pl.rg o.a)) (ws o.w (s.pl.rg o.b)) (fRem o.w))

/-- REM, SIM form (R386). -/
def execRemSim (o : Sim) (s : State) : Out :=
  .next (s.divide o.g 1 o.d (ws o.w (s.pl.rg o.d)) (ws o.w (o.imm.signExtend 64)) (fRem o.w))

/-- REM, LIM form (R386). -/
def execRemLim (o : Lim) (s : State) : Out :=
  .next (s.divide o.g 2 o.d (ws o.w (s.pl.rg o.a)) (ws o.w (o.imm.signExtend 64)) (fRem o.w))

/-- REMU, TRI form (R386). -/
def execRemuTri (o : Tri) (s : State) : Out :=
  .next (s.divide o.g 1 o.d (wz o.w (s.pl.rg o.a)) (wz o.w (s.pl.rg o.b)) (fRemu o.w))

/-- REMU, SIM form (R386). -/
def execRemuSim (o : Sim) (s : State) : Out :=
  .next (s.divide o.g 1 o.d (wz o.w (s.pl.rg o.d)) (wz o.w (o.imm.signExtend 64)) (fRemu o.w))

/-- REMU, LIM form (R386). -/
def execRemuLim (o : Lim) (s : State) : Out :=
  .next (s.divide o.g 2 o.d (wz o.w (s.pl.rg o.a)) (wz o.w (o.imm.signExtend 64)) (fRemu o.w))

/-- CLZ (R336). -/
def execClz (o : Un) (s : State) : Out := .next (s.scalar o.g 1 o.d (fClz o.w (s.pl.rg o.a)))

/-- POPC (R380). -/
def execPopc (o : Un) (s : State) : Out := .next (s.scalar o.g 1 o.d (fPopc o.w (s.pl.rg o.a)))

/-- MOV (R380). -/
def execMov (o : Un) (s : State) : Out := .next (s.scalar o.g 1 o.d (fMov o.w (s.pl.rg o.a)))

/-- LDI, SIM form (R363). -/
def execLdiSim (o : LdiS) (s : State) : Out := .next (s.scalar o.g 1 o.d (o.imm.signExtend 64))

/-- LDI, LIM form (R363). -/
def execLdiLim (o : LdiL) (s : State) : Out := .next (s.scalar o.g 2 o.d (o.imm.signExtend 64))

/-- LDIH (R363). -/
def execLdih (o : LdiL) (s : State) : Out := .next (s.scalar o.g 2 o.d (o.imm ++ (s.pl.rg o.d).setWidth 32))

/-- BFX, register form (R323, R324). -/
def execBfxReg (o : BfR) (s : State) : Out :=
  .next (s.scalar o.g 1 o.d (fBfx (bfPos (s.pl.rg o.b)) (bfLen (s.pl.rg o.b)) (s.pl.rg o.a)))

/-- BFX, immediate form (R323, R324). -/
def execBfxImm (o : BfI) (s : State) : Out :=
  .next (s.scalar o.g 2 o.d (fBfx o.pos.toNat (o.len.toNat + 1) (s.pl.rg o.a)))

/-- BFXU, register form (R323, R324). -/
def execBfxuReg (o : BfR) (s : State) : Out :=
  .next (s.scalar o.g 1 o.d (fBfxu (bfPos (s.pl.rg o.b)) (bfLen (s.pl.rg o.b)) (s.pl.rg o.a)))

/-- BFXU, immediate form (R323, R324). -/
def execBfxuImm (o : BfI) (s : State) : Out :=
  .next (s.scalar o.g 2 o.d (fBfxu o.pos.toNat (o.len.toNat + 1) (s.pl.rg o.a)))

/-- BFI, register form (R323, R324). -/
def execBfiReg (o : BfR) (s : State) : Out :=
  .next (s.scalar o.g 1 o.d (fBfi (bfPos (s.pl.rg o.b)) (bfLen (s.pl.rg o.b)) (s.pl.rg o.d) (s.pl.rg o.a)))

/-- BFI, immediate form (R323, R324). -/
def execBfiImm (o : BfI) (s : State) : Out :=
  .next (s.scalar o.g 2 o.d (fBfi o.pos.toNat (o.len.toNat + 1) (s.pl.rg o.d) (s.pl.rg o.a)))

/-- SEL (R391). -/
def execSel (o : Sel) (s : State) : Out :=
  .next (s.scalar o.g 2 o.d (if s.pl.guard o.sp then s.pl.rg o.a else s.pl.rg o.b))

end Sys2Proof.Machine
end

