-- ==== Sys2Proof/Machine/Slots.lean ====
section
/-! DEFINITION. The slot boundary: starts and ends of intervals, overrun slots and the slip rule, frees, expiries and backfill
(spec/04_calendars.md R75 to R80, R87, R88, spec/14_traps_preemption.md R288, R291, spec/23_programs_booking_memory.md R456). -/

namespace Sys2Proof.Machine

/-! ### Starts (R76) -/

/-- The interval that a booked step has now: its start and its end. -/
def State.startOf (s : State) (c : Cmd) : Option (Nat × Nat) :=
  match s.booking c.vd c.bk with
  | some b => (match b.steps[c.step]? with
    | some t => if t.st == .booked then some (t.start, t.start + t.len) else none
    | none => none)
  | none => none

/-- An instruction that holds for its booked start enters its engine once the start has come (R76, R171): that is the instruction of a
STEP (R292). Where the interval passed in a halt, its steps slip late (R291, R76). -/
def State.startHeld (s : State) (c : Nat) (p : BitVec 1) : State :=
  let now (k : Cmd) : Cmd := { k with issued := s.now }
  let clear (s : State) : State := s.modPlane c p fun x => { x with hold := none }
  let go (k : Cmd) (enter : State → State) : State :=
    if s.planeStopped c p then s
    else
      match s.startOf k with
      | none => s
      | some (a, b) =>
        if s.now < a then s
        else if s.now < b then (enter ((clear s).stepUsed k.vd)).advanceAt c p 2
        else
          match s.moveSteps (keyOfHandle k.bk) k.step (s.now + 1) with
          | some s => s.count k.vd 0 2 1
          | none => s.slipCancel (keyOfHandle k.bk) k.step
  match (s.plane c p).hold with
  | some (.startMx _ o) => go o.c fun s => State.enterMatrix c p (.mx { o with c := now o.c }) s
  | some (.startCp _ o) => go o.c fun s => s.enterOp c p (.cp { o with c := now o.c })
  | _ => s

/-! ### Overruns and the slip rule (R78) -/

/-- Every calendar that the work holds has room for it in the slot that begins (R78). -/
def State.roomNow (s : State) (key : Nat) (b : Booking) (js : List Nat) : Bool :=
  js.all fun j =>
    match b.steps[j]? with
    | none => true
    | some t =>
      let iv := (s.bk.standing t.cal).filter fun i => !(i.book == key && js.contains i.step)
      decide (useAt iv s.now + t.rate ≤ calBudget t.cal)

/-- The slot that begins is an overrun slot of the work: its steps grow to it, counted and charged as debt (R78, R85, R88). -/
def State.overrunSlot (s : State) (v key : Nat) (b : Booking) (js : List Nat) : State :=
  js.foldl (fun s j =>
    match b.steps[j]? with
    | none => s
    | some t => ((s.modStep key j fun t => { t with len := s.now + 1 - t.start }).count v 0 6 1).debtSlot v (calClass t.cal) t.rate) s

/-- The first unstarted step behind step `j`. -/
def nextUnstarted (b : Booking) (j : Nat) : Option (Nat × BStep) :=
  ((b.steps.zipIdx).drop (j + 1)).findSome? fun e => if e.1.st == .booked && !e.1.consumed then some (e.2, e.1) else none

/-- Moves the unstarted steps from `i` on to their first fit from slot `x` on, the first `n` of them that find one; the others are
cancelled (R78). -/
def State.slipGo (s : State) (key i x : Nat) : Nat → State
  | 0 => s.slipCancel key i
  | n + 1 =>
    match s.moveFirst key i x (n + 1) with
    | some t =>
      match tget t.bk.bookings key with
      | none => t
      | some b =>
        (((movedSteps b i 0).drop (n + 1)).foldl (fun s m => s.modStep key m.1 fun t => { t with st := .cancelled, slipCancel := true }) t)
    | none => s.slipGo key i x n

/-- One more slot of delay of step `j`: each later unstarted step moves to where it stood before the delay and that many slots later, or
on to its first fit (R78). -/
def State.slipLater (s : State) (key : Nat) (b : Booking) (j : Nat) : State :=
  match nextUnstarted b j with
  | none => s
  | some (i, t) =>
    (movedSteps b i 0).foldl (fun s m => s.modStep key m.1 fun t => { t with orig := m.2.2.orig, late := m.2.2.late + 1 })
      (s.slipGo key i (t.orig + t.late + 1) 8)

/-- A delay ends: the steps behind step `j` keep their new places. -/
def State.slipEnds (s : State) (key : Nat) (b : Booking) (j : Nat) : State :=
  (List.range b.steps.length).foldl (fun s i => if j < i then s.modStep key i fun t => { t with orig := t.start, late := 0 } else s) s

/-- The state of a command. -/
def State.setCmd (s : State) (c : Nat) (copy : Bool) (id : Nat) (f : Cmd → Cmd) : State :=
  if copy then s.modCp c id fun o => { o with c := f o.c } else s.modMx c id fun o => { o with c := f o.c }

/-- STATE of the tile of a matrix operation that stops or resumes (R173). -/
def State.tileSt (s : State) (c : Nat) (id : Nat) (st : BitVec 4) : State :=
  match (s.core c).mx.find? fun o => o.c.id == id with
  | some o => s.modCore c fun k => k.tileState o st
  | none => s

/-- An operation that stopped for want of room goes on, if it did. -/
def State.goOn (s : State) (core : Nat) (copy : Bool) (c : Cmd) : State :=
  if c.st = .stopped then (s.setCmd core copy c.id fun k => { k with st := .running }).tileSt core c.id 2 else s

/-- An operation stops for want of room; one that has not begun goes on waiting for its turn (`State.slotFree`). -/
def State.stopHere (s : State) (core : Nat) (copy : Bool) (c : Cmd) : State :=
  (s.setCmd core copy c.id fun k => { k with st := if k.st == .waiting then .waiting else .stopped }).tileSt core c.id 3

/-! ### The last sector of a copy (R456) -/

/-- Only TAG entries stand between a place of a chain and its END. -/
def State.endFollows (s : State) (c : Nat) (o : CpOp) : Nat → Bool
  | 0 => false
  | n + 1 =>
    match (s.entryRead c o).1 with
    | .error _ => false
    | .ok (line, w, ws) =>
      match o.entry line w ws with
      | .ok (_, _, .fin) => o.loop.isNone
      | .ok (_, _, .tag _) => s.endFollows c (({ o with line := line, word := w } : CpOp).bodyStep 1) n
      | _ => false

/-- The write that a copy waits for is the last of its COPY entry. -/
def State.entryCovered (s : State) (c : Nat) (o : CpOp) (ss ds : Bool) (dec len : Nat) (src dst : Word) : Bool :=
  let k := s.core c
  let x := k.plane o.c.plane
  let si : Int := match o.loop with | some l => l.r * l.sinc | none => 0
  let di : Int := match o.loop with | some l => l.r * l.dinc | none => 0
  let span (a : Word) (i : Int) (f : Stream → Nat) : Nat := match streamAt k x a i with | .ok t => f t | .error _ => 0
  if dec ≠ 0 then decide (len * (if dec = 1 then 2 else 4) ≤ o.done + o.wrote)
  else if ds then decide (span dst di (·.len) ≤ o.done + 1)
  else decide ((if ss then span src si fun t => t.len * t.size else len) ≤ o.done + o.wrote)

/-- A copy's work has ended, or it has sent its last destination sector and only waits for the answer (R80, R456). -/
def State.lastSent (s : State) (c : Nat) (o : CpOp) : Bool :=
  if o.c.st = .finished then true
  else if o.wait then
    match o.cur with
    | none => false
    | some (line, w, ws) =>
      o.wrote != 0 &&
      (match o.entry line w ws with
      | .ok (_, _, .copy ss ds _ dec len src dst) => s.entryCovered c o ss ds dec len src dst
      | _ => false) &&
      (!o.chain || s.endFollows c (({ o with line := line, word := w } : CpOp).bodyStep 1) 64)
  else o.chain && o.ents != 0 && o.done == 0 && s.endFollows c o 64

/-- The slots behind the current one of a copy that has sent its last sector are freed (R80, R456). -/
def State.freeSent (s : State) (c : Nat) : State :=
  (s.core c).cp.foldl (fun s o =>
    match s.cmdStep o.c with
    | some (key, t) =>
      (match tget s.bk.bookings key with
      | some b =>
        if t.st == .running && !t.free && s.lastSent c o then
          (groupOf b o.c.step).foldl (fun s j => s.modStep key j fun t => { t with len := min t.len (s.now - t.start), free := true })
            (s.modBk fun k => { k with freed := k.freed || decide (s.now < t.start + t.len) })
        else s
      | none => s)
    | none => s) s

/-! ### One operation at a boundary -/

/-- The boundary as one operation of an engine sees it: its slots counted (R79, R86, R291), its overrun, stop or resumption (R78), the slots
that its work uses (R88). In a halted unit it only learns whether the slot has room for it (R291). -/
def State.opBoundary (s : State) (core : Nat) (copy : Bool) (c : Cmd) : State :=
  let halted := s.unitHalted c.vd (if copy then cpUnit core else mxUnit core)
  let s := s.setCmd core copy c.id fun k => if halted then { k with issued := k.issued + 1 } else { k with ran := k.ran + 1 }
  match s.cmdStep c with
  | none => s.goOn core copy c
  | some (key, t) =>
    match tget s.bk.bookings key with
    | none => s
    | some b =>
      let js := groupOf b c.step
      let used (s : State) : State := if halted then s else s.count c.vd 0 5 js.length
      if t.st ≠ .running || t.free then s
      else if s.now < t.start + t.len then (used s).goOn core copy c
      else if s.roomNow key b js then
        if halted then s.goOn core copy c
        else (((used s).overrunSlot c.vd key b js).slipEnds key b c.step).goOn core copy c
      else if c.st = .finished then s
      else if halted then s.stopHere core copy c
      else ((if c.st = .running ∨ s.now = t.start + t.len then s.count c.vd 0 2 1 else s).stopHere core copy c).slipLater key b c.step

/-- Every operation of the engines of a core that is not over. -/
def State.coreBoundary (s : State) (c : Nat) : State :=
  let k := s.core c
  let s := (k.mx.filter fun o => !o.isOver).foldl (fun s o => s.opBoundary c false o.c) s
  (k.cp.filter fun o => !o.isOver).foldl (fun s o => s.opBoundary c true o.c) s

/-! ### Frees and expiries (R80, R87) -/

/-- A step as the boundary leaves it: one whose interval has ended, or that is over, holds it no more; a step that no instruction can
consume is done at its end. -/
def BStep.atBoundary (t : BStep) (attached : Bool) (now : Nat) : BStep :=
  if t.free then t
  else if t.over then { t with free := true, len := if t.start < now then min t.len (now - t.start) else t.len }
  else if t.st == .booked && decide (t.start + t.len ≤ now) then
    { t with free := true, st := if decide (2 ≤ t.kind.toNat) && !attached then .done else t.st }
  else t

/-- The boundary frees slots of the step ahead of it. -/
def BStep.frees (t : BStep) (now : Nat) : Bool := !t.free && t.over && decide (now < t.start + t.len)

/-- Slots are freed at this boundary: of steps that are over, of holds and intervals given up or expired since the last one. -/
def State.anyFreed (s : State) : Bool :=
  s.bk.freed || (s.bk.bookings.any fun b => b.2.steps.any fun t => t.frees s.now) ||
  (s.bk.holds.any fun h => h.due s.now || h.dead) || s.bk.rints.any fun r => r.dead && decide (s.now < r.start + r.len)

/-- Frees at a boundary, of every booking; `freed` says from here on whether there were any. -/
def State.freeSteps (s : State) : State :=
  s.modBk fun k =>
    { k with freed := s.anyFreed,
             bookings := tmap k.bookings fun _ b =>
               { b with steps := (b.steps.zipIdx).map fun e => e.1.atBoundary (attachRoot b.steps e.2 != e.2) s.now },
             rints := k.rints.filter fun r => !r.dead && decide (s.now < r.start + r.len),
             holds := k.holds.filter fun h => !h.dead && !(h.due s.now) }

/-- What unbooked work and each copy moved in the last slot counts no more (R60, R75). -/
def State.newBudgets (s : State) : State :=
  (s.cores.map (·.1)).foldl (fun s c => s.modCore c fun k => { k with cp := k.cp.map fun o => { o with moved := [] } })
    (s.modBk fun k => { k with loose := [] })

/-- The debt of freezes that outlast their switch slot (R288): each core of each hank one MATRIX unit. -/
def State.freezeDebt (s : State) : State :=
  s.vds.foldl (fun s e =>
    match e.2.freeze with
    | some f =>
      if f.saved || !e.2.run || s.now ≤ f.start then s
      else
        let s := (s.count e.1 5 4 1).count e.1 5 6 (16 * e.2.d.hanks.length)
        e.2.d.hanks.foldl (fun s h => s.debtSlot e.1 (h / 8) 16) s
    | none => s) s

/-- Charges and debts of past periods are of no further use. -/
def State.prunePeriods (s : State) : State :=
  if s.now % 4096 = 0 then
    { s with vds := tmap s.vds fun _ d =>
        { d with charged := tfilter d.charged fun k _ => decide (s.now / 4096 ≤ k / 64), debt := tfilter d.debt fun k _ => decide (s.now / 4096 ≤ k / 64) } }
  else s

/-- SLOT_BOUNDARY (R87): the next slot begins: ends of intervals and frees, work that goes on or stops, starts, then backfill. -/
def execSlotBoundary (s : State) : Out :=
  .next (
    if s.power != .run then s
    else
      let s := (({ s with slot := s.slot + 1 } : State).prunePeriods).newBudgets
      let cs := s.cores.map (·.1)
      let s := cs.foldl State.freeSent s.freeSteps
      let s := (cs.foldl State.coreBoundary s).freezeDebt
      let s := cs.foldl (fun s c => ((s.startHeld c 0).startHeld c 1).beginMx c) s
      (if s.bk.freed then s.backfill else s).modBk fun k => { k with freed := false })

end Sys2Proof.Machine
end

