-- ==== Sys2Proof/Machine/System.lean ====
section
/-! DEFINITION. RETT, XINV, CSRW of sr.lsinv, and the taking of a pending asynchronous fault in a hold
(spec/14_traps_preemption.md R277 to R281, spec/12_translation.md R249, spec/05_core.md R100). -/

namespace Sys2Proof.Machine

/-- A major marked S: PRIV in T mode whatever the guard (R116); then its guard. -/
def State.smodeOnly (s : State) (i : Instr) (g : BitVec 4) (act : State → State) : State :=
  if g = 8 then s.advance 1
  else if !s.pl.sr.smode then s.trap cPRIV (word0Of i)
  else if s.pl.guard g then act s
  else s.advance 1

/-- The trap record address of a trap task (R275). -/
def State.ownRecord (s : State) (t : Task) : Option Word :=
  match t.record, s.vd t.vd with
  | some k, some d => some (BitVec.ofNat 64 (d.d.tra + 64 * k))
  | _, _ => none

/-- RETT (R277, R388). -/
def execRett (o : AMode) (s : State) : Out :=
  let ga := s.pl.rg o.a
  .next (s.smodeOnly (.rett o) o.g fun s =>
    match s.curTask with
    | none => s
    | some t =>
      if s.ownRecord t != some ga then s.trap cILLEGAL ga
      else if s.pl.oc.zero then s.returnFrom (o.mode == 1)
      else s.holdOn (.counts 0 0 0 0))

/-! ### CSRW of sr.lsinv (R100) -/

/-- An element's bytes lie in the line at `line`, be it reached through the own node's window (R100, R188). -/
def Elem.inLine (e : Elem) (node : Option (BitVec 12)) (line : Word) : Bool :=
  match (winOf e.start).own node with
  | .hbm a => decide (a < line.toNat + 64 ∧ line.toNat < a + e.len)
  | _ => false

/-- A line of a VD leaves every line store (R100). -/
def State.dropLine (s : State) (v : Nat) (line : Word) : State :=
  { s with cores := tmap s.cores fun _ k => { k with lines := k.lines.filter fun l => !(l.vd == v && l.addr == line) } }

/-- CSRW of a line address to sr.lsinv (R100): earlier stores to the line perform first. The instruction itself completes in the line
it was fetched from, be that the line it removes. -/
def execLsinv (o : Lsi) (s : State) : Out :=
  let line := s.pl.rg o.d &&& 0xFFFFFFFFFFC0#64
  .next (
    if s.pl.guard o.g then
      let wait := s.pl.acc.filter fun a => a.kind.writes && !(a.doneAt 2) && a.elems.any fun e => e.inLine s.fab.node line
      if wait.isEmpty then (s.advance 1).dropLine s.curVd line else s.holdOn (.accs (wait.map (·.id)) 2)
    else s.advance 1)

/-! ### XINV (R249, R452) -/

/-- The accesses of a VD that used, or will use by a walk under way, a translation of a page that `p` names, and have not performed (R249). -/
def State.usersOf (s : State) (v : Nat) (p : Nat → Bool) : List (Nat × Nat × Nat) :=
  (s.usersBy fun w e => w == v && p ((hbmVa e.start).toNat / 65536)).filter fun a => !(s.accSettled a)

/-- XINV (R249): step 1 waits for earlier stores, step 2 removes, step 3 holds for the accesses that used what was removed. -/
def State.xinv (s : State) (va : Word) (all : Bool) : State :=
  match s.pl.hold with
  | some (.xinv _) => s.advance 1
  | _ =>
    let wait := s.pl.acc.filter fun a => a.kind.writes && !(a.doneAt 2)
    if !wait.isEmpty then s.holdOn (.accs (wait.map (·.id)) 2)
    else
      let v := s.curVd
      let a := va.toNat / 65536
      let none_ := !all && !(inHbmWindow va)
      let tcs := s.cores.flatMap fun e => e.2.tc
      let hit (page : Nat) : Bool := !none_ && (all || page == a || tcs.any fun e => e.maps v a && e.maps v page)
      let s := (s.tcInval v fun e => !none_ && (all || e.maps v a)).walksNoFill fun w => w.vd == v && hit w.page
      let users := s.usersOf v hit
      if users.isEmpty then s.advance 1 else s.holdOn (.xinv users)

/-- XINV (R249, R452). -/
def execXinv (o : AMode) (s : State) : Out :=
  let va := s.pl.rg o.a
  .next (s.smodeOnly (.xinv o) o.g fun s => s.xinv va (o.mode == 1))

/-! ### ASYNC_FAULT_TAKEN (R280, R281) -/

/-- ASYNC_FAULT_TAKEN (R280): a HELD plane's task takes its first pending fault; the hold ends without effect. A task that issues
takes its faults at its next instruction. -/
def execAsyncFaultTaken (core : BitVec 10) (plane : BitVec 1) (s : State) : Out :=
  let c := core.toNat
  .next (match s.taskOf c plane with
    | some (_, t) =>
      if t.state = .held && !t.faults.isEmpty && !(s.planeStopped c plane) && (s.plane c plane).trap.isNone
      then s.takeAsync c plane else s
    | none => s)

end Sys2Proof.Machine
end

