-- ==== Sys2Proof/Machine/Dispatch.lean ====
section
/-! DEFINITION. The meaning of every instruction and device event of the opcode table. -/

namespace Sys2Proof.Machine

/-- What instruction or event `i` does to the state. -/
def exec (i : Instr) (s : State) : Host.Outcome State Fault Refusal :=
  match i with
  | .addTri o => Sys2Proof.Machine.execAddTri o s
  | .addSim o => Sys2Proof.Machine.execAddSim o s
  | .addLim o => Sys2Proof.Machine.execAddLim o s
  | .subTri o => Sys2Proof.Machine.execSubTri o s
  | .subSim o => Sys2Proof.Machine.execSubSim o s
  | .subLim o => Sys2Proof.Machine.execSubLim o s
  | .mulTri o => Sys2Proof.Machine.execMulTri o s
  | .mulSim o => Sys2Proof.Machine.execMulSim o s
  | .mulLim o => Sys2Proof.Machine.execMulLim o s
  | .mulhTri o => Sys2Proof.Machine.execMulhTri o s
  | .mulhSim o => Sys2Proof.Machine.execMulhSim o s
  | .mulhLim o => Sys2Proof.Machine.execMulhLim o s
  | .mulhuTri o => Sys2Proof.Machine.execMulhuTri o s
  | .mulhuSim o => Sys2Proof.Machine.execMulhuSim o s
  | .mulhuLim o => Sys2Proof.Machine.execMulhuLim o s
  | .divTri o => Sys2Proof.Machine.execDivTri o s
  | .divSim o => Sys2Proof.Machine.execDivSim o s
  | .divLim o => Sys2Proof.Machine.execDivLim o s
  | .divuTri o => Sys2Proof.Machine.execDivuTri o s
  | .divuSim o => Sys2Proof.Machine.execDivuSim o s
  | .divuLim o => Sys2Proof.Machine.execDivuLim o s
  | .remTri o => Sys2Proof.Machine.execRemTri o s
  | .remSim o => Sys2Proof.Machine.execRemSim o s
  | .remLim o => Sys2Proof.Machine.execRemLim o s
  | .remuTri o => Sys2Proof.Machine.execRemuTri o s
  | .remuSim o => Sys2Proof.Machine.execRemuSim o s
  | .remuLim o => Sys2Proof.Machine.execRemuLim o s
  | .andTri o => Sys2Proof.Machine.execAndTri o s
  | .andSim o => Sys2Proof.Machine.execAndSim o s
  | .andLim o => Sys2Proof.Machine.execAndLim o s
  | .orTri o => Sys2Proof.Machine.execOrTri o s
  | .orSim o => Sys2Proof.Machine.execOrSim o s
  | .orLim o => Sys2Proof.Machine.execOrLim o s
  | .xorTri o => Sys2Proof.Machine.execXorTri o s
  | .xorSim o => Sys2Proof.Machine.execXorSim o s
  | .xorLim o => Sys2Proof.Machine.execXorLim o s
  | .andnTri o => Sys2Proof.Machine.execAndnTri o s
  | .andnSim o => Sys2Proof.Machine.execAndnSim o s
  | .andnLim o => Sys2Proof.Machine.execAndnLim o s
  | .shlTri o => Sys2Proof.Machine.execShlTri o s
  | .shlSim o => Sys2Proof.Machine.execShlSim o s
  | .shlLim o => Sys2Proof.Machine.execShlLim o s
  | .shrTri o => Sys2Proof.Machine.execShrTri o s
  | .shrSim o => Sys2Proof.Machine.execShrSim o s
  | .shrLim o => Sys2Proof.Machine.execShrLim o s
  | .sarTri o => Sys2Proof.Machine.execSarTri o s
  | .sarSim o => Sys2Proof.Machine.execSarSim o s
  | .sarLim o => Sys2Proof.Machine.execSarLim o s
  | .minTri o => Sys2Proof.Machine.execMinTri o s
  | .minSim o => Sys2Proof.Machine.execMinSim o s
  | .minLim o => Sys2Proof.Machine.execMinLim o s
  | .maxTri o => Sys2Proof.Machine.execMaxTri o s
  | .maxSim o => Sys2Proof.Machine.execMaxSim o s
  | .maxLim o => Sys2Proof.Machine.execMaxLim o s
  | .minuTri o => Sys2Proof.Machine.execMinuTri o s
  | .minuSim o => Sys2Proof.Machine.execMinuSim o s
  | .minuLim o => Sys2Proof.Machine.execMinuLim o s
  | .maxuTri o => Sys2Proof.Machine.execMaxuTri o s
  | .maxuSim o => Sys2Proof.Machine.execMaxuSim o s
  | .maxuLim o => Sys2Proof.Machine.execMaxuLim o s
  | .clz o => Sys2Proof.Machine.execClz o s
  | .popc o => Sys2Proof.Machine.execPopc o s
  | .mov o => Sys2Proof.Machine.execMov o s
  | .ldiSim o => Sys2Proof.Machine.execLdiSim o s
  | .ldiLim o => Sys2Proof.Machine.execLdiLim o s
  | .ldih o => Sys2Proof.Machine.execLdih o s
  | .bfxReg o => Sys2Proof.Machine.execBfxReg o s
  | .bfxImm o => Sys2Proof.Machine.execBfxImm o s
  | .bfxuReg o => Sys2Proof.Machine.execBfxuReg o s
  | .bfxuImm o => Sys2Proof.Machine.execBfxuImm o s
  | .bfiReg o => Sys2Proof.Machine.execBfiReg o s
  | .bfiImm o => Sys2Proof.Machine.execBfiImm o s
  | .sel o => Sys2Proof.Machine.execSel o s
  | .cmpReg o => Sys2Proof.Machine.execCmpReg o s
  | .cmpImm o => Sys2Proof.Machine.execCmpImm o s
  | .pand o => Sys2Proof.Machine.execPand o s
  | .por o => Sys2Proof.Machine.execPor o s
  | .pxor o => Sys2Proof.Machine.execPxor o s
  | .pnot o => Sys2Proof.Machine.execPnot o s
  | .mand o => Sys2Proof.Machine.execMand o s
  | .mor o => Sys2Proof.Machine.execMor o s
  | .mxor o => Sys2Proof.Machine.execMxor o s
  | .mnot o => Sys2Proof.Machine.execMnot o s
  | .br o => Sys2Proof.Machine.execBr o s
  | .jmp o => Sys2Proof.Machine.execJmp o s
  | .callRel o => Sys2Proof.Machine.execCallRel o s
  | .callReg o => Sys2Proof.Machine.execCallReg o s
  | .ret o => Sys2Proof.Machine.execRet o s
  | .loop o => Sys2Proof.Machine.execLoop o s
  | .loopm o => Sys2Proof.Machine.execLoopm o s
  | .ld o => Sys2Proof.Machine.execLd o s
  | .ldOff o => Sys2Proof.Machine.execLdOff o s
  | .st o => Sys2Proof.Machine.execSt o s
  | .stOff o => Sys2Proof.Machine.execStOff o s
  | .ldsec o => Sys2Proof.Machine.execLdsec o s
  | .stsec o => Sys2Proof.Machine.execStsec o s
  | .amo o => Sys2Proof.Machine.execAmo o s
  | .cas o => Sys2Proof.Machine.execCas o s
  | .bput o => Sys2Proof.Machine.execBput o s
  | .fence o => Sys2Proof.Machine.execFence o s
  | .flushp o => Sys2Proof.Machine.execFlushp o s
  | .shacq o => Sys2Proof.Machine.execShacq o s
  | .shrel o => Sys2Proof.Machine.execShrel o s
  | .waitReg o => Sys2Proof.Machine.execWaitReg o s
  | .waitImm o => Sys2Proof.Machine.execWaitImm o s
  | .twany o => Sys2Proof.Machine.execTwany o s
  | .twall o => Sys2Proof.Machine.execTwall o s
  | .tfirst o => Sys2Proof.Machine.execTfirst o s
  | .tclr o => Sys2Proof.Machine.execTclr o s
  | .vld o => Sys2Proof.Machine.execVld o s
  | .vldOff o => Sys2Proof.Machine.execVldOff o s
  | .vst o => Sys2Proof.Machine.execVst o s
  | .vstOff o => Sys2Proof.Machine.execVstOff o s
  | .vgath o => Sys2Proof.Machine.execVgath o s
  | .vscat o => Sys2Proof.Machine.execVscat o s
  | .vadd o => Sys2Proof.Machine.execVadd o s
  | .vaddX o => Sys2Proof.Machine.execVaddX o s
  | .vsub o => Sys2Proof.Machine.execVsub o s
  | .vsubX o => Sys2Proof.Machine.execVsubX o s
  | .vmul o => Sys2Proof.Machine.execVmul o s
  | .vmulX o => Sys2Proof.Machine.execVmulX o s
  | .vfma o => Sys2Proof.Machine.execVfma o s
  | .vfms o => Sys2Proof.Machine.execVfms o s
  | .vfnma o => Sys2Proof.Machine.execVfnma o s
  | .vdiv o => Sys2Proof.Machine.execVdiv o s
  | .vdivX o => Sys2Proof.Machine.execVdivX o s
  | .vsqrt o => Sys2Proof.Machine.execVsqrt o s
  | .vsqrtX o => Sys2Proof.Machine.execVsqrtX o s
  | .vmin o => Sys2Proof.Machine.execVmin o s
  | .vmax o => Sys2Proof.Machine.execVmax o s
  | .vabs o => Sys2Proof.Machine.execVabs o s
  | .vabsX o => Sys2Proof.Machine.execVabsX o s
  | .vneg o => Sys2Proof.Machine.execVneg o s
  | .vnegX o => Sys2Proof.Machine.execVnegX o s
  | .vcmp o => Sys2Proof.Machine.execVcmp o s
  | .vsel o => Sys2Proof.Machine.execVsel o s
  | .vand o => Sys2Proof.Machine.execVand o s
  | .vandX o => Sys2Proof.Machine.execVandX o s
  | .vor o => Sys2Proof.Machine.execVor o s
  | .vorX o => Sys2Proof.Machine.execVorX o s
  | .vxor o => Sys2Proof.Machine.execVxor o s
  | .vxorX o => Sys2Proof.Machine.execVxorX o s
  | .vshl o => Sys2Proof.Machine.execVshl o s
  | .vshlImm o => Sys2Proof.Machine.execVshlImm o s
  | .vshr o => Sys2Proof.Machine.execVshr o s
  | .vshrImm o => Sys2Proof.Machine.execVshrImm o s
  | .vsar o => Sys2Proof.Machine.execVsar o s
  | .vsarImm o => Sys2Proof.Machine.execVsarImm o s
  | .vcvt o => Sys2Proof.Machine.execVcvt o s
  | .vred o => Sys2Proof.Machine.execVred o s
  | .vredX o => Sys2Proof.Machine.execVredX o s
  | .vscan o => Sys2Proof.Machine.execVscan o s
  | .vscanX o => Sys2Proof.Machine.execVscanX o s
  | .vbcastScalar o => Sys2Proof.Machine.execVbcastScalar o s
  | .vbcastElement o => Sys2Proof.Machine.execVbcastElement o s
  | .vext o => Sys2Proof.Machine.execVext o s
  | .vperm o => Sys2Proof.Machine.execVperm o s
  | .vslide o => Sys2Proof.Machine.execVslide o s
  | .vclass o => Sys2Proof.Machine.execVclass o s
  | .vsplit o => Sys2Proof.Machine.execVsplit o s
  | .vjoin o => Sys2Proof.Machine.execVjoin o s
  | .vpack4 o => Sys2Proof.Machine.execVpack4 o s
  | .vunpk4 o => Sys2Proof.Machine.execVunpk4 o s
  | .mmt o => Sys2Proof.Machine.execMmt o s
  | .mzero o => Sys2Proof.Machine.execMzero o s
  | .mdrain o => Sys2Proof.Machine.execMdrain o s
  | .mdadd o => Sys2Proof.Machine.execMdadd o s
  | .mbrd o => Sys2Proof.Machine.execMbrd o s
  | .mstat o => Sys2Proof.Machine.execMstat o s
  | .cpy o => Sys2Proof.Machine.execCpy o s
  | .cpys o => Sys2Proof.Machine.execCpys o s
  | .cpyq o => Sys2Proof.Machine.execCpyq o s
  | .book o => Sys2Proof.Machine.execBook o s
  | .bkq o => Sys2Proof.Machine.execBkq o s
  | .bkcan o => Sys2Proof.Machine.execBkcan o s
  | .bkrel o => Sys2Proof.Machine.execBkrel o s
  | .spawn o => Sys2Proof.Machine.execSpawn o s
  | .signal o => Sys2Proof.Machine.execSignal o s
  | .susp o => Sys2Proof.Machine.execSusp o s
  | .exit o => Sys2Proof.Machine.execExit o s
  | .fget o => Sys2Proof.Machine.execFget o s
  | .fput o => Sys2Proof.Machine.execFput o s
  | .launch o => Sys2Proof.Machine.execLaunch o s
  | .frq o => Sys2Proof.Machine.execFrq o s
  | .frgate o => Sys2Proof.Machine.execFrgate o s
  | .svc o => Sys2Proof.Machine.execSvc o s
  | .trap o => Sys2Proof.Machine.execTrap o s
  | .brk o => Sys2Proof.Machine.execBrk o s
  | .rett o => Sys2Proof.Machine.execRett o s
  | .csrr o => Sys2Proof.Machine.execCsrr o s
  | .csrw o => Sys2Proof.Machine.execCsrw o s
  | .lsinv o => Sys2Proof.Machine.execLsinv o s
  | .nop o => Sys2Proof.Machine.execNop o s
  | .xinv o => Sys2Proof.Machine.execXinv o s
  | .asyncFaultTaken core plane => Sys2Proof.Machine.execAsyncFaultTaken core plane s
  | .pointFire die => Sys2Proof.Machine.execPointFire die s
  | .edgeMessage j => Sys2Proof.Machine.execEdgeMessage j s
  | .gateAddition j => Sys2Proof.Machine.execGateAddition j s
  | .sweepIdAssign vd => Sys2Proof.Machine.execSweepIdAssign vd s
  | .taskStage die => Sys2Proof.Machine.execTaskStage die s
  | .planeSwap core => Sys2Proof.Machine.execPlaneSwap core s
  | .spill core plane => Sys2Proof.Machine.execSpill core plane s
  | .decrement j => Sys2Proof.Machine.execDecrement j s
  | .loadResult core plane acc => Sys2Proof.Machine.execLoadResult core plane acc s
  | .postedWriteAck core plane acc => Sys2Proof.Machine.execPostedWriteAck core plane acc s
  | .copyComplete core => Sys2Proof.Machine.execCopyComplete core s
  | .matrixComplete core => Sys2Proof.Machine.execMatrixComplete core s
  | .mbrdReady core => Sys2Proof.Machine.execMbrdReady core s
  | .lineFill core plane => Sys2Proof.Machine.execLineFill core plane s
  | .copyEntry core => Sys2Proof.Machine.execCopyEntry core s
  | .chainLoop core => Sys2Proof.Machine.execChainLoop core s
  | .chainIf core => Sys2Proof.Machine.execChainIf core s
  | .chainTag core => Sys2Proof.Machine.execChainTag core s
  | .chainEnd core => Sys2Proof.Machine.execChainEnd core s
  | .slotBoundary => Sys2Proof.Machine.execSlotBoundary s
  | .bookingSearch die => Sys2Proof.Machine.execBookingSearch die s
  | .templateRetry task => Sys2Proof.Machine.execTemplateRetry task s
  | .tentativeHoldExpiry j => Sys2Proof.Machine.execTentativeHoldExpiry j s
  | .seniorHoldExpiry j => Sys2Proof.Machine.execSeniorHoldExpiry j s
  | .postponedExpiry j => Sys2Proof.Machine.execPostponedExpiry j s
  | .deadlinePass j => Sys2Proof.Machine.execDeadlinePass j s
  | .commitTimeout j => Sys2Proof.Machine.execCommitTimeout j s
  | .prepareTimeout j => Sys2Proof.Machine.execPrepareTimeout j s
  | .overrun core copy => Sys2Proof.Machine.execOverrun core copy s
  | .unbookedOverrun core copy => Sys2Proof.Machine.execUnbookedOverrun core copy s
  | .bookPrepare m => Sys2Proof.Machine.execBookPrepare m s
  | .bookGrant m => Sys2Proof.Machine.execBookGrant m s
  | .bookRefuse m => Sys2Proof.Machine.execBookRefuse m s
  | .bookCommit m => Sys2Proof.Machine.execBookCommit m s
  | .bookConfirm m => Sys2Proof.Machine.execBookConfirm m s
  | .bookAbort m => Sys2Proof.Machine.execBookAbort m s
  | .bookCancel m => Sys2Proof.Machine.execBookCancel m s
  | .bookLost m => Sys2Proof.Machine.execBookLost m s
  | .walk core plane acc el => Sys2Proof.Machine.execWalk core plane acc el s
  | .faultPost vd => Sys2Proof.Machine.execFaultPost vd s
  | .ringPoll vd => Sys2Proof.Machine.execRingPoll vd s
  | .replyRetry vd src => Sys2Proof.Machine.execReplyRetry vd src s
  | .replyFail vd src => Sys2Proof.Machine.execReplyFail vd src s
  | .homeAgentAccess core plane acc el => Sys2Proof.Machine.execHomeAgentAccess core plane acc el s
  | .peerAccess core plane acc el => Sys2Proof.Machine.execPeerAccess core plane acc el s
  | .migrationCopyEnd j => Sys2Proof.Machine.execMigrationCopyEnd j s
  | .migrationCopyFail j => Sys2Proof.Machine.execMigrationCopyFail j s
  | .unitStop vd u => Sys2Proof.Machine.execUnitStop vd u s
  | .thermalPoll temps => Sys2Proof.Machine.execThermalPoll temps s
  | .freeze vd => Sys2Proof.Machine.execFreeze vd s
  | .freezeSave vd => Sys2Proof.Machine.execFreezeSave vd s
  | .flimKill task => Sys2Proof.Machine.execFlimKill task s
  | .worldSwitch out inn => Sys2Proof.Machine.execWorldSwitch out inn s
  | .actionSignal sweep => Sys2Proof.Machine.execActionSignal sweep s
  | .actionFput sweep => Sys2Proof.Machine.execActionFput sweep s
  | .actionGate sweep => Sys2Proof.Machine.execActionGate sweep s
  | .actionPost sweep => Sys2Proof.Machine.execActionPost sweep s
  | .completionPost vd q => Sys2Proof.Machine.execCompletionPost vd q s
  | .notify q w0 w1 => Sys2Proof.Machine.execNotify q w0 w1 s
  | .reconcile vd q => Sys2Proof.Machine.execReconcile vd q s
  | .sweepCommand vd q => Sys2Proof.Machine.execSweepCommand vd q s
  | .graphCommand vd q => Sys2Proof.Machine.execGraphCommand vd q s
  | .nopCommand vd q => Sys2Proof.Machine.execNopCommand vd q s
  | .hostRdmaRead r va len => Sys2Proof.Machine.execHostRdmaRead r va len s
  | .hostRdmaWrite q va data => Sys2Proof.Machine.execHostRdmaWrite q va data s
  | .hostRdmaAtomic vd va cas op new => Sys2Proof.Machine.execHostRdmaAtomic vd va cas op new s
  | .fwDefine h vd d => Sys2Proof.Machine.execFwDefine h vd d s
  | .fwTeardown h vd => Sys2Proof.Machine.execFwTeardown h vd s
  | .fwReset h vd => Sys2Proof.Machine.execFwReset h vd s
  | .fwSchedule h vd sched => Sys2Proof.Machine.execFwSchedule h vd sched s
  | .fwHostwin h vd w => Sys2Proof.Machine.execFwHostwin h vd w s
  | .fwSpan h vd own nodes => Sys2Proof.Machine.execFwSpan h vd own nodes s
  | .fwWindow h vd w => Sys2Proof.Machine.execFwWindow h vd w s
  | .fwMigrate h vd f t => Sys2Proof.Machine.execFwMigrate h vd f t s
  | .fwHalt h vd => Sys2Proof.Machine.execFwHalt h vd s
  | .fwResume h vd => Sys2Proof.Machine.execFwResume h vd s
  | .fwStep h vd core plane => Sys2Proof.Machine.execFwStep h vd core plane s
  | .fwDump h vd core plane win => Sys2Proof.Machine.execFwDump h vd core plane win s
  | .fwLoad h vd core plane win => Sys2Proof.Machine.execFwLoad h vd core plane win s
  | .fwCounters h vd bank => Sys2Proof.Machine.execFwCounters h vd bank s
  | .fwAttest h vd nonce => Sys2Proof.Machine.execFwAttest h vd nonce s
  | .fwUpdate h vd image => Sys2Proof.Machine.execFwUpdate h vd image s
  | .complexTakeover => Sys2Proof.Machine.execComplexTakeover s
  | .watchdogTakeover => Sys2Proof.Machine.execWatchdogTakeover s
  | .powerOn => Sys2Proof.Machine.execPowerOn s
  | .msgRead m => Sys2Proof.Machine.execMsgRead m s
  | .msgRdata m => Sys2Proof.Machine.execMsgRdata m s
  | .msgWrite m => Sys2Proof.Machine.execMsgWrite m s
  | .msgAck m => Sys2Proof.Machine.execMsgAck m s
  | .msgAtomic m => Sys2Proof.Machine.execMsgAtomic m s
  | .msgArsp m => Sys2Proof.Machine.execMsgArsp m s
  | .msgMdadd m => Sys2Proof.Machine.execMsgMdadd m s
  | .msgGate m => Sys2Proof.Machine.execMsgGate m s
  | .msgFaulted m => Sys2Proof.Machine.execMsgFaulted m s
  | .msgNack m => Sys2Proof.Machine.execMsgNack m s
  | .msgTime m => Sys2Proof.Machine.execMsgTime m s
  | .msgTimeRsp m => Sys2Proof.Machine.execMsgTimeRsp m s
  | .timeProbe node => Sys2Proof.Machine.execTimeProbe node s
  | .offsetExpiry node => Sys2Proof.Machine.execOffsetExpiry node s
  | .requestRetransmit j => Sys2Proof.Machine.execRequestRetransmit j s
  | .responseExpiry j => Sys2Proof.Machine.execResponseExpiry j s
  | .tidAllocate node => Sys2Proof.Machine.execTidAllocate node s
  | .frameRetransmit f => Sys2Proof.Machine.execFrameRetransmit f s
  | .portDown port => Sys2Proof.Machine.execPortDown port s
  | .portUp port => Sys2Proof.Machine.execPortUp port s
  | .kStep core => Sys2Proof.Machine.execKStep core s
  | .hostWindowResponse j ok data => Sys2Proof.Machine.execHostWindowResponse j ok data s
  | .powerOff => Sys2Proof.Machine.execPowerOff s
  | .bootComplete ok => Sys2Proof.Machine.execBootComplete ok s

end Sys2Proof.Machine
end

