-- ==== Sys2Proof/Machine/Hazard.lean ====
section
/-! DEFINITION. The registers an instruction names: it issues when none of them awaits a result (spec/05_core.md R90, R91). -/

namespace Sys2Proof

/-- The g registers an instruction reads or writes. -/
def Instr.gs (i : Instr) : List (BitVec 6) :=
  match i with
  | .addTri o => [o.d, o.a, o.b]
  | .addSim o => [o.d]
  | .addLim o => [o.d, o.a]
  | .subTri o => [o.d, o.a, o.b]
  | .subSim o => [o.d]
  | .subLim o => [o.d, o.a]
  | .mulTri o => [o.d, o.a, o.b]
  | .mulSim o => [o.d]
  | .mulLim o => [o.d, o.a]
  | .mulhTri o => [o.d, o.a, o.b]
  | .mulhSim o => [o.d]
  | .mulhLim o => [o.d, o.a]
  | .mulhuTri o => [o.d, o.a, o.b]
  | .mulhuSim o => [o.d]
  | .mulhuLim o => [o.d, o.a]
  | .divTri o => [o.d, o.a, o.b]
  | .divSim o => [o.d]
  | .divLim o => [o.d, o.a]
  | .divuTri o => [o.d, o.a, o.b]
  | .divuSim o => [o.d]
  | .divuLim o => [o.d, o.a]
  | .remTri o => [o.d, o.a, o.b]
  | .remSim o => [o.d]
  | .remLim o => [o.d, o.a]
  | .remuTri o => [o.d, o.a, o.b]
  | .remuSim o => [o.d]
  | .remuLim o => [o.d, o.a]
  | .andTri o => [o.d, o.a, o.b]
  | .andSim o => [o.d]
  | .andLim o => [o.d, o.a]
  | .orTri o => [o.d, o.a, o.b]
  | .orSim o => [o.d]
  | .orLim o => [o.d, o.a]
  | .xorTri o => [o.d, o.a, o.b]
  | .xorSim o => [o.d]
  | .xorLim o => [o.d, o.a]
  | .andnTri o => [o.d, o.a, o.b]
  | .andnSim o => [o.d]
  | .andnLim o => [o.d, o.a]
  | .shlTri o => [o.d, o.a, o.b]
  | .shlSim o => [o.d]
  | .shlLim o => [o.d, o.a]
  | .shrTri o => [o.d, o.a, o.b]
  | .shrSim o => [o.d]
  | .shrLim o => [o.d, o.a]
  | .sarTri o => [o.d, o.a, o.b]
  | .sarSim o => [o.d]
  | .sarLim o => [o.d, o.a]
  | .minTri o => [o.d, o.a, o.b]
  | .minSim o => [o.d]
  | .minLim o => [o.d, o.a]
  | .maxTri o => [o.d, o.a, o.b]
  | .maxSim o => [o.d]
  | .maxLim o => [o.d, o.a]
  | .minuTri o => [o.d, o.a, o.b]
  | .minuSim o => [o.d]
  | .minuLim o => [o.d, o.a]
  | .maxuTri o => [o.d, o.a, o.b]
  | .maxuSim o => [o.d]
  | .maxuLim o => [o.d, o.a]
  | .clz o => [o.d, o.a]
  | .popc o => [o.d, o.a]
  | .mov o => [o.d, o.a]
  | .ldiSim o => [o.d]
  | .ldiLim o => [o.d]
  | .ldih o => [o.d]
  | .bfxReg o => [o.d, o.a, o.b]
  | .bfxImm o => [o.d, o.a]
  | .bfxuReg o => [o.d, o.a, o.b]
  | .bfxuImm o => [o.d, o.a]
  | .bfiReg o => [o.d, o.a, o.b]
  | .bfiImm o => [o.d, o.a]
  | .sel o => [o.d, o.a, o.b]
  | .cmpReg o => [o.a, o.b]
  | .cmpImm o => [o.a]
  | .pand _ => []
  | .por _ => []
  | .pxor _ => []
  | .pnot _ => []
  | .mand _ => []
  | .mor _ => []
  | .mxor _ => []
  | .mnot _ => []
  | .br _ => []
  | .jmp o => [o.a]
  | .callRel _ => [62]
  | .callReg o => [o.a, 62]
  | .ret _ => [62]
  | .loop o => [o.a]
  | .loopm o => [o.a]
  | .ld o => [o.d, o.a]
  | .ldOff o => [o.d, o.a]
  | .st o => [o.d, o.a]
  | .stOff o => [o.d, o.a]
  | .ldsec o => [o.a, o.mr]
  | .stsec o => [o.a, o.mr]
  | .amo o => [o.d, o.a, o.b]
  | .cas o => [o.d, o.a, o.b, o.c]
  | .bput o => [o.a, o.b]
  | .fence _ => []
  | .flushp _ => []
  | .shacq o => [o.d, o.a]
  | .shrel o => [o.d, o.a]
  | .waitReg o => [o.a]
  | .waitImm _ => []
  | .twany o => [o.d, o.a]
  | .twall o => [o.d, o.a]
  | .tfirst o => [o.d, o.a]
  | .tclr o => [o.a]
  | .vld o => [o.a]
  | .vldOff o => [o.a]
  | .vst o => [o.a]
  | .vstOff o => [o.a]
  | .vgath o => [o.a]
  | .vscat o => [o.a]
  | .vadd _ => []
  | .vaddX o => [o.gs]
  | .vsub _ => []
  | .vsubX o => [o.gs]
  | .vmul _ => []
  | .vmulX o => [o.gs]
  | .vfma o => [o.gs]
  | .vfms o => [o.gs]
  | .vfnma o => [o.gs]
  | .vdiv _ => []
  | .vdivX o => [o.gs]
  | .vsqrt _ => []
  | .vsqrtX _ => []
  | .vmin _ => []
  | .vmax _ => []
  | .vabs _ => []
  | .vabsX _ => []
  | .vneg _ => []
  | .vnegX _ => []
  | .vcmp o => [o.gs]
  | .vsel _ => []
  | .vand _ => []
  | .vandX o => [o.gs]
  | .vor _ => []
  | .vorX o => [o.gs]
  | .vxor _ => []
  | .vxorX o => [o.gs]
  | .vshl _ => []
  | .vshlImm _ => []
  | .vshr _ => []
  | .vshrImm _ => []
  | .vsar _ => []
  | .vsarImm _ => []
  | .vcvt _ => []
  | .vred _ => []
  | .vredX _ => []
  | .vscan _ => []
  | .vscanX _ => []
  | .vbcastScalar o => [o.gs]
  | .vbcastElement _ => []
  | .vext o => [o.gs]
  | .vperm _ => []
  | .vslide _ => []
  | .vclass _ => []
  | .vsplit o => [o.gs]
  | .vjoin _ => []
  | .vpack4 _ => []
  | .vunpk4 _ => []
  | .mmt o => [o.a, o.b, o.bk]
  | .mzero _ => []
  | .mdrain o => [o.a, o.bk]
  | .mdadd o => [o.a, o.bk]
  | .mbrd o => [o.a]
  | .mstat o => [o.d]
  | .cpy o => [o.a, o.bk]
  | .cpys o => [o.a, o.bk]
  | .cpyq o => [o.d]
  | .book o => [o.d, o.a]
  | .bkq o => [o.d, o.a]
  | .bkcan o => [o.a]
  | .bkrel o => [o.a]
  | .spawn o => [o.d, o.a, o.b, 1, 2, 3, 4, 5]
  | .signal o => [o.a]
  | .susp _ => []
  | .exit _ => []
  | .fget o => [o.d, o.a]
  | .fput o => [o.a, o.b]
  | .launch o => [o.d, o.a]
  | .frq o => [o.d, o.a, o.b]
  | .frgate o => [o.a, o.b]
  | .svc _ => []
  | .trap _ => []
  | .brk _ => []
  | .rett o => [o.a]
  | .csrr o => [o.d]
  | .csrw o => [o.d]
  | .lsinv o => [o.d]
  | .nop _ => []
  | .xinv o => [o.a]
  | .asyncFaultTaken _ _ => []
  | .pointFire _ => []
  | .edgeMessage _ => []
  | .gateAddition _ => []
  | .sweepIdAssign _ => []
  | .taskStage _ => []
  | .planeSwap _ => []
  | .spill _ _ => []
  | .decrement _ => []
  | .loadResult _ _ _ => []
  | .postedWriteAck _ _ _ => []
  | .copyComplete _ => []
  | .matrixComplete _ => []
  | .mbrdReady _ => []
  | .lineFill _ _ => []
  | .copyEntry _ => []
  | .chainLoop _ => []
  | .chainIf _ => []
  | .chainTag _ => []
  | .chainEnd _ => []
  | .slotBoundary => []
  | .bookingSearch _ => []
  | .templateRetry _ => []
  | .tentativeHoldExpiry _ => []
  | .seniorHoldExpiry _ => []
  | .postponedExpiry _ => []
  | .deadlinePass _ => []
  | .commitTimeout _ => []
  | .prepareTimeout _ => []
  | .overrun _ _ => []
  | .unbookedOverrun _ _ => []
  | .bookPrepare _ => []
  | .bookGrant _ => []
  | .bookRefuse _ => []
  | .bookCommit _ => []
  | .bookConfirm _ => []
  | .bookAbort _ => []
  | .bookCancel _ => []
  | .bookLost _ => []
  | .walk _ _ _ _ => []
  | .faultPost _ => []
  | .ringPoll _ => []
  | .replyRetry _ _ => []
  | .replyFail _ _ => []
  | .homeAgentAccess _ _ _ _ => []
  | .peerAccess _ _ _ _ => []
  | .migrationCopyEnd _ => []
  | .migrationCopyFail _ => []
  | .unitStop _ _ => []
  | .thermalPoll _ => []
  | .freeze _ => []
  | .freezeSave _ => []
  | .flimKill _ => []
  | .worldSwitch _ _ => []
  | .actionSignal _ => []
  | .actionFput _ => []
  | .actionGate _ => []
  | .actionPost _ => []
  | .completionPost _ _ => []
  | .notify _ _ _ => []
  | .reconcile _ _ => []
  | .sweepCommand _ _ => []
  | .graphCommand _ _ => []
  | .nopCommand _ _ => []
  | .hostRdmaRead _ _ _ => []
  | .hostRdmaWrite _ _ _ => []
  | .hostRdmaAtomic _ _ _ _ _ => []
  | .fwDefine _ _ _ => []
  | .fwTeardown _ _ => []
  | .fwReset _ _ => []
  | .fwSchedule _ _ _ => []
  | .fwHostwin _ _ _ => []
  | .fwSpan _ _ _ _ => []
  | .fwWindow _ _ _ => []
  | .fwMigrate _ _ _ _ => []
  | .fwHalt _ _ => []
  | .fwResume _ _ => []
  | .fwStep _ _ _ _ => []
  | .fwDump _ _ _ _ _ => []
  | .fwLoad _ _ _ _ _ => []
  | .fwCounters _ _ _ => []
  | .fwAttest _ _ _ => []
  | .fwUpdate _ _ _ => []
  | .complexTakeover => []
  | .watchdogTakeover => []
  | .powerOn => []
  | .msgRead _ => []
  | .msgRdata _ => []
  | .msgWrite _ => []
  | .msgAck _ => []
  | .msgAtomic _ => []
  | .msgArsp _ => []
  | .msgMdadd _ => []
  | .msgGate _ => []
  | .msgFaulted _ => []
  | .msgNack _ => []
  | .msgTime _ => []
  | .msgTimeRsp _ => []
  | .timeProbe _ => []
  | .offsetExpiry _ => []
  | .requestRetransmit _ => []
  | .responseExpiry _ => []
  | .tidAllocate _ => []
  | .frameRetransmit _ => []
  | .portDown _ => []
  | .portUp _ => []
  | .kStep _ => []
  | .hostWindowResponse _ _ _ => []
  | .powerOff => []
  | .bootComplete _ => []

/-- The v registers an instruction reads or writes. -/
def Instr.vs (i : Instr) : List (BitVec 5) :=
  match i with
  | .addTri _ => []
  | .addSim _ => []
  | .addLim _ => []
  | .subTri _ => []
  | .subSim _ => []
  | .subLim _ => []
  | .mulTri _ => []
  | .mulSim _ => []
  | .mulLim _ => []
  | .mulhTri _ => []
  | .mulhSim _ => []
  | .mulhLim _ => []
  | .mulhuTri _ => []
  | .mulhuSim _ => []
  | .mulhuLim _ => []
  | .divTri _ => []
  | .divSim _ => []
  | .divLim _ => []
  | .divuTri _ => []
  | .divuSim _ => []
  | .divuLim _ => []
  | .remTri _ => []
  | .remSim _ => []
  | .remLim _ => []
  | .remuTri _ => []
  | .remuSim _ => []
  | .remuLim _ => []
  | .andTri _ => []
  | .andSim _ => []
  | .andLim _ => []
  | .orTri _ => []
  | .orSim _ => []
  | .orLim _ => []
  | .xorTri _ => []
  | .xorSim _ => []
  | .xorLim _ => []
  | .andnTri _ => []
  | .andnSim _ => []
  | .andnLim _ => []
  | .shlTri _ => []
  | .shlSim _ => []
  | .shlLim _ => []
  | .shrTri _ => []
  | .shrSim _ => []
  | .shrLim _ => []
  | .sarTri _ => []
  | .sarSim _ => []
  | .sarLim _ => []
  | .minTri _ => []
  | .minSim _ => []
  | .minLim _ => []
  | .maxTri _ => []
  | .maxSim _ => []
  | .maxLim _ => []
  | .minuTri _ => []
  | .minuSim _ => []
  | .minuLim _ => []
  | .maxuTri _ => []
  | .maxuSim _ => []
  | .maxuLim _ => []
  | .clz _ => []
  | .popc _ => []
  | .mov _ => []
  | .ldiSim _ => []
  | .ldiLim _ => []
  | .ldih _ => []
  | .bfxReg _ => []
  | .bfxImm _ => []
  | .bfxuReg _ => []
  | .bfxuImm _ => []
  | .bfiReg _ => []
  | .bfiImm _ => []
  | .sel _ => []
  | .cmpReg _ => []
  | .cmpImm _ => []
  | .pand _ => []
  | .por _ => []
  | .pxor _ => []
  | .pnot _ => []
  | .mand _ => []
  | .mor _ => []
  | .mxor _ => []
  | .mnot _ => []
  | .br _ => []
  | .jmp _ => []
  | .callRel _ => []
  | .callReg _ => []
  | .ret _ => []
  | .loop _ => []
  | .loopm _ => []
  | .ld _ => []
  | .ldOff _ => []
  | .st _ => []
  | .stOff _ => []
  | .ldsec o => [o.v]
  | .stsec o => [o.v]
  | .amo _ => []
  | .cas _ => []
  | .bput _ => []
  | .fence _ => []
  | .flushp _ => []
  | .shacq _ => []
  | .shrel _ => []
  | .waitReg _ => []
  | .waitImm _ => []
  | .twany _ => []
  | .twall _ => []
  | .tfirst _ => []
  | .tclr _ => []
  | .vld o => [o.v]
  | .vldOff o => [o.v]
  | .vst o => [o.v]
  | .vstOff o => [o.v]
  | .vgath o => [o.v, o.vx]
  | .vscat o => [o.v, o.vx]
  | .vadd o => [o.vd, o.va, o.vb]
  | .vaddX o => [o.vd, o.va, o.vb]
  | .vsub o => [o.vd, o.va, o.vb]
  | .vsubX o => [o.vd, o.va, o.vb]
  | .vmul o => [o.vd, o.va, o.vb]
  | .vmulX o => [o.vd, o.va, o.vb]
  | .vfma o => [o.vd, o.va, o.vb, o.vc]
  | .vfms o => [o.vd, o.va, o.vb, o.vc]
  | .vfnma o => [o.vd, o.va, o.vb, o.vc]
  | .vdiv o => [o.vd, o.va, o.vb]
  | .vdivX o => [o.vd, o.va, o.vb]
  | .vsqrt o => [o.vd, o.va]
  | .vsqrtX o => [o.vd, o.va]
  | .vmin o => [o.vd, o.va, o.vb]
  | .vmax o => [o.vd, o.va, o.vb]
  | .vabs o => [o.vd, o.va]
  | .vabsX o => [o.vd, o.va]
  | .vneg o => [o.vd, o.va]
  | .vnegX o => [o.vd, o.va]
  | .vcmp o => [o.va, o.vb]
  | .vsel o => [o.vd, o.va, o.vb]
  | .vand o => [o.vd, o.va, o.vb]
  | .vandX o => [o.vd, o.va, o.vb]
  | .vor o => [o.vd, o.va, o.vb]
  | .vorX o => [o.vd, o.va, o.vb]
  | .vxor o => [o.vd, o.va, o.vb]
  | .vxorX o => [o.vd, o.va, o.vb]
  | .vshl o => [o.vd, o.va, o.vb]
  | .vshlImm o => [o.vd, o.va]
  | .vshr o => [o.vd, o.va, o.vb]
  | .vshrImm o => [o.vd, o.va]
  | .vsar o => [o.vd, o.va, o.vb]
  | .vsarImm o => [o.vd, o.va]
  | .vcvt o => [o.vd, o.va]
  | .vred o => [o.vd, o.va]
  | .vredX o => [o.vd, o.va]
  | .vscan o => [o.vd, o.va]
  | .vscanX o => [o.vd, o.va]
  | .vbcastScalar o => [o.vd]
  | .vbcastElement o => [o.vd, o.va]
  | .vext o => [o.va]
  | .vperm o => [o.vd, o.va, o.vb]
  | .vslide o => [o.vd, o.va, o.vb]
  | .vclass o => [o.vd, o.va]
  | .vsplit o => [o.vd, o.va, o.vb]
  | .vjoin o => [o.vd, o.va, o.vb, o.vc]
  | .vpack4 o => [o.vd, o.va]
  | .vunpk4 o => [o.vd, o.va]
  | .mmt _ => []
  | .mzero _ => []
  | .mdrain _ => []
  | .mdadd _ => []
  | .mbrd o => [o.v]
  | .mstat _ => []
  | .cpy _ => []
  | .cpys _ => []
  | .cpyq _ => []
  | .book _ => []
  | .bkq _ => []
  | .bkcan _ => []
  | .bkrel _ => []
  | .spawn _ => []
  | .signal _ => []
  | .susp _ => []
  | .exit _ => []
  | .fget _ => []
  | .fput _ => []
  | .launch _ => []
  | .frq _ => []
  | .frgate _ => []
  | .svc _ => []
  | .trap _ => []
  | .brk _ => []
  | .rett _ => []
  | .csrr _ => []
  | .csrw _ => []
  | .lsinv _ => []
  | .nop _ => []
  | .xinv _ => []
  | .asyncFaultTaken _ _ => []
  | .pointFire _ => []
  | .edgeMessage _ => []
  | .gateAddition _ => []
  | .sweepIdAssign _ => []
  | .taskStage _ => []
  | .planeSwap _ => []
  | .spill _ _ => []
  | .decrement _ => []
  | .loadResult _ _ _ => []
  | .postedWriteAck _ _ _ => []
  | .copyComplete _ => []
  | .matrixComplete _ => []
  | .mbrdReady _ => []
  | .lineFill _ _ => []
  | .copyEntry _ => []
  | .chainLoop _ => []
  | .chainIf _ => []
  | .chainTag _ => []
  | .chainEnd _ => []
  | .slotBoundary => []
  | .bookingSearch _ => []
  | .templateRetry _ => []
  | .tentativeHoldExpiry _ => []
  | .seniorHoldExpiry _ => []
  | .postponedExpiry _ => []
  | .deadlinePass _ => []
  | .commitTimeout _ => []
  | .prepareTimeout _ => []
  | .overrun _ _ => []
  | .unbookedOverrun _ _ => []
  | .bookPrepare _ => []
  | .bookGrant _ => []
  | .bookRefuse _ => []
  | .bookCommit _ => []
  | .bookConfirm _ => []
  | .bookAbort _ => []
  | .bookCancel _ => []
  | .bookLost _ => []
  | .walk _ _ _ _ => []
  | .faultPost _ => []
  | .ringPoll _ => []
  | .replyRetry _ _ => []
  | .replyFail _ _ => []
  | .homeAgentAccess _ _ _ _ => []
  | .peerAccess _ _ _ _ => []
  | .migrationCopyEnd _ => []
  | .migrationCopyFail _ => []
  | .unitStop _ _ => []
  | .thermalPoll _ => []
  | .freeze _ => []
  | .freezeSave _ => []
  | .flimKill _ => []
  | .worldSwitch _ _ => []
  | .actionSignal _ => []
  | .actionFput _ => []
  | .actionGate _ => []
  | .actionPost _ => []
  | .completionPost _ _ => []
  | .notify _ _ _ => []
  | .reconcile _ _ => []
  | .sweepCommand _ _ => []
  | .graphCommand _ _ => []
  | .nopCommand _ _ => []
  | .hostRdmaRead _ _ _ => []
  | .hostRdmaWrite _ _ _ => []
  | .hostRdmaAtomic _ _ _ _ _ => []
  | .fwDefine _ _ _ => []
  | .fwTeardown _ _ => []
  | .fwReset _ _ => []
  | .fwSchedule _ _ _ => []
  | .fwHostwin _ _ _ => []
  | .fwSpan _ _ _ _ => []
  | .fwWindow _ _ _ => []
  | .fwMigrate _ _ _ _ => []
  | .fwHalt _ _ => []
  | .fwResume _ _ => []
  | .fwStep _ _ _ _ => []
  | .fwDump _ _ _ _ _ => []
  | .fwLoad _ _ _ _ _ => []
  | .fwCounters _ _ _ => []
  | .fwAttest _ _ _ => []
  | .fwUpdate _ _ _ => []
  | .complexTakeover => []
  | .watchdogTakeover => []
  | .powerOn => []
  | .msgRead _ => []
  | .msgRdata _ => []
  | .msgWrite _ => []
  | .msgAck _ => []
  | .msgAtomic _ => []
  | .msgArsp _ => []
  | .msgMdadd _ => []
  | .msgGate _ => []
  | .msgFaulted _ => []
  | .msgNack _ => []
  | .msgTime _ => []
  | .msgTimeRsp _ => []
  | .timeProbe _ => []
  | .offsetExpiry _ => []
  | .requestRetransmit _ => []
  | .responseExpiry _ => []
  | .tidAllocate _ => []
  | .frameRetransmit _ => []
  | .portDown _ => []
  | .portUp _ => []
  | .kStep _ => []
  | .hostWindowResponse _ _ _ => []
  | .powerOff => []
  | .bootComplete _ => []

end Sys2Proof
end

