-- ==== Sys2Proof/Machine/Issue.lean ====
section
/-! DEFINITION. One turn of a core: the line and word that its active plane executes next, what stands in its way, and the
instruction it then runs (spec/05_core.md R90, R99, R106 to R108, spec/06_encoding.md R109 to R116, spec/12_translation.md
R246, spec/14_traps_preemption.md R280, R292). -/

namespace Sys2Proof.Machine

/-- What the next fetch of a plane comes to: a line passed over (the plane after it), a line to be filled, a trap (cause,
`sr.epc`, and `sr.tval` if the spec names one), or the words of the instruction at its pc. -/
inductive Fetched where
  | move (x : Plane)
  | fill (line : Word)
  | trap (code : Nat) (epc : Word) (tval : Option Word)
  | instr (w0 w1 : IWord) (n : Nat)
  deriving DecidableEq, Repr

/-- What a loop makes of the line at `line` with link word `k`, entered at word 1: `none` where the line executes. -/
def Plane.enterBody (x : Plane) (line : Word) (k : IWord) : Option Fetched :=
  if linkL k && x.loop.mod && decide (x.loop.ns.toNat < linkStg k) then some (.trap cILLEGAL (line + 4) (some (k.setWidth 64)))
  else (x.passOver line k).map .move

/-- What a line that stands in the line store gives at the plane's pc (R110 to R112). Where a line is not well formed and something else is
wrong too, a stage of R108 comes first, and then the line's FETCH at its address + 4 (notes/assumptions/91.md). -/
def Plane.fetchWord (x : Plane) (l : Line) : Fetched :=
  let k := l.word 0
  let line := lineOf x.pc
  let w := wordIdx x.pc
  match (if w = 1 && x.loop.inBody then x.enterBody line k else none) with
  | some f => f
  | none =>
    if !l.wellFormed then .trap cFETCH (line + 4) none
    else if linkCnt k = 0 && w = 1 then
      (if linkEnd k && !x.loop.inBody then .trap cFETCH (line + 4) none else .move (x.lineEnd line k))
    else if linkCnt k < w then .trap cFETCH x.pc none
    else if isPair (l.word w) then
      (if w = linkCnt k then .trap cFETCH x.pc none else .instr (l.word w) (l.word (w + 1)) 2)
    else .instr (l.word w) 0 1

/-- The next fetch of the executing plane. Line 0 is never fetched, however execution came to it: FETCH at its word 1
(notes/assumptions/91.md). -/
def State.fetched (s : State) : Fetched :=
  let x := s.pl
  if x.pc &&& 3 != 0 || wordIdx x.pc == 0 || lineOf x.pc == 0 || !(inHbmWindow x.pc) then .trap cFETCH x.pc none
  else
    match s.lineAt s.fc s.fp with
    | none => .fill (lineOf x.pc)
    | some l => x.fetchWord l

/-- The fault kind and VA of a failed lane. -/
def LaneSt.failure (l : LaneSt) : Option (Nat × Word) :=
  match l with | .failed k va => some (k, va) | .waiting _ => none | .retry => none

/-- The fault kind and VA of a failed element. -/
def Elem.failure (e : Elem) : Option (Nat × Word) :=
  match e.st with | .failed k => some (k, e.va) | _ => none

/-- A failed lane of the plane's task (R246), the lowest first: its fault kind, its VA and the instruction's address. -/
def State.failedLane (s : State) : Option (Nat × Word × Word) :=
  let kept : Option (Nat × Word) := match s.curTask with
    | some t => t.lanes.findSome? fun e => e.2.failure
    | none => none
  match kept with
  | some (k, va) => some (k, va, s.pl.pc)
  | none => s.pl.acc.findSome? fun (a : Access) => (a.elems.findSome? Elem.failure).map fun f => (f.1, f.2, a.pc)

/-- The failed elements of a task's accesses are gone. -/
def Access.live (a : Access) : Access := { a with elems := a.elems.filter fun e => e.failure.isNone }

/-- A failed lane raises its trap at the parked instruction (R246); an access with no element left leaves its count (R102). INTEGRITY names
the block (spec/13_virry.md R265). -/
def State.laneTrap (s : State) (kind : Nat) (va epc : Word) : State :=
  let s := s.modPl fun x => { x with acc := x.acc.map Access.live }
  let s := (s.pl.acc.filter fun a => a.elems.isEmpty).foldl (fun s a => s.modPl fun x => x.dropAccess a) s
  s.fetchTrap s.fc s.fp (causeOfKind kind) epc (if kind = 16 then va &&& ~~~63#64 else va)

/-- Some access of the plane is not resolved: nothing further issues (R241). -/
def State.stalled (s : State) : Bool := s.pl.acc.any s.unresolved

/-- An atomic of the plane that a page migration holds (R253). -/
def State.heldAtomic (s : State) : Option Nat :=
  (s.pl.acc.find? fun a => !a.kind.isStore && (a.elems.zipIdx).any fun e => s.hbm.holdsElem s.fc s.fp.toNat a.id e.2).map (·.id)

/-- The line at the executing plane's pc has been fetched: it counts as used, and where it does not end in a transfer its next line is fetched
too (R99, R111). -/
def State.useFetched (s : State) : State :=
  match s.lineAt s.fc s.fp with
  | none => s
  | some l =>
    let s := s.modCore s.fc fun k => k.useLine l
    if linkE (l.word 0) then s else s.wantLine s.fc (s.vdOf s.fc s.fp) (lineOf (s.pl.lineEnd (lineOf s.pl.pc) (l.word 0)).pc)

/-- The plane may not issue: its task is not ACTIVE, its VD's halt line reached it, or its one stepped instruction has issued. -/
def State.mute (s : State) (t : Task) : Bool :=
  t.state != .active || s.planeStopped s.fc s.fp || s.pl.trap.isSome ||
  (s.pl.stepping && (match s.vd t.vd with | some d => d.step != some (s.fc, s.fp.toNat) | none => true))

/-- After an instruction that neither holds nor parks: a replayed instruction's lanes are done with (R242). -/
def State.replayed (s : State) (c : Nat) (p : BitVec 1) (key : Nat) : State :=
  match s.task key with
  | none => s
  | some t =>
    if t.state != .active || (s.plane c p).hold.isSome then s
    else
      let s := if t.lanes.isEmpty then s else s.modTask key fun t => { t with lanes := [] }
      s.modPlane c p fun x => if x.park == some .again then { x with park := none } else x

/-- The registers among `gs` that await a result from outside the core's own windows: waiting for one is a hold, for any other a stall
(R91). -/
def Plane.awayG (x : Plane) (gs : List (BitVec 6)) : List (BitVec 6) :=
  gs.filter fun r => r != 0 && x.acc.any fun a => a.kind.destG == some r && !(a.elems.all Elem.own)

/-- The v registers among `vs` of that kind; a matrix engine's result is one (R22). -/
def Plane.awayV (x : Plane) (k : Core) (vs : List (BitVec 5)) : List (BitVec 5) :=
  vs.filter fun r => (x.acc.any fun a => a.kind.destV == some r && !(a.elems.all Elem.own)) ||
    (match x.task with | some t => (k.mbrdDests t).contains r | none => false)

/-- The instruction with words `w0`, `w1` runs (R116): never-guard, decode, ILLEGAL, registers that await results, meaning. A stall
leaves the plane as it is (R91). -/
def State.runWords (s : State) (run : Instr → State → Out) (key : Nat) (w0 w1 : IWord) (n : Nat) : Out :=
  let t := (s.stepUsed s.curVd).modTask key fun t => { t with st := true }
  if guardOf w0 = 8 then .next (t.advance n)
  else
    match decode w0 w1 with
    | .error _ => .next (t.trap cILLEGAL (w0.setWidth 64))
    | .ok i =>
      if !(wellFormed i) then .next (t.trap cILLEGAL (w0.setWidth 64))
      else
        let gs := i.gs.filter s.pl.busyG
        let vs := i.vs.filter (s.pl.busyV (s.core s.fc))
        if gs.isEmpty && vs.isEmpty then
          match run i t with
          | .next t => .next (t.replayed s.fc s.fp key)
          | .fault f => .fault f
          | .refused r => .refused r
        else if (s.pl.awayG gs).isEmpty && (s.pl.awayV (s.core s.fc) vs).isEmpty then .next s
        else .next (t.holdOn (.regs (s.pl.awayG gs) (s.pl.awayV (s.core s.fc) vs)))

/-- The executing plane's task goes on by one line or one instruction. -/
def State.issueTask (s : State) (run : Instr → State → Out) (t : Task) : Out :=
  let key := taskKey t.vd t.idx
  match s.failedLane with
  | some (kind, va, epc) => .next ((s.stepUsed t.vd).laneTrap kind va epc)
  | none =>
    match s.heldAtomic with
    | some id => .next (s.holdOn (.accs [id] 0))
    | none =>
      if s.stalled then .next s
      else
        match s.fetched with
        | .move x => .next (s.useFetched.modPl fun _ => x)
        | .fill line => .next (s.holdOn (.fill line))
        | .trap code epc tval =>
          if !t.faults.isEmpty then .next ((s.stepUsed t.vd).takeAsync s.fc s.fp)
          else
            .next ((s.stepUsed t.vd).bump.fetchTrap s.fc s.fp code epc (tval.getD (Config.freeWord s.freeCtr)))
        | .instr w0 w1 n =>
          let s := s.useFetched
          match s.pl.park with
          | some (.access _) => .next ((s.modPl fun x => { x with park := none }).advance n)
          | _ =>
            if !t.faults.isEmpty then .next ((s.stepUsed t.vd).takeAsync s.fc s.fp)
            else s.runWords run key w0 w1 n

/-- A turn of the core in focus (R90). -/
def State.issueWith (s : State) (run : Instr → State → Out) : Out :=
  if s.power != .run then .next s
  else
    match s.curTask with
    | none => .next s
    | some t => if s.mute t then .next s else s.issueTask run t

/-- A device event of the agenda; an instruction is no event. -/
def State.eventWith (s : State) (run : Instr → State → Out) (e : Instr) : Out :=
  if (encode e).isSome then .next s else run e s

/-- What comes after a step: what can perform at the cores performs, every plane is settled. -/
def Out.settled (o : Out) : Out :=
  match o with
  | .next s => .next s.pumpAll.settleMaps.settle
  | .fault f => .fault f
  | .refused r => .refused r

/-! ### Where a test puts an instruction -/

/-- The VD that runs a placed instruction: VD 0 with hank 0, its fields 0. -/
def placedVd : Vd :=
  { d := { hanks := [0], sched := [], s1root := 0, frames := [], quotas := [], poolBase := 64, poolCount := 64, tvec := 64,
           tra := 8192, stat := 0, spb := 16384, nslot := 32, lmax := 128, fcb := 0, lgn := 4, rqb := 0, rpb := 0, pfut := 0,
           hnot := 0, qcb := 0, csa := 0, shadow := [], fpen := 0x100, flim := 65536, locks := 0, pmode := false, hmode := 0,
           sctrap := false, ceil := 4, brkHalt := false, dbg := false }
    run := true, gen := 0, s2root := 0, queues := [], rqt := 0, rpt := 0, rph := 0, cnt := [], ord := 0, stats := [],
    hostw := [], span := [], halt := none, freeze := none, unsave := false, charged := [], debt := [], savedTasks := [], retmpl := [],
    step := none }

/-- The line of a placed instruction: the link word, and word 1, or words 1 and 2 of a pair (R109, R112). -/
def placedLine (w0 w1 : IWord) : Line :=
  let n : BitVec 4 := if isPair w0 then 2 else 1
  { vd := 0, addr := 4096,
    words := [(0 : BitVec 2) ++ n ++ BitVec.ofBool (!(isPair w0) && isTransfer w0) ++ (0 : BitVec 3) ++ (1 : BitVec 22), w0, w1] }

/-- A state whose next turn runs the instruction with words `w0` and `w1`: the package in RUN, VD 0, its task ACTIVE in plane 0 of
core 0 at word 1 of a line that the line store holds (notes/assumptions/9.md). -/
def State.withWords (s : State) (w0 w1 : IWord) : State :=
  let s := { s with power := .run, focus := 0, agenda := [], vds := tset s.vds 0 placedVd }
  let t : Task := { Task.fresh 0 0 1 0 0 0 0xFFF#12 0 1 with state := .active }
  let s := s.modFr fun f => { f with tasks := tset f.tasks 0 t }
  s.modCore 0 fun k =>
    { k with act := 0, p0 := { Plane.reset with task := some 0, pc := 4100, rows := 1, sr := { Sr.reset with fpen := 0x100 } },
             lines := [placedLine w0 w1] }

end Sys2Proof.Machine
end

