-- ==== Sys2Proof/Machine/Step.lean ====
section
/-! DEFINITION. One step of the machine: the next turn of the agenda, or a turn of the core in focus. -/

namespace Sys2Proof.Machine

/-- One step (notes/assumptions/1.md, 2.md): the head of the agenda, a core's turn or a device event; with an empty agenda, a
turn of the core in focus. -/
def step (s : State) : Host.Outcome State Fault Refusal :=
  match s.agenda with
  | [] => (s.issueWith exec).settled
  | .issue c :: rest => (State.issueWith { s with agenda := rest, focus := c } exec).settled
  | .event e :: rest => (State.eventWith { s with agenda := rest } exec e).settled

/-- `s` with the instruction whose bits are `w` where the next step fetches it: word 0 is bits [31:0], word 1 bits [63:32]. -/
def State.withFetchWord (s : State) (_nbits w : Nat) : State :=
  s.withWords (BitVec.ofNat 32 w) (BitVec.ofNat 32 (w / 4294967296))

end Sys2Proof.Machine
end

