-- ==== Sys2Proof/Laws/Encoding.lean ====
section
/-! SUPPORT. Laws of the encoding: for each format the opcode and X of its words, and that its decoder gives back the
fields its encoder laid out (spec/06_encoding.md R114 to R129). -/

namespace Sys2Proof.Laws.Encoding

/-- A field that lies above the lower part. -/
theorem hi {v w s l : Nat} {x : BitVec v} {y : BitVec w} {z : BitVec l} (h : w ≤ s) (e : BitVec.extractLsb' (s - w) l x = z) :
    BitVec.extractLsb' s l (x ++ y) = z := (BitVec.extractLsb'_append_eq_of_le h).trans e

/-- A field that lies in the lower part. -/
theorem lo {v w s l : Nat} {x : BitVec v} {y : BitVec w} {z : BitVec l} (h : s + l ≤ w) (e : BitVec.extractLsb' s l y = z) :
    BitVec.extractLsb' s l (x ++ y) = z := (BitVec.extractLsb'_append_eq_of_add_le h).trans e

/-- A field that is all of its part. -/
theorem rfl' {w : Nat} (x : BitVec w) : BitVec.extractLsb' 0 w x = x := BitVec.extractLsb'_eq_self

/-! ### Tri -/

/-- The opcode of format Tri. -/
theorem opTri (op : BitVec 7) (o : Tri) : fld (encTri op o).1 25 7 = op := by
  unfold encTri fld
  repeat first | exact rfl' _ | refine hi (by decide) ?_ | refine lo (by decide) ?_ | rfl

/-- X of format Tri. -/
theorem xTri (op : BitVec 7) (o : Tri) : fld (encTri op o).1 4 1 = 0#1 := by
  unfold encTri fld
  repeat first | exact rfl' _ | refine hi (by decide) ?_ | refine lo (by decide) ?_ | rfl

/-- The decoder of format Tri gives back what its encoder laid out. -/
theorem decTri_enc (op : BitVec 7) (o : Tri) : decTri (encTri op o).1 = some o := by
  have h : fld (encTri op o).1 0 4 = o.g ∧ fld (encTri op o).1 5 1 = o.w ∧ fld (encTri op o).1 6 1 = 0#1 ∧ fld (encTri op o).1 7 6 = o.b ∧ fld (encTri op o).1 13 6 = o.a ∧ fld (encTri op o).1 19 6 = o.d := by
    refine ⟨?_, ?_, ?_, ?_, ?_, ?_⟩ <;> unfold encTri fld <;>
    (repeat first | exact rfl' _ | refine hi (by decide) ?_ | refine lo (by decide) ?_ | rfl)
  simp [decTri, h]

/-! ### Sim -/

/-- The opcode of format Sim. -/
theorem opSim (op : BitVec 7) (o : Sim) : fld (encSim op o).1 25 7 = op := by
  unfold encSim fld
  repeat first | exact rfl' _ | refine hi (by decide) ?_ | refine lo (by decide) ?_ | rfl

/-- X of format Sim. -/
theorem xSim (op : BitVec 7) (o : Sim) : fld (encSim op o).1 4 1 = 0#1 := by
  unfold encSim fld
  repeat first | exact rfl' _ | refine hi (by decide) ?_ | refine lo (by decide) ?_ | rfl

/-- The decoder of format Sim gives back what its encoder laid out. -/
theorem decSim_enc (op : BitVec 7) (o : Sim) : decSim (encSim op o).1 = some o := by
  have h : fld (encSim op o).1 0 4 = o.g ∧ fld (encSim op o).1 5 1 = o.w ∧ fld (encSim op o).1 6 1 = 1#1 ∧ fld (encSim op o).1 7 12 = o.imm ∧ fld (encSim op o).1 19 6 = o.d := by
    refine ⟨?_, ?_, ?_, ?_, ?_⟩ <;> unfold encSim fld <;>
    (repeat first | exact rfl' _ | refine hi (by decide) ?_ | refine lo (by decide) ?_ | rfl)
  simp [decSim, h]

/-! ### Lim -/

/-- The opcode of format Lim. -/
theorem opLim (op : BitVec 7) (o : Lim) : fld (encLim op o).1 25 7 = op := by
  unfold encLim fld
  repeat first | exact rfl' _ | refine hi (by decide) ?_ | refine lo (by decide) ?_ | rfl

/-- X of format Lim. -/
theorem xLim (op : BitVec 7) (o : Lim) : fld (encLim op o).1 4 1 = 1#1 := by
  unfold encLim fld
  repeat first | exact rfl' _ | refine hi (by decide) ?_ | refine lo (by decide) ?_ | rfl

/-- The decoder of format Lim gives back what its encoder laid out. -/
theorem decLim_enc (op : BitVec 7) (o : Lim) : decLim (encLim op o).1 ((encLim op o).2.getD 0#32) = some o := by
  have h : fld (encLim op o).1 0 4 = o.g ∧ fld (encLim op o).1 5 1 = o.w ∧ fld (encLim op o).1 6 1 = 1#1 ∧ fld (encLim op o).1 7 6 = 0#6 ∧ fld (encLim op o).1 13 6 = o.a ∧ fld (encLim op o).1 19 6 = o.d := by
    refine ⟨?_, ?_, ?_, ?_, ?_, ?_⟩ <;> unfold encLim fld <;>
    (repeat first | exact rfl' _ | refine hi (by decide) ?_ | refine lo (by decide) ?_ | rfl)
  have h1 : ((encLim op o).2.getD 0#32) = o.imm := rfl
  simp [decLim, h, h1]

/-! ### Un -/

/-- The opcode of format Un. -/
theorem opUn (op : BitVec 7) (o : Un) : fld (encUn op o).1 25 7 = op := by
  unfold encUn fld
  repeat first | exact rfl' _ | refine hi (by decide) ?_ | refine lo (by decide) ?_ | rfl

/-- X of format Un. -/
theorem xUn (op : BitVec 7) (o : Un) : fld (encUn op o).1 4 1 = 0#1 := by
  unfold encUn fld
  repeat first | exact rfl' _ | refine hi (by decide) ?_ | refine lo (by decide) ?_ | rfl

/-- The decoder of format Un gives back what its encoder laid out. -/
theorem decUn_enc (op : BitVec 7) (o : Un) : decUn (encUn op o).1 = some o := by
  have h : fld (encUn op o).1 0 4 = o.g ∧ fld (encUn op o).1 5 1 = o.w ∧ fld (encUn op o).1 6 1 = 0#1 ∧ fld (encUn op o).1 7 6 = 0#6 ∧ fld (encUn op o).1 13 6 = o.a ∧ fld (encUn op o).1 19 6 = o.d := by
    refine ⟨?_, ?_, ?_, ?_, ?_, ?_⟩ <;> unfold encUn fld <;>
    (repeat first | exact rfl' _ | refine hi (by decide) ?_ | refine lo (by decide) ?_ | rfl)
  simp [decUn, h]

/-! ### LdiS -/

/-- The opcode of format LdiS. -/
theorem opLdiS (op : BitVec 7) (o : LdiS) : fld (encLdiS op o).1 25 7 = op := by
  unfold encLdiS fld
  repeat first | exact rfl' _ | refine hi (by decide) ?_ | refine lo (by decide) ?_ | rfl

/-- X of format LdiS. -/
theorem xLdiS (op : BitVec 7) (o : LdiS) : fld (encLdiS op o).1 4 1 = 0#1 := by
  unfold encLdiS fld
  repeat first | exact rfl' _ | refine hi (by decide) ?_ | refine lo (by decide) ?_ | rfl

/-- The decoder of format LdiS gives back what its encoder laid out. -/
theorem decLdiS_enc (op : BitVec 7) (o : LdiS) : decLdiS (encLdiS op o).1 = some o := by
  have h : fld (encLdiS op o).1 0 4 = o.g ∧ fld (encLdiS op o).1 5 2 = 2#2 ∧ fld (encLdiS op o).1 7 12 = o.imm ∧ fld (encLdiS op o).1 19 6 = o.d := by
    refine ⟨?_, ?_, ?_, ?_⟩ <;> unfold encLdiS fld <;>
    (repeat first | exact rfl' _ | refine hi (by decide) ?_ | refine lo (by decide) ?_ | rfl)
  simp [decLdiS, h]

/-! ### LdiL -/

/-- The opcode of format LdiL. -/
theorem opLdiL (op : BitVec 7) (o : LdiL) : fld (encLdiL op o).1 25 7 = op := by
  unfold encLdiL fld
  repeat first | exact rfl' _ | refine hi (by decide) ?_ | refine lo (by decide) ?_ | rfl

/-- X of format LdiL. -/
theorem xLdiL (op : BitVec 7) (o : LdiL) : fld (encLdiL op o).1 4 1 = 1#1 := by
  unfold encLdiL fld
  repeat first | exact rfl' _ | refine hi (by decide) ?_ | refine lo (by decide) ?_ | rfl

/-- The decoder of format LdiL gives back what its encoder laid out. -/
theorem decLdiL_enc (op : BitVec 7) (o : LdiL) : decLdiL (encLdiL op o).1 ((encLdiL op o).2.getD 0#32) = some o := by
  have h : fld (encLdiL op o).1 0 4 = o.g ∧ fld (encLdiL op o).1 5 2 = 2#2 ∧ fld (encLdiL op o).1 7 12 = 0#12 ∧ fld (encLdiL op o).1 19 6 = o.d := by
    refine ⟨?_, ?_, ?_, ?_⟩ <;> unfold encLdiL fld <;>
    (repeat first | exact rfl' _ | refine hi (by decide) ?_ | refine lo (by decide) ?_ | rfl)
  have h1 : ((encLdiL op o).2.getD 0#32) = o.imm := rfl
  simp [decLdiL, h, h1]

/-! ### BfR -/

/-- The opcode of format BfR. -/
theorem opBfR (op : BitVec 7) (o : BfR) : fld (encBfR op o).1 25 7 = op := by
  unfold encBfR fld
  repeat first | exact rfl' _ | refine hi (by decide) ?_ | refine lo (by decide) ?_ | rfl

/-- X of format BfR. -/
theorem xBfR (op : BitVec 7) (o : BfR) : fld (encBfR op o).1 4 1 = 0#1 := by
  unfold encBfR fld
  repeat first | exact rfl' _ | refine hi (by decide) ?_ | refine lo (by decide) ?_ | rfl

/-- The decoder of format BfR gives back what its encoder laid out. -/
theorem decBfR_enc (op : BitVec 7) (o : BfR) : decBfR (encBfR op o).1 = some o := by
  have h : fld (encBfR op o).1 0 4 = o.g ∧ fld (encBfR op o).1 5 2 = 0#2 ∧ fld (encBfR op o).1 7 6 = o.b ∧ fld (encBfR op o).1 13 6 = o.a ∧ fld (encBfR op o).1 19 6 = o.d := by
    refine ⟨?_, ?_, ?_, ?_, ?_⟩ <;> unfold encBfR fld <;>
    (repeat first | exact rfl' _ | refine hi (by decide) ?_ | refine lo (by decide) ?_ | rfl)
  simp [decBfR, h]

/-! ### BfI -/

/-- The opcode of format BfI. -/
theorem opBfI (op : BitVec 7) (o : BfI) : fld (encBfI op o).1 25 7 = op := by
  unfold encBfI fld
  repeat first | exact rfl' _ | refine hi (by decide) ?_ | refine lo (by decide) ?_ | rfl

/-- X of format BfI. -/
theorem xBfI (op : BitVec 7) (o : BfI) : fld (encBfI op o).1 4 1 = 1#1 := by
  unfold encBfI fld
  repeat first | exact rfl' _ | refine hi (by decide) ?_ | refine lo (by decide) ?_ | rfl

/-- The decoder of format BfI gives back what its encoder laid out. -/
theorem decBfI_enc (op : BitVec 7) (o : BfI) : decBfI (encBfI op o).1 ((encBfI op o).2.getD 0#32) = some o := by
  have h : fld (encBfI op o).1 0 4 = o.g ∧ fld (encBfI op o).1 5 2 = 2#2 ∧ fld (encBfI op o).1 7 6 = 0#6 ∧ fld (encBfI op o).1 13 6 = o.a ∧ fld (encBfI op o).1 19 6 = o.d ∧ fld ((encBfI op o).2.getD 0#32) 0 6 = o.pos ∧ fld ((encBfI op o).2.getD 0#32) 6 6 = o.len ∧ fld ((encBfI op o).2.getD 0#32) 12 20 = 0#20 := by
    refine ⟨?_, ?_, ?_, ?_, ?_, ?_, ?_, ?_⟩ <;> unfold encBfI fld <;>
    (repeat first | exact rfl' _ | refine hi (by decide) ?_ | refine lo (by decide) ?_ | rfl)
  simp [decBfI, h]

/-! ### Sel -/

/-- The opcode of format Sel. -/
theorem opSel (op : BitVec 7) (o : Sel) : fld (encSel op o).1 25 7 = op := by
  unfold encSel fld
  repeat first | exact rfl' _ | refine hi (by decide) ?_ | refine lo (by decide) ?_ | rfl

/-- X of format Sel. -/
theorem xSel (op : BitVec 7) (o : Sel) : fld (encSel op o).1 4 1 = 1#1 := by
  unfold encSel fld
  repeat first | exact rfl' _ | refine hi (by decide) ?_ | refine lo (by decide) ?_ | rfl

/-- The decoder of format Sel gives back what its encoder laid out. -/
theorem decSel_enc (op : BitVec 7) (o : Sel) : decSel (encSel op o).1 ((encSel op o).2.getD 0#32) = some o := by
  have h : fld (encSel op o).1 0 4 = o.g ∧ fld (encSel op o).1 5 2 = 0#2 ∧ fld (encSel op o).1 7 6 = o.b ∧ fld (encSel op o).1 13 6 = o.a ∧ fld (encSel op o).1 19 6 = o.d ∧ fld ((encSel op o).2.getD 0#32) 0 4 = o.sp ∧ fld ((encSel op o).2.getD 0#32) 4 28 = 0#28 := by
    refine ⟨?_, ?_, ?_, ?_, ?_, ?_, ?_⟩ <;> unfold encSel fld <;>
    (repeat first | exact rfl' _ | refine hi (by decide) ?_ | refine lo (by decide) ?_ | rfl)
  simp [decSel, h]

/-! ### CmpR -/

/-- The opcode of format CmpR. -/
theorem opCmpR (op : BitVec 7) (o : CmpR) : fld (encCmpR op o).1 25 7 = op := by
  unfold encCmpR fld
  repeat first | exact rfl' _ | refine hi (by decide) ?_ | refine lo (by decide) ?_ | rfl

/-- X of format CmpR. -/
theorem xCmpR (op : BitVec 7) (o : CmpR) : fld (encCmpR op o).1 4 1 = 0#1 := by
  unfold encCmpR fld
  repeat first | exact rfl' _ | refine hi (by decide) ?_ | refine lo (by decide) ?_ | rfl

/-- The decoder of format CmpR gives back what its encoder laid out. -/
theorem decCmpR_enc (op : BitVec 7) (o : CmpR) : decCmpR (encCmpR op o).1 = some o := by
  have h : fld (encCmpR op o).1 0 4 = o.g ∧ fld (encCmpR op o).1 5 2 = o.cc ∧ fld (encCmpR op o).1 7 6 = o.b ∧ fld (encCmpR op o).1 13 6 = o.a ∧ fld (encCmpR op o).1 19 3 = o.pq ∧ fld (encCmpR op o).1 22 3 = o.pd := by
    refine ⟨?_, ?_, ?_, ?_, ?_, ?_⟩ <;> unfold encCmpR fld <;>
    (repeat first | exact rfl' _ | refine hi (by decide) ?_ | refine lo (by decide) ?_ | rfl)
  simp [decCmpR, h]

/-! ### CmpI -/

/-- The opcode of format CmpI. -/
theorem opCmpI (op : BitVec 7) (o : CmpI) : fld (encCmpI op o).1 25 7 = op := by
  unfold encCmpI fld
  repeat first | exact rfl' _ | refine hi (by decide) ?_ | refine lo (by decide) ?_ | rfl

/-- X of format CmpI. -/
theorem xCmpI (op : BitVec 7) (o : CmpI) : fld (encCmpI op o).1 4 1 = 1#1 := by
  unfold encCmpI fld
  repeat first | exact rfl' _ | refine hi (by decide) ?_ | refine lo (by decide) ?_ | rfl

/-- The decoder of format CmpI gives back what its encoder laid out. -/
theorem decCmpI_enc (op : BitVec 7) (o : CmpI) : decCmpI (encCmpI op o).1 ((encCmpI op o).2.getD 0#32) = some o := by
  have h : fld (encCmpI op o).1 0 4 = o.g ∧ fld (encCmpI op o).1 5 2 = o.cc ∧ fld (encCmpI op o).1 7 6 = 0#6 ∧ fld (encCmpI op o).1 13 6 = o.a ∧ fld (encCmpI op o).1 19 3 = o.pq ∧ fld (encCmpI op o).1 22 3 = o.pd := by
    refine ⟨?_, ?_, ?_, ?_, ?_, ?_⟩ <;> unfold encCmpI fld <;>
    (repeat first | exact rfl' _ | refine hi (by decide) ?_ | refine lo (by decide) ?_ | rfl)
  have h1 : ((encCmpI op o).2.getD 0#32) = o.imm := rfl
  simp [decCmpI, h, h1]

/-! ### Log -/

/-- The opcode of format Log. -/
theorem opLog (op : BitVec 7) (o : Log) : fld (encLog op o).1 25 7 = op := by
  unfold encLog fld
  repeat first | exact rfl' _ | refine hi (by decide) ?_ | refine lo (by decide) ?_ | rfl

/-- X of format Log. -/
theorem xLog (op : BitVec 7) (o : Log) : fld (encLog op o).1 4 1 = 0#1 := by
  unfold encLog fld
  repeat first | exact rfl' _ | refine hi (by decide) ?_ | refine lo (by decide) ?_ | rfl

/-- The decoder of format Log gives back what its encoder laid out. -/
theorem decLog_enc (op : BitVec 7) (o : Log) : decLog (encLog op o).1 = some o := by
  have h : fld (encLog op o).1 0 4 = o.g ∧ fld (encLog op o).1 5 9 = 0#9 ∧ fld (encLog op o).1 14 1 = o.nb ∧ fld (encLog op o).1 15 1 = o.na ∧ fld (encLog op o).1 16 3 = o.b ∧ fld (encLog op o).1 19 3 = o.a ∧ fld (encLog op o).1 22 3 = o.d := by
    refine ⟨?_, ?_, ?_, ?_, ?_, ?_, ?_⟩ <;> unfold encLog fld <;>
    (repeat first | exact rfl' _ | refine hi (by decide) ?_ | refine lo (by decide) ?_ | rfl)
  simp [decLog, h]

/-! ### LogN -/

/-- The opcode of format LogN. -/
theorem opLogN (op : BitVec 7) (o : LogN) : fld (encLogN op o).1 25 7 = op := by
  unfold encLogN fld
  repeat first | exact rfl' _ | refine hi (by decide) ?_ | refine lo (by decide) ?_ | rfl

/-- X of format LogN. -/
theorem xLogN (op : BitVec 7) (o : LogN) : fld (encLogN op o).1 4 1 = 0#1 := by
  unfold encLogN fld
  repeat first | exact rfl' _ | refine hi (by decide) ?_ | refine lo (by decide) ?_ | rfl

/-- The decoder of format LogN gives back what its encoder laid out. -/
theorem decLogN_enc (op : BitVec 7) (o : LogN) : decLogN (encLogN op o).1 = some o := by
  have h : fld (encLogN op o).1 0 4 = o.g ∧ fld (encLogN op o).1 5 14 = 0#14 ∧ fld (encLogN op o).1 19 3 = o.a ∧ fld (encLogN op o).1 22 3 = o.d := by
    refine ⟨?_, ?_, ?_, ?_⟩ <;> unfold encLogN fld <;>
    (repeat first | exact rfl' _ | refine hi (by decide) ?_ | refine lo (by decide) ?_ | rfl)
  simp [decLogN, h]

/-! ### Br -/

/-- The opcode of format Br. -/
theorem opBr (op : BitVec 7) (o : Br) : fld (encBr op o).1 25 7 = op := by
  unfold encBr fld
  repeat first | exact rfl' _ | refine hi (by decide) ?_ | refine lo (by decide) ?_ | rfl

/-- X of format Br. -/
theorem xBr (op : BitVec 7) (o : Br) : fld (encBr op o).1 4 1 = 0#1 := by
  unfold encBr fld
  repeat first | exact rfl' _ | refine hi (by decide) ?_ | refine lo (by decide) ?_ | rfl

/-- The decoder of format Br gives back what its encoder laid out. -/
theorem decBr_enc (op : BitVec 7) (o : Br) : decBr (encBr op o).1 = some o := by
  have h : fld (encBr op o).1 0 4 = o.g ∧ fld (encBr op o).1 5 20 = o.off := by
    refine ⟨?_, ?_⟩ <;> unfold encBr fld <;>
    (repeat first | exact rfl' _ | refine hi (by decide) ?_ | refine lo (by decide) ?_ | rfl)
  simp [decBr, h]

/-! ### Jmp -/

/-- The opcode of format Jmp. -/
theorem opJmp (op : BitVec 7) (o : Jmp) : fld (encJmp op o).1 25 7 = op := by
  unfold encJmp fld
  repeat first | exact rfl' _ | refine hi (by decide) ?_ | refine lo (by decide) ?_ | rfl

/-- X of format Jmp. -/
theorem xJmp (op : BitVec 7) (o : Jmp) : fld (encJmp op o).1 4 1 = 0#1 := by
  unfold encJmp fld
  repeat first | exact rfl' _ | refine hi (by decide) ?_ | refine lo (by decide) ?_ | rfl

/-- The decoder of format Jmp gives back what its encoder laid out. -/
theorem decJmp_enc (op : BitVec 7) (o : Jmp) : decJmp (encJmp op o).1 = some o := by
  have h : fld (encJmp op o).1 0 4 = o.g ∧ fld (encJmp op o).1 5 14 = 0#14 ∧ fld (encJmp op o).1 19 6 = o.a := by
    refine ⟨?_, ?_, ?_⟩ <;> unfold encJmp fld <;>
    (repeat first | exact rfl' _ | refine hi (by decide) ?_ | refine lo (by decide) ?_ | rfl)
  simp [decJmp, h]

/-! ### CallR -/

/-- The opcode of format CallR. -/
theorem opCallR (op : BitVec 7) (o : CallR) : fld (encCallR op o).1 25 7 = op := by
  unfold encCallR fld
  repeat first | exact rfl' _ | refine hi (by decide) ?_ | refine lo (by decide) ?_ | rfl

/-- X of format CallR. -/
theorem xCallR (op : BitVec 7) (o : CallR) : fld (encCallR op o).1 4 1 = 0#1 := by
  unfold encCallR fld
  repeat first | exact rfl' _ | refine hi (by decide) ?_ | refine lo (by decide) ?_ | rfl

/-- The decoder of format CallR gives back what its encoder laid out. -/
theorem decCallR_enc (op : BitVec 7) (o : CallR) : decCallR (encCallR op o).1 = some o := by
  have h : fld (encCallR op o).1 0 4 = o.g ∧ fld (encCallR op o).1 5 19 = o.off ∧ fld (encCallR op o).1 24 1 = 0#1 := by
    refine ⟨?_, ?_, ?_⟩ <;> unfold encCallR fld <;>
    (repeat first | exact rfl' _ | refine hi (by decide) ?_ | refine lo (by decide) ?_ | rfl)
  simp [decCallR, h]

/-! ### CallG -/

/-- The opcode of format CallG. -/
theorem opCallG (op : BitVec 7) (o : CallG) : fld (encCallG op o).1 25 7 = op := by
  unfold encCallG fld
  repeat first | exact rfl' _ | refine hi (by decide) ?_ | refine lo (by decide) ?_ | rfl

/-- X of format CallG. -/
theorem xCallG (op : BitVec 7) (o : CallG) : fld (encCallG op o).1 4 1 = 0#1 := by
  unfold encCallG fld
  repeat first | exact rfl' _ | refine hi (by decide) ?_ | refine lo (by decide) ?_ | rfl

/-- The decoder of format CallG gives back what its encoder laid out. -/
theorem decCallG_enc (op : BitVec 7) (o : CallG) : decCallG (encCallG op o).1 = some o := by
  have h : fld (encCallG op o).1 0 4 = o.g ∧ fld (encCallG op o).1 5 13 = 0#13 ∧ fld (encCallG op o).1 18 6 = o.a ∧ fld (encCallG op o).1 24 1 = 1#1 := by
    refine ⟨?_, ?_, ?_, ?_⟩ <;> unfold encCallG fld <;>
    (repeat first | exact rfl' _ | refine hi (by decide) ?_ | refine lo (by decide) ?_ | rfl)
  simp [decCallG, h]

/-! ### G0 -/

/-- The opcode of format G0. -/
theorem opG0 (op : BitVec 7) (o : G0) : fld (encG0 op o).1 25 7 = op := by
  unfold encG0 fld
  repeat first | exact rfl' _ | refine hi (by decide) ?_ | refine lo (by decide) ?_ | rfl

/-- X of format G0. -/
theorem xG0 (op : BitVec 7) (o : G0) : fld (encG0 op o).1 4 1 = 0#1 := by
  unfold encG0 fld
  repeat first | exact rfl' _ | refine hi (by decide) ?_ | refine lo (by decide) ?_ | rfl

/-- The decoder of format G0 gives back what its encoder laid out. -/
theorem decG0_enc (op : BitVec 7) (o : G0) : decG0 (encG0 op o).1 = some o := by
  have h : fld (encG0 op o).1 0 4 = o.g ∧ fld (encG0 op o).1 5 20 = 0#20 := by
    refine ⟨?_, ?_⟩ <;> unfold encG0 fld <;>
    (repeat first | exact rfl' _ | refine hi (by decide) ?_ | refine lo (by decide) ?_ | rfl)
  simp [decG0, h]

/-! ### LoopM -/

/-- The opcode of format LoopM. -/
theorem opLoopM (op : BitVec 7) (o : LoopM) : fld (encLoopM op o).1 25 7 = op := by
  unfold encLoopM fld
  repeat first | exact rfl' _ | refine hi (by decide) ?_ | refine lo (by decide) ?_ | rfl

/-- X of format LoopM. -/
theorem xLoopM (op : BitVec 7) (o : LoopM) : fld (encLoopM op o).1 4 1 = 0#1 := by
  unfold encLoopM fld
  repeat first | exact rfl' _ | refine hi (by decide) ?_ | refine lo (by decide) ?_ | rfl

/-- The decoder of format LoopM gives back what its encoder laid out. -/
theorem decLoopM_enc (op : BitVec 7) (o : LoopM) : decLoopM (encLoopM op o).1 = some o := by
  have h : fld (encLoopM op o).1 0 4 = o.g ∧ fld (encLoopM op o).1 5 12 = 0#12 ∧ fld (encLoopM op o).1 17 2 = o.ns ∧ fld (encLoopM op o).1 19 6 = o.a := by
    refine ⟨?_, ?_, ?_, ?_⟩ <;> unfold encLoopM fld <;>
    (repeat first | exact rfl' _ | refine hi (by decide) ?_ | refine lo (by decide) ?_ | rfl)
  simp [decLoopM, h]

/-! ### Ld0 -/

/-- The opcode of format Ld0. -/
theorem opLd0 (op : BitVec 7) (o : Ld0) : fld (encLd0 op o).1 25 7 = op := by
  unfold encLd0 fld
  repeat first | exact rfl' _ | refine hi (by decide) ?_ | refine lo (by decide) ?_ | rfl

/-- X of format Ld0. -/
theorem xLd0 (op : BitVec 7) (o : Ld0) : fld (encLd0 op o).1 4 1 = 0#1 := by
  unfold encLd0 fld
  repeat first | exact rfl' _ | refine hi (by decide) ?_ | refine lo (by decide) ?_ | rfl

/-- The decoder of format Ld0 gives back what its encoder laid out. -/
theorem decLd0_enc (op : BitVec 7) (o : Ld0) : decLd0 (encLd0 op o).1 = some o := by
  have h : fld (encLd0 op o).1 0 4 = o.g ∧ fld (encLd0 op o).1 5 1 = 0#1 ∧ fld (encLd0 op o).1 6 1 = o.s ∧ fld (encLd0 op o).1 7 4 = o.cl ∧ fld (encLd0 op o).1 11 2 = o.sz ∧ fld (encLd0 op o).1 13 6 = o.a ∧ fld (encLd0 op o).1 19 6 = o.d := by
    refine ⟨?_, ?_, ?_, ?_, ?_, ?_, ?_⟩ <;> unfold encLd0 fld <;>
    (repeat first | exact rfl' _ | refine hi (by decide) ?_ | refine lo (by decide) ?_ | rfl)
  simp [decLd0, h]

/-! ### Ld1 -/

/-- The opcode of format Ld1. -/
theorem opLd1 (op : BitVec 7) (o : Ld1) : fld (encLd1 op o).1 25 7 = op := by
  unfold encLd1 fld
  repeat first | exact rfl' _ | refine hi (by decide) ?_ | refine lo (by decide) ?_ | rfl

/-- X of format Ld1. -/
theorem xLd1 (op : BitVec 7) (o : Ld1) : fld (encLd1 op o).1 4 1 = 1#1 := by
  unfold encLd1 fld
  repeat first | exact rfl' _ | refine hi (by decide) ?_ | refine lo (by decide) ?_ | rfl

/-- The decoder of format Ld1 gives back what its encoder laid out. -/
theorem decLd1_enc (op : BitVec 7) (o : Ld1) : decLd1 (encLd1 op o).1 ((encLd1 op o).2.getD 0#32) = some o := by
  have h : fld (encLd1 op o).1 0 4 = o.g ∧ fld (encLd1 op o).1 5 1 = 0#1 ∧ fld (encLd1 op o).1 6 1 = o.s ∧ fld (encLd1 op o).1 7 4 = o.cl ∧ fld (encLd1 op o).1 11 2 = o.sz ∧ fld (encLd1 op o).1 13 6 = o.a ∧ fld (encLd1 op o).1 19 6 = o.d ∧ fld ((encLd1 op o).2.getD 0#32) 0 24 = o.off ∧ fld ((encLd1 op o).2.getD 0#32) 24 3 = 0#3 ∧ fld ((encLd1 op o).2.getD 0#32) 27 3 = o.scp ∧ fld ((encLd1 op o).2.getD 0#32) 30 2 = o.ar := by
    refine ⟨?_, ?_, ?_, ?_, ?_, ?_, ?_, ?_, ?_, ?_, ?_⟩ <;> unfold encLd1 fld <;>
    (repeat first | exact rfl' _ | refine hi (by decide) ?_ | refine lo (by decide) ?_ | rfl)
  simp [decLd1, h]

/-! ### St0 -/

/-- The opcode of format St0. -/
theorem opSt0 (op : BitVec 7) (o : St0) : fld (encSt0 op o).1 25 7 = op := by
  unfold encSt0 fld
  repeat first | exact rfl' _ | refine hi (by decide) ?_ | refine lo (by decide) ?_ | rfl

/-- X of format St0. -/
theorem xSt0 (op : BitVec 7) (o : St0) : fld (encSt0 op o).1 4 1 = 0#1 := by
  unfold encSt0 fld
  repeat first | exact rfl' _ | refine hi (by decide) ?_ | refine lo (by decide) ?_ | rfl

/-- The decoder of format St0 gives back what its encoder laid out. -/
theorem decSt0_enc (op : BitVec 7) (o : St0) : decSt0 (encSt0 op o).1 = some o := by
  have h : fld (encSt0 op o).1 0 4 = o.g ∧ fld (encSt0 op o).1 5 2 = 0#2 ∧ fld (encSt0 op o).1 7 4 = o.cl ∧ fld (encSt0 op o).1 11 2 = o.sz ∧ fld (encSt0 op o).1 13 6 = o.a ∧ fld (encSt0 op o).1 19 6 = o.d := by
    refine ⟨?_, ?_, ?_, ?_, ?_, ?_⟩ <;> unfold encSt0 fld <;>
    (repeat first | exact rfl' _ | refine hi (by decide) ?_ | refine lo (by decide) ?_ | rfl)
  simp [decSt0, h]

/-! ### St1 -/

/-- The opcode of format St1. -/
theorem opSt1 (op : BitVec 7) (o : St1) : fld (encSt1 op o).1 25 7 = op := by
  unfold encSt1 fld
  repeat first | exact rfl' _ | refine hi (by decide) ?_ | refine lo (by decide) ?_ | rfl

/-- X of format St1. -/
theorem xSt1 (op : BitVec 7) (o : St1) : fld (encSt1 op o).1 4 1 = 1#1 := by
  unfold encSt1 fld
  repeat first | exact rfl' _ | refine hi (by decide) ?_ | refine lo (by decide) ?_ | rfl

/-- The decoder of format St1 gives back what its encoder laid out. -/
theorem decSt1_enc (op : BitVec 7) (o : St1) : decSt1 (encSt1 op o).1 ((encSt1 op o).2.getD 0#32) = some o := by
  have h : fld (encSt1 op o).1 0 4 = o.g ∧ fld (encSt1 op o).1 5 2 = 0#2 ∧ fld (encSt1 op o).1 7 4 = o.cl ∧ fld (encSt1 op o).1 11 2 = o.sz ∧ fld (encSt1 op o).1 13 6 = o.a ∧ fld (encSt1 op o).1 19 6 = o.d ∧ fld ((encSt1 op o).2.getD 0#32) 0 24 = o.off ∧ fld ((encSt1 op o).2.getD 0#32) 24 3 = 0#3 ∧ fld ((encSt1 op o).2.getD 0#32) 27 3 = o.scp ∧ fld ((encSt1 op o).2.getD 0#32) 30 2 = o.ar := by
    refine ⟨?_, ?_, ?_, ?_, ?_, ?_, ?_, ?_, ?_, ?_⟩ <;> unfold encSt1 fld <;>
    (repeat first | exact rfl' _ | refine hi (by decide) ?_ | refine lo (by decide) ?_ | rfl)
  simp [decSt1, h]

/-! ### Sec -/

/-- The opcode of format Sec. -/
theorem opSec (op : BitVec 7) (o : Sec) : fld (encSec op o).1 25 7 = op := by
  unfold encSec fld
  repeat first | exact rfl' _ | refine hi (by decide) ?_ | refine lo (by decide) ?_ | rfl

/-- X of format Sec. -/
theorem xSec (op : BitVec 7) (o : Sec) : fld (encSec op o).1 4 1 = 1#1 := by
  unfold encSec fld
  repeat first | exact rfl' _ | refine hi (by decide) ?_ | refine lo (by decide) ?_ | rfl

/-- The decoder of format Sec gives back what its encoder laid out. -/
theorem decSec_enc (op : BitVec 7) (o : Sec) : decSec (encSec op o).1 ((encSec op o).2.getD 0#32) = some o := by
  have h : fld (encSec op o).1 0 4 = o.g ∧ fld (encSec op o).1 5 2 = 0#2 ∧ fld (encSec op o).1 7 4 = o.cl ∧ fld (encSec op o).1 11 2 = 0#2 ∧ fld (encSec op o).1 13 6 = o.a ∧ fld (encSec op o).1 19 5 = o.v ∧ fld (encSec op o).1 24 1 = 0#1 ∧ fld ((encSec op o).2.getD 0#32) 0 18 = o.off ∧ fld ((encSec op o).2.getD 0#32) 18 6 = o.mr ∧ fld ((encSec op o).2.getD 0#32) 24 3 = 0#3 ∧ fld ((encSec op o).2.getD 0#32) 27 3 = o.scp ∧ fld ((encSec op o).2.getD 0#32) 30 2 = o.ar := by
    refine ⟨?_, ?_, ?_, ?_, ?_, ?_, ?_, ?_, ?_, ?_, ?_, ?_⟩ <;> unfold encSec fld <;>
    (repeat first | exact rfl' _ | refine hi (by decide) ?_ | refine lo (by decide) ?_ | rfl)
  simp [decSec, h]

/-! ### Amo -/

/-- The opcode of format Amo. -/
theorem opAmo (op : BitVec 7) (o : Amo) : fld (encAmo op o).1 25 7 = op := by
  unfold encAmo fld
  repeat first | exact rfl' _ | refine hi (by decide) ?_ | refine lo (by decide) ?_ | rfl

/-- X of format Amo. -/
theorem xAmo (op : BitVec 7) (o : Amo) : fld (encAmo op o).1 4 1 = 1#1 := by
  unfold encAmo fld
  repeat first | exact rfl' _ | refine hi (by decide) ?_ | refine lo (by decide) ?_ | rfl

/-- The decoder of format Amo gives back what its encoder laid out. -/
theorem decAmo_enc (op : BitVec 7) (o : Amo) : decAmo (encAmo op o).1 ((encAmo op o).2.getD 0#32) = some o := by
  have h : fld (encAmo op o).1 0 4 = o.g ∧ fld (encAmo op o).1 5 2 = 0#2 ∧ fld (encAmo op o).1 7 4 = o.cl ∧ fld (encAmo op o).1 11 2 = 3#2 ∧ fld (encAmo op o).1 13 6 = o.a ∧ fld (encAmo op o).1 19 6 = o.d ∧ fld ((encAmo op o).2.getD 0#32) 0 11 = o.off ∧ fld ((encAmo op o).2.getD 0#32) 11 6 = 0#6 ∧ fld ((encAmo op o).2.getD 0#32) 17 6 = o.b ∧ fld ((encAmo op o).2.getD 0#32) 23 4 = o.aop ∧ fld ((encAmo op o).2.getD 0#32) 27 3 = o.scp ∧ fld ((encAmo op o).2.getD 0#32) 30 2 = o.ar := by
    refine ⟨?_, ?_, ?_, ?_, ?_, ?_, ?_, ?_, ?_, ?_, ?_, ?_⟩ <;> unfold encAmo fld <;>
    (repeat first | exact rfl' _ | refine hi (by decide) ?_ | refine lo (by decide) ?_ | rfl)
  simp [decAmo, h]

/-! ### Cas -/

/-- The opcode of format Cas. -/
theorem opCas (op : BitVec 7) (o : Cas) : fld (encCas op o).1 25 7 = op := by
  unfold encCas fld
  repeat first | exact rfl' _ | refine hi (by decide) ?_ | refine lo (by decide) ?_ | rfl

/-- X of format Cas. -/
theorem xCas (op : BitVec 7) (o : Cas) : fld (encCas op o).1 4 1 = 1#1 := by
  unfold encCas fld
  repeat first | exact rfl' _ | refine hi (by decide) ?_ | refine lo (by decide) ?_ | rfl

/-- The decoder of format Cas gives back what its encoder laid out. -/
theorem decCas_enc (op : BitVec 7) (o : Cas) : decCas (encCas op o).1 ((encCas op o).2.getD 0#32) = some o := by
  have h : fld (encCas op o).1 0 4 = o.g ∧ fld (encCas op o).1 5 2 = 0#2 ∧ fld (encCas op o).1 7 4 = o.cl ∧ fld (encCas op o).1 11 2 = 3#2 ∧ fld (encCas op o).1 13 6 = o.a ∧ fld (encCas op o).1 19 6 = o.d ∧ fld ((encCas op o).2.getD 0#32) 0 11 = o.off ∧ fld ((encCas op o).2.getD 0#32) 11 6 = o.c ∧ fld ((encCas op o).2.getD 0#32) 17 6 = o.b ∧ fld ((encCas op o).2.getD 0#32) 23 4 = 0#4 ∧ fld ((encCas op o).2.getD 0#32) 27 3 = o.scp ∧ fld ((encCas op o).2.getD 0#32) 30 2 = o.ar := by
    refine ⟨?_, ?_, ?_, ?_, ?_, ?_, ?_, ?_, ?_, ?_, ?_, ?_⟩ <;> unfold encCas fld <;>
    (repeat first | exact rfl' _ | refine hi (by decide) ?_ | refine lo (by decide) ?_ | rfl)
  simp [decCas, h]

/-! ### Bput -/

/-- The opcode of format Bput. -/
theorem opBput (op : BitVec 7) (o : Bput) : fld (encBput op o).1 25 7 = op := by
  unfold encBput fld
  repeat first | exact rfl' _ | refine hi (by decide) ?_ | refine lo (by decide) ?_ | rfl

/-- X of format Bput. -/
theorem xBput (op : BitVec 7) (o : Bput) : fld (encBput op o).1 4 1 = 1#1 := by
  unfold encBput fld
  repeat first | exact rfl' _ | refine hi (by decide) ?_ | refine lo (by decide) ?_ | rfl

/-- The decoder of format Bput gives back what its encoder laid out. -/
theorem decBput_enc (op : BitVec 7) (o : Bput) : decBput (encBput op o).1 ((encBput op o).2.getD 0#32) = some o := by
  have h : fld (encBput op o).1 0 4 = o.g ∧ fld (encBput op o).1 5 2 = 0#2 ∧ fld (encBput op o).1 7 4 = o.cl ∧ fld (encBput op o).1 11 2 = 3#2 ∧ fld (encBput op o).1 13 6 = o.a ∧ fld (encBput op o).1 19 6 = 0#6 ∧ fld ((encBput op o).2.getD 0#32) 0 11 = o.off ∧ fld ((encBput op o).2.getD 0#32) 11 6 = 0#6 ∧ fld ((encBput op o).2.getD 0#32) 17 6 = o.b ∧ fld ((encBput op o).2.getD 0#32) 23 4 = o.aop ∧ fld ((encBput op o).2.getD 0#32) 27 3 = o.scp ∧ fld ((encBput op o).2.getD 0#32) 30 2 = o.ar := by
    refine ⟨?_, ?_, ?_, ?_, ?_, ?_, ?_, ?_, ?_, ?_, ?_, ?_⟩ <;> unfold encBput fld <;>
    (repeat first | exact rfl' _ | refine hi (by decide) ?_ | refine lo (by decide) ?_ | rfl)
  simp [decBput, h]

/-! ### Fence -/

/-- The opcode of format Fence. -/
theorem opFence (op : BitVec 7) (o : Fence) : fld (encFence op o).1 25 7 = op := by
  unfold encFence fld
  repeat first | exact rfl' _ | refine hi (by decide) ?_ | refine lo (by decide) ?_ | rfl

/-- X of format Fence. -/
theorem xFence (op : BitVec 7) (o : Fence) : fld (encFence op o).1 4 1 = 0#1 := by
  unfold encFence fld
  repeat first | exact rfl' _ | refine hi (by decide) ?_ | refine lo (by decide) ?_ | rfl

/-- The decoder of format Fence gives back what its encoder laid out. -/
theorem decFence_enc (op : BitVec 7) (o : Fence) : decFence (encFence op o).1 = some o := by
  have h : fld (encFence op o).1 0 4 = o.g ∧ fld (encFence op o).1 5 1 = 0#1 ∧ fld (encFence op o).1 6 3 = o.scp ∧ fld (encFence op o).1 9 16 = o.m := by
    refine ⟨?_, ?_, ?_, ?_⟩ <;> unfold encFence fld <;>
    (repeat first | exact rfl' _ | refine hi (by decide) ?_ | refine lo (by decide) ?_ | rfl)
  simp [decFence, h]

/-! ### Flushp -/

/-- The opcode of format Flushp. -/
theorem opFlushp (op : BitVec 7) (o : Flushp) : fld (encFlushp op o).1 25 7 = op := by
  unfold encFlushp fld
  repeat first | exact rfl' _ | refine hi (by decide) ?_ | refine lo (by decide) ?_ | rfl

/-- X of format Flushp. -/
theorem xFlushp (op : BitVec 7) (o : Flushp) : fld (encFlushp op o).1 4 1 = 0#1 := by
  unfold encFlushp fld
  repeat first | exact rfl' _ | refine hi (by decide) ?_ | refine lo (by decide) ?_ | rfl

/-- The decoder of format Flushp gives back what its encoder laid out. -/
theorem decFlushp_enc (op : BitVec 7) (o : Flushp) : decFlushp (encFlushp op o).1 = some o := by
  have h : fld (encFlushp op o).1 0 4 = o.g ∧ fld (encFlushp op o).1 5 1 = 0#1 ∧ fld (encFlushp op o).1 6 3 = o.scp ∧ fld (encFlushp op o).1 9 16 = 0#16 := by
    refine ⟨?_, ?_, ?_, ?_⟩ <;> unfold encFlushp fld <;>
    (repeat first | exact rfl' _ | refine hi (by decide) ?_ | refine lo (by decide) ?_ | rfl)
  simp [decFlushp, h]

/-! ### DA -/

/-- The opcode of format DA. -/
theorem opDA (op : BitVec 7) (o : DA) : fld (encDA op o).1 25 7 = op := by
  unfold encDA fld
  repeat first | exact rfl' _ | refine hi (by decide) ?_ | refine lo (by decide) ?_ | rfl

/-- X of format DA. -/
theorem xDA (op : BitVec 7) (o : DA) : fld (encDA op o).1 4 1 = 0#1 := by
  unfold encDA fld
  repeat first | exact rfl' _ | refine hi (by decide) ?_ | refine lo (by decide) ?_ | rfl

/-- The decoder of format DA gives back what its encoder laid out. -/
theorem decDA_enc (op : BitVec 7) (o : DA) : decDA (encDA op o).1 = some o := by
  have h : fld (encDA op o).1 0 4 = o.g ∧ fld (encDA op o).1 5 8 = 0#8 ∧ fld (encDA op o).1 13 6 = o.a ∧ fld (encDA op o).1 19 6 = o.d := by
    refine ⟨?_, ?_, ?_, ?_⟩ <;> unfold encDA fld <;>
    (repeat first | exact rfl' _ | refine hi (by decide) ?_ | refine lo (by decide) ?_ | rfl)
  simp [decDA, h]

/-! ### A1 -/

/-- The opcode of format A1. -/
theorem opA1 (op : BitVec 7) (o : A1) : fld (encA1 op o).1 25 7 = op := by
  unfold encA1 fld
  repeat first | exact rfl' _ | refine hi (by decide) ?_ | refine lo (by decide) ?_ | rfl

/-- X of format A1. -/
theorem xA1 (op : BitVec 7) (o : A1) : fld (encA1 op o).1 4 1 = 0#1 := by
  unfold encA1 fld
  repeat first | exact rfl' _ | refine hi (by decide) ?_ | refine lo (by decide) ?_ | rfl

/-- The decoder of format A1 gives back what its encoder laid out. -/
theorem decA1_enc (op : BitVec 7) (o : A1) : decA1 (encA1 op o).1 = some o := by
  have h : fld (encA1 op o).1 0 4 = o.g ∧ fld (encA1 op o).1 5 8 = 0#8 ∧ fld (encA1 op o).1 13 6 = o.a ∧ fld (encA1 op o).1 19 6 = 0#6 := by
    refine ⟨?_, ?_, ?_, ?_⟩ <;> unfold encA1 fld <;>
    (repeat first | exact rfl' _ | refine hi (by decide) ?_ | refine lo (by decide) ?_ | rfl)
  simp [decA1, h]

/-! ### WaitI -/

/-- The opcode of format WaitI. -/
theorem opWaitI (op : BitVec 7) (o : WaitI) : fld (encWaitI op o).1 25 7 = op := by
  unfold encWaitI fld
  repeat first | exact rfl' _ | refine hi (by decide) ?_ | refine lo (by decide) ?_ | rfl

/-- X of format WaitI. -/
theorem xWaitI (op : BitVec 7) (o : WaitI) : fld (encWaitI op o).1 4 1 = 1#1 := by
  unfold encWaitI fld
  repeat first | exact rfl' _ | refine hi (by decide) ?_ | refine lo (by decide) ?_ | rfl

/-- The decoder of format WaitI gives back what its encoder laid out. -/
theorem decWaitI_enc (op : BitVec 7) (o : WaitI) : decWaitI (encWaitI op o).1 ((encWaitI op o).2.getD 0#32) = some o := by
  have h : fld (encWaitI op o).1 0 4 = o.g ∧ fld (encWaitI op o).1 5 20 = 0#20 ∧ fld ((encWaitI op o).2.getD 0#32) 0 6 = o.ldc ∧ fld ((encWaitI op o).2.getD 0#32) 6 6 = o.stc ∧ fld ((encWaitI op o).2.getD 0#32) 12 6 = o.cpc ∧ fld ((encWaitI op o).2.getD 0#32) 18 6 = o.mxc ∧ fld ((encWaitI op o).2.getD 0#32) 24 8 = 0#8 := by
    refine ⟨?_, ?_, ?_, ?_, ?_, ?_, ?_⟩ <;> unfold encWaitI fld <;>
    (repeat first | exact rfl' _ | refine hi (by decide) ?_ | refine lo (by decide) ?_ | rfl)
  simp [decWaitI, h]

/-! ### Vld0 -/

/-- The opcode of format Vld0. -/
theorem opVld0 (op : BitVec 7) (o : Vld0) : fld (encVld0 op o).1 25 7 = op := by
  unfold encVld0 fld
  repeat first | exact rfl' _ | refine hi (by decide) ?_ | refine lo (by decide) ?_ | rfl

/-- X of format Vld0. -/
theorem xVld0 (op : BitVec 7) (o : Vld0) : fld (encVld0 op o).1 4 1 = 0#1 := by
  unfold encVld0 fld
  repeat first | exact rfl' _ | refine hi (by decide) ?_ | refine lo (by decide) ?_ | rfl

/-- The decoder of format Vld0 gives back what its encoder laid out. -/
theorem decVld0_enc (op : BitVec 7) (o : Vld0) : decVld0 (encVld0 op o).1 = some o := by
  have h : fld (encVld0 op o).1 0 4 = o.g ∧ fld (encVld0 op o).1 5 2 = 0#2 ∧ fld (encVld0 op o).1 7 4 = o.cl ∧ fld (encVld0 op o).1 11 3 = o.lay ∧ fld (encVld0 op o).1 14 6 = o.a ∧ fld (encVld0 op o).1 20 5 = o.v := by
    refine ⟨?_, ?_, ?_, ?_, ?_, ?_⟩ <;> unfold encVld0 fld <;>
    (repeat first | exact rfl' _ | refine hi (by decide) ?_ | refine lo (by decide) ?_ | rfl)
  simp [decVld0, h]

/-! ### Vst0 -/

/-- The opcode of format Vst0. -/
theorem opVst0 (op : BitVec 7) (o : Vst0) : fld (encVst0 op o).1 25 7 = op := by
  unfold encVst0 fld
  repeat first | exact rfl' _ | refine hi (by decide) ?_ | refine lo (by decide) ?_ | rfl

/-- X of format Vst0. -/
theorem xVst0 (op : BitVec 7) (o : Vst0) : fld (encVst0 op o).1 4 1 = 0#1 := by
  unfold encVst0 fld
  repeat first | exact rfl' _ | refine hi (by decide) ?_ | refine lo (by decide) ?_ | rfl

/-- The decoder of format Vst0 gives back what its encoder laid out. -/
theorem decVst0_enc (op : BitVec 7) (o : Vst0) : decVst0 (encVst0 op o).1 = some o := by
  have h : fld (encVst0 op o).1 0 4 = o.g ∧ fld (encVst0 op o).1 5 2 = 0#2 ∧ fld (encVst0 op o).1 7 4 = o.cl ∧ fld (encVst0 op o).1 11 3 = 0#3 ∧ fld (encVst0 op o).1 14 6 = o.a ∧ fld (encVst0 op o).1 20 5 = o.v := by
    refine ⟨?_, ?_, ?_, ?_, ?_, ?_⟩ <;> unfold encVst0 fld <;>
    (repeat first | exact rfl' _ | refine hi (by decide) ?_ | refine lo (by decide) ?_ | rfl)
  simp [decVst0, h]

/-! ### Vld1 -/

/-- The opcode of format Vld1. -/
theorem opVld1 (op : BitVec 7) (o : Vld1) : fld (encVld1 op o).1 25 7 = op := by
  unfold encVld1 fld
  repeat first | exact rfl' _ | refine hi (by decide) ?_ | refine lo (by decide) ?_ | rfl

/-- X of format Vld1. -/
theorem xVld1 (op : BitVec 7) (o : Vld1) : fld (encVld1 op o).1 4 1 = 1#1 := by
  unfold encVld1 fld
  repeat first | exact rfl' _ | refine hi (by decide) ?_ | refine lo (by decide) ?_ | rfl

/-- The decoder of format Vld1 gives back what its encoder laid out. -/
theorem decVld1_enc (op : BitVec 7) (o : Vld1) : decVld1 (encVld1 op o).1 ((encVld1 op o).2.getD 0#32) = some o := by
  have h : fld (encVld1 op o).1 0 4 = o.g ∧ fld (encVld1 op o).1 5 2 = 0#2 ∧ fld (encVld1 op o).1 7 4 = o.cl ∧ fld (encVld1 op o).1 11 3 = o.lay ∧ fld (encVld1 op o).1 14 6 = o.a ∧ fld (encVld1 op o).1 20 5 = o.v ∧ fld ((encVld1 op o).2.getD 0#32) 0 24 = o.off ∧ fld ((encVld1 op o).2.getD 0#32) 24 3 = 0#3 ∧ fld ((encVld1 op o).2.getD 0#32) 27 3 = o.scp ∧ fld ((encVld1 op o).2.getD 0#32) 30 2 = o.ar := by
    refine ⟨?_, ?_, ?_, ?_, ?_, ?_, ?_, ?_, ?_, ?_⟩ <;> unfold encVld1 fld <;>
    (repeat first | exact rfl' _ | refine hi (by decide) ?_ | refine lo (by decide) ?_ | rfl)
  simp [decVld1, h]

/-! ### Vst1 -/

/-- The opcode of format Vst1. -/
theorem opVst1 (op : BitVec 7) (o : Vst1) : fld (encVst1 op o).1 25 7 = op := by
  unfold encVst1 fld
  repeat first | exact rfl' _ | refine hi (by decide) ?_ | refine lo (by decide) ?_ | rfl

/-- X of format Vst1. -/
theorem xVst1 (op : BitVec 7) (o : Vst1) : fld (encVst1 op o).1 4 1 = 1#1 := by
  unfold encVst1 fld
  repeat first | exact rfl' _ | refine hi (by decide) ?_ | refine lo (by decide) ?_ | rfl

/-- The decoder of format Vst1 gives back what its encoder laid out. -/
theorem decVst1_enc (op : BitVec 7) (o : Vst1) : decVst1 (encVst1 op o).1 ((encVst1 op o).2.getD 0#32) = some o := by
  have h : fld (encVst1 op o).1 0 4 = o.g ∧ fld (encVst1 op o).1 5 2 = 0#2 ∧ fld (encVst1 op o).1 7 4 = o.cl ∧ fld (encVst1 op o).1 11 3 = 0#3 ∧ fld (encVst1 op o).1 14 6 = o.a ∧ fld (encVst1 op o).1 20 5 = o.v ∧ fld ((encVst1 op o).2.getD 0#32) 0 24 = o.off ∧ fld ((encVst1 op o).2.getD 0#32) 24 3 = 0#3 ∧ fld ((encVst1 op o).2.getD 0#32) 27 3 = o.scp ∧ fld ((encVst1 op o).2.getD 0#32) 30 2 = o.ar := by
    refine ⟨?_, ?_, ?_, ?_, ?_, ?_, ?_, ?_, ?_, ?_⟩ <;> unfold encVst1 fld <;>
    (repeat first | exact rfl' _ | refine hi (by decide) ?_ | refine lo (by decide) ?_ | rfl)
  simp [decVst1, h]

/-! ### Vgs -/

/-- The opcode of format Vgs. -/
theorem opVgs (op : BitVec 7) (o : Vgs) : fld (encVgs op o).1 25 7 = op := by
  unfold encVgs fld
  repeat first | exact rfl' _ | refine hi (by decide) ?_ | refine lo (by decide) ?_ | rfl

/-- X of format Vgs. -/
theorem xVgs (op : BitVec 7) (o : Vgs) : fld (encVgs op o).1 4 1 = 1#1 := by
  unfold encVgs fld
  repeat first | exact rfl' _ | refine hi (by decide) ?_ | refine lo (by decide) ?_ | rfl

/-- The decoder of format Vgs gives back what its encoder laid out. -/
theorem decVgs_enc (op : BitVec 7) (o : Vgs) : decVgs (encVgs op o).1 ((encVgs op o).2.getD 0#32) = some o := by
  have h : fld (encVgs op o).1 0 4 = o.g ∧ fld (encVgs op o).1 5 2 = 0#2 ∧ fld (encVgs op o).1 7 4 = o.cl ∧ fld (encVgs op o).1 11 3 = 0#3 ∧ fld (encVgs op o).1 14 6 = o.a ∧ fld (encVgs op o).1 20 5 = o.v ∧ fld ((encVgs op o).2.getD 0#32) 0 18 = 0#18 ∧ fld ((encVgs op o).2.getD 0#32) 18 2 = o.shf ∧ fld ((encVgs op o).2.getD 0#32) 20 2 = o.esz ∧ fld ((encVgs op o).2.getD 0#32) 22 5 = o.vx ∧ fld ((encVgs op o).2.getD 0#32) 27 3 = o.scp ∧ fld ((encVgs op o).2.getD 0#32) 30 2 = o.ar := by
    refine ⟨?_, ?_, ?_, ?_, ?_, ?_, ?_, ?_, ?_, ?_, ?_, ?_⟩ <;> unfold encVgs fld <;>
    (repeat first | exact rfl' _ | refine hi (by decide) ?_ | refine lo (by decide) ?_ | rfl)
  simp [decVgs, h]

/-! ### V0 -/

/-- The opcode of format V0. -/
theorem opV0 (op : BitVec 7) (o : V0) : fld (encV0 op o).1 25 7 = op := by
  unfold encV0 fld
  repeat first | exact rfl' _ | refine hi (by decide) ?_ | refine lo (by decide) ?_ | rfl

/-- X of format V0. -/
theorem xV0 (op : BitVec 7) (o : V0) : fld (encV0 op o).1 4 1 = 0#1 := by
  unfold encV0 fld
  repeat first | exact rfl' _ | refine hi (by decide) ?_ | refine lo (by decide) ?_ | rfl

/-- The decoder of format V0 gives back what its encoder laid out. -/
theorem decV0_enc (op : BitVec 7) (o : V0) : decV0 (encV0 op o).1 = some o := by
  have h : fld (encV0 op o).1 0 4 = o.g ∧ fld (encV0 op o).1 5 1 = 0#1 ∧ fld (encV0 op o).1 6 4 = o.ty ∧ fld (encV0 op o).1 10 5 = o.vb ∧ fld (encV0 op o).1 15 5 = o.va ∧ fld (encV0 op o).1 20 5 = o.vd := by
    refine ⟨?_, ?_, ?_, ?_, ?_, ?_⟩ <;> unfold encV0 fld <;>
    (repeat first | exact rfl' _ | refine hi (by decide) ?_ | refine lo (by decide) ?_ | rfl)
  simp [decV0, h]

/-! ### V1 -/

/-- The opcode of format V1. -/
theorem opV1 (op : BitVec 7) (o : V1) : fld (encV1 op o).1 25 7 = op := by
  unfold encV1 fld
  repeat first | exact rfl' _ | refine hi (by decide) ?_ | refine lo (by decide) ?_ | rfl

/-- X of format V1. -/
theorem xV1 (op : BitVec 7) (o : V1) : fld (encV1 op o).1 4 1 = 1#1 := by
  unfold encV1 fld
  repeat first | exact rfl' _ | refine hi (by decide) ?_ | refine lo (by decide) ?_ | rfl

/-- The decoder of format V1 gives back what its encoder laid out. -/
theorem decV1_enc (op : BitVec 7) (o : V1) : decV1 (encV1 op o).1 ((encV1 op o).2.getD 0#32) = some o := by
  have h : fld (encV1 op o).1 0 4 = o.g ∧ fld (encV1 op o).1 5 1 = 0#1 ∧ fld (encV1 op o).1 6 4 = o.ty ∧ fld (encV1 op o).1 10 5 = o.vb ∧ fld (encV1 op o).1 15 5 = o.va ∧ fld (encV1 op o).1 20 5 = o.vd ∧ fld ((encV1 op o).2.getD 0#32) 0 16 = 0#16 ∧ fld ((encV1 op o).2.getD 0#32) 16 1 = o.sc ∧ fld ((encV1 op o).2.getD 0#32) 17 6 = o.gs ∧ fld ((encV1 op o).2.getD 0#32) 23 1 = o.sat ∧ fld ((encV1 op o).2.getD 0#32) 24 3 = o.rm ∧ fld ((encV1 op o).2.getD 0#32) 27 5 = 0#5 := by
    refine ⟨?_, ?_, ?_, ?_, ?_, ?_, ?_, ?_, ?_, ?_, ?_, ?_⟩ <;> unfold encV1 fld <;>
    (repeat first | exact rfl' _ | refine hi (by decide) ?_ | refine lo (by decide) ?_ | rfl)
  simp [decV1, h]

/-! ### Fma -/

/-- The opcode of format Fma. -/
theorem opFma (op : BitVec 7) (o : Fma) : fld (encFma op o).1 25 7 = op := by
  unfold encFma fld
  repeat first | exact rfl' _ | refine hi (by decide) ?_ | refine lo (by decide) ?_ | rfl

/-- X of format Fma. -/
theorem xFma (op : BitVec 7) (o : Fma) : fld (encFma op o).1 4 1 = 1#1 := by
  unfold encFma fld
  repeat first | exact rfl' _ | refine hi (by decide) ?_ | refine lo (by decide) ?_ | rfl

/-- The decoder of format Fma gives back what its encoder laid out. -/
theorem decFma_enc (op : BitVec 7) (o : Fma) : decFma (encFma op o).1 ((encFma op o).2.getD 0#32) = some o := by
  have h : fld (encFma op o).1 0 4 = o.g ∧ fld (encFma op o).1 5 1 = 0#1 ∧ fld (encFma op o).1 6 4 = o.ty ∧ fld (encFma op o).1 10 5 = o.vb ∧ fld (encFma op o).1 15 5 = o.va ∧ fld (encFma op o).1 20 5 = o.vd ∧ fld ((encFma op o).2.getD 0#32) 0 16 = 0#16 ∧ fld ((encFma op o).2.getD 0#32) 16 1 = o.sc ∧ fld ((encFma op o).2.getD 0#32) 17 6 = o.gs ∧ fld ((encFma op o).2.getD 0#32) 23 1 = 0#1 ∧ fld ((encFma op o).2.getD 0#32) 24 3 = o.rm ∧ fld ((encFma op o).2.getD 0#32) 27 5 = o.vc := by
    refine ⟨?_, ?_, ?_, ?_, ?_, ?_, ?_, ?_, ?_, ?_, ?_, ?_⟩ <;> unfold encFma fld <;>
    (repeat first | exact rfl' _ | refine hi (by decide) ?_ | refine lo (by decide) ?_ | rfl)
  simp [decFma, h]

/-! ### Vdiv1 -/

/-- The opcode of format Vdiv1. -/
theorem opVdiv1 (op : BitVec 7) (o : Vdiv1) : fld (encVdiv1 op o).1 25 7 = op := by
  unfold encVdiv1 fld
  repeat first | exact rfl' _ | refine hi (by decide) ?_ | refine lo (by decide) ?_ | rfl

/-- X of format Vdiv1. -/
theorem xVdiv1 (op : BitVec 7) (o : Vdiv1) : fld (encVdiv1 op o).1 4 1 = 1#1 := by
  unfold encVdiv1 fld
  repeat first | exact rfl' _ | refine hi (by decide) ?_ | refine lo (by decide) ?_ | rfl

/-- The decoder of format Vdiv1 gives back what its encoder laid out. -/
theorem decVdiv1_enc (op : BitVec 7) (o : Vdiv1) : decVdiv1 (encVdiv1 op o).1 ((encVdiv1 op o).2.getD 0#32) = some o := by
  have h : fld (encVdiv1 op o).1 0 4 = o.g ∧ fld (encVdiv1 op o).1 5 1 = 0#1 ∧ fld (encVdiv1 op o).1 6 4 = o.ty ∧ fld (encVdiv1 op o).1 10 5 = o.vb ∧ fld (encVdiv1 op o).1 15 5 = o.va ∧ fld (encVdiv1 op o).1 20 5 = o.vd ∧ fld ((encVdiv1 op o).2.getD 0#32) 0 16 = 0#16 ∧ fld ((encVdiv1 op o).2.getD 0#32) 16 1 = o.sc ∧ fld ((encVdiv1 op o).2.getD 0#32) 17 6 = o.gs ∧ fld ((encVdiv1 op o).2.getD 0#32) 23 1 = 0#1 ∧ fld ((encVdiv1 op o).2.getD 0#32) 24 3 = o.rm ∧ fld ((encVdiv1 op o).2.getD 0#32) 27 5 = 0#5 := by
    refine ⟨?_, ?_, ?_, ?_, ?_, ?_, ?_, ?_, ?_, ?_, ?_, ?_⟩ <;> unfold encVdiv1 fld <;>
    (repeat first | exact rfl' _ | refine hi (by decide) ?_ | refine lo (by decide) ?_ | rfl)
  simp [decVdiv1, h]

/-! ### Vu0 -/

/-- The opcode of format Vu0. -/
theorem opVu0 (op : BitVec 7) (o : Vu0) : fld (encVu0 op o).1 25 7 = op := by
  unfold encVu0 fld
  repeat first | exact rfl' _ | refine hi (by decide) ?_ | refine lo (by decide) ?_ | rfl

/-- X of format Vu0. -/
theorem xVu0 (op : BitVec 7) (o : Vu0) : fld (encVu0 op o).1 4 1 = 0#1 := by
  unfold encVu0 fld
  repeat first | exact rfl' _ | refine hi (by decide) ?_ | refine lo (by decide) ?_ | rfl

/-- The decoder of format Vu0 gives back what its encoder laid out. -/
theorem decVu0_enc (op : BitVec 7) (o : Vu0) : decVu0 (encVu0 op o).1 = some o := by
  have h : fld (encVu0 op o).1 0 4 = o.g ∧ fld (encVu0 op o).1 5 1 = 0#1 ∧ fld (encVu0 op o).1 6 4 = o.ty ∧ fld (encVu0 op o).1 10 5 = 0#5 ∧ fld (encVu0 op o).1 15 5 = o.va ∧ fld (encVu0 op o).1 20 5 = o.vd := by
    refine ⟨?_, ?_, ?_, ?_, ?_, ?_⟩ <;> unfold encVu0 fld <;>
    (repeat first | exact rfl' _ | refine hi (by decide) ?_ | refine lo (by decide) ?_ | rfl)
  simp [decVu0, h]

/-! ### Vsq1 -/

/-- The opcode of format Vsq1. -/
theorem opVsq1 (op : BitVec 7) (o : Vsq1) : fld (encVsq1 op o).1 25 7 = op := by
  unfold encVsq1 fld
  repeat first | exact rfl' _ | refine hi (by decide) ?_ | refine lo (by decide) ?_ | rfl

/-- X of format Vsq1. -/
theorem xVsq1 (op : BitVec 7) (o : Vsq1) : fld (encVsq1 op o).1 4 1 = 1#1 := by
  unfold encVsq1 fld
  repeat first | exact rfl' _ | refine hi (by decide) ?_ | refine lo (by decide) ?_ | rfl

/-- The decoder of format Vsq1 gives back what its encoder laid out. -/
theorem decVsq1_enc (op : BitVec 7) (o : Vsq1) : decVsq1 (encVsq1 op o).1 ((encVsq1 op o).2.getD 0#32) = some o := by
  have h : fld (encVsq1 op o).1 0 4 = o.g ∧ fld (encVsq1 op o).1 5 1 = 0#1 ∧ fld (encVsq1 op o).1 6 4 = o.ty ∧ fld (encVsq1 op o).1 10 5 = 0#5 ∧ fld (encVsq1 op o).1 15 5 = o.va ∧ fld (encVsq1 op o).1 20 5 = o.vd ∧ fld ((encVsq1 op o).2.getD 0#32) 0 24 = 0#24 ∧ fld ((encVsq1 op o).2.getD 0#32) 24 3 = o.rm ∧ fld ((encVsq1 op o).2.getD 0#32) 27 5 = 0#5 := by
    refine ⟨?_, ?_, ?_, ?_, ?_, ?_, ?_, ?_, ?_⟩ <;> unfold encVsq1 fld <;>
    (repeat first | exact rfl' _ | refine hi (by decide) ?_ | refine lo (by decide) ?_ | rfl)
  simp [decVsq1, h]

/-! ### Vab1 -/

/-- The opcode of format Vab1. -/
theorem opVab1 (op : BitVec 7) (o : Vab1) : fld (encVab1 op o).1 25 7 = op := by
  unfold encVab1 fld
  repeat first | exact rfl' _ | refine hi (by decide) ?_ | refine lo (by decide) ?_ | rfl

/-- X of format Vab1. -/
theorem xVab1 (op : BitVec 7) (o : Vab1) : fld (encVab1 op o).1 4 1 = 1#1 := by
  unfold encVab1 fld
  repeat first | exact rfl' _ | refine hi (by decide) ?_ | refine lo (by decide) ?_ | rfl

/-- The decoder of format Vab1 gives back what its encoder laid out. -/
theorem decVab1_enc (op : BitVec 7) (o : Vab1) : decVab1 (encVab1 op o).1 ((encVab1 op o).2.getD 0#32) = some o := by
  have h : fld (encVab1 op o).1 0 4 = o.g ∧ fld (encVab1 op o).1 5 1 = 0#1 ∧ fld (encVab1 op o).1 6 4 = o.ty ∧ fld (encVab1 op o).1 10 5 = 0#5 ∧ fld (encVab1 op o).1 15 5 = o.va ∧ fld (encVab1 op o).1 20 5 = o.vd ∧ fld ((encVab1 op o).2.getD 0#32) 0 23 = 0#23 ∧ fld ((encVab1 op o).2.getD 0#32) 23 1 = o.sat ∧ fld ((encVab1 op o).2.getD 0#32) 24 8 = 0#8 := by
    refine ⟨?_, ?_, ?_, ?_, ?_, ?_, ?_, ?_, ?_⟩ <;> unfold encVab1 fld <;>
    (repeat first | exact rfl' _ | refine hi (by decide) ?_ | refine lo (by decide) ?_ | rfl)
  simp [decVab1, h]

/-! ### Vmm -/

/-- The opcode of format Vmm. -/
theorem opVmm (op : BitVec 7) (o : Vmm) : fld (encVmm op o).1 25 7 = op := by
  unfold encVmm fld
  repeat first | exact rfl' _ | refine hi (by decide) ?_ | refine lo (by decide) ?_ | rfl

/-- X of format Vmm. -/
theorem xVmm (op : BitVec 7) (o : Vmm) : fld (encVmm op o).1 4 1 = o.x := by
  unfold encVmm fld
  repeat first | exact rfl' _ | refine hi (by decide) ?_ | refine lo (by decide) ?_ | rfl

/-- The decoder of format Vmm gives back what its encoder laid out. -/
theorem decVmm_enc (op : BitVec 7) (o : Vmm) : decVmm (encVmm op o).1 0 = some o := by
  have h : fld (encVmm op o).1 0 4 = o.g ∧ fld (encVmm op o).1 4 1 = o.x ∧ fld (encVmm op o).1 5 1 = o.v1 ∧ fld (encVmm op o).1 6 4 = o.ty ∧ fld (encVmm op o).1 10 5 = o.vb ∧ fld (encVmm op o).1 15 5 = o.va ∧ fld (encVmm op o).1 20 5 = o.vd := by
    refine ⟨?_, ?_, ?_, ?_, ?_, ?_, ?_⟩ <;> unfold encVmm fld <;>
    (repeat first | exact rfl' _ | refine hi (by decide) ?_ | refine lo (by decide) ?_ | rfl)
  simp [decVmm, h]

/-- Word 1 of format Vmm is 0. -/
theorem w1Vmm (op : BitVec 7) (o : Vmm) : (encVmm op o).2.getD 0#32 = 0#32 := by
  unfold encVmm
  dsimp only
  split <;> rfl

/-! ### Vcmp -/

/-- The opcode of format Vcmp. -/
theorem opVcmp (op : BitVec 7) (o : Vcmp) : fld (encVcmp op o).1 25 7 = op := by
  unfold encVcmp fld
  repeat first | exact rfl' _ | refine hi (by decide) ?_ | refine lo (by decide) ?_ | rfl

/-- X of format Vcmp. -/
theorem xVcmp (op : BitVec 7) (o : Vcmp) : fld (encVcmp op o).1 4 1 = 1#1 := by
  unfold encVcmp fld
  repeat first | exact rfl' _ | refine hi (by decide) ?_ | refine lo (by decide) ?_ | rfl

/-- The decoder of format Vcmp gives back what its encoder laid out. -/
theorem decVcmp_enc (op : BitVec 7) (o : Vcmp) : decVcmp (encVcmp op o).1 ((encVcmp op o).2.getD 0#32) = some o := by
  have h : fld (encVcmp op o).1 0 4 = o.g ∧ fld (encVcmp op o).1 5 4 = o.ty ∧ fld (encVcmp op o).1 9 5 = o.vb ∧ fld (encVcmp op o).1 14 5 = o.va ∧ fld (encVcmp op o).1 19 3 = o.mq ∧ fld (encVcmp op o).1 22 3 = o.md ∧ fld ((encVcmp op o).2.getD 0#32) 0 3 = o.cond ∧ fld ((encVcmp op o).2.getD 0#32) 3 13 = 0#13 ∧ fld ((encVcmp op o).2.getD 0#32) 16 1 = o.sc ∧ fld ((encVcmp op o).2.getD 0#32) 17 6 = o.gs ∧ fld ((encVcmp op o).2.getD 0#32) 23 9 = 0#9 := by
    refine ⟨?_, ?_, ?_, ?_, ?_, ?_, ?_, ?_, ?_, ?_, ?_⟩ <;> unfold encVcmp fld <;>
    (repeat first | exact rfl' _ | refine hi (by decide) ?_ | refine lo (by decide) ?_ | rfl)
  simp [decVcmp, h]

/-! ### Vsel -/

/-- The opcode of format Vsel. -/
theorem opVsel (op : BitVec 7) (o : Vsel) : fld (encVsel op o).1 25 7 = op := by
  unfold encVsel fld
  repeat first | exact rfl' _ | refine hi (by decide) ?_ | refine lo (by decide) ?_ | rfl

/-- X of format Vsel. -/
theorem xVsel (op : BitVec 7) (o : Vsel) : fld (encVsel op o).1 4 1 = 1#1 := by
  unfold encVsel fld
  repeat first | exact rfl' _ | refine hi (by decide) ?_ | refine lo (by decide) ?_ | rfl

/-- The decoder of format Vsel gives back what its encoder laid out. -/
theorem decVsel_enc (op : BitVec 7) (o : Vsel) : decVsel (encVsel op o).1 ((encVsel op o).2.getD 0#32) = some o := by
  have h : fld (encVsel op o).1 0 4 = o.g ∧ fld (encVsel op o).1 5 5 = 0#5 ∧ fld (encVsel op o).1 10 5 = o.vb ∧ fld (encVsel op o).1 15 5 = o.va ∧ fld (encVsel op o).1 20 5 = o.vd ∧ fld ((encVsel op o).2.getD 0#32) 0 3 = o.ms ∧ fld ((encVsel op o).2.getD 0#32) 3 29 = 0#29 := by
    refine ⟨?_, ?_, ?_, ?_, ?_, ?_, ?_⟩ <;> unfold encVsel fld <;>
    (repeat first | exact rfl' _ | refine hi (by decide) ?_ | refine lo (by decide) ?_ | rfl)
  simp [decVsel, h]

/-! ### Vl0 -/

/-- The opcode of format Vl0. -/
theorem opVl0 (op : BitVec 7) (o : Vl0) : fld (encVl0 op o).1 25 7 = op := by
  unfold encVl0 fld
  repeat first | exact rfl' _ | refine hi (by decide) ?_ | refine lo (by decide) ?_ | rfl

/-- X of format Vl0. -/
theorem xVl0 (op : BitVec 7) (o : Vl0) : fld (encVl0 op o).1 4 1 = 0#1 := by
  unfold encVl0 fld
  repeat first | exact rfl' _ | refine hi (by decide) ?_ | refine lo (by decide) ?_ | rfl

/-- The decoder of format Vl0 gives back what its encoder laid out. -/
theorem decVl0_enc (op : BitVec 7) (o : Vl0) : decVl0 (encVl0 op o).1 = some o := by
  have h : fld (encVl0 op o).1 0 4 = o.g ∧ fld (encVl0 op o).1 5 5 = 0#5 ∧ fld (encVl0 op o).1 10 5 = o.vb ∧ fld (encVl0 op o).1 15 5 = o.va ∧ fld (encVl0 op o).1 20 5 = o.vd := by
    refine ⟨?_, ?_, ?_, ?_, ?_⟩ <;> unfold encVl0 fld <;>
    (repeat first | exact rfl' _ | refine hi (by decide) ?_ | refine lo (by decide) ?_ | rfl)
  simp [decVl0, h]

/-! ### Vl1 -/

/-- The opcode of format Vl1. -/
theorem opVl1 (op : BitVec 7) (o : Vl1) : fld (encVl1 op o).1 25 7 = op := by
  unfold encVl1 fld
  repeat first | exact rfl' _ | refine hi (by decide) ?_ | refine lo (by decide) ?_ | rfl

/-- X of format Vl1. -/
theorem xVl1 (op : BitVec 7) (o : Vl1) : fld (encVl1 op o).1 4 1 = 1#1 := by
  unfold encVl1 fld
  repeat first | exact rfl' _ | refine hi (by decide) ?_ | refine lo (by decide) ?_ | rfl

/-- The decoder of format Vl1 gives back what its encoder laid out. -/
theorem decVl1_enc (op : BitVec 7) (o : Vl1) : decVl1 (encVl1 op o).1 ((encVl1 op o).2.getD 0#32) = some o := by
  have h : fld (encVl1 op o).1 0 4 = o.g ∧ fld (encVl1 op o).1 5 5 = 0#5 ∧ fld (encVl1 op o).1 10 5 = o.vb ∧ fld (encVl1 op o).1 15 5 = o.va ∧ fld (encVl1 op o).1 20 5 = o.vd ∧ fld ((encVl1 op o).2.getD 0#32) 0 16 = 0#16 ∧ fld ((encVl1 op o).2.getD 0#32) 16 1 = o.sc ∧ fld ((encVl1 op o).2.getD 0#32) 17 6 = o.gs ∧ fld ((encVl1 op o).2.getD 0#32) 23 9 = 0#9 := by
    refine ⟨?_, ?_, ?_, ?_, ?_, ?_, ?_, ?_, ?_⟩ <;> unfold encVl1 fld <;>
    (repeat first | exact rfl' _ | refine hi (by decide) ?_ | refine lo (by decide) ?_ | rfl)
  simp [decVl1, h]

/-! ### Vsh -/

/-- The opcode of format Vsh. -/
theorem opVsh (op : BitVec 7) (o : Vsh) : fld (encVsh op o).1 25 7 = op := by
  unfold encVsh fld
  repeat first | exact rfl' _ | refine hi (by decide) ?_ | refine lo (by decide) ?_ | rfl

/-- X of format Vsh. -/
theorem xVsh (op : BitVec 7) (o : Vsh) : fld (encVsh op o).1 4 1 = o.x := by
  unfold encVsh fld
  repeat first | exact rfl' _ | refine hi (by decide) ?_ | refine lo (by decide) ?_ | rfl

/-- The decoder of format Vsh gives back what its encoder laid out. -/
theorem decVsh_enc (op : BitVec 7) (o : Vsh) : decVsh (encVsh op o).1 0 = some o := by
  have h : fld (encVsh op o).1 0 4 = o.g ∧ fld (encVsh op o).1 4 1 = o.x ∧ fld (encVsh op o).1 5 1 = 0#1 ∧ fld (encVsh op o).1 6 4 = o.ty ∧ fld (encVsh op o).1 10 5 = o.vb ∧ fld (encVsh op o).1 15 5 = o.va ∧ fld (encVsh op o).1 20 5 = o.vd := by
    refine ⟨?_, ?_, ?_, ?_, ?_, ?_, ?_⟩ <;> unfold encVsh fld <;>
    (repeat first | exact rfl' _ | refine hi (by decide) ?_ | refine lo (by decide) ?_ | rfl)
  simp [decVsh, h]

/-- Word 1 of format Vsh is 0. -/
theorem w1Vsh (op : BitVec 7) (o : Vsh) : (encVsh op o).2.getD 0#32 = 0#32 := by
  unfold encVsh
  dsimp only
  split <;> rfl

/-! ### VshI -/

/-- The opcode of format VshI. -/
theorem opVshI (op : BitVec 7) (o : VshI) : fld (encVshI op o).1 25 7 = op := by
  unfold encVshI fld
  repeat first | exact rfl' _ | refine hi (by decide) ?_ | refine lo (by decide) ?_ | rfl

/-- X of format VshI. -/
theorem xVshI (op : BitVec 7) (o : VshI) : fld (encVshI op o).1 4 1 = 1#1 := by
  unfold encVshI fld
  repeat first | exact rfl' _ | refine hi (by decide) ?_ | refine lo (by decide) ?_ | rfl

/-- The decoder of format VshI gives back what its encoder laid out. -/
theorem decVshI_enc (op : BitVec 7) (o : VshI) : decVshI (encVshI op o).1 ((encVshI op o).2.getD 0#32) = some o := by
  have h : fld (encVshI op o).1 0 4 = o.g ∧ fld (encVshI op o).1 5 1 = 1#1 ∧ fld (encVshI op o).1 6 4 = o.ty ∧ fld (encVshI op o).1 10 5 = 0#5 ∧ fld (encVshI op o).1 15 5 = o.va ∧ fld (encVshI op o).1 20 5 = o.vd ∧ fld ((encVshI op o).2.getD 0#32) 0 6 = o.cnt ∧ fld ((encVshI op o).2.getD 0#32) 6 26 = 0#26 := by
    refine ⟨?_, ?_, ?_, ?_, ?_, ?_, ?_, ?_⟩ <;> unfold encVshI fld <;>
    (repeat first | exact rfl' _ | refine hi (by decide) ?_ | refine lo (by decide) ?_ | rfl)
  simp [decVshI, h]

/-! ### Vcvt -/

/-- The opcode of format Vcvt. -/
theorem opVcvt (op : BitVec 7) (o : Vcvt) : fld (encVcvt op o).1 25 7 = op := by
  unfold encVcvt fld
  repeat first | exact rfl' _ | refine hi (by decide) ?_ | refine lo (by decide) ?_ | rfl

/-- X of format Vcvt. -/
theorem xVcvt (op : BitVec 7) (o : Vcvt) : fld (encVcvt op o).1 4 1 = 1#1 := by
  unfold encVcvt fld
  repeat first | exact rfl' _ | refine hi (by decide) ?_ | refine lo (by decide) ?_ | rfl

/-- The decoder of format Vcvt gives back what its encoder laid out. -/
theorem decVcvt_enc (op : BitVec 7) (o : Vcvt) : decVcvt (encVcvt op o).1 ((encVcvt op o).2.getD 0#32) = some o := by
  have h : fld (encVcvt op o).1 0 4 = o.g ∧ fld (encVcvt op o).1 5 1 = 0#1 ∧ fld (encVcvt op o).1 6 4 = o.ty ∧ fld (encVcvt op o).1 10 5 = 0#5 ∧ fld (encVcvt op o).1 15 5 = o.va ∧ fld (encVcvt op o).1 20 5 = o.vd ∧ fld ((encVcvt op o).2.getD 0#32) 0 4 = o.src ∧ fld ((encVcvt op o).2.getD 0#32) 4 19 = 0#19 ∧ fld ((encVcvt op o).2.getD 0#32) 23 1 = o.sat ∧ fld ((encVcvt op o).2.getD 0#32) 24 3 = o.rm ∧ fld ((encVcvt op o).2.getD 0#32) 27 5 = 0#5 := by
    refine ⟨?_, ?_, ?_, ?_, ?_, ?_, ?_, ?_, ?_, ?_, ?_⟩ <;> unfold encVcvt fld <;>
    (repeat first | exact rfl' _ | refine hi (by decide) ?_ | refine lo (by decide) ?_ | rfl)
  simp [decVcvt, h]

/-! ### Vred1 -/

/-- The opcode of format Vred1. -/
theorem opVred1 (op : BitVec 7) (o : Vred1) : fld (encVred1 op o).1 25 7 = op := by
  unfold encVred1 fld
  repeat first | exact rfl' _ | refine hi (by decide) ?_ | refine lo (by decide) ?_ | rfl

/-- X of format Vred1. -/
theorem xVred1 (op : BitVec 7) (o : Vred1) : fld (encVred1 op o).1 4 1 = 1#1 := by
  unfold encVred1 fld
  repeat first | exact rfl' _ | refine hi (by decide) ?_ | refine lo (by decide) ?_ | rfl

/-- The decoder of format Vred1 gives back what its encoder laid out. -/
theorem decVred1_enc (op : BitVec 7) (o : Vred1) : decVred1 (encVred1 op o).1 ((encVred1 op o).2.getD 0#32) = some o := by
  have h : fld (encVred1 op o).1 0 4 = o.g ∧ fld (encVred1 op o).1 5 1 = 0#1 ∧ fld (encVred1 op o).1 6 4 = o.ty ∧ fld (encVred1 op o).1 10 5 = 0#5 ∧ fld (encVred1 op o).1 15 5 = o.va ∧ fld (encVred1 op o).1 20 5 = o.vd ∧ fld ((encVred1 op o).2.getD 0#32) 0 3 = o.rop ∧ fld ((encVred1 op o).2.getD 0#32) 3 29 = 0#29 := by
    refine ⟨?_, ?_, ?_, ?_, ?_, ?_, ?_, ?_⟩ <;> unfold encVred1 fld <;>
    (repeat first | exact rfl' _ | refine hi (by decide) ?_ | refine lo (by decide) ?_ | rfl)
  simp [decVred1, h]

/-! ### VbcS -/

/-- The opcode of format VbcS. -/
theorem opVbcS (op : BitVec 7) (o : VbcS) : fld (encVbcS op o).1 25 7 = op := by
  unfold encVbcS fld
  repeat first | exact rfl' _ | refine hi (by decide) ?_ | refine lo (by decide) ?_ | rfl

/-- X of format VbcS. -/
theorem xVbcS (op : BitVec 7) (o : VbcS) : fld (encVbcS op o).1 4 1 = 1#1 := by
  unfold encVbcS fld
  repeat first | exact rfl' _ | refine hi (by decide) ?_ | refine lo (by decide) ?_ | rfl

/-- The decoder of format VbcS gives back what its encoder laid out. -/
theorem decVbcS_enc (op : BitVec 7) (o : VbcS) : decVbcS (encVbcS op o).1 ((encVbcS op o).2.getD 0#32) = some o := by
  have h : fld (encVbcS op o).1 0 4 = o.g ∧ fld (encVbcS op o).1 5 1 = 0#1 ∧ fld (encVbcS op o).1 6 4 = o.ty ∧ fld (encVbcS op o).1 10 10 = 0#10 ∧ fld (encVbcS op o).1 20 5 = o.vd ∧ fld ((encVbcS op o).2.getD 0#32) 0 16 = 0#16 ∧ fld ((encVbcS op o).2.getD 0#32) 16 1 = 1#1 ∧ fld ((encVbcS op o).2.getD 0#32) 17 6 = o.gs ∧ fld ((encVbcS op o).2.getD 0#32) 23 9 = 0#9 := by
    refine ⟨?_, ?_, ?_, ?_, ?_, ?_, ?_, ?_, ?_⟩ <;> unfold encVbcS fld <;>
    (repeat first | exact rfl' _ | refine hi (by decide) ?_ | refine lo (by decide) ?_ | rfl)
  simp [decVbcS, h]

/-! ### VbcE -/

/-- The opcode of format VbcE. -/
theorem opVbcE (op : BitVec 7) (o : VbcE) : fld (encVbcE op o).1 25 7 = op := by
  unfold encVbcE fld
  repeat first | exact rfl' _ | refine hi (by decide) ?_ | refine lo (by decide) ?_ | rfl

/-- X of format VbcE. -/
theorem xVbcE (op : BitVec 7) (o : VbcE) : fld (encVbcE op o).1 4 1 = 1#1 := by
  unfold encVbcE fld
  repeat first | exact rfl' _ | refine hi (by decide) ?_ | refine lo (by decide) ?_ | rfl

/-- The decoder of format VbcE gives back what its encoder laid out. -/
theorem decVbcE_enc (op : BitVec 7) (o : VbcE) : decVbcE (encVbcE op o).1 ((encVbcE op o).2.getD 0#32) = some o := by
  have h : fld (encVbcE op o).1 0 4 = o.g ∧ fld (encVbcE op o).1 5 1 = 0#1 ∧ fld (encVbcE op o).1 6 4 = o.ty ∧ fld (encVbcE op o).1 10 5 = 0#5 ∧ fld (encVbcE op o).1 15 5 = o.va ∧ fld (encVbcE op o).1 20 5 = o.vd ∧ fld ((encVbcE op o).2.getD 0#32) 0 7 = o.el ∧ fld ((encVbcE op o).2.getD 0#32) 7 25 = 0#25 := by
    refine ⟨?_, ?_, ?_, ?_, ?_, ?_, ?_, ?_⟩ <;> unfold encVbcE fld <;>
    (repeat first | exact rfl' _ | refine hi (by decide) ?_ | refine lo (by decide) ?_ | rfl)
  simp [decVbcE, h]

/-! ### Vext -/

/-- The opcode of format Vext. -/
theorem opVext (op : BitVec 7) (o : Vext) : fld (encVext op o).1 25 7 = op := by
  unfold encVext fld
  repeat first | exact rfl' _ | refine hi (by decide) ?_ | refine lo (by decide) ?_ | rfl

/-- X of format Vext. -/
theorem xVext (op : BitVec 7) (o : Vext) : fld (encVext op o).1 4 1 = 1#1 := by
  unfold encVext fld
  repeat first | exact rfl' _ | refine hi (by decide) ?_ | refine lo (by decide) ?_ | rfl

/-- The decoder of format Vext gives back what its encoder laid out. -/
theorem decVext_enc (op : BitVec 7) (o : Vext) : decVext (encVext op o).1 ((encVext op o).2.getD 0#32) = some o := by
  have h : fld (encVext op o).1 0 4 = o.g ∧ fld (encVext op o).1 5 1 = 0#1 ∧ fld (encVext op o).1 6 4 = o.ty ∧ fld (encVext op o).1 10 5 = 0#5 ∧ fld (encVext op o).1 15 5 = o.va ∧ fld (encVext op o).1 20 5 = 0#5 ∧ fld ((encVext op o).2.getD 0#32) 0 7 = o.el ∧ fld ((encVext op o).2.getD 0#32) 7 10 = 0#10 ∧ fld ((encVext op o).2.getD 0#32) 17 6 = o.gs ∧ fld ((encVext op o).2.getD 0#32) 23 9 = 0#9 := by
    refine ⟨?_, ?_, ?_, ?_, ?_, ?_, ?_, ?_, ?_, ?_⟩ <;> unfold encVext fld <;>
    (repeat first | exact rfl' _ | refine hi (by decide) ?_ | refine lo (by decide) ?_ | rfl)
  simp [decVext, h]

/-! ### Vslide -/

/-- The opcode of format Vslide. -/
theorem opVslide (op : BitVec 7) (o : Vslide) : fld (encVslide op o).1 25 7 = op := by
  unfold encVslide fld
  repeat first | exact rfl' _ | refine hi (by decide) ?_ | refine lo (by decide) ?_ | rfl

/-- X of format Vslide. -/
theorem xVslide (op : BitVec 7) (o : Vslide) : fld (encVslide op o).1 4 1 = 1#1 := by
  unfold encVslide fld
  repeat first | exact rfl' _ | refine hi (by decide) ?_ | refine lo (by decide) ?_ | rfl

/-- The decoder of format Vslide gives back what its encoder laid out. -/
theorem decVslide_enc (op : BitVec 7) (o : Vslide) : decVslide (encVslide op o).1 ((encVslide op o).2.getD 0#32) = some o := by
  have h : fld (encVslide op o).1 0 4 = o.g ∧ fld (encVslide op o).1 5 1 = o.v1 ∧ fld (encVslide op o).1 6 4 = o.ty ∧ fld (encVslide op o).1 10 5 = o.vb ∧ fld (encVslide op o).1 15 5 = o.va ∧ fld (encVslide op o).1 20 5 = o.vd ∧ fld ((encVslide op o).2.getD 0#32) 0 7 = o.dist ∧ fld ((encVslide op o).2.getD 0#32) 7 25 = 0#25 := by
    refine ⟨?_, ?_, ?_, ?_, ?_, ?_, ?_, ?_⟩ <;> unfold encVslide fld <;>
    (repeat first | exact rfl' _ | refine hi (by decide) ?_ | refine lo (by decide) ?_ | rfl)
  simp [decVslide, h]

/-! ### Vcls -/

/-- The opcode of format Vcls. -/
theorem opVcls (op : BitVec 7) (o : Vcls) : fld (encVcls op o).1 25 7 = op := by
  unfold encVcls fld
  repeat first | exact rfl' _ | refine hi (by decide) ?_ | refine lo (by decide) ?_ | rfl

/-- X of format Vcls. -/
theorem xVcls (op : BitVec 7) (o : Vcls) : fld (encVcls op o).1 4 1 = o.x := by
  unfold encVcls fld
  repeat first | exact rfl' _ | refine hi (by decide) ?_ | refine lo (by decide) ?_ | rfl

/-- The decoder of format Vcls gives back what its encoder laid out. -/
theorem decVcls_enc (op : BitVec 7) (o : Vcls) : decVcls (encVcls op o).1 0 = some o := by
  have h : fld (encVcls op o).1 0 4 = o.g ∧ fld (encVcls op o).1 4 1 = o.x ∧ fld (encVcls op o).1 5 1 = 0#1 ∧ fld (encVcls op o).1 6 4 = o.ty ∧ fld (encVcls op o).1 10 5 = 0#5 ∧ fld (encVcls op o).1 15 5 = o.va ∧ fld (encVcls op o).1 20 5 = o.vd := by
    refine ⟨?_, ?_, ?_, ?_, ?_, ?_, ?_⟩ <;> unfold encVcls fld <;>
    (repeat first | exact rfl' _ | refine hi (by decide) ?_ | refine lo (by decide) ?_ | rfl)
  simp [decVcls, h]

/-- Word 1 of format Vcls is 0. -/
theorem w1Vcls (op : BitVec 7) (o : Vcls) : (encVcls op o).2.getD 0#32 = 0#32 := by
  unfold encVcls
  dsimp only
  split <;> rfl

/-! ### Vsplit -/

/-- The opcode of format Vsplit. -/
theorem opVsplit (op : BitVec 7) (o : Vsplit) : fld (encVsplit op o).1 25 7 = op := by
  unfold encVsplit fld
  repeat first | exact rfl' _ | refine hi (by decide) ?_ | refine lo (by decide) ?_ | rfl

/-- X of format Vsplit. -/
theorem xVsplit (op : BitVec 7) (o : Vsplit) : fld (encVsplit op o).1 4 1 = 1#1 := by
  unfold encVsplit fld
  repeat first | exact rfl' _ | refine hi (by decide) ?_ | refine lo (by decide) ?_ | rfl

/-- The decoder of format Vsplit gives back what its encoder laid out. -/
theorem decVsplit_enc (op : BitVec 7) (o : Vsplit) : decVsplit (encVsplit op o).1 ((encVsplit op o).2.getD 0#32) = some o := by
  have h : fld (encVsplit op o).1 0 4 = o.g ∧ fld (encVsplit op o).1 5 5 = 0#5 ∧ fld (encVsplit op o).1 10 5 = o.vb ∧ fld (encVsplit op o).1 15 5 = o.va ∧ fld (encVsplit op o).1 20 5 = o.vd ∧ fld ((encVsplit op o).2.getD 0#32) 0 3 = o.t ∧ fld ((encVsplit op o).2.getD 0#32) 3 3 = o.s1 ∧ fld ((encVsplit op o).2.getD 0#32) 6 11 = 0#11 ∧ fld ((encVsplit op o).2.getD 0#32) 17 6 = o.gs ∧ fld ((encVsplit op o).2.getD 0#32) 23 9 = 0#9 := by
    refine ⟨?_, ?_, ?_, ?_, ?_, ?_, ?_, ?_, ?_, ?_⟩ <;> unfold encVsplit fld <;>
    (repeat first | exact rfl' _ | refine hi (by decide) ?_ | refine lo (by decide) ?_ | rfl)
  simp [decVsplit, h]

/-! ### Vjoin -/

/-- The opcode of format Vjoin. -/
theorem opVjoin (op : BitVec 7) (o : Vjoin) : fld (encVjoin op o).1 25 7 = op := by
  unfold encVjoin fld
  repeat first | exact rfl' _ | refine hi (by decide) ?_ | refine lo (by decide) ?_ | rfl

/-- X of format Vjoin. -/
theorem xVjoin (op : BitVec 7) (o : Vjoin) : fld (encVjoin op o).1 4 1 = 1#1 := by
  unfold encVjoin fld
  repeat first | exact rfl' _ | refine hi (by decide) ?_ | refine lo (by decide) ?_ | rfl

/-- The decoder of format Vjoin gives back what its encoder laid out. -/
theorem decVjoin_enc (op : BitVec 7) (o : Vjoin) : decVjoin (encVjoin op o).1 ((encVjoin op o).2.getD 0#32) = some o := by
  have h : fld (encVjoin op o).1 0 4 = o.g ∧ fld (encVjoin op o).1 5 5 = 0#5 ∧ fld (encVjoin op o).1 10 5 = o.vb ∧ fld (encVjoin op o).1 15 5 = o.va ∧ fld (encVjoin op o).1 20 5 = o.vd ∧ fld ((encVjoin op o).2.getD 0#32) 0 4 = o.lv ∧ fld ((encVjoin op o).2.getD 0#32) 4 3 = o.s1 ∧ fld ((encVjoin op o).2.getD 0#32) 7 20 = 0#20 ∧ fld ((encVjoin op o).2.getD 0#32) 27 5 = o.vc := by
    refine ⟨?_, ?_, ?_, ?_, ?_, ?_, ?_, ?_, ?_⟩ <;> unfold encVjoin fld <;>
    (repeat first | exact rfl' _ | refine hi (by decide) ?_ | refine lo (by decide) ?_ | rfl)
  simp [decVjoin, h]

/-! ### Pack -/

/-- The opcode of format Pack. -/
theorem opPack (op : BitVec 7) (o : Pack) : fld (encPack op o).1 25 7 = op := by
  unfold encPack fld
  repeat first | exact rfl' _ | refine hi (by decide) ?_ | refine lo (by decide) ?_ | rfl

/-- X of format Pack. -/
theorem xPack (op : BitVec 7) (o : Pack) : fld (encPack op o).1 4 1 = 1#1 := by
  unfold encPack fld
  repeat first | exact rfl' _ | refine hi (by decide) ?_ | refine lo (by decide) ?_ | rfl

/-- The decoder of format Pack gives back what its encoder laid out. -/
theorem decPack_enc (op : BitVec 7) (o : Pack) : decPack (encPack op o).1 ((encPack op o).2.getD 0#32) = some o := by
  have h : fld (encPack op o).1 0 4 = o.g ∧ fld (encPack op o).1 5 1 = 0#1 ∧ fld (encPack op o).1 6 4 = o.ty ∧ fld (encPack op o).1 10 5 = 0#5 ∧ fld (encPack op o).1 15 5 = o.va ∧ fld (encPack op o).1 20 5 = o.vd ∧ fld ((encPack op o).2.getD 0#32) 0 2 = o.bt ∧ fld ((encPack op o).2.getD 0#32) 2 21 = 0#21 ∧ fld ((encPack op o).2.getD 0#32) 23 1 = o.sat ∧ fld ((encPack op o).2.getD 0#32) 24 3 = o.rm ∧ fld ((encPack op o).2.getD 0#32) 27 5 = 0#5 := by
    refine ⟨?_, ?_, ?_, ?_, ?_, ?_, ?_, ?_, ?_, ?_, ?_⟩ <;> unfold encPack fld <;>
    (repeat first | exact rfl' _ | refine hi (by decide) ?_ | refine lo (by decide) ?_ | rfl)
  simp [decPack, h]

/-! ### Unpack -/

/-- The opcode of format Unpack. -/
theorem opUnpack (op : BitVec 7) (o : Unpack) : fld (encUnpack op o).1 25 7 = op := by
  unfold encUnpack fld
  repeat first | exact rfl' _ | refine hi (by decide) ?_ | refine lo (by decide) ?_ | rfl

/-- X of format Unpack. -/
theorem xUnpack (op : BitVec 7) (o : Unpack) : fld (encUnpack op o).1 4 1 = 1#1 := by
  unfold encUnpack fld
  repeat first | exact rfl' _ | refine hi (by decide) ?_ | refine lo (by decide) ?_ | rfl

/-- The decoder of format Unpack gives back what its encoder laid out. -/
theorem decUnpack_enc (op : BitVec 7) (o : Unpack) : decUnpack (encUnpack op o).1 ((encUnpack op o).2.getD 0#32) = some o := by
  have h : fld (encUnpack op o).1 0 4 = o.g ∧ fld (encUnpack op o).1 5 1 = 0#1 ∧ fld (encUnpack op o).1 6 4 = o.ty ∧ fld (encUnpack op o).1 10 5 = 0#5 ∧ fld (encUnpack op o).1 15 5 = o.va ∧ fld (encUnpack op o).1 20 5 = o.vd ∧ fld ((encUnpack op o).2.getD 0#32) 0 2 = o.bt ∧ fld ((encUnpack op o).2.getD 0#32) 2 30 = 0#30 := by
    refine ⟨?_, ?_, ?_, ?_, ?_, ?_, ?_, ?_⟩ <;> unfold encUnpack fld <;>
    (repeat first | exact rfl' _ | refine hi (by decide) ?_ | refine lo (by decide) ?_ | rfl)
  simp [decUnpack, h]

/-! ### Mmt -/

/-- The opcode of format Mmt. -/
theorem opMmt (op : BitVec 7) (o : Mmt) : fld (encMmt op o).1 25 7 = op := by
  unfold encMmt fld
  repeat first | exact rfl' _ | refine hi (by decide) ?_ | refine lo (by decide) ?_ | rfl

/-- X of format Mmt. -/
theorem xMmt (op : BitVec 7) (o : Mmt) : fld (encMmt op o).1 4 1 = 1#1 := by
  unfold encMmt fld
  repeat first | exact rfl' _ | refine hi (by decide) ?_ | refine lo (by decide) ?_ | rfl

/-- The decoder of format Mmt gives back what its encoder laid out. -/
theorem decMmt_enc (op : BitVec 7) (o : Mmt) : decMmt (encMmt op o).1 ((encMmt op o).2.getD 0#32) = some o := by
  have h : fld (encMmt op o).1 0 4 = o.g ∧ fld (encMmt op o).1 5 2 = o.f ∧ fld (encMmt op o).1 7 6 = o.bk ∧ fld (encMmt op o).1 13 6 = o.b ∧ fld (encMmt op o).1 19 6 = o.a ∧ fld ((encMmt op o).2.getD 0#32) 0 1 = o.st ∧ fld ((encMmt op o).2.getD 0#32) 1 9 = 0#9 ∧ fld ((encMmt op o).2.getD 0#32) 10 4 = o.ty ∧ fld ((encMmt op o).2.getD 0#32) 14 7 = 0#7 ∧ fld ((encMmt op o).2.getD 0#32) 21 3 = o.tile ∧ fld ((encMmt op o).2.getD 0#32) 24 3 = o.scp ∧ fld ((encMmt op o).2.getD 0#32) 27 2 = o.ar ∧ fld ((encMmt op o).2.getD 0#32) 29 3 = o.step := by
    refine ⟨?_, ?_, ?_, ?_, ?_, ?_, ?_, ?_, ?_, ?_, ?_, ?_, ?_⟩ <;> unfold encMmt fld <;>
    (repeat first | exact rfl' _ | refine hi (by decide) ?_ | refine lo (by decide) ?_ | rfl)
  simp [decMmt, h]

/-! ### Mzero -/

/-- The opcode of format Mzero. -/
theorem opMzero (op : BitVec 7) (o : Mzero) : fld (encMzero op o).1 25 7 = op := by
  unfold encMzero fld
  repeat first | exact rfl' _ | refine hi (by decide) ?_ | refine lo (by decide) ?_ | rfl

/-- X of format Mzero. -/
theorem xMzero (op : BitVec 7) (o : Mzero) : fld (encMzero op o).1 4 1 = 1#1 := by
  unfold encMzero fld
  repeat first | exact rfl' _ | refine hi (by decide) ?_ | refine lo (by decide) ?_ | rfl

/-- The decoder of format Mzero gives back what its encoder laid out. -/
theorem decMzero_enc (op : BitVec 7) (o : Mzero) : decMzero (encMzero op o).1 ((encMzero op o).2.getD 0#32) = some o := by
  have h : fld (encMzero op o).1 0 4 = o.g ∧ fld (encMzero op o).1 5 20 = 0#20 ∧ fld ((encMzero op o).2.getD 0#32) 0 21 = 0#21 ∧ fld ((encMzero op o).2.getD 0#32) 21 3 = o.tile ∧ fld ((encMzero op o).2.getD 0#32) 24 8 = 0#8 := by
    refine ⟨?_, ?_, ?_, ?_, ?_⟩ <;> unfold encMzero fld <;>
    (repeat first | exact rfl' _ | refine hi (by decide) ?_ | refine lo (by decide) ?_ | rfl)
  simp [decMzero, h]

/-! ### Mdrain -/

/-- The opcode of format Mdrain. -/
theorem opMdrain (op : BitVec 7) (o : Mdrain) : fld (encMdrain op o).1 25 7 = op := by
  unfold encMdrain fld
  repeat first | exact rfl' _ | refine hi (by decide) ?_ | refine lo (by decide) ?_ | rfl

/-- X of format Mdrain. -/
theorem xMdrain (op : BitVec 7) (o : Mdrain) : fld (encMdrain op o).1 4 1 = 1#1 := by
  unfold encMdrain fld
  repeat first | exact rfl' _ | refine hi (by decide) ?_ | refine lo (by decide) ?_ | rfl

/-- The decoder of format Mdrain gives back what its encoder laid out. -/
theorem decMdrain_enc (op : BitVec 7) (o : Mdrain) : decMdrain (encMdrain op o).1 ((encMdrain op o).2.getD 0#32) = some o := by
  have h : fld (encMdrain op o).1 0 4 = o.g ∧ fld (encMdrain op o).1 5 2 = 0#2 ∧ fld (encMdrain op o).1 7 6 = o.bk ∧ fld (encMdrain op o).1 13 6 = 0#6 ∧ fld (encMdrain op o).1 19 6 = o.a ∧ fld ((encMdrain op o).2.getD 0#32) 0 3 = o.rm ∧ fld ((encMdrain op o).2.getD 0#32) 3 1 = o.sat ∧ fld ((encMdrain op o).2.getD 0#32) 4 6 = 0#6 ∧ fld ((encMdrain op o).2.getD 0#32) 10 4 = o.ty ∧ fld ((encMdrain op o).2.getD 0#32) 14 7 = 0#7 ∧ fld ((encMdrain op o).2.getD 0#32) 21 3 = o.tile ∧ fld ((encMdrain op o).2.getD 0#32) 24 3 = o.scp ∧ fld ((encMdrain op o).2.getD 0#32) 27 2 = o.ar ∧ fld ((encMdrain op o).2.getD 0#32) 29 3 = o.step := by
    refine ⟨?_, ?_, ?_, ?_, ?_, ?_, ?_, ?_, ?_, ?_, ?_, ?_, ?_, ?_⟩ <;> unfold encMdrain fld <;>
    (repeat first | exact rfl' _ | refine hi (by decide) ?_ | refine lo (by decide) ?_ | rfl)
  simp [decMdrain, h]

/-! ### Mdadd -/

/-- The opcode of format Mdadd. -/
theorem opMdadd (op : BitVec 7) (o : Mdadd) : fld (encMdadd op o).1 25 7 = op := by
  unfold encMdadd fld
  repeat first | exact rfl' _ | refine hi (by decide) ?_ | refine lo (by decide) ?_ | rfl

/-- X of format Mdadd. -/
theorem xMdadd (op : BitVec 7) (o : Mdadd) : fld (encMdadd op o).1 4 1 = 1#1 := by
  unfold encMdadd fld
  repeat first | exact rfl' _ | refine hi (by decide) ?_ | refine lo (by decide) ?_ | rfl

/-- The decoder of format Mdadd gives back what its encoder laid out. -/
theorem decMdadd_enc (op : BitVec 7) (o : Mdadd) : decMdadd (encMdadd op o).1 ((encMdadd op o).2.getD 0#32) = some o := by
  have h : fld (encMdadd op o).1 0 4 = o.g ∧ fld (encMdadd op o).1 5 2 = o.f ∧ fld (encMdadd op o).1 7 6 = o.bk ∧ fld (encMdadd op o).1 13 6 = 0#6 ∧ fld (encMdadd op o).1 19 6 = o.a ∧ fld ((encMdadd op o).2.getD 0#32) 0 21 = 0#21 ∧ fld ((encMdadd op o).2.getD 0#32) 21 3 = o.tile ∧ fld ((encMdadd op o).2.getD 0#32) 24 3 = o.scp ∧ fld ((encMdadd op o).2.getD 0#32) 27 2 = o.ar ∧ fld ((encMdadd op o).2.getD 0#32) 29 3 = o.step := by
    refine ⟨?_, ?_, ?_, ?_, ?_, ?_, ?_, ?_, ?_, ?_⟩ <;> unfold encMdadd fld <;>
    (repeat first | exact rfl' _ | refine hi (by decide) ?_ | refine lo (by decide) ?_ | rfl)
  simp [decMdadd, h]

/-! ### Mbrd -/

/-- The opcode of format Mbrd. -/
theorem opMbrd (op : BitVec 7) (o : Mbrd) : fld (encMbrd op o).1 25 7 = op := by
  unfold encMbrd fld
  repeat first | exact rfl' _ | refine hi (by decide) ?_ | refine lo (by decide) ?_ | rfl

/-- X of format Mbrd. -/
theorem xMbrd (op : BitVec 7) (o : Mbrd) : fld (encMbrd op o).1 4 1 = 1#1 := by
  unfold encMbrd fld
  repeat first | exact rfl' _ | refine hi (by decide) ?_ | refine lo (by decide) ?_ | rfl

/-- The decoder of format Mbrd gives back what its encoder laid out. -/
theorem decMbrd_enc (op : BitVec 7) (o : Mbrd) : decMbrd (encMbrd op o).1 ((encMbrd op o).2.getD 0#32) = some o := by
  have h : fld (encMbrd op o).1 0 4 = o.g ∧ fld (encMbrd op o).1 5 14 = 0#14 ∧ fld (encMbrd op o).1 19 6 = o.a ∧ fld ((encMbrd op o).2.getD 0#32) 0 5 = o.v ∧ fld ((encMbrd op o).2.getD 0#32) 5 5 = 0#5 ∧ fld ((encMbrd op o).2.getD 0#32) 10 4 = o.ty ∧ fld ((encMbrd op o).2.getD 0#32) 14 7 = 0#7 ∧ fld ((encMbrd op o).2.getD 0#32) 21 3 = o.tile ∧ fld ((encMbrd op o).2.getD 0#32) 24 8 = 0#8 := by
    refine ⟨?_, ?_, ?_, ?_, ?_, ?_, ?_, ?_, ?_⟩ <;> unfold encMbrd fld <;>
    (repeat first | exact rfl' _ | refine hi (by decide) ?_ | refine lo (by decide) ?_ | rfl)
  simp [decMbrd, h]

/-! ### Mstat -/

/-- The opcode of format Mstat. -/
theorem opMstat (op : BitVec 7) (o : Mstat) : fld (encMstat op o).1 25 7 = op := by
  unfold encMstat fld
  repeat first | exact rfl' _ | refine hi (by decide) ?_ | refine lo (by decide) ?_ | rfl

/-- X of format Mstat. -/
theorem xMstat (op : BitVec 7) (o : Mstat) : fld (encMstat op o).1 4 1 = 0#1 := by
  unfold encMstat fld
  repeat first | exact rfl' _ | refine hi (by decide) ?_ | refine lo (by decide) ?_ | rfl

/-- The decoder of format Mstat gives back what its encoder laid out. -/
theorem decMstat_enc (op : BitVec 7) (o : Mstat) : decMstat (encMstat op o).1 = some o := by
  have h : fld (encMstat op o).1 0 4 = o.g ∧ fld (encMstat op o).1 5 11 = 0#11 ∧ fld (encMstat op o).1 16 3 = o.tile ∧ fld (encMstat op o).1 19 6 = o.d := by
    refine ⟨?_, ?_, ?_, ?_⟩ <;> unfold encMstat fld <;>
    (repeat first | exact rfl' _ | refine hi (by decide) ?_ | refine lo (by decide) ?_ | rfl)
  simp [decMstat, h]

/-! ### Cpy -/

/-- The opcode of format Cpy. -/
theorem opCpy (op : BitVec 7) (o : Cpy) : fld (encCpy op o).1 25 7 = op := by
  unfold encCpy fld
  repeat first | exact rfl' _ | refine hi (by decide) ?_ | refine lo (by decide) ?_ | rfl

/-- X of format Cpy. -/
theorem xCpy (op : BitVec 7) (o : Cpy) : fld (encCpy op o).1 4 1 = 1#1 := by
  unfold encCpy fld
  repeat first | exact rfl' _ | refine hi (by decide) ?_ | refine lo (by decide) ?_ | rfl

/-- The decoder of format Cpy gives back what its encoder laid out. -/
theorem decCpy_enc (op : BitVec 7) (o : Cpy) : decCpy (encCpy op o).1 ((encCpy op o).2.getD 0#32) = some o := by
  have h : fld (encCpy op o).1 0 4 = o.g ∧ fld (encCpy op o).1 5 2 = 0#2 ∧ fld (encCpy op o).1 7 6 = o.bk ∧ fld (encCpy op o).1 13 6 = 0#6 ∧ fld (encCpy op o).1 19 6 = o.a ∧ fld ((encCpy op o).2.getD 0#32) 0 14 = 0#14 ∧ fld ((encCpy op o).2.getD 0#32) 14 1 = o.tg ∧ fld ((encCpy op o).2.getD 0#32) 15 6 = o.tag ∧ fld ((encCpy op o).2.getD 0#32) 21 3 = 0#3 ∧ fld ((encCpy op o).2.getD 0#32) 24 3 = o.scp ∧ fld ((encCpy op o).2.getD 0#32) 27 2 = o.ar ∧ fld ((encCpy op o).2.getD 0#32) 29 3 = o.step := by
    refine ⟨?_, ?_, ?_, ?_, ?_, ?_, ?_, ?_, ?_, ?_, ?_, ?_⟩ <;> unfold encCpy fld <;>
    (repeat first | exact rfl' _ | refine hi (by decide) ?_ | refine lo (by decide) ?_ | rfl)
  simp [decCpy, h]

/-! ### Cpyq -/

/-- The opcode of format Cpyq. -/
theorem opCpyq (op : BitVec 7) (o : Cpyq) : fld (encCpyq op o).1 25 7 = op := by
  unfold encCpyq fld
  repeat first | exact rfl' _ | refine hi (by decide) ?_ | refine lo (by decide) ?_ | rfl

/-- X of format Cpyq. -/
theorem xCpyq (op : BitVec 7) (o : Cpyq) : fld (encCpyq op o).1 4 1 = 0#1 := by
  unfold encCpyq fld
  repeat first | exact rfl' _ | refine hi (by decide) ?_ | refine lo (by decide) ?_ | rfl

/-- The decoder of format Cpyq gives back what its encoder laid out. -/
theorem decCpyq_enc (op : BitVec 7) (o : Cpyq) : decCpyq (encCpyq op o).1 = some o := by
  have h : fld (encCpyq op o).1 0 4 = o.g ∧ fld (encCpyq op o).1 5 8 = 0#8 ∧ fld (encCpyq op o).1 13 6 = o.tag ∧ fld (encCpyq op o).1 19 6 = o.d := by
    refine ⟨?_, ?_, ?_, ?_⟩ <;> unfold encCpyq fld <;>
    (repeat first | exact rfl' _ | refine hi (by decide) ?_ | refine lo (by decide) ?_ | rfl)
  simp [decCpyq, h]

/-! ### Bkq -/

/-- The opcode of format Bkq. -/
theorem opBkq (op : BitVec 7) (o : Bkq) : fld (encBkq op o).1 25 7 = op := by
  unfold encBkq fld
  repeat first | exact rfl' _ | refine hi (by decide) ?_ | refine lo (by decide) ?_ | rfl

/-- X of format Bkq. -/
theorem xBkq (op : BitVec 7) (o : Bkq) : fld (encBkq op o).1 4 1 = 0#1 := by
  unfold encBkq fld
  repeat first | exact rfl' _ | refine hi (by decide) ?_ | refine lo (by decide) ?_ | rfl

/-- The decoder of format Bkq gives back what its encoder laid out. -/
theorem decBkq_enc (op : BitVec 7) (o : Bkq) : decBkq (encBkq op o).1 = some o := by
  have h : fld (encBkq op o).1 0 4 = o.g ∧ fld (encBkq op o).1 5 5 = 0#5 ∧ fld (encBkq op o).1 10 3 = o.step ∧ fld (encBkq op o).1 13 6 = o.a ∧ fld (encBkq op o).1 19 6 = o.d := by
    refine ⟨?_, ?_, ?_, ?_, ?_⟩ <;> unfold encBkq fld <;>
    (repeat first | exact rfl' _ | refine hi (by decide) ?_ | refine lo (by decide) ?_ | rfl)
  simp [decBkq, h]

/-! ### Bkrel -/

/-- The opcode of format Bkrel. -/
theorem opBkrel (op : BitVec 7) (o : Bkrel) : fld (encBkrel op o).1 25 7 = op := by
  unfold encBkrel fld
  repeat first | exact rfl' _ | refine hi (by decide) ?_ | refine lo (by decide) ?_ | rfl

/-- X of format Bkrel. -/
theorem xBkrel (op : BitVec 7) (o : Bkrel) : fld (encBkrel op o).1 4 1 = 0#1 := by
  unfold encBkrel fld
  repeat first | exact rfl' _ | refine hi (by decide) ?_ | refine lo (by decide) ?_ | rfl

/-- The decoder of format Bkrel gives back what its encoder laid out. -/
theorem decBkrel_enc (op : BitVec 7) (o : Bkrel) : decBkrel (encBkrel op o).1 = some o := by
  have h : fld (encBkrel op o).1 0 4 = o.g ∧ fld (encBkrel op o).1 5 5 = 0#5 ∧ fld (encBkrel op o).1 10 3 = o.step ∧ fld (encBkrel op o).1 13 6 = o.a ∧ fld (encBkrel op o).1 19 6 = 0#6 := by
    refine ⟨?_, ?_, ?_, ?_, ?_⟩ <;> unfold encBkrel fld <;>
    (repeat first | exact rfl' _ | refine hi (by decide) ?_ | refine lo (by decide) ?_ | rfl)
  simp [decBkrel, h]

/-! ### Spawn -/

/-- The opcode of format Spawn. -/
theorem opSpawn (op : BitVec 7) (o : Spawn) : fld (encSpawn op o).1 25 7 = op := by
  unfold encSpawn fld
  repeat first | exact rfl' _ | refine hi (by decide) ?_ | refine lo (by decide) ?_ | rfl

/-- X of format Spawn. -/
theorem xSpawn (op : BitVec 7) (o : Spawn) : fld (encSpawn op o).1 4 1 = 0#1 := by
  unfold encSpawn fld
  repeat first | exact rfl' _ | refine hi (by decide) ?_ | refine lo (by decide) ?_ | rfl

/-- The decoder of format Spawn gives back what its encoder laid out. -/
theorem decSpawn_enc (op : BitVec 7) (o : Spawn) : decSpawn (encSpawn op o).1 = some o := by
  have h : fld (encSpawn op o).1 0 4 = o.g ∧ fld (encSpawn op o).1 5 2 = o.pri ∧ fld (encSpawn op o).1 7 6 = o.b ∧ fld (encSpawn op o).1 13 6 = o.a ∧ fld (encSpawn op o).1 19 6 = o.d := by
    refine ⟨?_, ?_, ?_, ?_, ?_⟩ <;> unfold encSpawn fld <;>
    (repeat first | exact rfl' _ | refine hi (by decide) ?_ | refine lo (by decide) ?_ | rfl)
  simp [decSpawn, h]

/-! ### Fput -/

/-- The opcode of format Fput. -/
theorem opFput (op : BitVec 7) (o : Fput) : fld (encFput op o).1 25 7 = op := by
  unfold encFput fld
  repeat first | exact rfl' _ | refine hi (by decide) ?_ | refine lo (by decide) ?_ | rfl

/-- X of format Fput. -/
theorem xFput (op : BitVec 7) (o : Fput) : fld (encFput op o).1 4 1 = 0#1 := by
  unfold encFput fld
  repeat first | exact rfl' _ | refine hi (by decide) ?_ | refine lo (by decide) ?_ | rfl

/-- The decoder of format Fput gives back what its encoder laid out. -/
theorem decFput_enc (op : BitVec 7) (o : Fput) : decFput (encFput op o).1 = some o := by
  have h : fld (encFput op o).1 0 4 = o.g ∧ fld (encFput op o).1 5 2 = 0#2 ∧ fld (encFput op o).1 7 6 = o.b ∧ fld (encFput op o).1 13 6 = o.a ∧ fld (encFput op o).1 19 6 = 0#6 := by
    refine ⟨?_, ?_, ?_, ?_, ?_⟩ <;> unfold encFput fld <;>
    (repeat first | exact rfl' _ | refine hi (by decide) ?_ | refine lo (by decide) ?_ | rfl)
  simp [decFput, h]

/-! ### Frq -/

/-- The opcode of format Frq. -/
theorem opFrq (op : BitVec 7) (o : Frq) : fld (encFrq op o).1 25 7 = op := by
  unfold encFrq fld
  repeat first | exact rfl' _ | refine hi (by decide) ?_ | refine lo (by decide) ?_ | rfl

/-- X of format Frq. -/
theorem xFrq (op : BitVec 7) (o : Frq) : fld (encFrq op o).1 4 1 = 1#1 := by
  unfold encFrq fld
  repeat first | exact rfl' _ | refine hi (by decide) ?_ | refine lo (by decide) ?_ | rfl

/-- The decoder of format Frq gives back what its encoder laid out. -/
theorem decFrq_enc (op : BitVec 7) (o : Frq) : decFrq (encFrq op o).1 ((encFrq op o).2.getD 0#32) = some o := by
  have h : fld (encFrq op o).1 0 4 = o.g ∧ fld (encFrq op o).1 5 2 = 0#2 ∧ fld (encFrq op o).1 7 6 = o.b ∧ fld (encFrq op o).1 13 6 = o.a ∧ fld (encFrq op o).1 19 6 = o.d ∧ fld ((encFrq op o).2.getD 0#32) 0 3 = o.sel ∧ fld ((encFrq op o).2.getD 0#32) 3 29 = 0#29 := by
    refine ⟨?_, ?_, ?_, ?_, ?_, ?_, ?_⟩ <;> unfold encFrq fld <;>
    (repeat first | exact rfl' _ | refine hi (by decide) ?_ | refine lo (by decide) ?_ | rfl)
  simp [decFrq, h]

/-! ### Frgate -/

/-- The opcode of format Frgate. -/
theorem opFrgate (op : BitVec 7) (o : Frgate) : fld (encFrgate op o).1 25 7 = op := by
  unfold encFrgate fld
  repeat first | exact rfl' _ | refine hi (by decide) ?_ | refine lo (by decide) ?_ | rfl

/-- X of format Frgate. -/
theorem xFrgate (op : BitVec 7) (o : Frgate) : fld (encFrgate op o).1 4 1 = 1#1 := by
  unfold encFrgate fld
  repeat first | exact rfl' _ | refine hi (by decide) ?_ | refine lo (by decide) ?_ | rfl

/-- The decoder of format Frgate gives back what its encoder laid out. -/
theorem decFrgate_enc (op : BitVec 7) (o : Frgate) : decFrgate (encFrgate op o).1 ((encFrgate op o).2.getD 0#32) = some o := by
  have h : fld (encFrgate op o).1 0 4 = o.g ∧ fld (encFrgate op o).1 5 2 = 0#2 ∧ fld (encFrgate op o).1 7 6 = o.b ∧ fld (encFrgate op o).1 13 6 = o.a ∧ fld (encFrgate op o).1 19 6 = 0#6 ∧ fld ((encFrgate op o).2.getD 0#32) 0 3 = o.face ∧ fld ((encFrgate op o).2.getD 0#32) 3 29 = 0#29 := by
    refine ⟨?_, ?_, ?_, ?_, ?_, ?_, ?_⟩ <;> unfold encFrgate fld <;>
    (repeat first | exact rfl' _ | refine hi (by decide) ?_ | refine lo (by decide) ?_ | rfl)
  simp [decFrgate, h]

/-! ### Code -/

/-- The opcode of format Code. -/
theorem opCode (op : BitVec 7) (o : Code) : fld (encCode op o).1 25 7 = op := by
  unfold encCode fld
  repeat first | exact rfl' _ | refine hi (by decide) ?_ | refine lo (by decide) ?_ | rfl

/-- X of format Code. -/
theorem xCode (op : BitVec 7) (o : Code) : fld (encCode op o).1 4 1 = 0#1 := by
  unfold encCode fld
  repeat first | exact rfl' _ | refine hi (by decide) ?_ | refine lo (by decide) ?_ | rfl

/-- The decoder of format Code gives back what its encoder laid out. -/
theorem decCode_enc (op : BitVec 7) (o : Code) : decCode (encCode op o).1 = some o := by
  have h : fld (encCode op o).1 0 4 = o.g ∧ fld (encCode op o).1 5 20 = o.code := by
    refine ⟨?_, ?_⟩ <;> unfold encCode fld <;>
    (repeat first | exact rfl' _ | refine hi (by decide) ?_ | refine lo (by decide) ?_ | rfl)
  simp [decCode, h]

/-! ### AMode -/

/-- The opcode of format AMode. -/
theorem opAMode (op : BitVec 7) (o : AMode) : fld (encAMode op o).1 25 7 = op := by
  unfold encAMode fld
  repeat first | exact rfl' _ | refine hi (by decide) ?_ | refine lo (by decide) ?_ | rfl

/-- X of format AMode. -/
theorem xAMode (op : BitVec 7) (o : AMode) : fld (encAMode op o).1 4 1 = 0#1 := by
  unfold encAMode fld
  repeat first | exact rfl' _ | refine hi (by decide) ?_ | refine lo (by decide) ?_ | rfl

/-- The decoder of format AMode gives back what its encoder laid out. -/
theorem decAMode_enc (op : BitVec 7) (o : AMode) : decAMode (encAMode op o).1 = some o := by
  have h : fld (encAMode op o).1 0 4 = o.g ∧ fld (encAMode op o).1 5 2 = o.mode ∧ fld (encAMode op o).1 7 6 = 0#6 ∧ fld (encAMode op o).1 13 6 = o.a ∧ fld (encAMode op o).1 19 6 = 0#6 := by
    refine ⟨?_, ?_, ?_, ?_, ?_⟩ <;> unfold encAMode fld <;>
    (repeat first | exact rfl' _ | refine hi (by decide) ?_ | refine lo (by decide) ?_ | rfl)
  simp [decAMode, h]

/-! ### Csr -/

/-- The opcode of format Csr. -/
theorem opCsr (op : BitVec 7) (o : Csr) : fld (encCsr op o).1 25 7 = op := by
  unfold encCsr fld
  repeat first | exact rfl' _ | refine hi (by decide) ?_ | refine lo (by decide) ?_ | rfl

/-- X of format Csr. -/
theorem xCsr (op : BitVec 7) (o : Csr) : fld (encCsr op o).1 4 1 = 0#1 := by
  unfold encCsr fld
  repeat first | exact rfl' _ | refine hi (by decide) ?_ | refine lo (by decide) ?_ | rfl

/-- The decoder of format Csr gives back what its encoder laid out. -/
theorem decCsr_enc (op : BitVec 7) (o : Csr) : decCsr (encCsr op o).1 = some o := by
  have h : fld (encCsr op o).1 0 4 = o.g ∧ fld (encCsr op o).1 5 2 = 0#2 ∧ fld (encCsr op o).1 7 12 = o.num ∧ fld (encCsr op o).1 19 6 = o.d := by
    refine ⟨?_, ?_, ?_, ?_⟩ <;> unfold encCsr fld <;>
    (repeat first | exact rfl' _ | refine hi (by decide) ?_ | refine lo (by decide) ?_ | rfl)
  simp [decCsr, h]

/-! ### Lsi -/

/-- The opcode of format Lsi. -/
theorem opLsi (op : BitVec 7) (o : Lsi) : fld (encLsi op o).1 25 7 = op := by
  unfold encLsi fld
  repeat first | exact rfl' _ | refine hi (by decide) ?_ | refine lo (by decide) ?_ | rfl

/-- X of format Lsi. -/
theorem xLsi (op : BitVec 7) (o : Lsi) : fld (encLsi op o).1 4 1 = 0#1 := by
  unfold encLsi fld
  repeat first | exact rfl' _ | refine hi (by decide) ?_ | refine lo (by decide) ?_ | rfl

/-- The decoder of format Lsi gives back what its encoder laid out. -/
theorem decLsi_enc (op : BitVec 7) (o : Lsi) : decLsi (encLsi op o).1 = some o := by
  have h : fld (encLsi op o).1 0 4 = o.g ∧ fld (encLsi op o).1 5 2 = 0#2 ∧ fld (encLsi op o).1 7 12 = 15#12 ∧ fld (encLsi op o).1 19 6 = o.d := by
    refine ⟨?_, ?_, ?_, ?_⟩ <;> unfold encLsi fld <;>
    (repeat first | exact rfl' _ | refine hi (by decide) ?_ | refine lo (by decide) ?_ | rfl)
  simp [decLsi, h]

/-- Words of format Sim are none of format Tri. -/
theorem decTri_encSim (op : BitVec 7) (o : Sim) : decTri (encSim op o).1 = none := by
  have h : fld (encSim op o).1 6 1 = 1#1 := by
    unfold encSim fld
    repeat first | exact rfl' _ | refine hi (by decide) ?_ | refine lo (by decide) ?_ | rfl
  simp [decTri, h]

/-- Words of format CallG are none of format CallR. -/
theorem decCallR_encCallG (op : BitVec 7) (o : CallG) : decCallR (encCallG op o).1 = none := by
  have h : fld (encCallG op o).1 24 1 = 1#1 := by
    unfold encCallG fld
    repeat first | exact rfl' _ | refine hi (by decide) ?_ | refine lo (by decide) ?_ | rfl
  simp [decCallR, h]

/-- Words of format VshI are none of format Vsh. -/
theorem decVsh_encVshI (op : BitVec 7) (o : VshI) : decVsh (encVshI op o).1 ((encVshI op o).2.getD 0#32) = none := by
  have h : fld (encVshI op o).1 5 1 = 1#1 := by
    unfold encVshI fld
    repeat first | exact rfl' _ | refine hi (by decide) ?_ | refine lo (by decide) ?_ | rfl
  simp [decVsh, h]

/-- Words of format VbcE are none of format VbcS. -/
theorem decVbcS_encVbcE (op : BitVec 7) (o : VbcE) : decVbcS (encVbcE op o).1 ((encVbcE op o).2.getD 0#32) = none := by
  have h : fld ((encVbcE op o).2.getD 0#32) 16 1 = 0#1 := by
    unfold encVbcE fld
    repeat first | exact rfl' _ | refine hi (by decide) ?_ | refine lo (by decide) ?_ | rfl
  simp [decVbcS, h]

/-- Words of CSRW that do not name sr.lsinv are none of format Lsi. -/
theorem decLsi_encCsr (op : BitVec 7) (o : Csr) (hn : o.num ≠ 15#12) : decLsi (encCsr op o).1 = none := by
  have h : fld (encCsr op o).1 7 12 = o.num := by
    unfold encCsr fld
    repeat first | exact rfl' _ | refine hi (by decide) ?_ | refine lo (by decide) ?_ | rfl
  simp [decLsi, h, hn]

end Sys2Proof.Laws.Encoding
end

