-- ==== Sys2Proof/Laws/PerInstr.lean ====
section
/-! SUPPORT. Statements made for every instruction, one lemma per constructor. RoundTrip: the words the encoder lays out
for a well-formed instruction decode to that instruction (spec/06_encoding.md R114 to R129). -/

/-- The words of `i` decode to `i`, where `i` is well formed and has words at all (a device event has none). -/
def Sys2Proof.Laws.RoundTrip.Statement (i : Sys2Proof.Instr) : Prop :=
  Sys2Proof.wellFormed i = true → ∀ w ∈ Sys2Proof.encode i, Sys2Proof.decode w.1 (w.2.getD 0#32) = .ok i

namespace Sys2Proof.Laws.RoundTrip

open Sys2Proof.Laws.Encoding

/-- Decoding a first word with X = 0. -/
theorem decode0 {w w1 : IWord} {op : BitVec 7} {i : Instr} (ho : fld w 25 7 = op) (hx : fld w 4 1 = 0#1)
    (hn : (op == 0 || op == 127) = false) (h : decodeX0 op w = .ok (some i)) : decode w w1 = .ok i := by
  unfold decode
  simp only [ho, hx, hn, h, Bool.false_eq_true, if_false, beq_iff_eq, BitVec.reduceEq, if_true]

/-- Decoding a pair. -/
theorem decode1 {w w1 : IWord} {op : BitVec 7} {i : Instr} (ho : fld w 25 7 = op) (hx : fld w 4 1 = 1#1)
    (hn : (op == 0 || op == 127) = false) (h : decodeX1 op w w1 = .ok (some i)) : decode w w1 = .ok i := by
  unfold decode
  simp only [ho, hx, hn, h, Bool.false_eq_true, if_false, beq_iff_eq, BitVec.reduceEq, if_true]

/-- The only format of an opcode. -/
theorem only {α : Type} {f : α → Instr} {x : Option α} {o : α} (h : x = some o) :
    (.ok (x.map f) : Except DecErr (Option Instr)) = .ok (some (f o)) := by
  rw [h]; rfl

/-- The first of two formats of an opcode. -/
theorem first {α : Type} {f : α → Instr} {x : Option α} {o : α} {y : Unit → Option Instr} (h : x = some o) :
    (.ok ((x.map f).orElse y) : Except DecErr (Option Instr)) = .ok (some (f o)) := by
  rw [h]; rfl

/-- The second of two formats of an opcode. -/
theorem second {α β : Type} {f : α → Instr} {g : β → Instr} {x : Option α} {z : Option β} {o : β} (h0 : x = none)
    (h : z = some o) : (.ok ((x.map f).orElse fun _ => z.map g) : Except DecErr (Option Instr)) = .ok (some (g o)) := by
  rw [h0, h]; rfl

theorem addTri (o : Tri) : Statement (.addTri o) := by
  intro hw w h
  obtain rfl : encTri 1 o = w := Option.some.inj h
  exact decode0 (opTri 1 o) (xTri 1 o) rfl (first (decTri_enc 1 o))
theorem addSim (o : Sim) : Statement (.addSim o) := by
  intro hw w h
  obtain rfl : encSim 1 o = w := Option.some.inj h
  exact decode0 (opSim 1 o) (xSim 1 o) rfl (second (decTri_encSim 1 o) (decSim_enc 1 o))
theorem addLim (o : Lim) : Statement (.addLim o) := by
  intro hw w h
  obtain rfl : encLim 1 o = w := Option.some.inj h
  exact decode1 (opLim 1 o) (xLim 1 o) rfl (only (decLim_enc 1 o))
theorem subTri (o : Tri) : Statement (.subTri o) := by
  intro hw w h
  obtain rfl : encTri 2 o = w := Option.some.inj h
  exact decode0 (opTri 2 o) (xTri 2 o) rfl (first (decTri_enc 2 o))
theorem subSim (o : Sim) : Statement (.subSim o) := by
  intro hw w h
  obtain rfl : encSim 2 o = w := Option.some.inj h
  exact decode0 (opSim 2 o) (xSim 2 o) rfl (second (decTri_encSim 2 o) (decSim_enc 2 o))
theorem subLim (o : Lim) : Statement (.subLim o) := by
  intro hw w h
  obtain rfl : encLim 2 o = w := Option.some.inj h
  exact decode1 (opLim 2 o) (xLim 2 o) rfl (only (decLim_enc 2 o))
theorem mulTri (o : Tri) : Statement (.mulTri o) := by
  intro hw w h
  obtain rfl : encTri 3 o = w := Option.some.inj h
  exact decode0 (opTri 3 o) (xTri 3 o) rfl (first (decTri_enc 3 o))
theorem mulSim (o : Sim) : Statement (.mulSim o) := by
  intro hw w h
  obtain rfl : encSim 3 o = w := Option.some.inj h
  exact decode0 (opSim 3 o) (xSim 3 o) rfl (second (decTri_encSim 3 o) (decSim_enc 3 o))
theorem mulLim (o : Lim) : Statement (.mulLim o) := by
  intro hw w h
  obtain rfl : encLim 3 o = w := Option.some.inj h
  exact decode1 (opLim 3 o) (xLim 3 o) rfl (only (decLim_enc 3 o))
theorem mulhTri (o : Tri) : Statement (.mulhTri o) := by
  intro hw w h
  obtain rfl : encTri 4 o = w := Option.some.inj h
  exact decode0 (opTri 4 o) (xTri 4 o) rfl (first (decTri_enc 4 o))
theorem mulhSim (o : Sim) : Statement (.mulhSim o) := by
  intro hw w h
  obtain rfl : encSim 4 o = w := Option.some.inj h
  exact decode0 (opSim 4 o) (xSim 4 o) rfl (second (decTri_encSim 4 o) (decSim_enc 4 o))
theorem mulhLim (o : Lim) : Statement (.mulhLim o) := by
  intro hw w h
  obtain rfl : encLim 4 o = w := Option.some.inj h
  exact decode1 (opLim 4 o) (xLim 4 o) rfl (only (decLim_enc 4 o))
theorem mulhuTri (o : Tri) : Statement (.mulhuTri o) := by
  intro hw w h
  obtain rfl : encTri 5 o = w := Option.some.inj h
  exact decode0 (opTri 5 o) (xTri 5 o) rfl (first (decTri_enc 5 o))
theorem mulhuSim (o : Sim) : Statement (.mulhuSim o) := by
  intro hw w h
  obtain rfl : encSim 5 o = w := Option.some.inj h
  exact decode0 (opSim 5 o) (xSim 5 o) rfl (second (decTri_encSim 5 o) (decSim_enc 5 o))
theorem mulhuLim (o : Lim) : Statement (.mulhuLim o) := by
  intro hw w h
  obtain rfl : encLim 5 o = w := Option.some.inj h
  exact decode1 (opLim 5 o) (xLim 5 o) rfl (only (decLim_enc 5 o))
theorem divTri (o : Tri) : Statement (.divTri o) := by
  intro hw w h
  obtain rfl : encTri 6 o = w := Option.some.inj h
  exact decode0 (opTri 6 o) (xTri 6 o) rfl (first (decTri_enc 6 o))
theorem divSim (o : Sim) : Statement (.divSim o) := by
  intro hw w h
  obtain rfl : encSim 6 o = w := Option.some.inj h
  exact decode0 (opSim 6 o) (xSim 6 o) rfl (second (decTri_encSim 6 o) (decSim_enc 6 o))
theorem divLim (o : Lim) : Statement (.divLim o) := by
  intro hw w h
  obtain rfl : encLim 6 o = w := Option.some.inj h
  exact decode1 (opLim 6 o) (xLim 6 o) rfl (only (decLim_enc 6 o))
theorem divuTri (o : Tri) : Statement (.divuTri o) := by
  intro hw w h
  obtain rfl : encTri 7 o = w := Option.some.inj h
  exact decode0 (opTri 7 o) (xTri 7 o) rfl (first (decTri_enc 7 o))
theorem divuSim (o : Sim) : Statement (.divuSim o) := by
  intro hw w h
  obtain rfl : encSim 7 o = w := Option.some.inj h
  exact decode0 (opSim 7 o) (xSim 7 o) rfl (second (decTri_encSim 7 o) (decSim_enc 7 o))
theorem divuLim (o : Lim) : Statement (.divuLim o) := by
  intro hw w h
  obtain rfl : encLim 7 o = w := Option.some.inj h
  exact decode1 (opLim 7 o) (xLim 7 o) rfl (only (decLim_enc 7 o))
theorem remTri (o : Tri) : Statement (.remTri o) := by
  intro hw w h
  obtain rfl : encTri 8 o = w := Option.some.inj h
  exact decode0 (opTri 8 o) (xTri 8 o) rfl (first (decTri_enc 8 o))
theorem remSim (o : Sim) : Statement (.remSim o) := by
  intro hw w h
  obtain rfl : encSim 8 o = w := Option.some.inj h
  exact decode0 (opSim 8 o) (xSim 8 o) rfl (second (decTri_encSim 8 o) (decSim_enc 8 o))
theorem remLim (o : Lim) : Statement (.remLim o) := by
  intro hw w h
  obtain rfl : encLim 8 o = w := Option.some.inj h
  exact decode1 (opLim 8 o) (xLim 8 o) rfl (only (decLim_enc 8 o))
theorem remuTri (o : Tri) : Statement (.remuTri o) := by
  intro hw w h
  obtain rfl : encTri 9 o = w := Option.some.inj h
  exact decode0 (opTri 9 o) (xTri 9 o) rfl (first (decTri_enc 9 o))
theorem remuSim (o : Sim) : Statement (.remuSim o) := by
  intro hw w h
  obtain rfl : encSim 9 o = w := Option.some.inj h
  exact decode0 (opSim 9 o) (xSim 9 o) rfl (second (decTri_encSim 9 o) (decSim_enc 9 o))
theorem remuLim (o : Lim) : Statement (.remuLim o) := by
  intro hw w h
  obtain rfl : encLim 9 o = w := Option.some.inj h
  exact decode1 (opLim 9 o) (xLim 9 o) rfl (only (decLim_enc 9 o))
theorem andTri (o : Tri) : Statement (.andTri o) := by
  intro hw w h
  obtain rfl : encTri 10 o = w := Option.some.inj h
  exact decode0 (opTri 10 o) (xTri 10 o) rfl (first (decTri_enc 10 o))
theorem andSim (o : Sim) : Statement (.andSim o) := by
  intro hw w h
  obtain rfl : encSim 10 o = w := Option.some.inj h
  exact decode0 (opSim 10 o) (xSim 10 o) rfl (second (decTri_encSim 10 o) (decSim_enc 10 o))
theorem andLim (o : Lim) : Statement (.andLim o) := by
  intro hw w h
  obtain rfl : encLim 10 o = w := Option.some.inj h
  exact decode1 (opLim 10 o) (xLim 10 o) rfl (only (decLim_enc 10 o))
theorem orTri (o : Tri) : Statement (.orTri o) := by
  intro hw w h
  obtain rfl : encTri 11 o = w := Option.some.inj h
  exact decode0 (opTri 11 o) (xTri 11 o) rfl (first (decTri_enc 11 o))
theorem orSim (o : Sim) : Statement (.orSim o) := by
  intro hw w h
  obtain rfl : encSim 11 o = w := Option.some.inj h
  exact decode0 (opSim 11 o) (xSim 11 o) rfl (second (decTri_encSim 11 o) (decSim_enc 11 o))
theorem orLim (o : Lim) : Statement (.orLim o) := by
  intro hw w h
  obtain rfl : encLim 11 o = w := Option.some.inj h
  exact decode1 (opLim 11 o) (xLim 11 o) rfl (only (decLim_enc 11 o))
theorem xorTri (o : Tri) : Statement (.xorTri o) := by
  intro hw w h
  obtain rfl : encTri 12 o = w := Option.some.inj h
  exact decode0 (opTri 12 o) (xTri 12 o) rfl (first (decTri_enc 12 o))
theorem xorSim (o : Sim) : Statement (.xorSim o) := by
  intro hw w h
  obtain rfl : encSim 12 o = w := Option.some.inj h
  exact decode0 (opSim 12 o) (xSim 12 o) rfl (second (decTri_encSim 12 o) (decSim_enc 12 o))
theorem xorLim (o : Lim) : Statement (.xorLim o) := by
  intro hw w h
  obtain rfl : encLim 12 o = w := Option.some.inj h
  exact decode1 (opLim 12 o) (xLim 12 o) rfl (only (decLim_enc 12 o))
theorem andnTri (o : Tri) : Statement (.andnTri o) := by
  intro hw w h
  obtain rfl : encTri 13 o = w := Option.some.inj h
  exact decode0 (opTri 13 o) (xTri 13 o) rfl (first (decTri_enc 13 o))
theorem andnSim (o : Sim) : Statement (.andnSim o) := by
  intro hw w h
  obtain rfl : encSim 13 o = w := Option.some.inj h
  exact decode0 (opSim 13 o) (xSim 13 o) rfl (second (decTri_encSim 13 o) (decSim_enc 13 o))
theorem andnLim (o : Lim) : Statement (.andnLim o) := by
  intro hw w h
  obtain rfl : encLim 13 o = w := Option.some.inj h
  exact decode1 (opLim 13 o) (xLim 13 o) rfl (only (decLim_enc 13 o))
theorem shlTri (o : Tri) : Statement (.shlTri o) := by
  intro hw w h
  obtain rfl : encTri 14 o = w := Option.some.inj h
  exact decode0 (opTri 14 o) (xTri 14 o) rfl (first (decTri_enc 14 o))
theorem shlSim (o : Sim) : Statement (.shlSim o) := by
  intro hw w h
  obtain rfl : encSim 14 o = w := Option.some.inj h
  exact decode0 (opSim 14 o) (xSim 14 o) rfl (second (decTri_encSim 14 o) (decSim_enc 14 o))
theorem shlLim (o : Lim) : Statement (.shlLim o) := by
  intro hw w h
  obtain rfl : encLim 14 o = w := Option.some.inj h
  exact decode1 (opLim 14 o) (xLim 14 o) rfl (only (decLim_enc 14 o))
theorem shrTri (o : Tri) : Statement (.shrTri o) := by
  intro hw w h
  obtain rfl : encTri 15 o = w := Option.some.inj h
  exact decode0 (opTri 15 o) (xTri 15 o) rfl (first (decTri_enc 15 o))
theorem shrSim (o : Sim) : Statement (.shrSim o) := by
  intro hw w h
  obtain rfl : encSim 15 o = w := Option.some.inj h
  exact decode0 (opSim 15 o) (xSim 15 o) rfl (second (decTri_encSim 15 o) (decSim_enc 15 o))
theorem shrLim (o : Lim) : Statement (.shrLim o) := by
  intro hw w h
  obtain rfl : encLim 15 o = w := Option.some.inj h
  exact decode1 (opLim 15 o) (xLim 15 o) rfl (only (decLim_enc 15 o))
theorem sarTri (o : Tri) : Statement (.sarTri o) := by
  intro hw w h
  obtain rfl : encTri 16 o = w := Option.some.inj h
  exact decode0 (opTri 16 o) (xTri 16 o) rfl (first (decTri_enc 16 o))
theorem sarSim (o : Sim) : Statement (.sarSim o) := by
  intro hw w h
  obtain rfl : encSim 16 o = w := Option.some.inj h
  exact decode0 (opSim 16 o) (xSim 16 o) rfl (second (decTri_encSim 16 o) (decSim_enc 16 o))
theorem sarLim (o : Lim) : Statement (.sarLim o) := by
  intro hw w h
  obtain rfl : encLim 16 o = w := Option.some.inj h
  exact decode1 (opLim 16 o) (xLim 16 o) rfl (only (decLim_enc 16 o))
theorem minTri (o : Tri) : Statement (.minTri o) := by
  intro hw w h
  obtain rfl : encTri 17 o = w := Option.some.inj h
  exact decode0 (opTri 17 o) (xTri 17 o) rfl (first (decTri_enc 17 o))
theorem minSim (o : Sim) : Statement (.minSim o) := by
  intro hw w h
  obtain rfl : encSim 17 o = w := Option.some.inj h
  exact decode0 (opSim 17 o) (xSim 17 o) rfl (second (decTri_encSim 17 o) (decSim_enc 17 o))
theorem minLim (o : Lim) : Statement (.minLim o) := by
  intro hw w h
  obtain rfl : encLim 17 o = w := Option.some.inj h
  exact decode1 (opLim 17 o) (xLim 17 o) rfl (only (decLim_enc 17 o))
theorem maxTri (o : Tri) : Statement (.maxTri o) := by
  intro hw w h
  obtain rfl : encTri 18 o = w := Option.some.inj h
  exact decode0 (opTri 18 o) (xTri 18 o) rfl (first (decTri_enc 18 o))
theorem maxSim (o : Sim) : Statement (.maxSim o) := by
  intro hw w h
  obtain rfl : encSim 18 o = w := Option.some.inj h
  exact decode0 (opSim 18 o) (xSim 18 o) rfl (second (decTri_encSim 18 o) (decSim_enc 18 o))
theorem maxLim (o : Lim) : Statement (.maxLim o) := by
  intro hw w h
  obtain rfl : encLim 18 o = w := Option.some.inj h
  exact decode1 (opLim 18 o) (xLim 18 o) rfl (only (decLim_enc 18 o))
theorem minuTri (o : Tri) : Statement (.minuTri o) := by
  intro hw w h
  obtain rfl : encTri 19 o = w := Option.some.inj h
  exact decode0 (opTri 19 o) (xTri 19 o) rfl (first (decTri_enc 19 o))
theorem minuSim (o : Sim) : Statement (.minuSim o) := by
  intro hw w h
  obtain rfl : encSim 19 o = w := Option.some.inj h
  exact decode0 (opSim 19 o) (xSim 19 o) rfl (second (decTri_encSim 19 o) (decSim_enc 19 o))
theorem minuLim (o : Lim) : Statement (.minuLim o) := by
  intro hw w h
  obtain rfl : encLim 19 o = w := Option.some.inj h
  exact decode1 (opLim 19 o) (xLim 19 o) rfl (only (decLim_enc 19 o))
theorem maxuTri (o : Tri) : Statement (.maxuTri o) := by
  intro hw w h
  obtain rfl : encTri 20 o = w := Option.some.inj h
  exact decode0 (opTri 20 o) (xTri 20 o) rfl (first (decTri_enc 20 o))
theorem maxuSim (o : Sim) : Statement (.maxuSim o) := by
  intro hw w h
  obtain rfl : encSim 20 o = w := Option.some.inj h
  exact decode0 (opSim 20 o) (xSim 20 o) rfl (second (decTri_encSim 20 o) (decSim_enc 20 o))
theorem maxuLim (o : Lim) : Statement (.maxuLim o) := by
  intro hw w h
  obtain rfl : encLim 20 o = w := Option.some.inj h
  exact decode1 (opLim 20 o) (xLim 20 o) rfl (only (decLim_enc 20 o))
theorem clz (o : Un) : Statement (.clz o) := by
  intro hw w h
  obtain rfl : encUn 21 o = w := Option.some.inj h
  exact decode0 (opUn 21 o) (xUn 21 o) rfl (only (decUn_enc 21 o))
theorem popc (o : Un) : Statement (.popc o) := by
  intro hw w h
  obtain rfl : encUn 22 o = w := Option.some.inj h
  exact decode0 (opUn 22 o) (xUn 22 o) rfl (only (decUn_enc 22 o))
theorem mov (o : Un) : Statement (.mov o) := by
  intro hw w h
  obtain rfl : encUn 23 o = w := Option.some.inj h
  exact decode0 (opUn 23 o) (xUn 23 o) rfl (only (decUn_enc 23 o))
theorem ldiSim (o : LdiS) : Statement (.ldiSim o) := by
  intro hw w h
  obtain rfl : encLdiS 24 o = w := Option.some.inj h
  exact decode0 (opLdiS 24 o) (xLdiS 24 o) rfl (only (decLdiS_enc 24 o))
theorem ldiLim (o : LdiL) : Statement (.ldiLim o) := by
  intro hw w h
  obtain rfl : encLdiL 24 o = w := Option.some.inj h
  exact decode1 (opLdiL 24 o) (xLdiL 24 o) rfl (only (decLdiL_enc 24 o))
theorem ldih (o : LdiL) : Statement (.ldih o) := by
  intro hw w h
  obtain rfl : encLdiL 25 o = w := Option.some.inj h
  exact decode1 (opLdiL 25 o) (xLdiL 25 o) rfl (only (decLdiL_enc 25 o))
theorem bfxReg (o : BfR) : Statement (.bfxReg o) := by
  intro hw w h
  obtain rfl : encBfR 26 o = w := Option.some.inj h
  exact decode0 (opBfR 26 o) (xBfR 26 o) rfl (only (decBfR_enc 26 o))
theorem bfxImm (o : BfI) : Statement (.bfxImm o) := by
  intro hw w h
  obtain rfl : encBfI 26 o = w := Option.some.inj h
  exact decode1 (opBfI 26 o) (xBfI 26 o) rfl (only (decBfI_enc 26 o))
theorem bfxuReg (o : BfR) : Statement (.bfxuReg o) := by
  intro hw w h
  obtain rfl : encBfR 27 o = w := Option.some.inj h
  exact decode0 (opBfR 27 o) (xBfR 27 o) rfl (only (decBfR_enc 27 o))
theorem bfxuImm (o : BfI) : Statement (.bfxuImm o) := by
  intro hw w h
  obtain rfl : encBfI 27 o = w := Option.some.inj h
  exact decode1 (opBfI 27 o) (xBfI 27 o) rfl (only (decBfI_enc 27 o))
theorem bfiReg (o : BfR) : Statement (.bfiReg o) := by
  intro hw w h
  obtain rfl : encBfR 28 o = w := Option.some.inj h
  exact decode0 (opBfR 28 o) (xBfR 28 o) rfl (only (decBfR_enc 28 o))
theorem bfiImm (o : BfI) : Statement (.bfiImm o) := by
  intro hw w h
  obtain rfl : encBfI 28 o = w := Option.some.inj h
  exact decode1 (opBfI 28 o) (xBfI 28 o) rfl (only (decBfI_enc 28 o))
theorem sel (o : Sel) : Statement (.sel o) := by
  intro hw w h
  obtain rfl : encSel 29 o = w := Option.some.inj h
  exact decode1 (opSel 29 o) (xSel 29 o) rfl (only (decSel_enc 29 o))
theorem cmpReg (o : CmpR) : Statement (.cmpReg o) := by
  intro hw w h
  obtain rfl : encCmpR 30 o = w := Option.some.inj h
  exact decode0 (opCmpR 30 o) (xCmpR 30 o) rfl (only (decCmpR_enc 30 o))
theorem cmpImm (o : CmpI) : Statement (.cmpImm o) := by
  intro hw w h
  obtain rfl : encCmpI 30 o = w := Option.some.inj h
  exact decode1 (opCmpI 30 o) (xCmpI 30 o) rfl (only (decCmpI_enc 30 o))
theorem pand (o : Log) : Statement (.pand o) := by
  intro hw w h
  obtain rfl : encLog 31 o = w := Option.some.inj h
  exact decode0 (opLog 31 o) (xLog 31 o) rfl (only (decLog_enc 31 o))
theorem por (o : Log) : Statement (.por o) := by
  intro hw w h
  obtain rfl : encLog 32 o = w := Option.some.inj h
  exact decode0 (opLog 32 o) (xLog 32 o) rfl (only (decLog_enc 32 o))
theorem pxor (o : Log) : Statement (.pxor o) := by
  intro hw w h
  obtain rfl : encLog 33 o = w := Option.some.inj h
  exact decode0 (opLog 33 o) (xLog 33 o) rfl (only (decLog_enc 33 o))
theorem pnot (o : LogN) : Statement (.pnot o) := by
  intro hw w h
  obtain rfl : encLogN 34 o = w := Option.some.inj h
  exact decode0 (opLogN 34 o) (xLogN 34 o) rfl (only (decLogN_enc 34 o))
theorem mand (o : Log) : Statement (.mand o) := by
  intro hw w h
  obtain rfl : encLog 61 o = w := Option.some.inj h
  exact decode0 (opLog 61 o) (xLog 61 o) rfl (only (decLog_enc 61 o))
theorem mor (o : Log) : Statement (.mor o) := by
  intro hw w h
  obtain rfl : encLog 62 o = w := Option.some.inj h
  exact decode0 (opLog 62 o) (xLog 62 o) rfl (only (decLog_enc 62 o))
theorem mxor (o : Log) : Statement (.mxor o) := by
  intro hw w h
  obtain rfl : encLog 63 o = w := Option.some.inj h
  exact decode0 (opLog 63 o) (xLog 63 o) rfl (only (decLog_enc 63 o))
theorem mnot (o : LogN) : Statement (.mnot o) := by
  intro hw w h
  obtain rfl : encLogN 64 o = w := Option.some.inj h
  exact decode0 (opLogN 64 o) (xLogN 64 o) rfl (only (decLogN_enc 64 o))
theorem br (o : Br) : Statement (.br o) := by
  intro hw w h
  obtain rfl : encBr 35 o = w := Option.some.inj h
  exact decode0 (opBr 35 o) (xBr 35 o) rfl (only (decBr_enc 35 o))
theorem jmp (o : Jmp) : Statement (.jmp o) := by
  intro hw w h
  obtain rfl : encJmp 36 o = w := Option.some.inj h
  exact decode0 (opJmp 36 o) (xJmp 36 o) rfl (only (decJmp_enc 36 o))
theorem callRel (o : CallR) : Statement (.callRel o) := by
  intro hw w h
  obtain rfl : encCallR 37 o = w := Option.some.inj h
  exact decode0 (opCallR 37 o) (xCallR 37 o) rfl (first (decCallR_enc 37 o))
theorem callReg (o : CallG) : Statement (.callReg o) := by
  intro hw w h
  obtain rfl : encCallG 37 o = w := Option.some.inj h
  exact decode0 (opCallG 37 o) (xCallG 37 o) rfl (second (decCallR_encCallG 37 o) (decCallG_enc 37 o))
theorem ret (o : G0) : Statement (.ret o) := by
  intro hw w h
  obtain rfl : encG0 38 o = w := Option.some.inj h
  exact decode0 (opG0 38 o) (xG0 38 o) rfl (only (decG0_enc 38 o))
theorem loop (o : Jmp) : Statement (.loop o) := by
  intro hw w h
  obtain rfl : encJmp 39 o = w := Option.some.inj h
  exact decode0 (opJmp 39 o) (xJmp 39 o) rfl (only (decJmp_enc 39 o))
theorem loopm (o : LoopM) : Statement (.loopm o) := by
  intro hw w h
  obtain rfl : encLoopM 40 o = w := Option.some.inj h
  exact decode0 (opLoopM 40 o) (xLoopM 40 o) rfl (only (decLoopM_enc 40 o))
theorem ld (o : Ld0) : Statement (.ld o) := by
  intro hw w h
  obtain rfl : encLd0 41 o = w := Option.some.inj h
  exact decode0 (opLd0 41 o) (xLd0 41 o) rfl (only (decLd0_enc 41 o))
theorem ldOff (o : Ld1) : Statement (.ldOff o) := by
  intro hw w h
  obtain rfl : encLd1 41 o = w := Option.some.inj h
  exact decode1 (opLd1 41 o) (xLd1 41 o) rfl (only (decLd1_enc 41 o))
theorem st (o : St0) : Statement (.st o) := by
  intro hw w h
  obtain rfl : encSt0 42 o = w := Option.some.inj h
  exact decode0 (opSt0 42 o) (xSt0 42 o) rfl (only (decSt0_enc 42 o))
theorem stOff (o : St1) : Statement (.stOff o) := by
  intro hw w h
  obtain rfl : encSt1 42 o = w := Option.some.inj h
  exact decode1 (opSt1 42 o) (xSt1 42 o) rfl (only (decSt1_enc 42 o))
theorem ldsec (o : Sec) : Statement (.ldsec o) := by
  intro hw w h
  obtain rfl : encSec 43 o = w := Option.some.inj h
  exact decode1 (opSec 43 o) (xSec 43 o) rfl (only (decSec_enc 43 o))
theorem stsec (o : Sec) : Statement (.stsec o) := by
  intro hw w h
  obtain rfl : encSec 44 o = w := Option.some.inj h
  exact decode1 (opSec 44 o) (xSec 44 o) rfl (only (decSec_enc 44 o))
theorem amo (o : Amo) : Statement (.amo o) := by
  intro hw w h
  obtain rfl : encAmo 45 o = w := Option.some.inj h
  exact decode1 (opAmo 45 o) (xAmo 45 o) rfl (only (decAmo_enc 45 o))
theorem cas (o : Cas) : Statement (.cas o) := by
  intro hw w h
  obtain rfl : encCas 46 o = w := Option.some.inj h
  exact decode1 (opCas 46 o) (xCas 46 o) rfl (only (decCas_enc 46 o))
theorem bput (o : Bput) : Statement (.bput o) := by
  intro hw w h
  obtain rfl : encBput 47 o = w := Option.some.inj h
  exact decode1 (opBput 47 o) (xBput 47 o) rfl (only (decBput_enc 47 o))
theorem fence (o : Fence) : Statement (.fence o) := by
  intro hw w h
  obtain rfl : encFence 48 o = w := Option.some.inj h
  exact decode0 (opFence 48 o) (xFence 48 o) rfl (only (decFence_enc 48 o))
theorem flushp (o : Flushp) : Statement (.flushp o) := by
  intro hw w h
  obtain rfl : encFlushp 49 o = w := Option.some.inj h
  exact decode0 (opFlushp 49 o) (xFlushp 49 o) rfl (only (decFlushp_enc 49 o))
theorem shacq (o : DA) : Statement (.shacq o) := by
  intro hw w h
  obtain rfl : encDA 50 o = w := Option.some.inj h
  exact decode0 (opDA 50 o) (xDA 50 o) rfl (only (decDA_enc 50 o))
theorem shrel (o : DA) : Statement (.shrel o) := by
  intro hw w h
  obtain rfl : encDA 51 o = w := Option.some.inj h
  exact decode0 (opDA 51 o) (xDA 51 o) rfl (only (decDA_enc 51 o))
theorem waitReg (o : A1) : Statement (.waitReg o) := by
  intro hw w h
  obtain rfl : encA1 52 o = w := Option.some.inj h
  exact decode0 (opA1 52 o) (xA1 52 o) rfl (only (decA1_enc 52 o))
theorem waitImm (o : WaitI) : Statement (.waitImm o) := by
  intro hw w h
  obtain rfl : encWaitI 52 o = w := Option.some.inj h
  exact decode1 (opWaitI 52 o) (xWaitI 52 o) rfl (only (decWaitI_enc 52 o))
theorem twany (o : DA) : Statement (.twany o) := by
  intro hw w h
  obtain rfl : encDA 53 o = w := Option.some.inj h
  exact decode0 (opDA 53 o) (xDA 53 o) rfl (only (decDA_enc 53 o))
theorem twall (o : DA) : Statement (.twall o) := by
  intro hw w h
  obtain rfl : encDA 54 o = w := Option.some.inj h
  exact decode0 (opDA 54 o) (xDA 54 o) rfl (only (decDA_enc 54 o))
theorem tfirst (o : DA) : Statement (.tfirst o) := by
  intro hw w h
  obtain rfl : encDA 55 o = w := Option.some.inj h
  exact decode0 (opDA 55 o) (xDA 55 o) rfl (only (decDA_enc 55 o))
theorem tclr (o : A1) : Statement (.tclr o) := by
  intro hw w h
  obtain rfl : encA1 56 o = w := Option.some.inj h
  exact decode0 (opA1 56 o) (xA1 56 o) rfl (only (decA1_enc 56 o))
theorem vld (o : Vld0) : Statement (.vld o) := by
  intro hw w h
  obtain rfl : encVld0 57 o = w := Option.some.inj h
  exact decode0 (opVld0 57 o) (xVld0 57 o) rfl (only (decVld0_enc 57 o))
theorem vldOff (o : Vld1) : Statement (.vldOff o) := by
  intro hw w h
  obtain rfl : encVld1 57 o = w := Option.some.inj h
  exact decode1 (opVld1 57 o) (xVld1 57 o) rfl (only (decVld1_enc 57 o))
theorem vst (o : Vst0) : Statement (.vst o) := by
  intro hw w h
  obtain rfl : encVst0 58 o = w := Option.some.inj h
  exact decode0 (opVst0 58 o) (xVst0 58 o) rfl (only (decVst0_enc 58 o))
theorem vstOff (o : Vst1) : Statement (.vstOff o) := by
  intro hw w h
  obtain rfl : encVst1 58 o = w := Option.some.inj h
  exact decode1 (opVst1 58 o) (xVst1 58 o) rfl (only (decVst1_enc 58 o))
theorem vgath (o : Vgs) : Statement (.vgath o) := by
  intro hw w h
  obtain rfl : encVgs 59 o = w := Option.some.inj h
  exact decode1 (opVgs 59 o) (xVgs 59 o) rfl (only (decVgs_enc 59 o))
theorem vscat (o : Vgs) : Statement (.vscat o) := by
  intro hw w h
  obtain rfl : encVgs 60 o = w := Option.some.inj h
  exact decode1 (opVgs 60 o) (xVgs 60 o) rfl (only (decVgs_enc 60 o))
theorem vadd (o : V0) : Statement (.vadd o) := by
  intro hw w h
  obtain rfl : encV0 65 o = w := Option.some.inj h
  exact decode0 (opV0 65 o) (xV0 65 o) rfl (only (decV0_enc 65 o))
theorem vaddX (o : V1) : Statement (.vaddX o) := by
  intro hw w h
  obtain rfl : encV1 65 o = w := Option.some.inj h
  exact decode1 (opV1 65 o) (xV1 65 o) rfl (only (decV1_enc 65 o))
theorem vsub (o : V0) : Statement (.vsub o) := by
  intro hw w h
  obtain rfl : encV0 66 o = w := Option.some.inj h
  exact decode0 (opV0 66 o) (xV0 66 o) rfl (only (decV0_enc 66 o))
theorem vsubX (o : V1) : Statement (.vsubX o) := by
  intro hw w h
  obtain rfl : encV1 66 o = w := Option.some.inj h
  exact decode1 (opV1 66 o) (xV1 66 o) rfl (only (decV1_enc 66 o))
theorem vmul (o : V0) : Statement (.vmul o) := by
  intro hw w h
  obtain rfl : encV0 67 o = w := Option.some.inj h
  exact decode0 (opV0 67 o) (xV0 67 o) rfl (only (decV0_enc 67 o))
theorem vmulX (o : V1) : Statement (.vmulX o) := by
  intro hw w h
  obtain rfl : encV1 67 o = w := Option.some.inj h
  exact decode1 (opV1 67 o) (xV1 67 o) rfl (only (decV1_enc 67 o))
theorem vfma (o : Fma) : Statement (.vfma o) := by
  intro hw w h
  obtain rfl : encFma 68 o = w := Option.some.inj h
  exact decode1 (opFma 68 o) (xFma 68 o) rfl (only (decFma_enc 68 o))
theorem vfms (o : Fma) : Statement (.vfms o) := by
  intro hw w h
  obtain rfl : encFma 69 o = w := Option.some.inj h
  exact decode1 (opFma 69 o) (xFma 69 o) rfl (only (decFma_enc 69 o))
theorem vfnma (o : Fma) : Statement (.vfnma o) := by
  intro hw w h
  obtain rfl : encFma 70 o = w := Option.some.inj h
  exact decode1 (opFma 70 o) (xFma 70 o) rfl (only (decFma_enc 70 o))
theorem vdiv (o : V0) : Statement (.vdiv o) := by
  intro hw w h
  obtain rfl : encV0 71 o = w := Option.some.inj h
  exact decode0 (opV0 71 o) (xV0 71 o) rfl (only (decV0_enc 71 o))
theorem vdivX (o : Vdiv1) : Statement (.vdivX o) := by
  intro hw w h
  obtain rfl : encVdiv1 71 o = w := Option.some.inj h
  exact decode1 (opVdiv1 71 o) (xVdiv1 71 o) rfl (only (decVdiv1_enc 71 o))
theorem vsqrt (o : Vu0) : Statement (.vsqrt o) := by
  intro hw w h
  obtain rfl : encVu0 72 o = w := Option.some.inj h
  exact decode0 (opVu0 72 o) (xVu0 72 o) rfl (only (decVu0_enc 72 o))
theorem vsqrtX (o : Vsq1) : Statement (.vsqrtX o) := by
  intro hw w h
  obtain rfl : encVsq1 72 o = w := Option.some.inj h
  exact decode1 (opVsq1 72 o) (xVsq1 72 o) rfl (only (decVsq1_enc 72 o))
theorem vmin (o : Vmm) : Statement (.vmin o) := by
  intro hw w h
  obtain rfl : encVmm 73 o = w := Option.some.inj h
  rw [w1Vmm]
  have hx := xVmm 73 o
  rcases (by decide : ∀ x : BitVec 1, x = 0#1 ∨ x = 1#1) o.x with e | e
  · exact decode0 (opVmm 73 o) (hx.trans e) rfl (only (decVmm_enc 73 o))
  · exact decode1 (opVmm 73 o) (hx.trans e) rfl (only (decVmm_enc 73 o))
theorem vmax (o : Vmm) : Statement (.vmax o) := by
  intro hw w h
  obtain rfl : encVmm 74 o = w := Option.some.inj h
  rw [w1Vmm]
  have hx := xVmm 74 o
  rcases (by decide : ∀ x : BitVec 1, x = 0#1 ∨ x = 1#1) o.x with e | e
  · exact decode0 (opVmm 74 o) (hx.trans e) rfl (only (decVmm_enc 74 o))
  · exact decode1 (opVmm 74 o) (hx.trans e) rfl (only (decVmm_enc 74 o))
theorem vabs (o : Vu0) : Statement (.vabs o) := by
  intro hw w h
  obtain rfl : encVu0 75 o = w := Option.some.inj h
  exact decode0 (opVu0 75 o) (xVu0 75 o) rfl (only (decVu0_enc 75 o))
theorem vabsX (o : Vab1) : Statement (.vabsX o) := by
  intro hw w h
  obtain rfl : encVab1 75 o = w := Option.some.inj h
  exact decode1 (opVab1 75 o) (xVab1 75 o) rfl (only (decVab1_enc 75 o))
theorem vneg (o : Vu0) : Statement (.vneg o) := by
  intro hw w h
  obtain rfl : encVu0 76 o = w := Option.some.inj h
  exact decode0 (opVu0 76 o) (xVu0 76 o) rfl (only (decVu0_enc 76 o))
theorem vnegX (o : Vab1) : Statement (.vnegX o) := by
  intro hw w h
  obtain rfl : encVab1 76 o = w := Option.some.inj h
  exact decode1 (opVab1 76 o) (xVab1 76 o) rfl (only (decVab1_enc 76 o))
theorem vcmp (o : Vcmp) : Statement (.vcmp o) := by
  intro hw w h
  obtain rfl : encVcmp 77 o = w := Option.some.inj h
  exact decode1 (opVcmp 77 o) (xVcmp 77 o) rfl (only (decVcmp_enc 77 o))
theorem vsel (o : Vsel) : Statement (.vsel o) := by
  intro hw w h
  obtain rfl : encVsel 78 o = w := Option.some.inj h
  exact decode1 (opVsel 78 o) (xVsel 78 o) rfl (only (decVsel_enc 78 o))
theorem vand (o : Vl0) : Statement (.vand o) := by
  intro hw w h
  obtain rfl : encVl0 79 o = w := Option.some.inj h
  exact decode0 (opVl0 79 o) (xVl0 79 o) rfl (only (decVl0_enc 79 o))
theorem vandX (o : Vl1) : Statement (.vandX o) := by
  intro hw w h
  obtain rfl : encVl1 79 o = w := Option.some.inj h
  exact decode1 (opVl1 79 o) (xVl1 79 o) rfl (only (decVl1_enc 79 o))
theorem vor (o : Vl0) : Statement (.vor o) := by
  intro hw w h
  obtain rfl : encVl0 80 o = w := Option.some.inj h
  exact decode0 (opVl0 80 o) (xVl0 80 o) rfl (only (decVl0_enc 80 o))
theorem vorX (o : Vl1) : Statement (.vorX o) := by
  intro hw w h
  obtain rfl : encVl1 80 o = w := Option.some.inj h
  exact decode1 (opVl1 80 o) (xVl1 80 o) rfl (only (decVl1_enc 80 o))
theorem vxor (o : Vl0) : Statement (.vxor o) := by
  intro hw w h
  obtain rfl : encVl0 81 o = w := Option.some.inj h
  exact decode0 (opVl0 81 o) (xVl0 81 o) rfl (only (decVl0_enc 81 o))
theorem vxorX (o : Vl1) : Statement (.vxorX o) := by
  intro hw w h
  obtain rfl : encVl1 81 o = w := Option.some.inj h
  exact decode1 (opVl1 81 o) (xVl1 81 o) rfl (only (decVl1_enc 81 o))
theorem vshl (o : Vsh) : Statement (.vshl o) := by
  intro hw w h
  obtain rfl : encVsh 82 o = w := Option.some.inj h
  rw [w1Vsh]
  have hx := xVsh 82 o
  rcases (by decide : ∀ x : BitVec 1, x = 0#1 ∨ x = 1#1) o.x with e | e
  · exact decode0 (opVsh 82 o) (hx.trans e) rfl (only (decVsh_enc 82 o))
  · exact decode1 (opVsh 82 o) (hx.trans e) rfl (first (decVsh_enc 82 o))
theorem vshlImm (o : VshI) : Statement (.vshlImm o) := by
  intro hw w h
  obtain rfl : encVshI 82 o = w := Option.some.inj h
  exact decode1 (opVshI 82 o) (xVshI 82 o) rfl (second (decVsh_encVshI 82 o) (decVshI_enc 82 o))
theorem vshr (o : Vsh) : Statement (.vshr o) := by
  intro hw w h
  obtain rfl : encVsh 83 o = w := Option.some.inj h
  rw [w1Vsh]
  have hx := xVsh 83 o
  rcases (by decide : ∀ x : BitVec 1, x = 0#1 ∨ x = 1#1) o.x with e | e
  · exact decode0 (opVsh 83 o) (hx.trans e) rfl (only (decVsh_enc 83 o))
  · exact decode1 (opVsh 83 o) (hx.trans e) rfl (first (decVsh_enc 83 o))
theorem vshrImm (o : VshI) : Statement (.vshrImm o) := by
  intro hw w h
  obtain rfl : encVshI 83 o = w := Option.some.inj h
  exact decode1 (opVshI 83 o) (xVshI 83 o) rfl (second (decVsh_encVshI 83 o) (decVshI_enc 83 o))
theorem vsar (o : Vsh) : Statement (.vsar o) := by
  intro hw w h
  obtain rfl : encVsh 84 o = w := Option.some.inj h
  rw [w1Vsh]
  have hx := xVsh 84 o
  rcases (by decide : ∀ x : BitVec 1, x = 0#1 ∨ x = 1#1) o.x with e | e
  · exact decode0 (opVsh 84 o) (hx.trans e) rfl (only (decVsh_enc 84 o))
  · exact decode1 (opVsh 84 o) (hx.trans e) rfl (first (decVsh_enc 84 o))
theorem vsarImm (o : VshI) : Statement (.vsarImm o) := by
  intro hw w h
  obtain rfl : encVshI 84 o = w := Option.some.inj h
  exact decode1 (opVshI 84 o) (xVshI 84 o) rfl (second (decVsh_encVshI 84 o) (decVshI_enc 84 o))
theorem vcvt (o : Vcvt) : Statement (.vcvt o) := by
  intro hw w h
  obtain rfl : encVcvt 85 o = w := Option.some.inj h
  exact decode1 (opVcvt 85 o) (xVcvt 85 o) rfl (only (decVcvt_enc 85 o))
theorem vred (o : Vu0) : Statement (.vred o) := by
  intro hw w h
  obtain rfl : encVu0 86 o = w := Option.some.inj h
  exact decode0 (opVu0 86 o) (xVu0 86 o) rfl (only (decVu0_enc 86 o))
theorem vredX (o : Vred1) : Statement (.vredX o) := by
  intro hw w h
  obtain rfl : encVred1 86 o = w := Option.some.inj h
  exact decode1 (opVred1 86 o) (xVred1 86 o) rfl (only (decVred1_enc 86 o))
theorem vscan (o : Vu0) : Statement (.vscan o) := by
  intro hw w h
  obtain rfl : encVu0 87 o = w := Option.some.inj h
  exact decode0 (opVu0 87 o) (xVu0 87 o) rfl (only (decVu0_enc 87 o))
theorem vscanX (o : Vred1) : Statement (.vscanX o) := by
  intro hw w h
  obtain rfl : encVred1 87 o = w := Option.some.inj h
  exact decode1 (opVred1 87 o) (xVred1 87 o) rfl (only (decVred1_enc 87 o))
theorem vbcastScalar (o : VbcS) : Statement (.vbcastScalar o) := by
  intro hw w h
  obtain rfl : encVbcS 88 o = w := Option.some.inj h
  exact decode1 (opVbcS 88 o) (xVbcS 88 o) rfl (first (decVbcS_enc 88 o))
theorem vbcastElement (o : VbcE) : Statement (.vbcastElement o) := by
  intro hw w h
  obtain rfl : encVbcE 88 o = w := Option.some.inj h
  exact decode1 (opVbcE 88 o) (xVbcE 88 o) rfl (second (decVbcS_encVbcE 88 o) (decVbcE_enc 88 o))
theorem vext (o : Vext) : Statement (.vext o) := by
  intro hw w h
  obtain rfl : encVext 89 o = w := Option.some.inj h
  exact decode1 (opVext 89 o) (xVext 89 o) rfl (only (decVext_enc 89 o))
theorem vperm (o : Vsh) : Statement (.vperm o) := by
  intro hw w h
  obtain rfl : encVsh 90 o = w := Option.some.inj h
  rw [w1Vsh]
  have hx := xVsh 90 o
  rcases (by decide : ∀ x : BitVec 1, x = 0#1 ∨ x = 1#1) o.x with e | e
  · exact decode0 (opVsh 90 o) (hx.trans e) rfl (only (decVsh_enc 90 o))
  · exact decode1 (opVsh 90 o) (hx.trans e) rfl (only (decVsh_enc 90 o))
theorem vslide (o : Vslide) : Statement (.vslide o) := by
  intro hw w h
  obtain rfl : encVslide 91 o = w := Option.some.inj h
  exact decode1 (opVslide 91 o) (xVslide 91 o) rfl (only (decVslide_enc 91 o))
theorem vclass (o : Vcls) : Statement (.vclass o) := by
  intro hw w h
  obtain rfl : encVcls 92 o = w := Option.some.inj h
  rw [w1Vcls]
  have hx := xVcls 92 o
  rcases (by decide : ∀ x : BitVec 1, x = 0#1 ∨ x = 1#1) o.x with e | e
  · exact decode0 (opVcls 92 o) (hx.trans e) rfl (only (decVcls_enc 92 o))
  · exact decode1 (opVcls 92 o) (hx.trans e) rfl (only (decVcls_enc 92 o))
theorem vsplit (o : Vsplit) : Statement (.vsplit o) := by
  intro hw w h
  obtain rfl : encVsplit 93 o = w := Option.some.inj h
  exact decode1 (opVsplit 93 o) (xVsplit 93 o) rfl (only (decVsplit_enc 93 o))
theorem vjoin (o : Vjoin) : Statement (.vjoin o) := by
  intro hw w h
  obtain rfl : encVjoin 94 o = w := Option.some.inj h
  exact decode1 (opVjoin 94 o) (xVjoin 94 o) rfl (only (decVjoin_enc 94 o))
theorem vpack4 (o : Pack) : Statement (.vpack4 o) := by
  intro hw w h
  obtain rfl : encPack 95 o = w := Option.some.inj h
  exact decode1 (opPack 95 o) (xPack 95 o) rfl (only (decPack_enc 95 o))
theorem vunpk4 (o : Unpack) : Statement (.vunpk4 o) := by
  intro hw w h
  obtain rfl : encUnpack 96 o = w := Option.some.inj h
  exact decode1 (opUnpack 96 o) (xUnpack 96 o) rfl (only (decUnpack_enc 96 o))
theorem mmt (o : Mmt) : Statement (.mmt o) := by
  intro hw w h
  obtain rfl : encMmt 97 o = w := Option.some.inj h
  exact decode1 (opMmt 97 o) (xMmt 97 o) rfl (only (decMmt_enc 97 o))
theorem mzero (o : Mzero) : Statement (.mzero o) := by
  intro hw w h
  obtain rfl : encMzero 98 o = w := Option.some.inj h
  exact decode1 (opMzero 98 o) (xMzero 98 o) rfl (only (decMzero_enc 98 o))
theorem mdrain (o : Mdrain) : Statement (.mdrain o) := by
  intro hw w h
  obtain rfl : encMdrain 99 o = w := Option.some.inj h
  exact decode1 (opMdrain 99 o) (xMdrain 99 o) rfl (only (decMdrain_enc 99 o))
theorem mdadd (o : Mdadd) : Statement (.mdadd o) := by
  intro hw w h
  obtain rfl : encMdadd 100 o = w := Option.some.inj h
  exact decode1 (opMdadd 100 o) (xMdadd 100 o) rfl (only (decMdadd_enc 100 o))
theorem mbrd (o : Mbrd) : Statement (.mbrd o) := by
  intro hw w h
  obtain rfl : encMbrd 101 o = w := Option.some.inj h
  exact decode1 (opMbrd 101 o) (xMbrd 101 o) rfl (only (decMbrd_enc 101 o))
theorem mstat (o : Mstat) : Statement (.mstat o) := by
  intro hw w h
  obtain rfl : encMstat 102 o = w := Option.some.inj h
  exact decode0 (opMstat 102 o) (xMstat 102 o) rfl (only (decMstat_enc 102 o))
theorem cpy (o : Cpy) : Statement (.cpy o) := by
  intro hw w h
  obtain rfl : encCpy 103 o = w := Option.some.inj h
  exact decode1 (opCpy 103 o) (xCpy 103 o) rfl (only (decCpy_enc 103 o))
theorem cpys (o : Cpy) : Statement (.cpys o) := by
  intro hw w h
  obtain rfl : encCpy 104 o = w := Option.some.inj h
  exact decode1 (opCpy 104 o) (xCpy 104 o) rfl (only (decCpy_enc 104 o))
theorem cpyq (o : Cpyq) : Statement (.cpyq o) := by
  intro hw w h
  obtain rfl : encCpyq 105 o = w := Option.some.inj h
  exact decode0 (opCpyq 105 o) (xCpyq 105 o) rfl (only (decCpyq_enc 105 o))
theorem book (o : DA) : Statement (.book o) := by
  intro hw w h
  obtain rfl : encDA 106 o = w := Option.some.inj h
  exact decode0 (opDA 106 o) (xDA 106 o) rfl (only (decDA_enc 106 o))
theorem bkq (o : Bkq) : Statement (.bkq o) := by
  intro hw w h
  obtain rfl : encBkq 107 o = w := Option.some.inj h
  exact decode0 (opBkq 107 o) (xBkq 107 o) rfl (only (decBkq_enc 107 o))
theorem bkcan (o : A1) : Statement (.bkcan o) := by
  intro hw w h
  obtain rfl : encA1 108 o = w := Option.some.inj h
  exact decode0 (opA1 108 o) (xA1 108 o) rfl (only (decA1_enc 108 o))
theorem bkrel (o : Bkrel) : Statement (.bkrel o) := by
  intro hw w h
  obtain rfl : encBkrel 109 o = w := Option.some.inj h
  exact decode0 (opBkrel 109 o) (xBkrel 109 o) rfl (only (decBkrel_enc 109 o))
theorem spawn (o : Spawn) : Statement (.spawn o) := by
  intro hw w h
  obtain rfl : encSpawn 110 o = w := Option.some.inj h
  exact decode0 (opSpawn 110 o) (xSpawn 110 o) rfl (only (decSpawn_enc 110 o))
theorem signal (o : A1) : Statement (.signal o) := by
  intro hw w h
  obtain rfl : encA1 111 o = w := Option.some.inj h
  exact decode0 (opA1 111 o) (xA1 111 o) rfl (only (decA1_enc 111 o))
theorem susp (o : G0) : Statement (.susp o) := by
  intro hw w h
  obtain rfl : encG0 112 o = w := Option.some.inj h
  exact decode0 (opG0 112 o) (xG0 112 o) rfl (only (decG0_enc 112 o))
theorem exit (o : G0) : Statement (.exit o) := by
  intro hw w h
  obtain rfl : encG0 113 o = w := Option.some.inj h
  exact decode0 (opG0 113 o) (xG0 113 o) rfl (only (decG0_enc 113 o))
theorem fget (o : DA) : Statement (.fget o) := by
  intro hw w h
  obtain rfl : encDA 114 o = w := Option.some.inj h
  exact decode0 (opDA 114 o) (xDA 114 o) rfl (only (decDA_enc 114 o))
theorem fput (o : Fput) : Statement (.fput o) := by
  intro hw w h
  obtain rfl : encFput 115 o = w := Option.some.inj h
  exact decode0 (opFput 115 o) (xFput 115 o) rfl (only (decFput_enc 115 o))
theorem launch (o : DA) : Statement (.launch o) := by
  intro hw w h
  obtain rfl : encDA 116 o = w := Option.some.inj h
  exact decode0 (opDA 116 o) (xDA 116 o) rfl (only (decDA_enc 116 o))
theorem frq (o : Frq) : Statement (.frq o) := by
  intro hw w h
  obtain rfl : encFrq 117 o = w := Option.some.inj h
  exact decode1 (opFrq 117 o) (xFrq 117 o) rfl (only (decFrq_enc 117 o))
theorem frgate (o : Frgate) : Statement (.frgate o) := by
  intro hw w h
  obtain rfl : encFrgate 118 o = w := Option.some.inj h
  exact decode1 (opFrgate 118 o) (xFrgate 118 o) rfl (only (decFrgate_enc 118 o))
theorem svc (o : Code) : Statement (.svc o) := by
  intro hw w h
  obtain rfl : encCode 119 o = w := Option.some.inj h
  exact decode0 (opCode 119 o) (xCode 119 o) rfl (only (decCode_enc 119 o))
theorem trap (o : Code) : Statement (.trap o) := by
  intro hw w h
  obtain rfl : encCode 120 o = w := Option.some.inj h
  exact decode0 (opCode 120 o) (xCode 120 o) rfl (only (decCode_enc 120 o))
theorem brk (o : Code) : Statement (.brk o) := by
  intro hw w h
  obtain rfl : encCode 124 o = w := Option.some.inj h
  exact decode0 (opCode 124 o) (xCode 124 o) rfl (only (decCode_enc 124 o))
theorem rett (o : AMode) : Statement (.rett o) := by
  intro hw w h
  obtain rfl : encAMode 121 o = w := Option.some.inj h
  exact decode0 (opAMode 121 o) (xAMode 121 o) rfl (only (decAMode_enc 121 o))
theorem csrr (o : Csr) : Statement (.csrr o) := by
  intro hw w h
  obtain rfl : encCsr 122 o = w := Option.some.inj h
  exact decode0 (opCsr 122 o) (xCsr 122 o) rfl (only (decCsr_enc 122 o))
theorem csrw (o : Csr) : Statement (.csrw o) := by
  intro hw w h
  obtain rfl : encCsr 123 o = w := Option.some.inj h
  have hn : o.num ≠ 15#12 := by simp [wellFormed] at hw; exact hw.2
  exact decode0 (opCsr 123 o) (xCsr 123 o) rfl (second (decLsi_encCsr 123 o hn) (decCsr_enc 123 o))
theorem lsinv (o : Lsi) : Statement (.lsinv o) := by
  intro hw w h
  obtain rfl : encLsi 123 o = w := Option.some.inj h
  exact decode0 (opLsi 123 o) (xLsi 123 o) rfl (first (decLsi_enc 123 o))
theorem nop (o : G0) : Statement (.nop o) := by
  intro hw w h
  obtain rfl : encG0 125 o = w := Option.some.inj h
  exact decode0 (opG0 125 o) (xG0 125 o) rfl (only (decG0_enc 125 o))
theorem xinv (o : AMode) : Statement (.xinv o) := by
  intro hw w h
  obtain rfl : encAMode 126 o = w := Option.some.inj h
  exact decode0 (opAMode 126 o) (xAMode 126 o) rfl (only (decAMode_enc 126 o))
theorem asyncFaultTaken (core : BitVec 10) (plane : BitVec 1) : Statement (.asyncFaultTaken core plane) := fun _ _ h => nomatch h
theorem pointFire (die : BitVec 3) : Statement (.pointFire die) := fun _ _ h => nomatch h
theorem edgeMessage (i : Nat) : Statement (.edgeMessage i) := fun _ _ h => nomatch h
theorem gateAddition (i : Nat) : Statement (.gateAddition i) := fun _ _ h => nomatch h
theorem sweepIdAssign (vd : BitVec 8) : Statement (.sweepIdAssign vd) := fun _ _ h => nomatch h
theorem taskStage (die : BitVec 3) : Statement (.taskStage die) := fun _ _ h => nomatch h
theorem planeSwap (core : BitVec 10) : Statement (.planeSwap core) := fun _ _ h => nomatch h
theorem spill (core : BitVec 10) (plane : BitVec 1) : Statement (.spill core plane) := fun _ _ h => nomatch h
theorem decrement (i : Nat) : Statement (.decrement i) := fun _ _ h => nomatch h
theorem loadResult (core : BitVec 10) (plane : BitVec 1) (acc : Nat) : Statement (.loadResult core plane acc) := fun _ _ h => nomatch h
theorem postedWriteAck (core : BitVec 10) (plane : BitVec 1) (acc : Nat) : Statement (.postedWriteAck core plane acc) := fun _ _ h => nomatch h
theorem copyComplete (core : BitVec 10) : Statement (.copyComplete core) := fun _ _ h => nomatch h
theorem matrixComplete (core : BitVec 10) : Statement (.matrixComplete core) := fun _ _ h => nomatch h
theorem mbrdReady (core : BitVec 10) : Statement (.mbrdReady core) := fun _ _ h => nomatch h
theorem lineFill (core : BitVec 10) (plane : BitVec 1) : Statement (.lineFill core plane) := fun _ _ h => nomatch h
theorem copyEntry (core : BitVec 10) : Statement (.copyEntry core) := fun _ _ h => nomatch h
theorem chainLoop (core : BitVec 10) : Statement (.chainLoop core) := fun _ _ h => nomatch h
theorem chainIf (core : BitVec 10) : Statement (.chainIf core) := fun _ _ h => nomatch h
theorem chainTag (core : BitVec 10) : Statement (.chainTag core) := fun _ _ h => nomatch h
theorem chainEnd (core : BitVec 10) : Statement (.chainEnd core) := fun _ _ h => nomatch h
theorem slotBoundary : Statement (.slotBoundary) := fun _ _ h => nomatch h
theorem bookingSearch (die : BitVec 3) : Statement (.bookingSearch die) := fun _ _ h => nomatch h
theorem templateRetry (task : Nat) : Statement (.templateRetry task) := fun _ _ h => nomatch h
theorem tentativeHoldExpiry (i : Nat) : Statement (.tentativeHoldExpiry i) := fun _ _ h => nomatch h
theorem seniorHoldExpiry (i : Nat) : Statement (.seniorHoldExpiry i) := fun _ _ h => nomatch h
theorem postponedExpiry (i : Nat) : Statement (.postponedExpiry i) := fun _ _ h => nomatch h
theorem deadlinePass (i : Nat) : Statement (.deadlinePass i) := fun _ _ h => nomatch h
theorem commitTimeout (i : Nat) : Statement (.commitTimeout i) := fun _ _ h => nomatch h
theorem prepareTimeout (i : Nat) : Statement (.prepareTimeout i) := fun _ _ h => nomatch h
theorem overrun (core : BitVec 10) (copy : Bool) : Statement (.overrun core copy) := fun _ _ h => nomatch h
theorem unbookedOverrun (core : BitVec 10) (copy : Bool) : Statement (.unbookedOverrun core copy) := fun _ _ h => nomatch h
theorem bookPrepare (m : MsgRef) : Statement (.bookPrepare m) := fun _ _ h => nomatch h
theorem bookGrant (m : MsgRef) : Statement (.bookGrant m) := fun _ _ h => nomatch h
theorem bookRefuse (m : MsgRef) : Statement (.bookRefuse m) := fun _ _ h => nomatch h
theorem bookCommit (m : MsgRef) : Statement (.bookCommit m) := fun _ _ h => nomatch h
theorem bookConfirm (m : MsgRef) : Statement (.bookConfirm m) := fun _ _ h => nomatch h
theorem bookAbort (m : MsgRef) : Statement (.bookAbort m) := fun _ _ h => nomatch h
theorem bookCancel (m : MsgRef) : Statement (.bookCancel m) := fun _ _ h => nomatch h
theorem bookLost (m : MsgRef) : Statement (.bookLost m) := fun _ _ h => nomatch h
theorem walk (core : BitVec 10) (plane : BitVec 1) (acc : Nat) (el : Nat) : Statement (.walk core plane acc el) := fun _ _ h => nomatch h
theorem faultPost (vd : BitVec 8) : Statement (.faultPost vd) := fun _ _ h => nomatch h
theorem ringPoll (vd : BitVec 8) : Statement (.ringPoll vd) := fun _ _ h => nomatch h
theorem replyRetry (vd : BitVec 8) (src : ReplySrc) : Statement (.replyRetry vd src) := fun _ _ h => nomatch h
theorem replyFail (vd : BitVec 8) (src : ReplySrc) : Statement (.replyFail vd src) := fun _ _ h => nomatch h
theorem homeAgentAccess (core : BitVec 10) (plane : BitVec 1) (acc : Nat) (el : Nat) : Statement (.homeAgentAccess core plane acc el) := fun _ _ h => nomatch h
theorem peerAccess (core : BitVec 10) (plane : BitVec 1) (acc : Nat) (el : Nat) : Statement (.peerAccess core plane acc el) := fun _ _ h => nomatch h
theorem migrationCopyEnd (i : Nat) : Statement (.migrationCopyEnd i) := fun _ _ h => nomatch h
theorem migrationCopyFail (i : Nat) : Statement (.migrationCopyFail i) := fun _ _ h => nomatch h
theorem unitStop (vd : BitVec 8) (u : HaltUnit) : Statement (.unitStop vd u) := fun _ _ h => nomatch h
theorem thermalPoll (temps : List Nat) : Statement (.thermalPoll temps) := fun _ _ h => nomatch h
theorem freeze (vd : BitVec 8) : Statement (.freeze vd) := fun _ _ h => nomatch h
theorem freezeSave (vd : BitVec 8) : Statement (.freezeSave vd) := fun _ _ h => nomatch h
theorem flimKill (task : Nat) : Statement (.flimKill task) := fun _ _ h => nomatch h
theorem worldSwitch (out : BitVec 8) (inn : BitVec 8) : Statement (.worldSwitch out inn) := fun _ _ h => nomatch h
theorem actionSignal (sweep : Nat) : Statement (.actionSignal sweep) := fun _ _ h => nomatch h
theorem actionFput (sweep : Nat) : Statement (.actionFput sweep) := fun _ _ h => nomatch h
theorem actionGate (sweep : Nat) : Statement (.actionGate sweep) := fun _ _ h => nomatch h
theorem actionPost (sweep : Nat) : Statement (.actionPost sweep) := fun _ _ h => nomatch h
theorem completionPost (vd : BitVec 8) (q : BitVec 6) : Statement (.completionPost vd q) := fun _ _ h => nomatch h
theorem notify (q : HostQp) (w0 : Word) (w1 : Word) : Statement (.notify q w0 w1) := fun _ _ h => nomatch h
theorem reconcile (vd : BitVec 8) (q : BitVec 6) : Statement (.reconcile vd q) := fun _ _ h => nomatch h
theorem sweepCommand (vd : BitVec 8) (q : BitVec 6) : Statement (.sweepCommand vd q) := fun _ _ h => nomatch h
theorem graphCommand (vd : BitVec 8) (q : BitVec 6) : Statement (.graphCommand vd q) := fun _ _ h => nomatch h
theorem nopCommand (vd : BitVec 8) (q : BitVec 6) : Statement (.nopCommand vd q) := fun _ _ h => nomatch h
theorem hostRdmaRead (r : RdmaSource) (va : Word) (len : Nat) : Statement (.hostRdmaRead r va len) := fun _ _ h => nomatch h
theorem hostRdmaWrite (q : HostQp) (va : Word) (data : List Byte) : Statement (.hostRdmaWrite q va data) := fun _ _ h => nomatch h
theorem hostRdmaAtomic (vd : BitVec 8) (va : Word) (cas : Bool) (op : Word) (new : Word) : Statement (.hostRdmaAtomic vd va cas op new) := fun _ _ h => nomatch h
theorem fwDefine (h : MgmtHdr) (vd : BitVec 8) (d : VdDef) : Statement (.fwDefine h vd d) := fun _ _ h => nomatch h
theorem fwTeardown (h : MgmtHdr) (vd : BitVec 8) : Statement (.fwTeardown h vd) := fun _ _ h => nomatch h
theorem fwReset (h : MgmtHdr) (vd : BitVec 8) : Statement (.fwReset h vd) := fun _ _ h => nomatch h
theorem fwSchedule (h : MgmtHdr) (vd : BitVec 8) (sched : List (Nat × Nat)) : Statement (.fwSchedule h vd sched) := fun _ _ h => nomatch h
theorem fwHostwin (h : MgmtHdr) (vd : BitVec 8) (w : HostWin) : Statement (.fwHostwin h vd w) := fun _ _ h => nomatch h
theorem fwSpan (h : MgmtHdr) (vd : BitVec 8) (own : BitVec 12) (nodes : List Nat) : Statement (.fwSpan h vd own nodes) := fun _ _ h => nomatch h
theorem fwWindow (h : MgmtHdr) (vd : BitVec 8) (w : WindowReq) : Statement (.fwWindow h vd w) := fun _ _ h => nomatch h
theorem fwMigrate (h : MgmtHdr) (vd : BitVec 8) (f : Nat) (t : Nat) : Statement (.fwMigrate h vd f t) := fun _ _ h => nomatch h
theorem fwHalt (h : MgmtHdr) (vd : BitVec 8) : Statement (.fwHalt h vd) := fun _ _ h => nomatch h
theorem fwResume (h : MgmtHdr) (vd : BitVec 8) : Statement (.fwResume h vd) := fun _ _ h => nomatch h
theorem fwStep (h : MgmtHdr) (vd : BitVec 8) (core : BitVec 10) (plane : BitVec 1) : Statement (.fwStep h vd core plane) := fun _ _ h => nomatch h
theorem fwDump (h : MgmtHdr) (vd : BitVec 8) (core : BitVec 10) (plane : BitVec 1) (win : BitVec 4) : Statement (.fwDump h vd core plane win) := fun _ _ h => nomatch h
theorem fwLoad (h : MgmtHdr) (vd : BitVec 8) (core : BitVec 10) (plane : BitVec 1) (win : BitVec 4) : Statement (.fwLoad h vd core plane win) := fun _ _ h => nomatch h
theorem fwCounters (h : MgmtHdr) (vd : BitVec 8) (bank : BitVec 3) : Statement (.fwCounters h vd bank) := fun _ _ h => nomatch h
theorem fwAttest (h : MgmtHdr) (vd : BitVec 8) (nonce : List Byte) : Statement (.fwAttest h vd nonce) := fun _ _ h => nomatch h
theorem fwUpdate (h : MgmtHdr) (vd : BitVec 8) (image : FwImage) : Statement (.fwUpdate h vd image) := fun _ _ h => nomatch h
theorem complexTakeover : Statement (.complexTakeover) := fun _ _ h => nomatch h
theorem watchdogTakeover : Statement (.watchdogTakeover) := fun _ _ h => nomatch h
theorem powerOn : Statement (.powerOn) := fun _ _ h => nomatch h
theorem msgRead (m : FMsg) : Statement (.msgRead m) := fun _ _ h => nomatch h
theorem msgRdata (m : FMsg) : Statement (.msgRdata m) := fun _ _ h => nomatch h
theorem msgWrite (m : FMsg) : Statement (.msgWrite m) := fun _ _ h => nomatch h
theorem msgAck (m : FMsg) : Statement (.msgAck m) := fun _ _ h => nomatch h
theorem msgAtomic (m : FMsg) : Statement (.msgAtomic m) := fun _ _ h => nomatch h
theorem msgArsp (m : FMsg) : Statement (.msgArsp m) := fun _ _ h => nomatch h
theorem msgMdadd (m : FMsg) : Statement (.msgMdadd m) := fun _ _ h => nomatch h
theorem msgGate (m : FMsg) : Statement (.msgGate m) := fun _ _ h => nomatch h
theorem msgFaulted (m : FMsg) : Statement (.msgFaulted m) := fun _ _ h => nomatch h
theorem msgNack (m : FMsg) : Statement (.msgNack m) := fun _ _ h => nomatch h
theorem msgTime (m : FMsg) : Statement (.msgTime m) := fun _ _ h => nomatch h
theorem msgTimeRsp (m : FMsg) : Statement (.msgTimeRsp m) := fun _ _ h => nomatch h
theorem timeProbe (node : BitVec 12) : Statement (.timeProbe node) := fun _ _ h => nomatch h
theorem offsetExpiry (node : BitVec 12) : Statement (.offsetExpiry node) := fun _ _ h => nomatch h
theorem requestRetransmit (i : Nat) : Statement (.requestRetransmit i) := fun _ _ h => nomatch h
theorem responseExpiry (i : Nat) : Statement (.responseExpiry i) := fun _ _ h => nomatch h
theorem tidAllocate (node : BitVec 12) : Statement (.tidAllocate node) := fun _ _ h => nomatch h
theorem frameRetransmit (f : PortFrame) : Statement (.frameRetransmit f) := fun _ _ h => nomatch h
theorem portDown (port : BitVec 4) : Statement (.portDown port) := fun _ _ h => nomatch h
theorem portUp (port : BitVec 4) : Statement (.portUp port) := fun _ _ h => nomatch h
theorem kStep (core : BitVec 10) : Statement (.kStep core) := fun _ _ h => nomatch h
theorem hostWindowResponse (i : Nat) (ok : Bool) (data : List Byte) : Statement (.hostWindowResponse i ok data) := fun _ _ h => nomatch h
theorem powerOff : Statement (.powerOff) := fun _ _ h => nomatch h
theorem bootComplete (ok : ImagesOk) : Statement (.bootComplete ok) := fun _ _ h => nomatch h

end Sys2Proof.Laws.RoundTrip
end

