-- ==== Sys2Proof/Safety.lean ====
section
/-! DEFINITION. What counts as a safe state and a safe run: every byte memory in its canonical form (spec/13_virry.md R267,
spec/15_virtual_devices.md R307 say what an unlisted byte reads as), and no step that stops. -/

namespace Sys2Proof.Machine

/-- A core's memories are canonical. -/
def Core.memOk (k : Core) : Bool := k.spad.wf && k.creel.wf && k.bobbin.wf

/-- HBM and every core's memories are canonical. -/
def State.memOk (s : State) : Bool := s.hbm.mem.wf && s.cores.all fun e => e.2.memOk

/-- The keys of the tables of cores, VDs and tasks rise. -/
def State.keysOk (s : State) : Bool := twf s.cores && twf s.vds && twf s.fr.tasks

/-- A step goes on. -/
def Safe (s : State) : Prop := ∃ t, step s = .next t

end Sys2Proof.Machine
end

