-- ==== Sys2Proof/Certificates/Slice0/Obligations.lean ====
section
/-! DEFINITION. The statements for the provers, and the words they are written in: frames, the values of the scalar majors
said anew from the rules, and the small states that the concrete statements run from. -/

namespace Sys2Proof.Claims

open Sys2Proof.Machine

/-! ### Frames -/

/-- Every byte of HBM and of every core's scratchpad, bobbin and creel reads in `t` as it reads in `s`. -/
def SameMemory (s t : State) : Prop :=
  (∀ a, memRead t.hbm.mem a = memRead s.hbm.mem a) ∧
  ∀ c a, memRead (t.core c).spad a = memRead (s.core c).spad a ∧ memRead (t.core c).bobbin a = memRead (s.core c).bobbin a ∧
    memRead (t.core c).creel a = memRead (s.core c).creel a

/-- `t` differs from `s` in the executing plane alone. -/
def OnlyPlane (s t : State) : Prop := t = s.modPl fun _ => t.pl

/-- Everything of the executing plane but its registers, sr, pc, loop and hold is as before. -/
def SameRest (x y : Plane) : Prop :=
  y.task = x.task ∧ y.oc = x.oc ∧ y.acc = x.acc ∧ y.nextId = x.nextId ∧ y.row = x.row ∧ y.rows = x.rows ∧ y.park = x.park ∧
    y.trap = x.trap ∧ y.stepping = x.stepping

/-- The executing plane has completed an instruction of `n` words: the pc and the loop have gone on (R106 to R111), nothing but
the plane differs, no byte of memory differs. -/
def Completed (s t : State) (n : Nat) : Prop :=
  OnlyPlane s t ∧ SameMemory s t ∧ SameRest s.pl t.pl ∧ t.pl.pc = s.nextPc n ∧
    t.pl.loop = (s.pl.pass (s.lineAt s.fc s.fp) n).loop ∧ t.pl.hold = none

/-- An instruction of `n` words completes and changes nothing but the pc. -/
def Unchanged (s t : State) (n : Nat) : Prop := Completed s t n ∧ t.pl.sr = s.pl.sr ∧ t.pl.regs = s.pl.regs

/-- It completes and writes `x` to g register `d` (a write to g0 is discarded, g0 reads 0), and no other register. -/
def WritesG (s t : State) (n : Nat) (d : BitVec 6) (x : Word) : Prop :=
  Completed s t n ∧ t.pl.sr = s.pl.sr ∧ (∀ r, t.pl.rg r = if r = 0 then 0 else if r = d then x else s.pl.rg r) ∧
    (∀ r, t.pl.rp r = s.pl.rp r) ∧ (∀ r, t.pl.rm r = s.pl.rm r) ∧ ∀ r, t.pl.rv r = s.pl.rv r

/-- It completes and writes `x` to mask `d` (m0 stays 0xFFFF), and no other register. -/
def WritesM (s t : State) (n : Nat) (d : BitVec 3) (x : BitVec 16) : Prop :=
  Completed s t n ∧ t.pl.sr = s.pl.sr ∧ (∀ r, t.pl.rm r = if r = 0 then 0xFFFF#16 else if r = d then x else s.pl.rm r) ∧
    (∀ r, t.pl.rg r = s.pl.rg r) ∧ (∀ r, t.pl.rp r = s.pl.rp r) ∧ ∀ r, t.pl.rv r = s.pl.rv r

/-- It completes and leaves the predicates as `f` says (p0 stays true), and no other register changes. -/
def WritesP (s t : State) (n : Nat) (f : BitVec 3 → Bool) : Prop :=
  Completed s t n ∧ t.pl.sr = s.pl.sr ∧ (∀ r, t.pl.rp r = if r = 0 then true else f r) ∧
    (∀ r, t.pl.rg r = s.pl.rg r) ∧ (∀ r, t.pl.rm r = s.pl.rm r) ∧ ∀ r, t.pl.rv r = s.pl.rv r

/-- What a precise trap at `epc` with cause code `code` puts into sr.cause, sr.epc and sr.tval and into the trap record (R274,
R276). -/
def preciseInfo (s : State) (code : Nat) (epc tval resume : Word) : TrapInfo :=
  { cause := BitVec.ofNat 64 code, epc := epc, tval := tval, resume := resume, origin := epc, more := 0, state := 0, step := 0,
    bkh := 0, slot := s.slot }

/-- `t` is `s` with a precise trap of the executing instruction taken: RESUME is the instruction itself (R276). -/
def Traps (s t : State) (code : Nat) (tval : Word) : Prop :=
  t = s.takeTrap s.fc s.fp (preciseInfo s code s.pl.pc tval s.pl.pc)

/-! ### The scalar majors (R318 to R336, R346, R363, R372, R380, R383, R386, R390, R402, R453) -/

/-- A major whose W form works on the low halves and sign-extends its 32-bit result. -/
def byWidth (f : BitVec 32 → BitVec 32 → BitVec 32) (g : Word → Word → Word) (w : BitVec 1) (a b : Word) : Word :=
  if w = 1 then (f (a.setWidth 32) (b.setWidth 32)).signExtend 64 else g a b

/-- The three-register majors of the plain arithmetic, logic and shift family, with what each computes of its two sources. -/
def triOps : List ((Tri → Instr) × (BitVec 1 → Word → Word → Word)) :=
  [(.addTri, byWidth (· + ·) (· + ·)), (.subTri, byWidth (· - ·) (· - ·)),
   (.mulTri, byWidth (· * ·) (· * ·)),
   (.mulhTri, fun _ a b => BitVec.ofInt 64 (a.toInt * b.toInt / 18446744073709551616)),
   (.mulhuTri, fun _ a b => BitVec.ofNat 64 (a.toNat * b.toNat / 18446744073709551616)),
   (.andTri, byWidth (· &&& ·) (· &&& ·)), (.orTri, byWidth (· ||| ·) (· ||| ·)), (.xorTri, byWidth (· ^^^ ·) (· ^^^ ·)),
   (.andnTri, byWidth (fun a b => a &&& ~~~b) fun a b => a &&& ~~~b),
   (.shlTri, byWidth (fun a b => a <<< (b.toNat % 32)) fun a b => a <<< (b.toNat % 64)),
   (.shrTri, byWidth (fun a b => a >>> (b.toNat % 32)) fun a b => a >>> (b.toNat % 64)),
   (.sarTri, byWidth (fun a b => a.sshiftRight (b.toNat % 32)) fun a b => a.sshiftRight (b.toNat % 64)),
   (.minTri, byWidth (fun a b => if a.toInt ≤ b.toInt then a else b) fun a b => if a.toInt ≤ b.toInt then a else b),
   (.maxTri, byWidth (fun a b => if a.toInt ≤ b.toInt then b else a) fun a b => if a.toInt ≤ b.toInt then b else a),
   (.minuTri, byWidth (fun a b => if a.toNat ≤ b.toNat then a else b) fun a b => if a.toNat ≤ b.toNat then a else b),
   (.maxuTri, byWidth (fun a b => if a.toNat ≤ b.toNat then b else a) fun a b => if a.toNat ≤ b.toNat then b else a)]

/-- The same majors with a 12-bit immediate. -/
def simOps : List ((Sim → Instr) × (BitVec 1 → Word → Word → Word)) :=
  List.zip [.addSim, .subSim, .mulSim, .mulhSim, .mulhuSim, .andSim, .orSim, .xorSim, .andnSim, .shlSim, .shrSim, .sarSim,
    .minSim, .maxSim, .minuSim, .maxuSim] (triOps.map (·.2))

/-- The same majors with a 32-bit immediate. -/
def limOps : List ((Lim → Instr) × (BitVec 1 → Word → Word → Word)) :=
  List.zip [.addLim, .subLim, .mulLim, .mulhLim, .mulhuLim, .andLim, .orLim, .xorLim, .andnLim, .shlLim, .shrLim, .sarLim,
    .minLim, .maxLim, .minuLim, .maxuLim] (triOps.map (·.2))

/-- A divisor is zero: its low half under W. -/
def zeroDivisor (w : BitVec 1) (b : Word) : Prop := if w = 1 then b.setWidth 32 = 0#32 else b = 0#64

/-- What DIVZERO shows of a dividend: DIV and REM extend a W source by its sign, DIVU and REMU by zeros. -/
def shown (signed : Bool) (w : BitVec 1) (a : Word) : Word :=
  if w = 1 then (if signed then (a.setWidth 32).signExtend 64 else (a.setWidth 32).setWidth 64) else a

/-- The division majors: their three forms, what each computes where the divisor is not zero, and whether it is signed. -/
def divOps : List ((Tri → Instr) × (Sim → Instr) × (Lim → Instr) × (BitVec 1 → Word → Word → Word) × Bool) :=
  [(.divTri, .divSim, .divLim, byWidth (fun a b => BitVec.ofInt 32 (a.toInt.tdiv b.toInt)) fun a b => BitVec.ofInt 64 (a.toInt.tdiv b.toInt), true),
   (.divuTri, .divuSim, .divuLim, byWidth (fun a b => BitVec.ofNat 32 (a.toNat / b.toNat)) fun a b => BitVec.ofNat 64 (a.toNat / b.toNat), false),
   (.remTri, .remSim, .remLim, byWidth (fun a b => BitVec.ofInt 32 (a.toInt.tmod b.toInt)) fun a b => BitVec.ofInt 64 (a.toInt.tmod b.toInt), true),
   (.remuTri, .remuSim, .remuLim, byWidth (fun a b => BitVec.ofNat 32 (a.toNat % b.toNat)) fun a b => BitVec.ofNat 64 (a.toNat % b.toNat), false)]

/-- A scalar instruction of `n` words under guard `g` writes `x` to `d`, or under a false guard changes nothing. -/
def ScalarEnds (i : Instr) (s : State) (g : BitVec 4) (n : Nat) (d : BitVec 6) (x : Word) : Prop :=
  ∃ t, exec i s = .next t ∧ if s.pl.guard g = true then WritesG s t n d x else Unchanged s t n

/-! ### The turn of a task -/

/-- The state in which the next turn of a core takes place: the agenda names the core, or is empty. -/
def TurnOf (s u : State) : Prop :=
  (s.agenda = [] ∧ u = s) ∨ ∃ c rest, s.agenda = .issue c :: rest ∧ u = { s with agenda := rest, focus := c }

/-- The active task of the core in focus may issue, and its next words are `w0` and `w1` (`n` of them): nothing of it is parked, failed, held by
a migration or pending (R90, R241, R246, R253, R280). -/
def MayIssue (s : State) (t : Task) (w0 w1 : IWord) (n : Nat) : Prop :=
  s.power = .run ∧ s.curTask = some t ∧ s.mute t = false ∧ s.failedLane = none ∧ s.heldAtomic = none ∧ s.stalled = false ∧
    s.fetched = .instr w0 w1 n ∧ (∀ id, s.pl.park ≠ some (.access id)) ∧ t.faults = []

/-- The state that the instruction of a task finds: its line is the one used last, and where that line does not end in a transfer the next is
asked for (R99, R111); a debugger's step is used up, the task has started. -/
def issuing (s : State) (t : Task) : State :=
  (s.useFetched.stepUsed t.vd).modTask (taskKey t.vd t.idx) fun t => { t with st := true }

/-- What a step makes of an outcome: in a next state what can perform at the cores performs, windows whose last access has gone end, and every
plane is settled. -/
def after (o : Out) : Out :=
  match o with | .next x => .next x.pumpAll.settleMaps.settle | .fault f => .fault f | .refused r => .refused r

end Sys2Proof.Claims

open Sys2Proof Sys2Proof.Machine Sys2Proof.Claims

/-! ## Scalar arithmetic -/

/-- ADD, SUB, MUL, MULH, MULHU, AND, OR, XOR, ANDN, SHL, SHR, SAR, MIN, MAX, MINU and MAXU with three registers: for every
operand and state the instruction completes, gd holds the value the rule gives of ga and gb, and nothing else changes but the
pc (R319, R372, R383, R390, R402, R453; guards R103). -/
def Sys2Proof.Claims.ScalarRegisterForms : Prop :=
  ∀ e ∈ triOps, ∀ (o : Tri) (s : State),
    ScalarEnds (e.1 o) s o.g 1 o.d (e.2 o.w (s.pl.rg o.a) (s.pl.rg o.b))

/-- The same sixteen majors with a 12-bit immediate, whose first source is gd, and with a 32-bit immediate. -/
def Sys2Proof.Claims.ScalarImmediateForms : Prop :=
  (∀ e ∈ simOps, ∀ (o : Sim) (s : State),
    ScalarEnds (e.1 o) s o.g 1 o.d (e.2 o.w (s.pl.rg o.d) (o.imm.signExtend 64))) ∧
  ∀ e ∈ limOps, ∀ (o : Lim) (s : State),
    ScalarEnds (e.1 o) s o.g 2 o.d (e.2 o.w (s.pl.rg o.a) (o.imm.signExtend 64))

/-- The sixteen plain arithmetic, logic and shift majors in their three forms (R319, R372, R383, R390, R402, R453). -/
def Obligations.ScalarForms : Prop := Claims.ScalarRegisterForms ∧ Claims.ScalarImmediateForms

/-- DIV, DIVU, REM and REMU, every form, with a divisor that is not zero: quotient toward zero, remainder with the sign of the
dividend (R346, R386). -/
def Sys2Proof.Claims.DivisionResult : Prop :=
  ∀ e ∈ divOps,
    (∀ (o : Tri) (s : State), ¬ zeroDivisor o.w (s.pl.rg o.b) →
      ScalarEnds (e.1 o) s o.g 1 o.d (e.2.2.2.1 o.w (s.pl.rg o.a) (s.pl.rg o.b))) ∧
    (∀ (o : Sim) (s : State), ¬ zeroDivisor o.w (o.imm.signExtend 64) →
      ScalarEnds (e.2.1 o) s o.g 1 o.d (e.2.2.2.1 o.w (s.pl.rg o.d) (o.imm.signExtend 64))) ∧
    ∀ (o : Lim) (s : State), ¬ zeroDivisor o.w (o.imm.signExtend 64) →
      ScalarEnds (e.2.2.1 o) s o.g 2 o.d (e.2.2.2.1 o.w (s.pl.rg o.a) (o.imm.signExtend 64))

/-- DIV, DIVU, REM and REMU by zero raise DIVZERO with the dividend as trap value; under a false guard they raise nothing. -/
def Sys2Proof.Claims.DivideByZero : Prop :=
  ∀ e ∈ divOps,
    (∀ (o : Tri) (s : State), zeroDivisor o.w (s.pl.rg o.b) →
      ∃ t, exec (e.1 o) s = .next t ∧
        if s.pl.guard o.g = true then Traps s t 11 (shown e.2.2.2.2 o.w (s.pl.rg o.a)) else Unchanged s t 1) ∧
    (∀ (o : Sim) (s : State), zeroDivisor o.w (o.imm.signExtend 64) →
      ∃ t, exec (e.2.1 o) s = .next t ∧
        if s.pl.guard o.g = true then Traps s t 11 (shown e.2.2.2.2 o.w (s.pl.rg o.d)) else Unchanged s t 1) ∧
    ∀ (o : Lim) (s : State), zeroDivisor o.w (o.imm.signExtend 64) →
      ∃ t, exec (e.2.2.1 o) s = .next t ∧
        if s.pl.guard o.g = true then Traps s t 11 (shown e.2.2.2.2 o.w (s.pl.rg o.a)) else Unchanged s t 2

/-- DIV, DIVU, REM and REMU in their three forms: the result, or DIVZERO (R346, R386). -/
def Obligations.Division : Prop := Claims.DivisionResult ∧ Claims.DivideByZero

/-! ## Counts, constants, bit fields, predicates and masks -/

/-- The source of a W form, zero-extended. -/
def Sys2Proof.Claims.low (w : BitVec 1) (a : Word) : Word := if w = 1 then (a.setWidth 32).setWidth 64 else a

/-- The number of 1 bits of `a`. -/
def Sys2Proof.Claims.ones (a : Word) : Nat := ((List.range 64).filter fun i => a.getLsbD i).length

/-- CLZ, POPC, MOV, LDI (both forms), LDIH and SEL: the value each writes to gd (R336, R363, R380, R391). -/
def Obligations.CountMoveAndConstant : Prop :=
  (∀ (o : Un) (s : State), ScalarEnds (.clz o) s o.g 1 o.d
    (BitVec.ofNat 64 (if low o.w (s.pl.rg o.a) = 0 then 64 else 63 - Nat.log2 (low o.w (s.pl.rg o.a)).toNat))) ∧
  (∀ (o : Un) (s : State), ScalarEnds (.popc o) s o.g 1 o.d (BitVec.ofNat 64 (ones (low o.w (s.pl.rg o.a))))) ∧
  (∀ (o : Un) (s : State), ScalarEnds (.mov o) s o.g 1 o.d
    (if o.w = 1 then ((s.pl.rg o.a).setWidth 32).signExtend 64 else s.pl.rg o.a)) ∧
  (∀ (o : LdiS) (s : State), ScalarEnds (.ldiSim o) s o.g 1 o.d (o.imm.signExtend 64)) ∧
  (∀ (o : LdiL) (s : State), ScalarEnds (.ldiLim o) s o.g 2 o.d (o.imm.signExtend 64)) ∧
  (∀ (o : LdiL) (s : State), ScalarEnds (.ldih o) s o.g 2 o.d (o.imm ++ (s.pl.rg o.d).setWidth 32)) ∧
  ∀ (o : Sel) (s : State), ScalarEnds (.sel o) s o.g 2 o.d (if s.pl.guard o.sp = true then s.pl.rg o.a else s.pl.rg o.b)

/-- An instruction of `n` words writes to `d` a value whose bits are `f`; under a false guard it changes nothing. -/
def Sys2Proof.Claims.BitsEnd (i : Instr) (s : State) (g : BitVec 4) (n : Nat) (d : BitVec 6) (f : Nat → Bool) : Prop :=
  ∃ t, exec i s = .next t ∧
    if s.pl.guard g = true then ∃ x, WritesG s t n d x ∧ ∀ k < 64, x.getLsbD k = f k else Unchanged s t n

/-- BFX, BFXU and BFI, with a register that gives the position in its bits [5:0] and the length less one in its bits [13:8] (cut
at bit 63), and with constants: every bit of the result (R323, R324). -/
def Obligations.BitFieldBits : Prop :=
  (∀ (o : BfR) (s : State),
    let pos := ((s.pl.rg o.b).extractLsb' 0 6).toNat
    let len := min (((s.pl.rg o.b).extractLsb' 8 6).toNat + 1) (64 - pos)
    BitsEnd (.bfxReg o) s o.g 1 o.d (fun k => (s.pl.rg o.a).getLsbD (pos + min k (len - 1))) ∧
    BitsEnd (.bfxuReg o) s o.g 1 o.d (fun k => decide (k < len) && (s.pl.rg o.a).getLsbD (pos + k)) ∧
    BitsEnd (.bfiReg o) s o.g 1 o.d (fun k =>
      if pos ≤ k ∧ k < pos + len then (s.pl.rg o.a).getLsbD (k - pos) else (s.pl.rg o.d).getLsbD k)) ∧
  ∀ (o : BfI) (s : State), o.pos.toNat + o.len.toNat + 1 ≤ 64 →
    let pos := o.pos.toNat
    let len := o.len.toNat + 1
    BitsEnd (.bfxImm o) s o.g 2 o.d (fun k => (s.pl.rg o.a).getLsbD (pos + min k (len - 1))) ∧
    BitsEnd (.bfxuImm o) s o.g 2 o.d (fun k => decide (k < len) && (s.pl.rg o.a).getLsbD (pos + k)) ∧
    BitsEnd (.bfiImm o) s o.g 2 o.d (fun k =>
      if pos ≤ k ∧ k < pos + len then (s.pl.rg o.a).getLsbD (k - pos) else (s.pl.rg o.d).getLsbD k)

/-- The condition of CMP, said of numbers: equal, less signed, less unsigned, a common 1 bit. -/
def Sys2Proof.Claims.cmpHolds (cc : BitVec 2) (a b : Word) : Bool :=
  if cc = 0 then decide (a = b) else if cc = 1 then decide (a.toInt < b.toInt)
  else if cc = 2 then decide (a.toNat < b.toNat) else decide (a &&& b ≠ 0)

/-- CMP of `n` words: guard 0b1000 leaves both predicates; any other guard writes both, false where the guard is false. -/
def Sys2Proof.Claims.CompareEnds (i : Instr) (s : State) (g : BitVec 4) (n : Nat) (pd pq : BitVec 3) (c : Bool) : Prop :=
  ∃ t, exec i s = .next t ∧
    if g = 8 then Unchanged s t n
    else WritesP s t n fun r =>
      if r = pq then s.pl.guard g && !c else if r = pd then s.pl.guard g && c else s.pl.rp r

/-- CMP, both forms (R338): pd takes the condition and pq its complement, both false where the guard is false, and under guard 0b1000
neither is written; a write to p0 is discarded; a CMP of one predicate register twice, but p0, is not well
formed, and a step that finds its words raises ILLEGAL. -/
def Obligations.CompareResult : Prop :=
  (∀ (o : CmpR) (s : State), CompareEnds (.cmpReg o) s o.g 1 o.pd o.pq (cmpHolds o.cc (s.pl.rg o.a) (s.pl.rg o.b))) ∧
  (∀ (o : CmpI) (s : State), CompareEnds (.cmpImm o) s o.g 2 o.pd o.pq (cmpHolds o.cc (s.pl.rg o.a) (o.imm.signExtend 64))) ∧
  (∀ o : CmpR, wellFormed (.cmpReg o) = decide (¬ (o.pd = o.pq ∧ o.pd ≠ 0))) ∧
  (∀ o : CmpI, wellFormed (.cmpImm o) = decide (¬ (o.pd = o.pq ∧ o.pd ≠ 0))) ∧
  ∀ (s u : State) (t : Task) (w0 w1 : IWord) (n : Nat) (i : Instr), TurnOf s u → MayIssue u t w0 w1 n → guardOf w0 ≠ 8 →
    decode w0 w1 = .ok i → ((∃ o : CmpR, i = .cmpReg o ∧ o.pd = o.pq ∧ o.pd ≠ 0) ∨ ∃ o : CmpI, i = .cmpImm o ∧ o.pd = o.pq ∧ o.pd ≠ 0) →
    ∃ x, Traps (issuing u t) x 1 (w0.setWidth 64) ∧ step s = after (.next x)

/-- A predicate instruction under guard `g` writes `b` to `d`. -/
def Sys2Proof.Claims.PredEnds (i : Instr) (s : State) (g : BitVec 4) (d : BitVec 3) (b : Bool) : Prop :=
  ∃ t, exec i s = .next t ∧
    if s.pl.guard g = true then WritesP s t 1 (fun r => if r = d then b else s.pl.rp r) else Unchanged s t 1

/-- PAND, POR, PXOR and PNOT on sources that NA and NB invert (R369, R370). -/
def Sys2Proof.Claims.PredicateLogic : Prop :=
  (∀ (o : Log) (s : State),
    let a := if o.na = 1 then !(s.pl.rp o.a) else s.pl.rp o.a
    let b := if o.nb = 1 then !(s.pl.rp o.b) else s.pl.rp o.b
    PredEnds (.pand o) s o.g o.d (a && b) ∧ PredEnds (.por o) s o.g o.d (a || b) ∧ PredEnds (.pxor o) s o.g o.d (xor a b)) ∧
  ∀ (o : LogN) (s : State), PredEnds (.pnot o) s o.g o.d (!(s.pl.rp o.a))

/-- A mask instruction writes the bits of `x` that the mask guard `g` selects to `d`, and leaves the others. -/
def Sys2Proof.Claims.MaskEnds (i : Instr) (s : State) (g : BitVec 4) (d : BitVec 3) (x : BitVec 16) : Prop :=
  ∃ t, exec i s = .next t ∧
    WritesM s t 1 d ((x &&& s.pl.vguard g) ||| (s.pl.rm d &&& ~~~(s.pl.vguard g)))

/-- MAND, MOR, MXOR and MNOT (R369, R370). -/
def Sys2Proof.Claims.MaskLogic : Prop :=
  (∀ (o : Log) (s : State),
    let a := if o.na = 1 then ~~~(s.pl.rm o.a) else s.pl.rm o.a
    let b := if o.nb = 1 then ~~~(s.pl.rm o.b) else s.pl.rm o.b
    MaskEnds (.mand o) s o.g o.d (a &&& b) ∧ MaskEnds (.mor o) s o.g o.d (a ||| b) ∧ MaskEnds (.mxor o) s o.g o.d (a ^^^ b)) ∧
  ∀ (o : LogN) (s : State), MaskEnds (.mnot o) s o.g o.d (~~~(s.pl.rm o.a))

/-- The eight majors of predicate and mask logic (R369, R370). -/
def Obligations.BooleanLogic : Prop := Claims.PredicateLogic ∧ Claims.MaskLogic

/-! ## Transfers, loops, calls of the supervisor, control and status registers -/

/-- An address a transfer may name (R112): a multiple of 64, not 0, inside the HBM window. -/
def Sys2Proof.Claims.GoodTarget (a : Word) : Prop := a &&& 63#64 = 0 ∧ a ≠ 0 ∧ a.toNat < 281474976710656

/-- A running loop ends; a loop that does not run stays as it is. -/
def Sys2Proof.Claims.loopLeft (l : Loop) : Loop := if l.act = true then { l with act := false, first := 0, exit := 0 } else l

/-- Execution goes on at word 1 of the line at `a`: nothing but pc, loop, hold and register g62 differs. -/
def Sys2Proof.Claims.GoesTo (s t : State) (a : Word) (link : Option Word) : Prop :=
  OnlyPlane s t ∧ SameMemory s t ∧ SameRest s.pl t.pl ∧ t.pl.pc = a + 4 ∧ t.pl.loop = loopLeft s.pl.loop ∧ t.pl.hold = none ∧
    t.pl.sr = s.pl.sr ∧ (∀ r, t.pl.rg r = match link with | some x => if r = 62 then x else s.pl.rg r | none => s.pl.rg r) ∧
    (∀ r, t.pl.rp r = s.pl.rp r) ∧ (∀ r, t.pl.rm r = s.pl.rm r) ∧ ∀ r, t.pl.rv r = s.pl.rv r

/-- The instruction stands at the last used word of a line that the line store holds: where a transfer and a loop may stand. -/
def Sys2Proof.Claims.AtLineEnd (s : State) (l : Line) : Prop :=
  s.lineAt s.fc s.fp = some l ∧ wordIdx s.pl.pc = linkCnt (l.word 0)

/-- What CALL puts into g62: the line after its own, or 0 at a chain's end. -/
def Sys2Proof.Claims.linkOf (s : State) (l : Line) : Word :=
  if linkEnd (l.word 0) = true then 0
  else (s.pl.pc &&& ~~~63#64) + 64 * ((l.word 0).extractLsb' 0 22).signExtend 64

/-- BR, JMP, RET and CALL (both forms) under a true guard at a line's end: the pc, the link, the end of a running loop (R106,
R113, R332, R334, R357, R387). -/
def Obligations.TransfersTaken : Prop :=
  ∀ (s : State) (l : Line), AtLineEnd s l →
    (∀ o : Br, s.pl.guard o.g = true → GoodTarget ((s.pl.pc &&& ~~~63#64) + 64 * o.off.signExtend 64) →
      ∃ t, exec (.br o) s = .next t ∧ GoesTo s t ((s.pl.pc &&& ~~~63#64) + 64 * o.off.signExtend 64) none) ∧
    (∀ o : Jmp, s.pl.guard o.g = true → GoodTarget (s.pl.rg o.a) →
      ∃ t, exec (.jmp o) s = .next t ∧ GoesTo s t (s.pl.rg o.a) none) ∧
    (∀ o : G0, s.pl.guard o.g = true → GoodTarget (s.pl.rg 62) →
      ∃ t, exec (.ret o) s = .next t ∧ GoesTo s t (s.pl.rg 62) none) ∧
    (∀ o : CallR, s.pl.guard o.g = true → GoodTarget ((s.pl.pc &&& ~~~63#64) + 64 * o.off.signExtend 64) →
      ∃ t, exec (.callRel o) s = .next t ∧
        GoesTo s t ((s.pl.pc &&& ~~~63#64) + 64 * o.off.signExtend 64) (some (linkOf s l))) ∧
    ∀ o : CallG, s.pl.guard o.g = true → GoodTarget (s.pl.rg o.a) →
      ∃ t, exec (.callReg o) s = .next t ∧ GoesTo s t (s.pl.rg o.a) (some (linkOf s l))

/-- BR, JMP, RET, CALL, LOOP and LOOPM under a false guard change nothing but the pc (R103, R106, R113). -/
def Sys2Proof.Claims.TransfersNotTaken : Prop :=
  ∀ (s : State) (l : Line), AtLineEnd s l → s.pl.loop.act = false →
    let falls (i : Instr) (g : BitVec 4) : Prop := s.pl.guard g = false → ∃ t, exec i s = .next t ∧ Unchanged s t 1
    (∀ o : Br, falls (.br o) o.g) ∧ (∀ o : Jmp, falls (.jmp o) o.g) ∧ (∀ o : G0, falls (.ret o) o.g) ∧
    (∀ o : CallR, falls (.callRel o) o.g) ∧ (∀ o : CallG, falls (.callReg o) o.g) ∧ (∀ o : Jmp, falls (.loop o) o.g) ∧
    ∀ o : LoopM, falls (.loopm o) o.g

/-- BR, JMP, RET and CALL to an address that no line has raise FETCH at the target, whatever the trap value (R112, R332); the
end of a running loop stands. Away from a line's end every transfer and loop instruction raises ILLEGAL with its word as trap value,
unless its guard is 0b1000 (R106, R113, R116). -/
def Sys2Proof.Claims.TransfersRefused : Prop :=
  (∀ (s : State) (l : Line), AtLineEnd s l →
    let bad (i : Instr) (a : Word) : Prop := ¬ GoodTarget a → ∃ t v,
      exec i s = .next t ∧ t = (s.bump.modPl fun p => { p with loop := loopLeft p.loop }).takeTrap s.fc s.fp (preciseInfo s 3 a v a)
    (∀ o : Br, s.pl.guard o.g = true → bad (.br o) ((s.pl.pc &&& ~~~63#64) + 64 * o.off.signExtend 64)) ∧
    (∀ o : Jmp, s.pl.guard o.g = true → bad (.jmp o) (s.pl.rg o.a)) ∧
    (∀ o : G0, s.pl.guard o.g = true → bad (.ret o) (s.pl.rg 62)) ∧
    (∀ o : CallR, s.pl.guard o.g = true → bad (.callRel o) ((s.pl.pc &&& ~~~63#64) + 64 * o.off.signExtend 64)) ∧
    ∀ o : CallG, s.pl.guard o.g = true → bad (.callReg o) (s.pl.rg o.a)) ∧
  ∀ (s : State) (l : Line), s.lineAt s.fc s.fp = some l → wordIdx s.pl.pc ≠ linkCnt (l.word 0) →
    let ill (i : Instr) (g : BitVec 4) : Prop := g ≠ 8 → ∃ t w, exec i s = .next t ∧ encode i = some w ∧
      Traps s t 1 (w.1.setWidth 64)
    (∀ o : Br, ill (.br o) o.g) ∧ (∀ o : Jmp, ill (.jmp o) o.g) ∧ (∀ o : G0, ill (.ret o) o.g) ∧
    (∀ o : CallR, ill (.callRel o) o.g) ∧ (∀ o : CallG, ill (.callReg o) o.g) ∧ (∀ o : Jmp, ill (.loop o) o.g) ∧
    ∀ o : LoopM, ill (.loopm o) o.g

/-- Transfers and loop instructions under a false guard, to no line, or out of place (R103, R106, R112, R113, R332). -/
def Obligations.TransfersNotMade : Prop := Claims.TransfersNotTaken ∧ Claims.TransfersRefused

/-- The state in which an instruction of `n` words leaves the executing plane with loop `l`. -/
def Sys2Proof.Claims.StartsLoop (s t : State) (l : Loop) : Prop :=
  OnlyPlane s t ∧ SameMemory s t ∧ SameRest s.pl t.pl ∧ t.pl.pc = s.nextPc 1 ∧ t.pl.loop = l ∧ t.pl.hold = none ∧
    t.pl.sr = s.pl.sr ∧ t.pl.regs = s.pl.regs

/-- LOOP and LOOPM under a true guard, at the end of a line that another line follows, with no loop running: sr.lcnt takes
ga[31:0], J is 0, the loop runs unless n is 0, its body starts at the next line (R106, R107, R108, R367). A false guard changes
nothing. A loop instruction while a loop runs raises ILLEGAL. -/
def Obligations.LoopStart : Prop :=
  ∀ (s : State) (l : Line), AtLineEnd s l →
    (s.pl.loop.act = false → linkEnd (l.word 0) = false →
      let body (mod : Bool) (ns : BitVec 2) (a : BitVec 6) : Loop :=
        { act := decide ((s.pl.rg a).setWidth 32 ≠ 0#32), mod := mod, ns := ns, j := 0, n := (s.pl.rg a).setWidth 32,
          first := (s.nextPc 1) &&& ~~~63#64, exit := 0 }
      (∀ o : Jmp, ∃ t, exec (.loop o) s = .next t ∧
        if s.pl.guard o.g = true then StartsLoop s t (body false 0 o.a) else Unchanged s t 1) ∧
      ∀ o : LoopM, ∃ t, exec (.loopm o) s = .next t ∧
        if s.pl.guard o.g = true then StartsLoop s t (body true o.ns o.a) else Unchanged s t 1) ∧
    (s.pl.loop.act = true →
      (∀ o : Jmp, o.g ≠ 8 → ∃ t w, exec (.loop o) s = .next t ∧ encode (.loop o) = some w ∧ Traps s t 1 (w.1.setWidth 64)) ∧
      ∀ o : LoopM, o.g ≠ 8 → ∃ t w, exec (.loopm o) s = .next t ∧ encode (.loopm o) = some w ∧ Traps s t 1 (w.1.setWidth 64))

/-- NOP, SVC, TRAP and BRK: NOP changes nothing; SVC (cause 17), TRAP (18) and BRK (19, where the VD's BKH is 0) take their trap
with the code as trap value and the next instruction as RESUME (R276, R333, R385, R404). -/
def Sys2Proof.Claims.SupervisorCalls : Prop :=
  ∀ (s : State),
    (∀ o : G0, ∃ t, exec (.nop o) s = .next t ∧ Unchanged s t 1) ∧
    let calls (i : Instr) (o : Code) (code : Nat) : Prop := ∃ t, exec i s = .next t ∧
      if s.pl.guard o.g = true
      then t = s.takeTrap s.fc s.fp (preciseInfo s code s.pl.pc (o.code.setWidth 64) (s.nextPc 1))
      else Unchanged s t 1
    (∀ o : Code, calls (.svc o) o 17) ∧ (∀ o : Code, calls (.trap o) o 18) ∧
    ((∀ d, s.vd s.curVd = some d → d.d.brkHalt = false) → ∀ o : Code, calls (.brk o) o 19)

/-- BRK in a VD whose debug control word has BKH = 1 completes and raises the halt line: every unit of the VD may stop, the halt is
not fatal, its reason is DEBUG (R290, R333). -/
def Sys2Proof.Claims.BreakHalts : Prop :=
  ∀ (s : State) (o : Code) (d : Vd), s.vd s.curVd = some d → d.d.brkHalt = true → d.halt = none → s.pl.guard o.g = true →
    ∃ t, exec (.brk o) s = .next t ∧ t = (s.advance 1).raiseHalt s.curVd 6 (o.code.setWidth 64) ∧
      ∃ d' h, t.vd s.curVd = some d' ∧ d'.halt = some h ∧ h.reason = 6 ∧ h.fatal = false ∧ h.stopped = []

/-- NOP, SVC, TRAP and BRK, with the trap or the halt that each raises (R276, R290, R333, R385, R404). -/
def Obligations.CallsAndBreaks : Prop := Claims.SupervisorCalls ∧ Claims.BreakHalts

/-- The registers of R93 with what each reads, for the executing plane. -/
def Sys2Proof.Claims.csrTable (s : State) : List (BitVec 12 × Word) :=
  [(0x000, s.slot), (0x001, s.pl.sr.point), (0x002, s.pl.sr.sweep.setWidth 64), (0x003, BitVec.ofNat 64 s.curVd),
   (0x005, if s.pl.sr.smode = true then 1 else 0), (0x006, BitVec.ofNat 64 (1024 * s.fp.toNat + s.fc)),
   (0x007, BitVec.ofNat 64 (4294967296 * (6144 * s.pl.rows) + 6144 * s.pl.row)), (0x008, s.pl.sr.tags),
   (0x009, (s.pl.oc.mxc ++ s.pl.oc.cpc ++ s.pl.oc.stc ++ s.pl.oc.ldc).setWidth 64), (0x00A, s.pl.sr.fps.setWidth 64),
   (0x00B, s.pl.sr.fpen), (0x00C, s.pl.sr.tensor.setWidth 64), (0x00D, s.pl.loop.n.setWidth 64),
   (0x00E, BitVec.ofBool s.pl.loop.act ++ BitVec.ofBool s.pl.loop.mod ++ s.pl.loop.ns ++ (0 : BitVec 27) ++ s.pl.loop.j), (0x00F, 0),
   (0x010, s.pl.sr.cause), (0x011, s.pl.sr.epc), (0x012, s.pl.sr.tval)]

/-- CSRR of each register of R93 but sr.task, and of the counter banks: its value goes to gd, and nothing else changes; a register marked S
read in T mode raises PRIV with the instruction word as trap value, whatever the guard but 0b1000 (R93, R94, R116, R344). -/
def Sys2Proof.Claims.CsrRead : Prop :=
  ∀ (o : Csr) (s : State),
    ((0x010 ≤ o.num.toNat ∧ o.num.toNat ≤ 0x012 → s.pl.sr.smode = true) →
      (∀ e ∈ csrTable s, o.num = e.1 → ScalarEnds (.csrr o) s o.g 1 o.d e.2) ∧
      ∀ b i d, s.vd s.curVd = some d → b < 8 → i < 32 → o.num.toNat = 0x100 + 32 * b + i → ¬ (b = 2 ∧ i = 0) → ¬ (b = 0 ∧ i = 20) →
        ScalarEnds (.csrr o) s o.g 1 o.d ((tget d.cnt (32 * b + i)).getD 0)) ∧
    (0x010 ≤ o.num.toNat → o.num.toNat ≤ 0x012 → s.pl.sr.smode = false → o.g ≠ 8 →
      ∃ t w, exec (.csrr o) s = .next t ∧ encode (.csrr o) = some w ∧ Traps s t 2 (w.1.setWidth 64))

/-- What CSRW leaves in sr: sr.tags, sr.fps and sr.tensor take the low bits, sr.fpen its defined bits with a reserved rounding mode
kept as it was, sr.cause its low 12 bits, sr.epc and sr.tval all (R93, R157). -/
def Sys2Proof.Claims.srAfter (x : Sr) (num : BitVec 12) (v : Word) : Sr :=
  if num = 0x008 then { x with tags := v }
  else if num = 0x00A then { x with fps := v.setWidth 6 }
  else if num = 0x00B then
    { x with fpen := (v &&& 0x303F#64) ||| (if v.extractLsb' 8 3 = 0#3 ∨ v.extractLsb' 8 3 = 6#3 ∨ v.extractLsb' 8 3 = 7#3
        then x.fpen &&& 0x700#64 else v &&& 0x700#64) }
  else if num = 0x00C then { x with tensor := v.setWidth 8 }
  else if num = 0x010 then { x with cause := v &&& 0xFFF#64 }
  else if num = 0x011 then { x with epc := v }
  else if num = 0x012 then { x with tval := v }
  else x

/-- CSRW: the register it names takes gd where it may be written, a read-only register takes no write, no other register changes; a
register marked S in T mode raises PRIV (R93, R116, R157, R344). -/
def Sys2Proof.Claims.CsrWrite : Prop :=
  ∀ (o : Csr) (s : State),
    ((0x010 ≤ o.num.toNat ∧ o.num.toNat ≤ 0x012 → s.pl.sr.smode = true) →
      ∃ t, exec (.csrw o) s = .next t ∧ Completed s t 1 ∧ t.pl.regs = s.pl.regs ∧
        t.pl.sr = if s.pl.guard o.g = true then srAfter s.pl.sr o.num (s.pl.rg o.d) else s.pl.sr) ∧
    (0x010 ≤ o.num.toNat → o.num.toNat ≤ 0x012 → s.pl.sr.smode = false → o.g ≠ 8 →
      ∃ t w, exec (.csrw o) s = .next t ∧ encode (.csrw o) = some w ∧ Traps s t 2 (w.1.setWidth 64))

/-- CSRR and CSRW of the registers of R93 and the counter banks (R93, R94, R116, R157, R344). -/
def Obligations.CsrAccess : Prop := Claims.CsrRead ∧ Claims.CsrWrite

/-! ## Loads, stores and atomics -/

/-- An element whose home is the memory of another core of core `c`'s die, ready to perform there (PEER_ACCESS). -/
def Sys2Proof.Claims.AtPeer (c : Nat) (e : Elem) : Prop :=
  e.peer = true ∧ e.st = .ready ∧ ∃ k o, (e.loc = some (.spad k o) ∨ e.loc = some (.bobbin k o) ∨ e.loc = some (.creel k o)) ∧ dieOf k = dieOf c

/-- The checks of a memory instruction admit its elements `es`, placed as `es'`: its windows (R188), the places its kind admits, the lease
(R97), the scope ceiling (R228), the class count (R102). -/
def Sys2Proof.Claims.Passes (s : State) (d : Vd) (k : AccKind) (ar : BitVec 2) (scp : BitVec 3) (span : Option (Word × Nat))
    (place : Vd → List Elem → Option (Nat × Word)) (es es' : List Elem) : Prop :=
  s.vd s.curVd = some d ∧ (∀ va len cause, span = some (va, len) → s.target d s.fc va len ≠ .bad cause) ∧
    s.placeAll d s.fc es = .ok es' ∧ place d es' = none ∧ (∀ e ∈ es', s.pl.outOfLease e = false) ∧
    (ar = 0 ∨ scp.toNat ≤ d.d.ceil.toNat) ∧ s.pl.countFull k = false

/-- The same with every element at another core of the die, and nothing else of the task outstanding. -/
def Sys2Proof.Claims.Admits (s : State) (d : Vd) (k : AccKind) (ar : BitVec 2) (scp : BitVec 3) (span : Option (Word × Nat))
    (place : Vd → List Elem → Option (Nat × Word)) (es es' : List Elem) : Prop :=
  Passes s d k ar scp span place es es' ∧ es' ≠ [] ∧ (∀ e ∈ es', AtPeer s.fc e) ∧ s.pl.acc = []

/-- sr.oc with one more access of kind `k`: stores count in STC, loads and atomics with a result in LDC (R102). -/
def Sys2Proof.Claims.counted (o : Oc) (k : AccKind) : Oc :=
  if k.isStore = true then { o with stc := o.stc + 1 } else { o with ldc := o.ldc + 1 }

/-- The access with the class, order and elements given is outstanding, it is counted, the pc has gone on, and nothing else differs. -/
def Sys2Proof.Claims.Issued (s t : State) (n : Nat) (k : AccKind) (cl : BitVec 4) (ar : BitVec 2) (scp : BitVec 3) (es : List Elem) : Prop :=
  OnlyPlane s t ∧ SameMemory s t ∧
    (∃ a, t.pl.acc = [a] ∧ a.id = s.pl.nextId ∧ a.pc = s.pl.pc ∧ a.kind = k ∧ a.cls = cl ∧ a.acq = ar.getLsbD 0 ∧ a.rel = ar.getLsbD 1 ∧
      a.scp = scp ∧ a.tensor = s.pl.sr.tensor ∧ a.elems = es) ∧
    t.pl.oc = counted s.pl.oc k ∧ t.pl.regs = s.pl.regs ∧ t.pl.sr = s.pl.sr ∧ t.pl.pc = s.nextPc n ∧ t.pl.hold = none

/-- A memory instruction whose checks admit it starts its access, whatever its homes are: it is counted and its elements are looked up and
pumped. At other cores of the die the access is then outstanding and the pc has gone on. -/
def Sys2Proof.Claims.Issues (i : Instr) (s : State) (n : Nat) (k : AccKind) (cl : BitVec 4) (ar : BitVec 2) (scp : BitVec 3)
    (span : Option (Word × Nat)) (place : Vd → List Elem → Option (Nat × Word)) (es : List Elem) : Prop :=
  ∀ d es', (Passes s d k ar scp span place es es' → exec i s = .next (s.startAccess n k cl ar scp es')) ∧
    (Admits s d k ar scp span place es es' → ∃ t, exec i s = .next t ∧ Issued s t n k cl ar scp es')

/-- The address of a form with an offset. -/
def Sys2Proof.Claims.at' (s : State) {w : Nat} (a : BitVec 6) (off : BitVec w) : Word := s.pl.rg a + off.signExtend 64

/-- The lanes a vector memory instruction is to do: its mask guard, in no replay (R103, R242). -/
def Sys2Proof.Claims.Lanes (s : State) (g : BitVec 4) (k : BitVec 16) : Prop := s.pl.park = none ∧ k = s.pl.vguard g ∧ k ≠ 0

/-- LD and ST, with and without an offset: 2^SZ bytes at an address that is a multiple of 2^SZ; ST takes the low bytes of gd (R362,
R398). -/
def Sys2Proof.Claims.ScalarMemoryIssue : Prop :=
  ∀ (s : State),
    (∀ o : Ld0, s.pl.guard o.g = true → (s.pl.rg o.a).toNat % 2 ^ o.sz.toNat = 0 →
      Issues (.ld o) s 1 (.ld o.d (o.s == 1)) o.cl 0 0 none anyPlace (oneElem (s.pl.rg o.a) (2 ^ o.sz.toNat) [])) ∧
    (∀ o : Ld1, s.pl.guard o.g = true → (at' s o.a o.off).toNat % 2 ^ o.sz.toNat = 0 →
      Issues (.ldOff o) s 2 (.ld o.d (o.s == 1)) o.cl o.ar o.scp none anyPlace (oneElem (at' s o.a o.off) (2 ^ o.sz.toNat) [])) ∧
    (∀ o : St0, s.pl.guard o.g = true → (s.pl.rg o.a).toNat % 2 ^ o.sz.toNat = 0 →
      Issues (.st o) s 1 .st o.cl 0 0 none bobbinStore
        (oneElem (s.pl.rg o.a) (2 ^ o.sz.toNat) ((leBytes (s.pl.rg o.d).toNat 8).take (2 ^ o.sz.toNat)))) ∧
    ∀ o : St1, s.pl.guard o.g = true → (at' s o.a o.off).toNat % 2 ^ o.sz.toNat = 0 →
      Issues (.stOff o) s 2 .st o.cl o.ar o.scp none bobbinStore
        (oneElem (at' s o.a o.off) (2 ^ o.sz.toNat) ((leBytes (s.pl.rg o.d).toNat 8).take (2 ^ o.sz.toNat)))

/-- LDSEC, STSEC, AMO, CAS and BPUT: a 32-byte sector with the byte mask MR[31:0], in a host window its 8-byte pieces; with mask 0 no access;
an aligned doubleword with the operands of the operation (R202, R203, R321, R331, R335, R365, R401). -/
def Sys2Proof.Claims.SectorAndAtomicIssue : Prop :=
  ∀ (s : State),
    (∀ o : Sec, s.pl.guard o.g = true → at' s o.a o.off &&& 31#64 = 0 → (s.pl.rg o.mr).setWidth 32 ≠ 0#32 → isHost (at' s o.a o.off) = false →
      Issues (.ldsec o) s 2 (.ldsec o.v) o.cl o.ar o.scp none anyPlace
        [mkElem 0 [0] (at' s o.a o.off) 32 (((s.pl.rg o.mr).setWidth 32).setWidth 64) (List.replicate 32 0)] ∧
      Issues (.stsec o) s 2 .st o.cl o.ar o.scp none bobbinStore
        [mkElem 0 [0] (at' s o.a o.off) 32 (((s.pl.rg o.mr).setWidth 32).setWidth 64) (leBytes ((s.pl.rv o.v).setWidth 256).toNat 32)]) ∧
    (∀ o : Sec, s.pl.guard o.g = true → at' s o.a o.off &&& 31#64 = 0 → (s.pl.rg o.mr).setWidth 32 ≠ 0#32 → isHost (at' s o.a o.off) = true →
      Issues (.ldsec o) s 2 (.ldsec o.v) o.cl o.ar o.scp none anyPlace
        ([0, 8, 16, 24].flatMap (pieceElem (at' s o.a o.off) (((s.pl.rg o.mr).setWidth 32).setWidth 64) (List.replicate 32 0))) ∧
      Issues (.stsec o) s 2 .st o.cl o.ar o.scp none bobbinStore
        ([0, 8, 16, 24].flatMap (pieceElem (at' s o.a o.off) (((s.pl.rg o.mr).setWidth 32).setWidth 64)
          (leBytes ((s.pl.rv o.v).setWidth 256).toNat 32)))) ∧
    (∀ o : Sec, s.pl.guard o.g = true → at' s o.a o.off &&& 31#64 = 0 → (s.pl.rg o.mr).setWidth 32 = 0#32 →
      (s.pl.oc.ldc ≠ 63 → ∃ t, exec (.ldsec o) s = .next t ∧ Completed s t 2 ∧ t.pl.sr = s.pl.sr ∧ (∀ r, t.pl.rg r = s.pl.rg r) ∧
        (∀ r, t.pl.rp r = s.pl.rp r) ∧ (∀ r, t.pl.rm r = s.pl.rm r) ∧ (∀ r, r ≠ o.v → t.pl.rv r = s.pl.rv r) ∧
        ∀ k < 1024, (t.pl.rv o.v).getLsbD k = (decide (256 ≤ k) && (s.pl.rv o.v).getLsbD k)) ∧
      (s.pl.oc.stc ≠ 63 → ∃ t, exec (.stsec o) s = .next t ∧ Unchanged s t 2)) ∧
    (∀ o : Amo, s.pl.guard o.g = true → at' s o.a o.off &&& 7#64 = 0 →
      Issues (.amo o) s 2 (.amo o.d o.aop) o.cl o.ar o.scp none (atomicPlace (o.aop == 1))
        (oneElem (at' s o.a o.off) 8 (leBytes (s.pl.rg o.b).toNat 8))) ∧
    (∀ o : Cas, s.pl.guard o.g = true → at' s o.a o.off &&& 7#64 = 0 →
      Issues (.cas o) s 2 (.cas o.d) o.cl o.ar o.scp none (atomicPlace true)
        (oneElem (at' s o.a o.off) 8 (leBytes (s.pl.rg o.b).toNat 8 ++ leBytes (s.pl.rg o.c).toNat 8))) ∧
    ∀ o : Bput, s.pl.guard o.g = true → at' s o.a o.off &&& 7#64 = 0 →
      Issues (.bput o) s 2 (.bput o.aop) o.cl o.ar o.scp none bputPlace (oneElem (at' s o.a o.off) 8 (leBytes (s.pl.rg o.b).toNat 8))

/-- The own scratchpad takes an access of `len` bytes at offset `off` inside the lease, with nothing of the task outstanding. -/
def Sys2Proof.Claims.OwnAccess (s : State) (d : Vd) (va : Word) (off len : Nat) (ar : BitVec 2) (scp : BitVec 3) : Prop :=
  s.vd s.curVd = some d ∧ va.toNat = 0x1000000000000 + off ∧ va.toNat % len = 0 ∧ off + len ≤ 0xC0000 ∧ 6144 * s.pl.row ≤ off ∧
    off + len ≤ 6144 * s.pl.row + 6144 * s.pl.rows ∧ (ar = 0 ∨ scp.toNat ≤ d.d.ceil.toNat) ∧ s.pl.acc = [] ∧
    s.pl.oc.ldc ≠ 63 ∧ s.pl.oc.stc ≠ 63 ∧ (s.core s.fc).sect = [] ∧ (s.core s.fc).spad.wf = true

/-- The access has performed and ended: nothing is outstanding, the counts are as they were, the pc has gone on. -/
def Sys2Proof.Claims.OwnDone (s t : State) (n : Nat) : Prop :=
  t.pl.acc = [] ∧ t.pl.oc = s.pl.oc ∧ t.pl.sr = s.pl.sr ∧ t.pl.pc = s.nextPc n ∧ t.pl.hold = none ∧
    (∀ a, memRead t.hbm.mem a = memRead s.hbm.mem a) ∧
    (∀ c a, memRead (t.core c).bobbin a = memRead (s.core c).bobbin a ∧ memRead (t.core c).creel a = memRead (s.core c).creel a) ∧
    ∀ c, c ≠ s.fc → ∀ a, memRead (t.core c).spad a = memRead (s.core c).spad a

/-- LDSEC and STSEC of the own scratchpad inside the lease with a mask that is not 0 (R365, R401): LDSEC gives the selected bytes, 0 for the
others, in lanes 0 to 3 of its register and changes no byte; STSEC writes the selected bytes of those lanes and no other. -/
def Sys2Proof.Claims.SectorsInLease : Prop :=
  ∀ (s : State) (d : Vd) (off : Nat) (o : Sec),
    let m := (s.pl.rg o.mr).setWidth 32
    s.pl.guard o.g = true → m ≠ 0#32 → OwnAccess s d (at' s o.a o.off) off 32 o.ar o.scp →
    (∃ t, exec (.ldsec o) s = .next t ∧ OwnDone s t 2 ∧ (∀ a, memRead (t.core s.fc).spad a = memRead (s.core s.fc).spad a) ∧
      (∀ j < 32, (t.pl.rv o.v).extractLsb' (8 * j) 8 = if m.getLsbD j = true then memRead (s.core s.fc).spad (off + j) else 0) ∧
      (∀ k < 1024, 256 ≤ k → (t.pl.rv o.v).getLsbD k = (s.pl.rv o.v).getLsbD k) ∧ (∀ r, r ≠ o.v → t.pl.rv r = s.pl.rv r) ∧
      (∀ r, t.pl.rg r = s.pl.rg r) ∧ (∀ r, t.pl.rp r = s.pl.rp r) ∧ ∀ r, t.pl.rm r = s.pl.rm r) ∧
    ∃ t, exec (.stsec o) s = .next t ∧ OwnDone s t 2 ∧ t.pl.regs = s.pl.regs ∧
      (∀ j < 32, memRead (t.core s.fc).spad (off + j) =
        if m.getLsbD j = true then (s.pl.rv o.v).extractLsb' (8 * j) 8 else memRead (s.core s.fc).spad (off + j)) ∧
      ∀ a, (a < off ∨ off + 32 ≤ a) → memRead (t.core s.fc).spad a = memRead (s.core s.fc).spad a

/-- AMO and CAS of the own scratchpad inside the lease (R321, R335): gd takes the doubleword that stood there, and there stands what the
operation makes of it: one of R321's nine values, or gc where the old value is gb. -/
def Sys2Proof.Claims.AtomicsInLease : Prop :=
  ∀ (s : State) (d : Vd) (off : Nat),
    let old : Word := BitVec.ofNat 64 (leNat ((List.range 8).map fun i => memRead (s.core s.fc).spad (off + i)))
    let ends (i : Instr) (dst : BitVec 6) (new : Word) : Prop := ∃ t, exec i s = .next t ∧ OwnDone s t 2 ∧
      (∀ k < 8, memRead (t.core s.fc).spad (off + k) = (new >>> (8 * k)).setWidth 8) ∧
      (∀ a, (a < off ∨ off + 8 ≤ a) → memRead (t.core s.fc).spad a = memRead (s.core s.fc).spad a) ∧
      (∀ r, t.pl.rg r = if r = 0 then 0 else if r = dst then old else s.pl.rg r) ∧
      (∀ r, t.pl.rp r = s.pl.rp r) ∧ (∀ r, t.pl.rm r = s.pl.rm r) ∧ ∀ r, t.pl.rv r = s.pl.rv r
    (∀ o : Amo, s.pl.guard o.g = true → OwnAccess s d (at' s o.a o.off) off 8 o.ar o.scp →
      let b := s.pl.rg o.b
      ∀ new, [b, old + b, old &&& b, old ||| b, old ^^^ b, if old.toInt < b.toInt then old else b, if old.toInt < b.toInt then b else old,
        if old.toNat < b.toNat then old else b, if old.toNat < b.toNat then b else old][o.aop.toNat]? = some new → ends (.amo o) o.d new) ∧
    ∀ o : Cas, s.pl.guard o.g = true → OwnAccess s d (at' s o.a o.off) off 8 o.ar o.scp →
      ends (.cas o) o.d (if old = s.pl.rg o.b then s.pl.rg o.c else old)

/-- BPUT to an entry of the own bobbin (R331): the bobbin and its tiles are as the entry's update leaves them, which with AOP 0 is an overwrite
that changes no tile; nothing else changes but the pc. -/
def Sys2Proof.Claims.PutInBobbin : Prop :=
  ∀ (s : State) (d : Vd) (off : Nat) (o : Bput), s.pl.guard o.g = true → s.vd s.curVd = some d → s.pl.acc = [] → s.pl.oc.stc ≠ 63 →
    (at' s o.a o.off).toNat = 0x1000000100000 + off → off % 8 = 0 → off < 0x100000 → (o.ar = 0 ∨ o.scp.toNat ≤ d.d.ceil.toNat) →
    ∃ t, exec (.bput o) s = .next t ∧ t.pl.acc = [] ∧ t.pl.oc = s.pl.oc ∧ t.pl.sr = s.pl.sr ∧ t.pl.regs = s.pl.regs ∧ t.pl.pc = s.nextPc 2 ∧
      t.pl.hold = none ∧ (∀ a, memRead t.hbm.mem a = memRead s.hbm.mem a) ∧
      (∀ c a, memRead (t.core c).spad a = memRead (s.core c).spad a ∧ memRead (t.core c).creel a = memRead (s.core c).creel a) ∧
      (∀ c, c ≠ s.fc → ∀ a, memRead (t.core c).bobbin a = memRead (s.core c).bobbin a) ∧
      (let k := ((s.core s.fc).bput off o.aop (s.pl.rg o.b)).1
       (t.core s.fc).bobbin = k.bobbin ∧ ∀ i, (t.core s.fc).tile i = k.tile i) ∧
      (o.aop = 0 → (s.core s.fc).bobbin.wf = true → (∀ i, (t.core s.fc).tile i = (s.core s.fc).tile i) ∧
        (∀ j < 8, memRead (t.core s.fc).bobbin (off + j) = ((s.pl.rg o.b) >>> (8 * j)).setWidth 8) ∧
        ∀ a, (a < off ∨ off + 8 ≤ a) → memRead (t.core s.fc).bobbin a = memRead (s.core s.fc).bobbin a)

/-- The access that each scalar, sector and atomic memory instruction issues, and what sectors, atomics and BPUT do at once in the core's own
memories (R202, R203, R321, R331, R335, R362, R365, R398, R401). -/
def Obligations.MemoryIssue : Prop :=
  Claims.ScalarMemoryIssue ∧ Claims.SectorAndAtomicIssue ∧ Claims.SectorsInLease ∧ Claims.AtomicsInLease ∧ Claims.PutInBobbin

/-- VLD RAW and VST at a multiple of 32, with the span of their active lanes checked first, in a host window one element a lane; VGATH and VSCAT with an element of 2^ESZ
bytes at ga + (lane of vx << SHF) for every active lane (R427, R431, R442, R449). -/
def Obligations.VectorMemoryIssue : Prop :=
  ∀ (s : State) (k : BitVec 16),
    let words (v : BitVec 5) (l : Nat) : Word := (s.pl.rv v).extractLsb' (64 * l) 64
    (∀ o : Vld0, Lanes s o.g k → o.lay = 0 → s.pl.rg o.a &&& 31#64 = 0 →
      Issues (.vld o) s 1 (.vld o.v 0 0) o.cl 0 0 (laneSpan (s.pl.rg o.a) k) anyPlace
        (vecElems (isHost (s.pl.rg o.a)) false (s.pl.rg o.a) k fun _ => 0)) ∧
    (∀ o : Vld1, Lanes s o.g k → o.lay = 0 → at' s o.a o.off &&& 31#64 = 0 →
      Issues (.vldOff o) s 2 (.vld o.v 0 0) o.cl o.ar o.scp (laneSpan (at' s o.a o.off) k) anyPlace
        (vecElems (isHost (at' s o.a o.off)) false (at' s o.a o.off) k fun _ => 0)) ∧
    (∀ o : Vst0, Lanes s o.g k → s.pl.rg o.a &&& 31#64 = 0 →
      Issues (.vst o) s 1 .st o.cl 0 0 (laneSpan (s.pl.rg o.a) k) bobbinStore
        (vecElems (isHost (s.pl.rg o.a)) true (s.pl.rg o.a) k (words o.v))) ∧
    (∀ o : Vst1, Lanes s o.g k → at' s o.a o.off &&& 31#64 = 0 →
      Issues (.vstOff o) s 2 .st o.cl o.ar o.scp (laneSpan (at' s o.a o.off) k) bobbinStore
        (vecElems (isHost (at' s o.a o.off)) true (at' s o.a o.off) k (words o.v))) ∧
    (∀ o : Vld0, s.pl.park = none → s.pl.vguard o.g = 0 → ∃ t, exec (.vld o) s = .next t ∧ Unchanged s t 1) ∧
    (∀ o : Vld1, s.pl.park = none → s.pl.vguard o.g = 0 → ∃ t, exec (.vldOff o) s = .next t ∧ Unchanged s t 2) ∧
    (∀ o : Vst0, s.pl.park = none → s.pl.vguard o.g = 0 → ∃ t, exec (.vst o) s = .next t ∧ Unchanged s t 1) ∧
    (∀ o : Vst1, s.pl.park = none → s.pl.vguard o.g = 0 → ∃ t, exec (.vstOff o) s = .next t ∧ Unchanged s t 2) ∧
    ∀ o : Vgs, Lanes s o.g k →
      let va (l : Nat) : Word := s.pl.rg o.a + ((s.pl.rv o.vx).extractLsb' (64 * l) 64 <<< o.shf.toNat)
      let es (src : VReg) : List Elem := ((List.range 16).filter fun l => k.getLsbD l).map fun l =>
        mkElem l [l] (va l) (2 ^ o.esz.toNat) (BitVec.ofNat 64 (2 ^ 2 ^ o.esz.toNat - 1))
          ((leBytes (src.extractLsb' (64 * l) 64).toNat 8).take (2 ^ o.esz.toNat))
      s.gatherMask o k (fun a => a.toNat % 2 ^ o.esz.toNat ≠ 0) = 0 →
      Issues (.vgath o) s 2 (.vgath o.v o.esz) o.cl o.ar o.scp none anyPlace (es (s.pl.rv o.v)) ∧
      ((o.esz = 3 ∨ ∀ l < 16, k.getLsbD l = true → ∃ c x, winOf (va l) = .peer c x ∧ x < 0xC0000) →
        Issues (.vscat o) s 2 .st o.cl o.ar o.scp none anyPlace (es (s.pl.rv o.v)))

/-- A load of the own scratchpad inside the lease gives its bytes, low byte at the low address, extended by zeros or by sign, and
changes no byte (R2, R97, R362). -/
def Sys2Proof.Claims.LoadFromLease : Prop :=
  ∀ (s : State) (d : Vd) (off : Nat),
    let loads (i : Instr) (n : Nat) (g : BitVec 4) (dst : BitVec 6) (va : Word) (sz : BitVec 2) (sx : BitVec 1) (ar : BitVec 2)
        (scp : BitVec 3) : Prop :=
      s.pl.guard g = true → OwnAccess s d va off (2 ^ sz.toNat) ar scp → ∃ t, exec i s = .next t ∧ OwnDone s t n ∧
        (∀ a, memRead (t.core s.fc).spad a = memRead (s.core s.fc).spad a) ∧
        (∀ r, t.pl.rg r = if r = 0 then 0 else if r = dst then
          (let x := leNat ((List.range (2 ^ sz.toNat)).map fun i => memRead (s.core s.fc).spad (off + i))
           if sx = 1 ∧ 2 ^ (8 * 2 ^ sz.toNat - 1) ≤ x then BitVec.ofInt 64 ((x : Int) - 2 ^ (8 * 2 ^ sz.toNat)) else BitVec.ofNat 64 x)
          else s.pl.rg r) ∧
        (∀ r, t.pl.rp r = s.pl.rp r) ∧ (∀ r, t.pl.rm r = s.pl.rm r) ∧ ∀ r, t.pl.rv r = s.pl.rv r
    (∀ o : Ld0, loads (.ld o) 1 o.g o.d (s.pl.rg o.a) o.sz o.s 0 0) ∧
    ∀ o : Ld1, loads (.ldOff o) 2 o.g o.d (at' s o.a o.off) o.sz o.s o.ar o.scp

/-- A store to the own scratchpad inside the lease writes the low bytes of gd at its address, low byte first, and no other byte of any
memory; no register changes (R2, R97, R398). -/
def Sys2Proof.Claims.StoreToLease : Prop :=
  ∀ (s : State) (d : Vd) (off : Nat),
    let stores (i : Instr) (n : Nat) (g : BitVec 4) (src : BitVec 6) (va : Word) (sz : BitVec 2) (ar : BitVec 2) (scp : BitVec 3) : Prop :=
      s.pl.guard g = true → OwnAccess s d va off (2 ^ sz.toNat) ar scp → ∃ t, exec i s = .next t ∧ OwnDone s t n ∧ t.pl.regs = s.pl.regs ∧
        (∀ k, k < 2 ^ sz.toNat → memRead (t.core s.fc).spad (off + k) = ((s.pl.rg src) >>> (8 * k)).setWidth 8) ∧
        ∀ a, (a < off ∨ off + 2 ^ sz.toNat ≤ a) → memRead (t.core s.fc).spad a = memRead (s.core s.fc).spad a
    (∀ o : St0, stores (.st o) 1 o.g o.d (s.pl.rg o.a) o.sz 0 0) ∧
    ∀ o : St1, stores (.stOff o) 2 o.g o.d (at' s o.a o.off) o.sz o.ar o.scp

/-- Loads from and stores to the own scratchpad inside the lease (R2, R97, R362, R398). -/
def Obligations.OwnLease : Prop := Claims.LoadFromLease ∧ Claims.StoreToLease

/-- Memory instructions trap before they access: ALIGN with the address where it is no multiple of the width, whatever is mapped there
(R201, R321, R362, R398, R431, R449); under a false guard or with no active lane they change nothing. -/
def Obligations.MisalignedAccess : Prop :=
  ∀ (s : State),
    let checks (i : Instr) (n : Nat) (g : BitVec 4) (va : Word) (bad : Prop) : Prop :=
      ∃ t, exec i s = .next t ∧ (s.pl.guard g = true → bad → Traps s t 7 va) ∧ (s.pl.guard g = false → Unchanged s t n)
    (∀ o : Ld0, checks (.ld o) 1 o.g (s.pl.rg o.a) ((s.pl.rg o.a).toNat % 2 ^ o.sz.toNat ≠ 0)) ∧
    (∀ o : Ld1, checks (.ldOff o) 2 o.g (at' s o.a o.off) ((at' s o.a o.off).toNat % 2 ^ o.sz.toNat ≠ 0)) ∧
    (∀ o : St0, checks (.st o) 1 o.g (s.pl.rg o.a) ((s.pl.rg o.a).toNat % 2 ^ o.sz.toNat ≠ 0)) ∧
    (∀ o : St1, checks (.stOff o) 2 o.g (at' s o.a o.off) ((at' s o.a o.off).toNat % 2 ^ o.sz.toNat ≠ 0)) ∧
    (∀ o : Sec, checks (.ldsec o) 2 o.g (at' s o.a o.off) (at' s o.a o.off &&& 31#64 ≠ 0)) ∧
    (∀ o : Sec, checks (.stsec o) 2 o.g (at' s o.a o.off) (at' s o.a o.off &&& 31#64 ≠ 0)) ∧
    (∀ o : Amo, checks (.amo o) 2 o.g (at' s o.a o.off) (at' s o.a o.off &&& 7#64 ≠ 0)) ∧
    (∀ o : Cas, checks (.cas o) 2 o.g (at' s o.a o.off) (at' s o.a o.off &&& 7#64 ≠ 0)) ∧
    (∀ o : Bput, checks (.bput o) 2 o.g (at' s o.a o.off) (at' s o.a o.off &&& 7#64 ≠ 0)) ∧
    (∀ (o : Vst0) (k : BitVec 16), Lanes s o.g k → s.pl.rg o.a &&& 31#64 ≠ 0 → ∃ t, exec (.vst o) s = .next t ∧ Traps s t 7 (s.pl.rg o.a)) ∧
    (∀ (o : Vst1) (k : BitVec 16), Lanes s o.g k → at' s o.a o.off &&& 31#64 ≠ 0 →
      ∃ t, exec (.vstOff o) s = .next t ∧ Traps s t 7 (at' s o.a o.off)) ∧
    (∀ (o : Vld1) (k : BitVec 16), Lanes s o.g k → o.lay = 0 → at' s o.a o.off &&& 31#64 ≠ 0 →
      ∃ t, exec (.vldOff o) s = .next t ∧ Traps s t 7 (at' s o.a o.off)) ∧
    (∀ (o : Vld0) (k : BitVec 16), Lanes s o.g k → o.lay = 0 → s.pl.rg o.a &&& 31#64 ≠ 0 →
      ∃ t, exec (.vld o) s = .next t ∧ Traps s t 7 (s.pl.rg o.a)) ∧
    (∀ o : Vgs, s.pl.park = none → s.pl.vguard o.g = 0 → ∃ t u, exec (.vgath o) s = .next t ∧ exec (.vscat o) s = .next u ∧
      Unchanged s t 2 ∧ Unchanged s u 2)

/-! ## Ordering, waits and tags -/

/-- A scope that the VD's ceiling admits. -/
def Sys2Proof.Claims.InCeiling (s : State) (scp : BitVec 3) : Prop :=
  ∃ d, s.vd s.curVd = some d ∧ scp.toNat ≤ d.d.ceil.toNat

/-- FENCE and FLUSHP inside the ceiling: they complete, with no other effect, where every earlier access they name (of a class in the
mask; a posted write) has performed at their scope; else the task is HELD until those have (R216, R217, R349, R353). -/
def Sys2Proof.Claims.FencesComplete : Prop :=
  ∀ (s : State),
    (∀ o : Fence, s.pl.guard o.g = true → InCeiling s o.scp →
      let named := s.pl.acc.filter fun a => (a.kind.classed && o.m.getLsbD a.cls.toNat) && !(a.doneAt o.scp)
      ∃ t, exec (.fence o) s = .next t ∧
        (named = [] → Unchanged s t 1) ∧ (named ≠ [] → t = s.holdOn (.accs (named.map (·.id)) o.scp))) ∧
    ∀ o : Flushp, s.pl.guard o.g = true → InCeiling s o.scp →
      let named := s.pl.acc.filter fun a => (a.kind.isStore && a.posted s.fc) && !(a.doneAt o.scp)
      ∃ t, exec (.flushp o) s = .next t ∧
        (named = [] → Unchanged s t 1) ∧ (named ≠ [] → t = s.holdOn (.accs (named.map (·.id)) o.scp))

/-- Above the ceiling FENCE and FLUSHP raise SCOPE with 8·ceiling + scope as trap value where SCTRAP is 1; where it is 0 they act at the
ceiling and one more clipped operation is counted (R227, R228, R229). -/
def Sys2Proof.Claims.ScopeCeiling : Prop :=
  ∀ (s : State) (d : Vd) (scp : BitVec 3), s.vd s.curVd = some d → d.d.ceil.toNat < scp.toNat → s.pl.acc = [] →
    let clips (i : Instr) : Prop := ∃ t, exec i s = .next t ∧
      (d.d.sctrap = true → Traps s t 14 (BitVec.ofNat 64 (scp.toNat + 8 * d.d.ceil.toNat))) ∧
      (d.d.sctrap = false → t = (s.clip s.curVd).advance 1 ∧
        ∃ d', t.vd s.curVd = some d' ∧ d'.ord.getLsbD 0 = true ∧
          (d.ord.toNat < 18446744069414584320 → d'.ord.extractLsb' 32 32 = d.ord.extractLsb' 32 32 + 1))
    (∀ o : Fence, o.scp = scp → s.pl.guard o.g = true → clips (.fence o)) ∧
    ∀ o : Flushp, o.scp = scp → s.pl.guard o.g = true → clips (.flushp o)

/-- FENCE and FLUSHP inside the scope ceiling and above it (R216, R217, R228, R349, R353). -/
def Obligations.FencesAndScopes : Prop := Claims.FencesComplete ∧ Claims.ScopeCeiling

/-- SHREL and SHACQ: at an address of no share window they raise PERM; else their access goes to the window's home agent (SHREL once every
earlier access has performed at system scope), and when it has performed gd takes the sequence number it brought (R230, R393). -/
def Obligations.ShareSequence : Prop :=
  ∀ (s : State) (o : DA), s.pl.guard o.g = true →
    (∀ a, s.pl.mine AccKind.isShare = some a → a.performed = true →
      ∃ t u, exec (.shacq o) s = .next t ∧ exec (.shrel o) s = .next u ∧
        ∀ x, (x = t ∨ x = u) → OnlyPlane s x ∧ SameMemory s x ∧ x.pl.pc = s.nextPc 1 ∧
          x.pl.acc = s.pl.acc.filter (fun b => b.id != a.id) ∧
          ∀ r, x.pl.rg r = if r = 0 then 0 else if r = o.d then leWord ((a.elems.head?.map (·.res)).getD []) else s.pl.rg r) ∧
    (s.pl.mine AccKind.isShare = none → s.windowAt s.curVd (s.pl.rg o.a) = none →
      ∃ t u, exec (.shacq o) s = .next t ∧ exec (.shrel o) s = .next u ∧ Traps s t 6 (s.pl.rg o.a) ∧ Traps s u 6 (s.pl.rg o.a)) ∧
    ∀ w, s.pl.mine AccKind.isShare = none → s.windowAt s.curVd (s.pl.rg o.a) = some w →
      exec (.shacq o) s = .next (s.startAccess 1 (.shacq o.d w) 0 1 4 [mkElem 0 [0] (s.pl.rg o.a) 1 0 []]) ∧
      (s.pl.acc = [] → exec (.shrel o) s = .next (s.startAccess 1 (.shrel o.d w) 0 2 4 [mkElem 0 [0] (s.pl.rg o.a) 1 0 []]))

/-- WAIT, TWANY and TWALL of a task with booked copies to cover (R88, R407, R451): the copies that a completing command covers are counted,
and it completes in the state that this leaves, whose planes and memories are the same. -/
def Sys2Proof.Claims.CoveringWaits : Prop :=
  ∀ (s : State),
    (∀ (o : A1) (i j : Nat), s.pl.guard o.g = true → (i, j) ∈ [(0, s.pl.oc.ldc.toNat), (6, s.pl.oc.stc.toNat), (12, s.pl.oc.cpc.toNat), (18, s.pl.oc.mxc.toNat)] →
      ((s.pl.rg o.a).extractLsb' i 6).toNat < j →
      ∃ t, exec (.waitReg o) s = .next t ∧ t.pl.regs = s.pl.regs ∧ t.pl.pc = s.pl.pc ∧ t.pl.hold =
        some (.counts ((s.pl.rg o.a).extractLsb' 18 6).toNat ((s.pl.rg o.a).extractLsb' 12 6).toNat ((s.pl.rg o.a).extractLsb' 6 6).toNat
          ((s.pl.rg o.a).extractLsb' 0 6).toNat)) ∧
    (let waits (i : Instr) (n : Nat) (g : BitVec 4) (ld st cp mx : Nat) : Prop :=
      s.pl.guard g = true → s.pl.oc.ldc.toNat ≤ ld → s.pl.oc.stc.toNat ≤ st → s.pl.oc.cpc.toNat ≤ cp → s.pl.oc.mxc.toNat ≤ mx →
      (63 ≤ cp → ∃ t, exec i s = .next t ∧ Unchanged s t n) ∧
      (cp < 63 → ∃ t, exec i s = .next t ∧
        Unchanged (s.cover fun l => ((s.leads.take (s.leads.length - cp)).map (·.id)).contains l.id) t n)
     (∀ o : A1, waits (.waitReg o) 1 o.g ((s.pl.rg o.a).extractLsb' 0 6).toNat ((s.pl.rg o.a).extractLsb' 6 6).toNat
       ((s.pl.rg o.a).extractLsb' 12 6).toNat ((s.pl.rg o.a).extractLsb' 18 6).toNat) ∧
     ∀ o : WaitI, waits (.waitImm o) 2 o.g o.ldc.toNat o.stc.toNat o.cpc.toNat o.mxc.toNat) ∧
    (∀ o : DA, s.pl.guard o.g = true → (s.pl.sr.tags &&& s.pl.rg o.a ≠ 0 ∨ s.pl.rg o.a = 0) →
      ∃ t, exec (.twany o) s = .next t ∧ WritesG (s.cover (Lead.inMask (s.pl.rg o.a))) t 1 o.d (s.pl.sr.tags &&& s.pl.rg o.a)) ∧
    (∀ o : DA, s.pl.guard o.g = true → s.pl.sr.tags &&& s.pl.rg o.a = s.pl.rg o.a →
      ∃ t, exec (.twall o) s = .next t ∧ WritesG (s.cover (Lead.inMask (s.pl.rg o.a))) t 1 o.d (s.pl.rg o.a)) ∧
    (∀ o : DA, s.pl.guard o.g = false → ∃ t u, exec (.twany o) s = .next t ∧ exec (.twall o) s = .next u ∧ Unchanged s t 1 ∧ Unchanged s u 1) ∧
    ∀ p : Lead → Bool, (s.cover p).cores = s.cores ∧ (s.cover p).hbm = s.hbm ∧ (s.cover p).focus = s.focus ∧ (s.cover p).leads = s.leads.filter fun l => !(p l)

/-- WAIT, TWANY, TWALL, TFIRST and TCLR of a task with no booked copy to cover: WAIT completes where every count of sr.oc is at or below
its threshold; TWANY and TWALL write the tags they found, TFIRST the index of the lowest tag of the mask or 64, TCLR clears the tags of
the mask; nothing else changes (R406, R407, R451). -/
def Sys2Proof.Claims.WaitsAndTags : Prop :=
  ∀ (s : State), s.leads = [] →
    (∀ o : A1, ∀ f : Nat → Nat, (∀ i, f i = ((s.pl.rg o.a).extractLsb' i 6).toNat) → s.pl.oc.ldc.toNat ≤ f 0 → s.pl.oc.stc.toNat ≤ f 6 →
      s.pl.oc.cpc.toNat ≤ f 12 → s.pl.oc.mxc.toNat ≤ f 18 → ∃ t, exec (.waitReg o) s = .next t ∧ Unchanged s t 1) ∧
    (∀ o : WaitI, s.pl.oc.ldc.toNat ≤ o.ldc.toNat → s.pl.oc.stc.toNat ≤ o.stc.toNat → s.pl.oc.cpc.toNat ≤ o.cpc.toNat →
      s.pl.oc.mxc.toNat ≤ o.mxc.toNat → ∃ t, exec (.waitImm o) s = .next t ∧ Unchanged s t 2) ∧
    (∀ o : DA, (s.pl.sr.tags &&& s.pl.rg o.a ≠ 0 ∨ s.pl.rg o.a = 0) → ScalarEnds (.twany o) s o.g 1 o.d (s.pl.sr.tags &&& s.pl.rg o.a)) ∧
    (∀ o : DA, s.pl.sr.tags &&& s.pl.rg o.a = s.pl.rg o.a → ScalarEnds (.twall o) s o.g 1 o.d (s.pl.rg o.a)) ∧
    (∀ o : DA, ∃ k : Nat, (∀ j < 64, (s.pl.sr.tags &&& s.pl.rg o.a).getLsbD j = true → k ≤ j) ∧
      (k = 64 ∨ (k < 64 ∧ (s.pl.sr.tags &&& s.pl.rg o.a).getLsbD k = true)) ∧ ScalarEnds (.tfirst o) s o.g 1 o.d (BitVec.ofNat 64 k)) ∧
    ∀ o : A1, ∃ t, exec (.tclr o) s = .next t ∧ Completed s t 1 ∧ t.pl.regs = s.pl.regs ∧
      t.pl.sr = if s.pl.guard o.g = true then { s.pl.sr with tags := s.pl.sr.tags &&& ~~~(s.pl.rg o.a) } else s.pl.sr

/-- Where a WAIT's count is above its threshold, or none of TWANY's tags (not all of TWALL's) is set and an outstanding copy still names
one that is awaited, the task is HELD; where no outstanding copy names it, TWANY and TWALL raise ILLEGAL with the mask as trap value
(R22, R408, R451). -/
def Sys2Proof.Claims.WaitsHold : Prop :=
  ∀ (s : State),
    (∀ o : WaitI, s.pl.guard o.g = true → (o.ldc.toNat < s.pl.oc.ldc.toNat ∨ o.stc.toNat < s.pl.oc.stc.toNat ∨ o.cpc.toNat < s.pl.oc.cpc.toNat ∨
        o.mxc.toNat < s.pl.oc.mxc.toNat) → ∃ t, exec (.waitImm o) s = .next t ∧
      t.pl.hold = some (.counts o.mxc.toNat o.cpc.toNat o.stc.toNat o.ldc.toNat) ∧ t.pl.pc = s.pl.pc ∧ t.pl.regs = s.pl.regs) ∧
    (∀ o : DA, s.pl.guard o.g = true → s.pl.sr.tags &&& s.pl.rg o.a = 0 → s.pl.rg o.a ≠ 0 →
      ∃ t, exec (.twany o) s = .next t ∧
        (s.named &&& s.pl.rg o.a = 0 → Traps s t 1 (s.pl.rg o.a)) ∧
        (s.named &&& s.pl.rg o.a ≠ 0 → t.pl.hold = some (.tagAny (s.pl.rg o.a)) ∧ t.pl.pc = s.pl.pc ∧ t.pl.regs = s.pl.regs)) ∧
    ∀ o : DA, s.pl.guard o.g = true → s.pl.sr.tags &&& s.pl.rg o.a ≠ s.pl.rg o.a →
      ∃ t, exec (.twall o) s = .next t ∧
        (s.pl.rg o.a &&& ~~~s.pl.sr.tags &&& ~~~s.named ≠ 0 → Traps s t 1 (s.pl.rg o.a)) ∧
        (s.pl.rg o.a &&& ~~~s.pl.sr.tags &&& ~~~s.named = 0 →
          t.pl.hold = some (.tagAll (s.pl.rg o.a)) ∧ t.pl.pc = s.pl.pc ∧ t.pl.regs = s.pl.regs)

/-- WAIT, TWANY, TWALL, TFIRST and TCLR: where they complete, where they hold, where they trap (R22, R406 to R408, R451). -/
def Obligations.Waits : Prop := Claims.WaitsAndTags ∧ Claims.CoveringWaits ∧ Claims.WaitsHold

/-- A command that covers a booked copy counts the slots since the copy completed in the bin of R88: counters 12 to 19 of the booking bank,
counter 12 where it has not completed. -/
def Obligations.LeadTimeBins : Prop :=
  ∀ (s : State) (l : Lead) (d : Vd) (k : Nat) (t : Task), s.pl.task = some k → s.task k = some t → t.leads = [l] → s.vd t.vd = some d →
    let waited := match l.done with | some x => s.now - x | none => 0
    ∃ i, (i, true) ∈ [(12, decide (waited = 0)), (13, decide (waited = 1)), (14, decide (2 ≤ waited ∧ waited ≤ 3)),
        (15, decide (4 ≤ waited ∧ waited ≤ 7)), (16, decide (8 ≤ waited ∧ waited ≤ 15)), (17, decide (16 ≤ waited ∧ waited ≤ 63)),
        (18, decide (64 ≤ waited ∧ waited ≤ 255)), (19, decide (256 ≤ waited))] ∧
      ∃ d', (s.cover fun _ => true).vd t.vd = some d' ∧ tgetD d'.cnt i 0 = tgetD d.cnt i 0 + 1 ∧
        ∃ t', (s.cover fun _ => true).task k = some t' ∧ t'.leads = []

/-! ## The vector unit -/

/-- The elements of width `w` in the active lanes, in ascending order. -/
def Sys2Proof.Claims.actives (w : Nat) (k : BitVec 16) : List Nat := (List.range (1024 / w)).filter fun e => k.getLsbD (w * e / 64)

/-- No element raises a trap that sr.fpen enables (R158). -/
def Sys2Proof.Claims.Quiet (s : State) (es : List FElem) : Prop :=
  (s.pl.sr.fpen.getLsbD 5 = true → ∀ e ∈ es, e.r.sn = false) ∧ ∀ e ∈ es, e.r.fl &&& (s.pl.sr.fpen.setWidth 5).setWidth 6 = 0#6

/-- An instruction of `n` words on elements `es` completes: their flags are ORed into sr.fps, and where the major counts, their clamps,
flushes, NaNs and infinities are counted for sr.tensor in the VD; nothing else outside the register file differs (R158, R159). -/
def Sys2Proof.Claims.ElementsDone (s t : State) (n : Nat) (es : List FElem) (counted : Bool) : Prop :=
  let sum (f : FElem → Nat) : Nat := (es.map f).sum
  t = ((if counted then s.stat s.curVd s.pl.sr.tensor (sum fun e => if e.r.clamp then 1 else 0) (sum fun e => e.r.flush)
      (sum fun e => if e.isNan then 1 else 0) (sum fun e => if e.isInf then 1 else 0) else s).modPl fun _ => t.pl) ∧
    SameMemory s t ∧ SameRest s.pl t.pl ∧ t.pl.pc = s.nextPc n ∧ t.pl.loop = (s.pl.pass (s.lineAt s.fc s.fp) n).loop ∧
    t.pl.hold = none ∧ t.pl.sr = { s.pl.sr with fps := es.foldl (fun m e => m ||| e.r.fl) s.pl.sr.fps }

/-- The active lanes of `new` hold the elements `f`, the others those of `old` (R104, R410). -/
def Sys2Proof.Claims.LanesAre (w : Nat) (k : BitVec 16) (old new : VReg) (f : Nat → Nat) : Prop :=
  ∀ e, e < 1024 / w → elemAt w new e = if k.getLsbD (w * e / 64) = true then f e % 2 ^ w else elemAt w old e

/-- The lanes of the elements that satisfy `p`, as bits. -/
def Sys2Proof.Claims.lanesWith (es : List FElem) (p : FRes → Bool) : BitVec 16 :=
  BitVec.ofFnLE fun l : Fin 16 => es.any fun e => e.lane == l.val && p e.r

/-- What an instruction raises whose elements are not quiet (R158): SNAN where ESN is set and an element consumes an sNaN, with the lanes as
trap value; else FPE, with the lanes and the enabled flags. Nothing is written. -/
def Sys2Proof.Claims.ElementsTrap (i : Instr) (s : State) (es : List FElem) : Prop :=
  let en : BitVec 6 := (s.pl.sr.fpen.setWidth 5).setWidth 6
  let sn := s.pl.sr.fpen.getLsbD 5 = true ∧ ∃ e ∈ es, e.r.sn = true
  (sn → ∃ t, exec i s = .next t ∧ Traps s t 10 ((lanesWith es fun x => x.sn).setWidth 64)) ∧
  (¬ sn → (∃ e ∈ es, e.r.fl &&& en ≠ 0#6) → ∃ t, exec i s = .next t ∧
    Traps s t 9 (((es.foldl (fun m e => m ||| e.r.fl) 0#6 &&& en) ++ lanesWith es fun x => x.fl &&& en != 0#6).setWidth 64))

/-- A register major that writes `vd` with what each active element comes to: it completes where no element traps, else takes the trap. -/
def Sys2Proof.Claims.VectorEnds (i : Instr) (s : State) (n : Nat) (g : BitVec 4) (vd : BitVec 5) (w : Nat) (fmt : Option Fmt) (f : Nat → FRes) :
    Prop :=
  let k := s.pl.vguard g
  let es : List FElem := (actives w k).map fun e => { lane := w * e / 64, r := f e, fmt := fmt }
  (Quiet s es → ∃ t, exec i s = .next t ∧ ElementsDone s t n es true ∧ LanesAre w k (s.pl.rv vd) (t.pl.rv vd) (fun e => (f e).bits) ∧
    (∀ r, r ≠ vd → t.pl.rv r = s.pl.rv r) ∧ (∀ r, t.pl.rg r = s.pl.rg r) ∧ (∀ r, t.pl.rp r = s.pl.rp r) ∧ ∀ r, t.pl.rm r = s.pl.rm r) ∧
  ElementsTrap i s es

/-- VADD, VSUB, VMUL, VDIV, VSQRT, VFMA, VFMS, VFNMA, VMIN, VMAX, VABS and VNEG: element by element, the second source from VB or GS,
rounded by RM or sr.fpen, NaN and infinite results counted; an element that raises an enabled trap has the instruction trap (R148, R158,
R159, R410, R412, R414, R422, R425, R433, R447). -/
def Obligations.VectorArithmetic : Prop :=
  ∀ (s : State),
    let w (ty : BitVec 4) := tyWidth ty.toNat
    let src (ty : BitVec 4) (v : BitVec 5) (e : Nat) := elemAt (w ty) (s.pl.rv v) e
    let scal (ty : BitVec 4) (sc : BitVec 1) (gs : BitVec 6) (v : BitVec 5) (e : Nat) :=
      if sc = 1 then (s.pl.rg gs).toNat % 2 ^ w ty else src ty v e
    (∀ p ∈ [(Instr.vadd, Instr.vaddX, Arith.add), (Instr.vsub, Instr.vsubX, Arith.sub), (Instr.vmul, Instr.vmulX, Arith.mul)],
      (∀ o : V0, VectorEnds (p.1 o) s 1 o.g o.vd (w o.ty) (tyFmt o.ty.toNat) fun e =>
        p.2.2.elem o.ty.toNat (s.pl.fctl 0) false (src o.ty o.va e) (src o.ty o.vb e)) ∧
      ∀ o : V1, VectorEnds (p.2.1 o) s 2 o.g o.vd (w o.ty) (tyFmt o.ty.toNat) fun e =>
        p.2.2.elem o.ty.toNat (s.pl.fctl o.rm) (o.sat == 1) (src o.ty o.va e) (scal o.ty o.sc o.gs o.vb e)) ∧
    (∀ p ∈ [(Instr.vfma, Fused.fma), (Instr.vfms, Fused.fms), (Instr.vfnma, Fused.fnma)], ∀ o : Fma,
      VectorEnds (p.1 o) s 2 o.g o.vd (w o.ty) (tyFmt o.ty.toNat) fun e =>
        p.2.elem (fmtOf o.ty.toNat) (s.pl.fctl o.rm) (src o.ty o.va e) (scal o.ty o.sc o.gs o.vb e) (src o.ty o.vc e)) ∧
    (let quot (ty : BitVec 4) (rm : BitVec 3) (a b : Nat) : FRes :=
      let f := fmtOf ty.toNat
      (f.div (s.pl.fctl rm) (f.input (s.pl.fctl rm) a).1 (f.input (s.pl.fctl rm) b).1).flushed
        ((f.input (s.pl.fctl rm) a).2 + (f.input (s.pl.fctl rm) b).2)
     (∀ o : V0, VectorEnds (.vdiv o) s 1 o.g o.vd (w o.ty) (tyFmt o.ty.toNat) fun e => quot o.ty 0 (src o.ty o.va e) (src o.ty o.vb e)) ∧
     ∀ o : Vdiv1, VectorEnds (.vdivX o) s 2 o.g o.vd (w o.ty) (tyFmt o.ty.toNat) fun e =>
       quot o.ty o.rm (src o.ty o.va e) (scal o.ty o.sc o.gs o.vb e)) ∧
    (let root (ty : BitVec 4) (rm : BitVec 3) (a : Nat) : FRes :=
      let f := fmtOf ty.toNat
      (f.sqrt (s.pl.fctl rm) (f.input (s.pl.fctl rm) a).1).flushed (f.input (s.pl.fctl rm) a).2
     (∀ o : Vu0, VectorEnds (.vsqrt o) s 1 o.g o.vd (w o.ty) (tyFmt o.ty.toNat) fun e => root o.ty 0 (src o.ty o.va e)) ∧
     ∀ o : Vsq1, VectorEnds (.vsqrtX o) s 2 o.g o.vd (w o.ty) (tyFmt o.ty.toNat) fun e => root o.ty o.rm (src o.ty o.va e)) ∧
    (∀ p ∈ [(Instr.vmin, false), (Instr.vmax, true)], ∀ o : Vmm,
      VectorEnds (p.1 o) s (1 + o.x.toNat) o.g o.vd (w o.ty) (tyFmt o.ty.toNat) fun e =>
        minMaxElem o.ty.toNat (s.pl.fctl 0) p.2 (o.v1 == 1) (src o.ty o.va e) (src o.ty o.vb e)) ∧
    ∀ p ∈ [(Instr.vabs, Instr.vabsX, false), (Instr.vneg, Instr.vnegX, true)],
      (∀ o : Vu0, VectorEnds (p.1 o) s 1 o.g o.vd (w o.ty) (tyFmt o.ty.toNat) fun e => signElem o.ty.toNat p.2.2 false (src o.ty o.va e)) ∧
      ∀ o : Vab1, VectorEnds (p.2.1 o) s 2 o.g o.vd (w o.ty) (tyFmt o.ty.toNat) fun e => signElem o.ty.toNat p.2.2 (o.sat == 1) (src o.ty o.va e)

/-- The integer elements of the vector unit, of width `w` and at most 64 bits (R144, R414, R412, R433): the exact result wraps modulo
2^w without a flag; under SAT it is clamped to the type's range and SV is set, and counted, where it lay outside. -/
def Obligations.IntegerElements : Prop :=
  ∀ (ty : Nat) (k : FCtl) (sat : Bool) (a b : Nat), 6 ≤ ty → ty ≤ 13 →
    let w := tyWidth ty
    let signed := decide (ty ≤ 9)
    let value (x : Nat) : Int := if signed then (BitVec.ofNat w x).toInt else ((BitVec.ofNat w x).toNat : Int)
    let lo : Int := if signed then -(2 ^ (w - 1)) else 0
    let hi : Int := if signed then 2 ^ (w - 1) - 1 else 2 ^ w - 1
    let ends (r : FRes) (x : Int) : Prop :=
      r.sn = false ∧ r.flush = 0 ∧ r.clamp = (sat && decide (x < lo ∨ hi < x)) ∧ r.fl = (if r.clamp = true then 32#6 else 0#6) ∧
        BitVec.ofNat w r.bits = BitVec.ofInt w (if sat then max lo (min hi x) else x)
    ends (Arith.add.elem ty k sat a b) (value a + value b) ∧ ends (Arith.sub.elem ty k sat a b) (value a - value b) ∧
      ends (Arith.mul.elem ty k sat a b) (value a * value b) ∧
      (ty ≤ 9 → ends (signElem ty true sat a) (-value a) ∧ ends (signElem ty false sat a) (max (value a) (-value a))) ∧
      minMaxElem ty k false false a b = FRes.ok (if value a < value b then a else b) ∧
      minMaxElem ty k true false a b = FRes.ok (if value a < value b then b else a)

/-- An instruction of the vector unit that moves bits, with no flag, no trap and no count: the active lanes of `vd` hold `f`. -/
def Sys2Proof.Claims.Moves (i : Instr) (s : State) (n : Nat) (g : BitVec 4) (vd : BitVec 5) (w : Nat) (f : Nat → Nat) : Prop :=
  ∃ t, exec i s = .next t ∧ Completed s t n ∧ t.pl.sr = s.pl.sr ∧ LanesAre w (s.pl.vguard g) (s.pl.rv vd) (t.pl.rv vd) f ∧
    (∀ r, r ≠ vd → t.pl.rv r = s.pl.rv r) ∧ (∀ r, t.pl.rg r = s.pl.rg r) ∧ (∀ r, t.pl.rp r = s.pl.rp r) ∧ ∀ r, t.pl.rm r = s.pl.rm r

/-- VAND, VOR, VXOR, the shifts, VSEL, VBCAST, VEXT, VPERM, VSLIDE and VCLASS (R415, R416, R417, R423, R437, R440, R443, R444): they never
trap and set no flag; VEXT writes gd only where the lane of its element is active. -/
def Obligations.VectorMoves : Prop :=
  ∀ (s : State),
    let word (v : BitVec 5) (l : Nat) : Word := (s.pl.rv v).extractLsb' (64 * l) 64
    let src (ty : BitVec 4) (v : BitVec 5) (e : Nat) := elemAt (tyWidth ty.toNat) (s.pl.rv v) e
    (∀ p ∈ [((Instr.vand, Instr.vandX), fun a b : Word => a &&& b), ((Instr.vor, Instr.vorX), fun a b => a ||| b),
        ((Instr.vxor, Instr.vxorX), fun a b => a ^^^ b)],
      (∀ o : Vl0, Moves (p.1.1 o) s 1 o.g o.vd 64 fun l => (p.2 (word o.va l) (word o.vb l)).toNat) ∧
      ∀ o : Vl1, Moves (p.1.2 o) s 2 o.g o.vd 64 fun l => (p.2 (word o.va l) (if o.sc = 1 then s.pl.rg o.gs else word o.vb l)).toNat) ∧
    (∀ p ∈ [((Instr.vshl, Instr.vshlImm), fun w a c => (BitVec.ofNat w a <<< c).toNat),
        ((Instr.vshr, Instr.vshrImm), fun w a c => (BitVec.ofNat w a >>> c).toNat),
        ((Instr.vsar, Instr.vsarImm), fun w a c => ((BitVec.ofNat w a).sshiftRight c).toNat)],
      (∀ o : Vsh, Moves (p.1.1 o) s (1 + o.x.toNat) o.g o.vd (tyWidth o.ty.toNat) fun e =>
        p.2 (tyWidth o.ty.toNat) (src o.ty o.va e) (src o.ty o.vb e % tyWidth o.ty.toNat)) ∧
      ∀ o : VshI, Moves (p.1.2 o) s 2 o.g o.vd (tyWidth o.ty.toNat) fun e => p.2 (tyWidth o.ty.toNat) (src o.ty o.va e) o.cnt.toNat) ∧
    (∀ o : Vsel, Moves (.vsel o) s 2 o.g o.vd 64 fun l =>
      if (s.pl.rm o.ms).getLsbD l = true then (word o.va l).toNat else (word o.vb l).toNat) ∧
    (∀ o : VbcS, Moves (.vbcastScalar o) s 2 o.g o.vd (tyWidth o.ty.toNat) fun _ => (s.pl.rg o.gs).toNat) ∧
    (∀ o : VbcE, Moves (.vbcastElement o) s 2 o.g o.vd (tyWidth o.ty.toNat) fun _ => src o.ty o.va o.el.toNat) ∧
    (∀ o : Vext, ∃ t, exec (.vext o) s = .next t ∧
      let x := BitVec.ofInt 64 (let b := BitVec.ofNat (tyWidth o.ty.toNat) (src o.ty o.va o.el.toNat)
        if 6 ≤ o.ty.toNat ∧ o.ty.toNat ≤ 9 then b.toInt else (b.toNat : Int))
      if (s.pl.vguard o.g).getLsbD (tyWidth o.ty.toNat * o.el.toNat / 64) = true then WritesG s t 2 o.gs x else Unchanged s t 2) ∧
    (∀ o : Vsh, Moves (.vperm o) s (1 + o.x.toNat) o.g o.vd (tyWidth o.ty.toNat) fun e =>
      if src o.ty o.vb e < 1024 / tyWidth o.ty.toNat then src o.ty o.va (src o.ty o.vb e) else 0) ∧
    (∀ o : Vslide, Moves (.vslide o) s 2 o.g o.vd (tyWidth o.ty.toNat) fun e =>
      let n := 1024 / tyWidth o.ty.toNat
      let d := o.dist.toNat
      if o.v1 = 0 then (if d ≤ e then src o.ty o.va (e - d) else src o.ty o.vb (n - d + e))
      else if e + d < n then src o.ty o.va (e + d) else src o.ty o.vb (e + d - n)) ∧
    ∀ o : Vcls, Moves (.vclass o) s (1 + o.x.toNat) o.g o.vd (tyWidth o.ty.toNat) fun e => (fmtOf o.ty.toNat).classOf (src o.ty o.va e)

/-- VCMP (R419, R105): an active lane's bit of MD is 1 where every element of the lane satisfies the relation, of MQ where some does not;
inactive lanes become 0; guard 0b1000 leaves both masks; m0 takes no write; no statistics. -/
def Obligations.VectorCompare : Prop :=
  ∀ (s : State) (o : Vcmp),
    let w := tyWidth o.ty.toNat
    let k := s.pl.vguard o.g
    let rel (e : Nat) : Bool × FRes := cmpElem o.ty.toNat (s.pl.fctl 0) o.cond.toNat (elemAt w (s.pl.rv o.va) e)
      (if o.sc = 1 then (s.pl.rg o.gs).toNat % 2 ^ w else elemAt w (s.pl.rv o.vb) e)
    let es : List FElem := (actives w k).map fun e => { lane := w * e / 64, r := (rel e).2, fmt := none }
    (o.g = 8 → ∃ t, exec (.vcmp o) s = .next t ∧ Unchanged s t 2) ∧
    (o.g ≠ 8 → Quiet s es → ∃ t, exec (.vcmp o) s = .next t ∧ ElementsDone s t 2 es false ∧
      (∀ l < 16, o.mq ≠ 0 → (t.pl.rm o.mq).getLsbD l = (k.getLsbD l && (actives w k).any fun e => w * e / 64 == l && !(rel e).1)) ∧
      (∀ l < 16, o.md ≠ 0 → o.md ≠ o.mq →
        (t.pl.rm o.md).getLsbD l = (k.getLsbD l && (actives w k).all fun e => w * e / 64 != l || (rel e).1)) ∧
      t.pl.rm 0 = 0xFFFF#16 ∧ (∀ r, r ≠ o.md → r ≠ o.mq → t.pl.rm r = s.pl.rm r) ∧
      (∀ r, t.pl.rv r = s.pl.rv r) ∧ (∀ r, t.pl.rg r = s.pl.rg r) ∧ ∀ r, t.pl.rp r = s.pl.rp r)

/-- VRED and VSCAN (R438, R439): the active elements are combined in ascending order, each partial result rounded; VRED writes element 0
alone, the identity where no element is active; VSCAN writes each active element's partial result. -/
def Obligations.VectorFolds : Prop :=
  ∀ (s : State),
    let folds (red : Bool) (i : Instr) (n : Nat) (g : BitVec 4) (vd va : BitVec 5) (ty : BitVec 4) (op : Nat) : Prop :=
      let w := tyWidth ty.toNat
      let k := s.pl.vguard g
      let rs := redSteps ty.toNat (s.pl.fctl 0) op (s.pl.rv va) (actives w k)
      let total : Nat := match rs.getLast? with | some r => r.2.bits | none => redIdentity ty.toNat op
      let es : List FElem :=
        if red then rs.map (fun r => { lane := w * r.1 / 64, r := r.2, fmt := none }) ++ [{ lane := 0, r := FRes.ok total, fmt := tyFmt ty.toNat }]
        else rs.map fun r => { lane := w * r.1 / 64, r := r.2, fmt := tyFmt ty.toNat }
      Quiet s es → ∃ t, exec i s = .next t ∧ ElementsDone s t n es true ∧
        (∀ e < 1024 / w, elemAt w (t.pl.rv vd) e =
          if red then (if e = 0 then total % 2 ^ w else elemAt w (s.pl.rv vd) e)
          else match rs.find? fun r => r.1 == e with | some r => r.2.bits % 2 ^ w | none => elemAt w (s.pl.rv vd) e) ∧
        (∀ r, r ≠ vd → t.pl.rv r = s.pl.rv r) ∧ (∀ r, t.pl.rg r = s.pl.rg r) ∧ (∀ r, t.pl.rp r = s.pl.rp r) ∧ ∀ r, t.pl.rm r = s.pl.rm r
    (∀ o : Vu0, folds true (.vred o) 1 o.g o.vd o.va o.ty 0 ∧ folds false (.vscan o) 1 o.g o.vd o.va o.ty 0) ∧
    ∀ o : Vred1, folds true (.vredX o) 2 o.g o.vd o.va o.ty o.rop.toNat ∧ folds false (.vscanX o) 2 o.g o.vd o.va o.ty o.rop.toNat

/-- VCVT, VSPLIT, VJOIN, VPACK4 and VUNPK4 (R421, R429, R435, R436, R446): VCVT converts as many elements as both types have, and its
destination elements beyond them become 0; VSPLIT writes digits to VD and exponents to VB; VPACK4 packs 32 elements and their scale under
bit 0 of the guard, and does nothing where it is 0; VUNPK4 decodes 32 codes. -/
def Obligations.VectorConversions : Prop :=
  ∀ (s : State),
    (∀ o : Vcvt,
      let ws := tyWidth o.src.toNat
      let w := tyWidth o.ty.toNat
      let k := s.pl.vguard o.g
      let r (e : Nat) : FRes := convElem o.src.toNat o.ty.toNat (s.pl.fctl o.rm) (o.sat == 1) (elemAt ws (s.pl.rv o.va) e)
      let es : List FElem := ((actives w k).filter fun e => decide (e < 1024 / max ws w)).map fun e =>
        { lane := w * e / 64, r := r e, fmt := tyFmt o.ty.toNat }
      Quiet s es → ∃ t, exec (.vcvt o) s = .next t ∧ ElementsDone s t 2 es true ∧
        LanesAre w k (s.pl.rv o.vd) (t.pl.rv o.vd) (fun e => if e < 1024 / max ws w then (r e).bits else 0) ∧
        (∀ x, x ≠ o.vd → t.pl.rv x = s.pl.rv x) ∧ ∀ x, t.pl.rg x = s.pl.rg x) ∧
    (∀ o : Vsplit,
      let k := s.pl.vguard o.g
      let r (l : Nat) : FRes × Nat := splitLane (s.pl.fctl 0) (s.pl.rg o.gs).toInt o.t.toNat (elemAt 64 (s.pl.rv o.va) l)
      let es : List FElem := (actives 64 k).map fun l => { lane := l, r := (r l).1, fmt := none }
      Quiet s es → ∃ t, exec (.vsplit o) s = .next t ∧ ElementsDone s t 2 es true ∧
        LanesAre 64 k (s.pl.rv o.vb) (t.pl.rv o.vb) (fun l => (r l).2) ∧
        (o.vd ≠ o.vb → LanesAre 64 k (s.pl.rv o.vd) (t.pl.rv o.vd) fun l => (r l).1.bits) ∧
        (∀ x, x ≠ o.vd → x ≠ o.vb → t.pl.rv x = s.pl.rv x) ∧ ∀ x, t.pl.rg x = s.pl.rg x) ∧
    (∀ o : Vjoin, VectorEnds (.vjoin o) s 2 o.g o.vd 64 (some (fmtOf 0)) fun l =>
      let z := (fmtOf 0).input (s.pl.fctl 0) (elemAt 64 (s.pl.rv o.vc) l)
      let x := ((s.pl.rv o.va).extractLsb' (64 * l) 64).toInt
      let e := joinExp (((s.pl.rv o.vb).extractLsb' (64 * l) 64).toInt - 7 * (o.lv.toNat + 2))
      ((fmtOf 0).add { s.pl.fctl 0 with mode := 1 } z.1 (.fin (decide (x < 0)) x.natAbs (if x = 0 then 0 else e))).flushed z.2) ∧
    (∀ o : Pack, (s.pl.vguard o.g).getLsbD 0 = false → ∃ t, exec (.vpack4 o) s = .next t ∧ Unchanged s t 2) ∧
    (∀ o : Pack, (s.pl.vguard o.g).getLsbD 0 = true →
      let c := s.pl.fctl o.rm
      let x (e : Nat) : FVal × Nat := (fmtOf o.ty.toNat).input c (elemAt (tyWidth o.ty.toNat) (s.pl.rv o.va) e)
      let sc := blockScale o.bt.toNat ((List.range 32).map fun e => (x e).1)
      let code (e : Nat) := blockCode o.bt.toNat c.mode sc (o.sat == 1) (x e).1
      let es : List FElem := (List.range 32).map fun e =>
        { lane := 0, r := { bits := (code e).1, fl := (code e).2.1, sn := (x e).1.isSn, flush := (x e).2, clamp := (code e).2.2 }, fmt := none }
      let k := s.pl.vguard o.g ||| 7#16
      Quiet s es → ∃ t, exec (.vpack4 o) s = .next t ∧ ElementsDone s t 2 es true ∧
        LanesAre 4 k (s.pl.rv o.vd) (t.pl.rv o.vd)
          (fun e => if e < 32 then (code e).1 else if e = 32 then sc % 16 else if e = 33 then 4 * o.bt.toNat + sc / 16 else 0) ∧
        (∀ r, r ≠ o.vd → t.pl.rv r = s.pl.rv r) ∧ ∀ r, t.pl.rg r = s.pl.rg r) ∧
    ∀ o : Unpack,
      let w := tyWidth o.ty.toNat
      let k := s.pl.vguard o.g
      let a := (s.pl.rv o.va).toNat
      let r (e : Nat) : FRes := unpackElem o.ty.toNat (s.pl.fctl 0) (blockDy o.bt.toNat (a / 2 ^ 128 % 64) (a / 2 ^ (4 * e) % 16))
      let es : List FElem := ((actives w k).filter fun e => decide (e < 32)).map fun e =>
        { lane := w * e / 64, r := r e, fmt := tyFmt o.ty.toNat }
      Quiet s es → ∃ t, exec (.vunpk4 o) s = .next t ∧ ElementsDone s t 2 es true ∧
        LanesAre w k (s.pl.rv o.vd) (t.pl.rv o.vd) (fun e => if e < 32 then (r e).bits else 0) ∧
        (∀ r, r ≠ o.vd → t.pl.rv r = s.pl.rv r) ∧ ∀ r, t.pl.rg r = s.pl.rg r

/-- The traps of a floating-point instruction are precise (R158): with ESN an sNaN element gives SNAN with the lanes in sr.tval [15:0];
otherwise an enabled flag gives FPE with the lanes and the enabled flags in sr.tval; nothing is written, no flag is set, nothing counted. -/
def Obligations.FloatingTraps : Prop :=
  ∀ (s : State) (o : V1),
    let w := tyWidth o.ty.toNat
    let k := s.pl.vguard o.g
    let r (e : Nat) : FRes := Arith.add.elem o.ty.toNat (s.pl.fctl o.rm) (o.sat == 1) (elemAt w (s.pl.rv o.va) e)
      (if o.sc = 1 then (s.pl.rg o.gs).toNat % 2 ^ w else elemAt w (s.pl.rv o.vb) e)
    let en : BitVec 6 := (s.pl.sr.fpen.setWidth 5).setWidth 6
    let lanes (p : FRes → Bool) : BitVec 16 := BitVec.ofFnLE fun l : Fin 16 => (actives w k).any fun e => w * e / 64 == l.val && p (r e)
    (s.pl.sr.fpen.getLsbD 5 = true → (∃ e ∈ actives w k, (r e).sn = true) →
      ∃ t, exec (.vaddX o) s = .next t ∧ Traps s t 10 ((lanes fun x => x.sn).setWidth 64)) ∧
    (¬ (s.pl.sr.fpen.getLsbD 5 = true ∧ ∃ e ∈ actives w k, (r e).sn = true) → (∃ e ∈ actives w k, (r e).fl &&& en ≠ 0#6) →
      ∃ t, exec (.vaddX o) s = .next t ∧
        Traps s t 9 ((((actives w k).foldl (fun m e => m ||| (r e).fl) 0#6 &&& en) ++ lanes fun x => x.fl &&& en != 0#6).setWidth 64))

/-! ## Decoding loads, the engines -/

/-- A decoding VLD whose access has performed (R191, R431): each active lane receives its 16-bit or FP32 elements, decoded from the
bytes that the access took by the page format kept with it; the access leaves and LDC falls. -/
def Obligations.DecodingLoad : Prop :=
  ∀ (s : State) (g : BitVec 4) (v : BitVec 5) (lay : BitVec 3) (va : Word) (a : Access) (fmt : BitVec 6) (d : DecSrc),
    let k := s.pl.vguard g
    let m := if lay = 1 then 4 else 2
    let es : List FElem := ((List.range 16).filter fun i => k.getLsbD i).flatMap fun i => (List.range m).map fun j =>
      { lane := i, r := decElement a d va (m * i + j), fmt := some (fmtOf d.dst) }
    let loads (i : Instr) (n : Nat) : Prop := ∃ t, exec i s = .next t ∧
      t = (s.modPl fun x => x.dropAccess a).fpEnd n es true (fun x => x.wv v (((List.range 16).filter fun i => k.getLsbD i).foldl (fun r i =>
        setLane r i (BitVec.ofNat 64 ((List.range m).foldr (fun j acc => acc * 2 ^ (64 / m) + (decElement a d va (m * i + j)).bits) 0)))
        (x.rv v))) ∧
      (Quiet s es → t.pl.pc = s.nextPc n ∧ t.pl.acc = s.pl.acc.filter (fun b => b.id != a.id) ∧ t.pl.oc.ldc = s.pl.oc.ldc - 1 ∧
        (∀ r, t.pl.rg r = s.pl.rg r) ∧ ∀ r, r ≠ v → t.pl.rv r = s.pl.rv r)
    k ≠ 0 → lay ≠ 0 → s.pl.mine AccKind.isDec = some a → a.performed = true → a.kind = .vld v lay fmt → decSrc lay fmt = some d →
      (∀ o : Vld0, o.v = v → o.lay = lay → o.g = g → va = s.pl.rg o.a → loads (.vld o) 1) ∧
      ∀ o : Vld1, o.v = v → o.lay = lay → o.g = g → va = s.pl.rg o.a + o.off.signExtend 64 → loads (.vldOff o) 2

/-- The command of an engine instruction of the executing task under handle `h` (R171, R222). -/
def Sys2Proof.Claims.command (s : State) (h j : Nat) (ar : BitVec 2) (scp : BitVec 3) : Cmd :=
  { id := s.nextId, vd := s.curVd, task := s.pl.task.getD 0, plane := s.fp, bk := h, step := j, pc := s.pl.pc, acq := ar.getLsbD 0,
    rel := ar.getLsbD 1, scp := scp, before := s.pl.nextId, issued := s.now, ran := 0, st := .waiting, waitFault := false, ended := none }

/-- Unbooked work of the executing task may enter an engine: its VD is defined, the scope is under the ceiling, the handle is 0, the count
is not at 63 (R102, R228, R340, R368). -/
def Sys2Proof.Claims.Unbooked (s : State) (copy : Bool) (bk : BitVec 6) (ar : BitVec 2) (scp : BitVec 3) : Prop :=
  ∃ d, s.vd s.curVd = some d ∧ (ar = 0 ∨ scp.toNat ≤ d.d.ceil.toNat) ∧ (bk = 0 ∨ (s.pl.rg bk).setWidth 24 = 0#24) ∧
    (if copy then s.pl.oc.cpc else s.pl.oc.mxc) ≠ 63

/-- The state with a matrix operation of the executing task entered: behind the others, its tile STATE 2, or 3 in an engine that a halt has
stopped, MXC one more (R171, R173, R292). -/
def Sys2Proof.Claims.enteredMx (s : State) (o : MxOp) : State :=
  (({ s with nextId := s.nextId + 1 } : State).modCore s.fc fun k => ({ k with mx := k.mx ++ [o] }).modTile o.tile fun t =>
    { t with st := if s.unitHalted s.curVd (mxUnit s.fc) then 3 else 2 }).modPlane
    s.fc s.fp fun x => { x with oc := { x.oc with mxc := x.oc.mxc + 1 } }

/-- A matrix major enters its operation, with the controls of sr.fpen and sr.tensor at issue; its stream record is tested, and it begins if it
is its turn. In an empty engine it is then the engine's only operation, MXC is one more, the instruction is done, and no byte has changed
outside the operation's tile. -/
def Sys2Proof.Claims.EntersMx (i : Instr) (s : State) (j : Nat) (ar : BitVec 2) (scp : BitVec 3) (tile : BitVec 3) (kind : MxKind) : Prop :=
  let o : MxOp := { c := command s 0 j ar scp, kind := kind, tile := tile, en := s.pl.sr.fpen.setWidth 6 &&& 0x3D#6, tensor := s.pl.sr.tensor,
                    ftz := s.pl.sr.fpen.getLsbD 12, prog := 0, acks := 0, flags := 0, srcNx := false, stat := Stat.reset, sf := 0, tested := false }
  let t := (((enteredMx s o).testStream s.fc o).beginMx s.fc).advance 2
  exec i s = .next t ∧
    ((s.core s.fc).mx = [] → (∀ a m n kd cb ty zf, kind ≠ .mmt a m n kd cb ty true zf) → (s.core s.fc).bobbin.wf = true →
      (t.core s.fc).mx.map (fun x => x.c.id) = [s.nextId] ∧ t.pl.oc = { s.pl.oc with mxc := s.pl.oc.mxc + 1 } ∧ t.pl.regs = s.pl.regs ∧
      t.pl.sr = s.pl.sr ∧ t.pl.pc = s.nextPc 2 ∧ t.pl.hold = none ∧ (∀ a, memRead t.hbm.mem a = memRead s.hbm.mem a) ∧
      (∀ c a, memRead (t.core c).spad a = memRead (s.core c).spad a ∧ memRead (t.core c).creel a = memRead (s.core c).creel a) ∧
      (∀ c, c ≠ s.fc → ∀ a, memRead (t.core c).bobbin a = memRead (s.core c).bobbin a) ∧
      ∀ a, (a < 131072 * tile.toNat ∨ 131072 * tile.toNat + 131072 ≤ a) → memRead (t.core s.fc).bobbin a = memRead (s.core s.fc).bobbin a)

/-- MMT, MZERO, MDRAIN, MDADD and MBRD as unbooked work: with checked operands the operation enters the matrix engine and the task goes on
(R165, R171, R178 to R181, R368, R373, R374, R377, R379, R384). -/
def Sys2Proof.Claims.MatrixWorkEnters : Prop :=
  ∀ (s : State),
    (∀ o : Mmt, s.pl.guard o.g = true → Unbooked s false o.bk o.ar o.scp →
      let a := s.pl.rg o.a
      let b := s.pl.rg o.b
      let m := (b.extractLsb' 0 8).toNat
      let n := (b.extractLsb' 8 8).toNat
      let kd := (b.extractLsb' 16 16).toNat
      m ≤ 128 → n ≤ 128 → b.extractLsb' 46 18 = 0#18 → (b.extractLsb' 32 14).toNat % 32 = 0 → a &&& 31#64 = 0#64 →
      s.pl.leased a (if o.st = 1 then 64 else m * mmtPitch o.ty.toNat kd) = true →
      EntersMx (.mmt o) s o.step.toNat o.ar o.scp o.tile (.mmt a m n kd (b.extractLsb' 32 14).toNat o.ty (o.st == 1) (o.f == 1))) ∧
    (∀ o : Mzero, s.pl.guard o.g = true → Unbooked s false 0 0 0 → EntersMx (.mzero o) s 0 0 0 o.tile .mzero) ∧
    (∀ o : Mdrain, s.pl.guard o.g = true → Unbooked s false o.bk o.ar o.scp → s.pl.rg o.a &&& 31#64 = 0#64 →
      s.pl.leased (s.pl.rg o.a) (16384 * (tyWidth o.ty.toNat / 8)) = true →
      EntersMx (.mdrain o) s o.step.toNat o.ar o.scp o.tile
        (.mdrain (s.pl.rg o.a) o.ty (if o.rm = 0 then s.pl.sr.fpen.extractLsb' 8 3 else o.rm) (o.sat == 1))) ∧
    (∀ (o : Mdadd) (d : Vd), s.pl.guard o.g = true → Unbooked s false o.bk o.ar o.scp → s.vd s.curVd = some d →
      s.mdaddBad d (s.pl.rg o.a) = none → EntersMx (.mdadd o) s o.step.toNat o.ar o.scp o.tile (.mdadd (s.pl.rg o.a) (o.f == 1))) ∧
    ∀ o : Mbrd, s.pl.guard o.g = true → Unbooked s false 0 0 0 →
      let a := s.pl.rg o.a
      let q := (a.extractLsb' 7 4).toNat
      a.extractLsb' 11 53 = 0#53 → q * (1024 / tyWidth o.ty.toNat) < 128 →
      EntersMx (.mbrd o) s 0 0 0 o.tile (.mbrd (a.extractLsb' 0 7).toNat q o.ty o.v (s.pl.sr.fpen.extractLsb' 8 3))

/-- CPY and CPYS as unbooked work (R192, R340): the operation enters the copy engine, CPC is one more, the tag's state is 1, and the task
goes on; nothing of memory changes. -/
def Sys2Proof.Claims.CopyWorkEnters : Prop :=
  ∀ (s : State) (o : Cpy), s.pl.guard o.g = true → Unbooked s true o.bk o.ar o.scp →
    let a := s.pl.rg o.a
    let op (chain : Bool) : CpOp :=
      { c := command s 0 o.step.toNat o.ar o.scp, chain := chain, line := a, word := if chain then 1 else 0,
        tag := if o.tg = 1 then some o.tag else none, ents := 0, bytes := 0, done := 0, loop := none, buf := none, wait := false, wrote := 0,
        moved := [], flits := 0, doms := [], en := s.pl.sr.fpen.setWidth 6, flags := 0, cur := none }
    let enters (i : Instr) (chain : Bool) : Prop := ∃ t, exec i s = .next t ∧ (t.core s.fc).cp = (s.core s.fc).cp ++ [op chain] ∧
      t.pl.oc = { s.pl.oc with cpc := s.pl.oc.cpc + 1 } ∧ t.pl.regs = s.pl.regs ∧ t.pl.sr = s.pl.sr ∧ t.pl.pc = s.nextPc 2 ∧
      t.pl.hold = none ∧ t.nextId = s.nextId + 1 ∧ SameMemory s t ∧ t.vds = s.vds ∧ t.bk = s.bk ∧
      (∀ key x, s.pl.task = some key → s.task key = some x → o.tg = 1 →
        (t.task key).bind (fun y => tget y.cpq o.tag.toNat) = some { id := s.nextId, state := 1, ents := 0, bytes := 0 })
    (a &&& 63#64 = 0#64 → s.cpyBad a 64 64 = none → enters (.cpy o) true) ∧ (s.cpyBad a 8 24 = none → enters (.cpys o) false)

/-- Unbooked work of the five matrix majors and of CPY and CPYS enters its engine (R165, R171, R173, R192, R340, R368). -/
def Obligations.EngineWorkEnters : Prop := Claims.MatrixWorkEnters ∧ Claims.CopyWorkEnters

/-- An engine instruction whose booked step is still to start (R76): the task holds until the start, and a slot late or early the counters
8 and 9 of the booking bank say which; in its slots the work enters at once. -/
def Obligations.BookedWorkStarts : Prop :=
  ∀ (s : State) (o : Cpy) (d : Vd) (key : Nat) (t : BStep),
    let h := ((s.pl.rg o.bk).setWidth 24).toNat
    s.pl.guard o.g = true → s.cpyBad (s.pl.rg o.a) 64 64 = none → s.vd s.curVd = some d → (o.ar = 0 ∨ o.scp.toNat ≤ d.d.ceil.toNat) →
    o.bk ≠ 0 → s.pl.oc.cpc ≠ 63 → s.stepUse s.curVd (s.pl.task.getD 0) h o.step.toNat true = .booked key t →
      (s.now < t.start → ∃ u op, exec (.cpy o) s = .next u ∧ u.pl.hold = some (.startCp t.start op) ∧ op.c.bk = h ∧ op.c.step = o.step.toNat ∧
        op.line = s.pl.rg o.a ∧ u.pl.pc = s.pl.pc ∧ u.pl.regs = s.pl.regs ∧ (u.core s.fc).cp = (s.core s.fc).cp ∧
        u.counter s.curVd 0 8 = s.counter s.curVd 0 8 + 1) ∧
      (t.start ≤ s.now → s.now < t.start + t.len → ∃ u op, exec (.cpy o) s = .next u ∧ (u.core s.fc).cp = (s.core s.fc).cp ++ [op] ∧
        op.c.bk = h ∧ op.c.step = o.step.toNat ∧ op.line = s.pl.rg o.a ∧ u.pl.pc = s.nextPc 2 ∧ u.pl.oc.cpc = s.pl.oc.cpc + 1 ∧
        u.counter s.curVd 0 9 = s.counter s.curVd 0 9 + 1)

/-- MSTAT, CPYQ, BKQ and FRQ read a status word into gd (R56, R89, R173, R197, R327, R342, R356, R381). -/
def Obligations.StatusReads : Prop :=
  ∀ (s : State),
    (∀ o : Mstat, ScalarEnds (.mstat o) s o.g 1 o.d
      (let t := (s.core s.fc).tile o.tile
       (0 : BitVec 16) ++ t.kst ++ t.st ++ (0 : BitVec 16) ++ t.fmt ++ BitVec.ofBool t.fz ++ BitVec.ofBool t.mix ++ BitVec.ofBool t.iov ++
         (0 : BitVec 1) ++ t.fl)) ∧
    (∀ (o : Cpyq) (k : Task) (q : CopyStat), s.curTask = some k → tget k.cpq o.tag.toNat = some q →
      ((s.core s.fc).cp.all fun x => x.c.id != q.id) = true →
      ScalarEnds (.cpyq o) s o.g 1 o.d (BitVec.ofNat 64 (2 ^ 60 * q.state + 2 ^ 40 * (q.ents % 65536) + q.bytes % 2 ^ 40))) ∧
    (∀ (o : Bkq) (b : Booking) (t : BStep), s.booking s.curVd ((s.pl.rg o.a).setWidth 24).toNat = some b → b.steps[o.step.toNat]? = some t →
      ScalarEnds (.bkq o) s o.g 1 o.d (BitVec.ofNat 64 (2 ^ 60 * t.st.code + 2 ^ 48 * t.cal + 2 ^ 32 * (t.len % 8192) + t.start % 2 ^ 32))) ∧
    (∀ (o : Bkq), s.booking s.curVd ((s.pl.rg o.a).setWidth 24).toNat = none → s.pendingReq s.curVd ((s.pl.rg o.a).setWidth 24).toNat = none →
      ScalarEnds (.bkq o) s o.g 1 o.d 0xF000000000000000#64) ∧
    (∀ (o : Frq), s.sweep s.curVd ((s.pl.rg o.a).setWidth 12) = none → ScalarEnds (.frq o) s o.g 2 o.d 0) ∧
    ∀ (o : Frq) (x : Sweep), s.sweep s.curVd ((s.pl.rg o.a).setWidth 12) = some x → o.sel = 0 →
      ScalarEnds (.frq o) s o.g 2 o.d (BitVec.ofNat 64 (4294967296 * x.done + x.st.code))

/-- Operands that the engine majors refuse, precisely and before anything enters an engine: MMT's shape and alignment, MDRAIN's address and
lease, MBRD's position, CPY's and CPYS's alignment; a scope above a ceiling that traps (R165, R192, R228, R340, R373, R377, R379). -/
def Obligations.EngineOperandTraps : Prop :=
  ∀ (s : State),
    (∀ o : Mmt, s.pl.guard o.g = true →
      let b := s.pl.rg o.b
      (128 < (b.extractLsb' 0 8).toNat ∨ 128 < (b.extractLsb' 8 8).toNat ∨ b.extractLsb' 46 18 ≠ 0#18 →
        ∃ t, exec (.mmt o) s = .next t ∧ Traps s t 1 b) ∧
      ((b.extractLsb' 0 8).toNat ≤ 128 → (b.extractLsb' 8 8).toNat ≤ 128 → b.extractLsb' 46 18 = 0#18 →
        (b.extractLsb' 32 14).toNat % 32 ≠ 0 ∨ s.pl.rg o.a &&& 31#64 ≠ 0#64 → ∃ t, exec (.mmt o) s = .next t ∧ Traps s t 7 (s.pl.rg o.a))) ∧
    (∀ o : Mdrain, s.pl.guard o.g = true →
      (s.pl.rg o.a &&& 31#64 ≠ 0#64 → ∃ t, exec (.mdrain o) s = .next t ∧ Traps s t 7 (s.pl.rg o.a)) ∧
      (s.pl.rg o.a &&& 31#64 = 0#64 → s.pl.leased (s.pl.rg o.a) (16384 * (tyWidth o.ty.toNat / 8)) = false →
        ∃ t, exec (.mdrain o) s = .next t ∧ Traps s t 8 (s.pl.rg o.a))) ∧
    (∀ o : Mbrd, s.pl.guard o.g = true → (s.pl.rg o.a).extractLsb' 11 53 ≠ 0#53 → ∃ t, exec (.mbrd o) s = .next t ∧ Traps s t 1 (s.pl.rg o.a)) ∧
    (∀ o : Cpy, s.pl.guard o.g = true →
      ((s.pl.rg o.a).toNat % 64 ≠ 0 → ∃ t, exec (.cpy o) s = .next t ∧ Traps s t 7 (s.pl.rg o.a)) ∧
      ((s.pl.rg o.a).toNat % 8 ≠ 0 → ∃ t, exec (.cpys o) s = .next t ∧ Traps s t 7 (s.pl.rg o.a))) ∧
    ∀ (o : Cpy) (d : Vd), s.pl.guard o.g = true → s.cpyBad (s.pl.rg o.a) 64 64 = none → s.vd s.curVd = some d → d.d.sctrap = true →
      o.ar ≠ 0 → d.d.ceil.toNat < o.scp.toNat →
      ∃ t, exec (.cpy o) s = .next t ∧ Traps s t 14 (BitVec.ofNat 64 (o.scp.toNat + 8 * d.d.ceil.toNat))

/-- At its turn, in an engine that may work and with the task's earlier accesses to the tile performed, MZERO clears its whole tile and the
tile's status but STATE, and its work has ended (R178, R220, R384). -/
def Obligations.ZeroedTile : Prop :=
  ∀ (s : State) (c : Nat) (o : MxOp), s.mxTurn c = some o → o.kind = .mzero → o.c.st = .waiting → o.c.acq = false → o.c.rel = false →
    s.unitRuns o.c.vd (mxUnit c) = true → s.cmdClear c o.c (.bobbin c (entryOff o.tile 0 0)) 131072 = true → (s.core c).bobbin.wf = true →
    let t := s.beginMx c
    (∀ a, memRead (t.core c).bobbin a =
      if 131072 * o.tile.toNat ≤ a ∧ a < 131072 * o.tile.toNat + 131072 then 0 else memRead (s.core c).bobbin a) ∧
    (t.core c).tile o.tile = { (s.core c).tile o.tile with kst := 0, fmt := 0, mix := false, iov := false, fl := 0, fz := o.ftz } ∧
    (∀ k, k ≠ o.tile → (t.core c).tile k = (s.core c).tile k) ∧ (t.core c).spad = (s.core c).spad ∧ (t.core c).creel = (s.core c).creel ∧
    ∀ x ∈ (t.core c).mx, x.c.id = o.c.id → x.c.st = .finished

/-! ## Bookings, tasks, futures, returns -/

/-- BOOK, BKCAN and BKREL (R68, R81, R325, R326, R328, R329): BOOK checks its record's address, then holds for its request's result, and when
that has come writes it to gd, with RCNT one more where it was REFUSED or POSTPONED; BKCAN cancels every step that is not over; BKREL
releases a step, with those attached to its COPY step; a handle that names no booking of the VD has no effect. -/
def Obligations.BookingInstructions : Prop :=
  ∀ (s : State),
    (∀ (o : DA) (id : Nat) (w : Word), s.pl.guard o.g = true → s.pl.hold = some (.book id) → tget s.bk.results id = some w →
      ∃ t, exec (.book o) s = .next t ∧ t.pl.pc = s.nextPc 1 ∧ t.pl.hold = none ∧ t.bk.results = terase s.bk.results id ∧
        t.bk.bookings = s.bk.bookings ∧ (∀ r, t.pl.rg r = if r = 0 then 0 else if r = o.d then w else s.pl.rg r) ∧
        (∀ a, memRead t.hbm.mem a = memRead s.hbm.mem a) ∧
        (w.extractLsb' 60 4 ≠ 1#4 → w.extractLsb' 60 4 ≠ 3#4 → (t.core s.fc).spad = (s.core s.fc).spad) ∧
        (∀ off, (w.extractLsb' 60 4 = 1#4 ∨ w.extractLsb' 60 4 = 3#4) → winOf (s.pl.rg o.a) = .spad off → (s.core s.fc).spad.wf = true →
          memRead (t.core s.fc).spad (off + 5) = BitVec.ofNat 8 (min 255 ((memRead (s.core s.fc).spad (off + 5)).toNat + 1)) ∧
            ∀ a, a ≠ off + 5 → memRead (t.core s.fc).spad a = memRead (s.core s.fc).spad a)) ∧
    (∀ o : DA, s.pl.guard o.g = true → s.pl.hold = none →
      (s.pl.rg o.a &&& 7#64 ≠ 0#64 → ∃ t, exec (.book o) s = .next t ∧ Traps s t 7 (s.pl.rg o.a)) ∧
      (s.pl.rg o.a &&& 7#64 = 0#64 → s.pl.leased (s.pl.rg o.a) 16 = false → ∃ t, exec (.book o) s = .next t ∧ Traps s t 8 (s.pl.rg o.a))) ∧
    (∀ (o : A1) (b : Booking), s.pl.guard o.g = true →
      let h := ((s.pl.rg o.a).setWidth 24).toNat
      s.booking s.curVd h = some b → ∃ t, exec (.bkcan o) s = .next t ∧ t.pl.pc = s.nextPc 1 ∧ t.pl.regs = s.pl.regs ∧ SameMemory s t ∧
        tget t.bk.bookings (keyOfHandle h) =
          some { b with steps := b.steps.map fun x => if x.st = .booked ∨ x.st = .running then { x with st := .cancelled } else x }) ∧
    (∀ (o : Bkrel) (b : Booking) (x : BStep), s.pl.guard o.g = true →
      let h := ((s.pl.rg o.a).setWidth 24).toNat
      let j := o.step.toNat
      let r := attachRoot b.steps j
      let group := if (b.steps[r]?.map (·.kind == 1)).getD false = true then r :: attachedTo b.steps r else [j]
      s.booking s.curVd h = some b → b.steps[j]? = some x → (x.st = .booked ∨ x.st = .running) →
      ∃ t, exec (.bkrel o) s = .next t ∧ t.pl.pc = s.nextPc 1 ∧ t.pl.regs = s.pl.regs ∧ SameMemory s t ∧
        ∃ b', tget t.bk.bookings (keyOfHandle h) = some b' ∧ b'.steps.length = b.steps.length ∧
          ∀ (i : Nat) (y : BStep), b.steps[i]? = some y → b'.steps[i]? =
            some (if i ∈ group ∧ (y.st = .booked ∨ y.st = .running) then { y with st := .released } else y)) ∧
    (∀ o : A1, s.booking s.curVd ((s.pl.rg o.a).setWidth 24).toNat = none → s.pendingReq s.curVd ((s.pl.rg o.a).setWidth 24).toNat = none →
      ∃ t, exec (.bkcan o) s = .next t ∧ Unchanged s t 1) ∧
    ∀ o : Bkrel, s.booking s.curVd ((s.pl.rg o.a).setWidth 24).toNat = none → ∃ t, exec (.bkrel o) s = .next t ∧ Unchanged s t 1

/-- SPAWN, SIGNAL, LAUNCH and FRGATE of a task with nothing outstanding, under a ceiling that admits their release (R25, R50, R355, R358,
R360, R394, R396): SPAWN makes a task of kind 1 in a free record and returns its id; SIGNAL sends one decrement; LAUNCH returns a sweep's id
or the code that rejects it; FRGATE adds to a gate counter; each goes on to the next instruction. -/
def Obligations.TaskCreation : Prop :=
  ∀ (s : State) (d : Vd), s.vd s.curVd = some d →
    (∀ (o : Spawn) (idx : Nat), s.pl.guard o.g = true → s.pl.acc = [] → 2 ≤ d.d.ceil.toNat →
      let ga := s.pl.rg o.a
      let gb := s.pl.rg o.b
      ga &&& 63#64 = 0#64 → ga ≠ 0#64 → inHbmWindow ga = true → gb.toNat ≤ 32767 → s.pl.rows ≤ d.d.lmax → s.spawnIdx s.curVd d = some idx →
      let t : Task := Task.fresh s.curVd idx 1 o.pri gb.toNat (dieOf s.fc) s.pl.sr.sweep s.pl.sr.point s.pl.rows
      (∃ u, exec (.spawn o) s = .next u ∧
        u = ((s.bump.createTask t (ga + 4) s.pl.carried).modPl fun p => p.wg o.d (BitVec.ofNat 64 (d.d.poolBase + 64 * idx))).advance 1) ∧
      t.kind = 1 ∧ t.smode = false ∧ t.dcnt = gb.toNat ∧ (t.state = if gb.toNat = 0 then .ready else .waiting) ∧ t.pri = o.pri) ∧
    (∀ o : A1, s.pl.guard o.g = true → s.pl.acc = [] → 2 ≤ d.d.ceil.toNat → s.pl.rg o.a &&& 63#64 = 0#64 →
      (s.keyOfVa s.curVd (s.pl.rg o.a).toNat).isSome = true → ∃ t, exec (.signal o) s = .next t ∧
        t.fr = { s.fr with decs := s.fr.decs ++ [{ vd := s.curVd, va := (s.pl.rg o.a).toNat, fin := none }] } ∧ t.pl.pc = s.nextPc 1 ∧ t.pl.regs = s.pl.regs ∧
        SameMemory s t ∧ t.vds = s.vds) ∧
    (∀ (o : DA) (a : Access) (u : State), s.pl.guard o.g = true → s.pl.mine AccKind.isDesc = some a → a.performed = true →
      let desc := wordsOf (a.elems.flatMap (·.res)) 16
      (∀ code, s.checkDesc s.curVd d.d desc = (some code, u) → ∃ t, exec (.launch o) s = .next t ∧
        t = (u.modPl fun x => (x.dropAccess a).wg o.d (BitVec.ofNat 64 (16777216 * code + 0xFFF))).advance 1) ∧
      (∀ id, s.checkDesc s.curVd d.d desc = (none, u) → u.pl.acc = [a] → (descScope desc).toNat ≤ d.d.ceil.toNat → u.curVd = s.curVd →
        u.freeSweepId s.curVd = some id → ∃ t, exec (.launch o) s = .next t ∧
        t = ((u.bump.modFr fun f => { f with sweeps := f.sweeps ++ [Sweep.fresh u.fr.nextSweep s.curVd id desc .launch], nextSweep := u.fr.nextSweep + 1 }).modPl fun x =>
          (x.dropAccess a).wg o.d (BitVec.ofNat 64 id.toNat)).advance 1)) ∧
    (∀ o : DA, s.pl.guard o.g = true → s.pl.mine AccKind.isDesc = none → s.pl.rg o.a &&& 63#64 ≠ 0#64 →
      ∃ t, exec (.launch o) s = .next t ∧ Traps s t 7 (s.pl.rg o.a)) ∧
    ∀ o : Frgate, s.pl.guard o.g = true → s.pl.acc = [] →
      let ga := s.pl.rg o.a
      let id : BitVec 12 := ga.setWidth 12
      let n := min (s.pl.rg o.b).toNat 65535
      ga &&& 0xFFFFF000#64 = 0#64 → (s.sweepScope s.curVd id).toNat ≤ d.d.ceil.toNat → ∃ t, exec (.frgate o) s = .next t ∧
        t = (s.gateAdd none s.curVd id o.face.toNat n).advance 2 ∧
        (s.sweep s.curVd id = none → n ≠ 0 → t.counter s.curVd 6 7 = s.counter s.curVd 6 7 + 1) ∧
        ∀ x, s.sweep s.curVd id = some x → x.st = .running → n ≠ 0 → t.fr.gadds = s.fr.gadds ++ (geoOf x.desc).dies.map fun e =>
          { key := x.key, fin := none, vd := s.curVd, swid := id, die := e, face := o.face.toNat, amount := n }

/-- SUSP and EXIT once every count of sr.oc is 0 (R24, R347, R403): the plane and its lease are free; SUSP leaves the task with NEXT at the
following instruction and its counter one more; before that they hold; in a running loop SUSP raises ILLEGAL. -/
def Obligations.TaskLeaves : Prop :=
  ∀ (s : State) (o : G0), s.pl.guard o.g = true →
    (∀ key u, s.pl.loop.act = false → s.pl.oc.zero = true → s.pl.task = some key →
      (s.applyInc key).writeRecord key (s.nextPc 1) s.pl.carried = (true, u) →
      ∃ t, exec (.susp o) s = .next t ∧ t = u.freePlane s.fc s.fp ∧ ∃ n, t.plane s.fc s.fp = { Plane.reset with nextId := n }) ∧
    (∀ key x, s.task key = some x →
      ((s.applyInc key).task key).map (fun y => (y.dcnt, decide (y.state = .ready), decide (y.state = .waiting))) =
        some (x.dcnt + 1, decide (x.dcnt + 1 ≤ 0), decide (0 < x.dcnt + 1))) ∧
    (s.pl.loop.act = true → o.g ≠ 8 → ∃ t w, exec (.susp o) s = .next t ∧ encode (.susp o) = some w ∧ Traps s t 1 (w.1.setWidth 64)) ∧
    (s.pl.oc.zero = false → s.pl.loop.act = false → ∃ t, exec (.susp o) s = .next t ∧ t.pl.hold = some (.counts 0 0 0 0) ∧ t.pl.pc = s.pl.pc) ∧
    (∀ key x, s.pl.task = some key → s.curTask = some x → s.pl.oc.zero = true → ∃ (t : State) (n : Nat) (u : State), exec (.exit o) s = .next t ∧
      t = u.freePlane s.fc s.fp ∧ t.plane s.fc s.fp = { Plane.reset with nextId := n }) ∧
    (∀ key x, s.pl.task = some key → s.curTask = some x → s.pl.oc.zero = false →
      ∃ t, exec (.exit o) s = .next t ∧ t.pl.hold = some (.counts 0 0 0 0) ∧ t.pl.pc = s.pl.pc)

/-- FGET and FPUT once their access has performed (R350, R352): FGET of a full future writes VALUE to gd; of an empty one it suspends the task
at the same instruction, and where it may not wait it raises ATOMIC; FPUT goes on. A future must lie at a multiple of 16. -/
def Obligations.Futures : Prop :=
  ∀ (s : State) (d : Vd), s.vd s.curVd = some d → s.pl.loop.act = false →
    (∀ (o : DA) (a : Access) (e : Elem), s.pl.guard o.g = true → o.g ≠ 8 → s.pl.mine AccKind.isFget = some a → a.performed = true → a.elems = [e] →
      let fa := s.pl.rg o.a
      (leNat ((e.res.drop 8).take 8) ≠ 0 → (s.futureScope fa).toNat ≤ d.d.ceil.toNat → ∃ t, exec (.fget o) s = .next t ∧
        OnlyPlane s t ∧ SameMemory s t ∧ t.pl.pc = s.nextPc 1 ∧ t.pl.acc = s.pl.acc.filter (fun b => b.id != a.id) ∧
        ∀ r, t.pl.rg r = if r = 0 then 0 else if r = o.d then leWord (e.res.take 8) else s.pl.rg r) ∧
      (leNat ((e.res.drop 8).take 8) = 0 → (∀ x, e.loc ≠ some (.hbm x)) → ∃ t, exec (.fget o) s = .next t ∧
        t = (s.modPl fun x => x.dropAccess a).takeTrap s.fc s.fp (preciseInfo s 15 s.pl.pc (fa ||| 1#64) s.pl.pc)) ∧
      (leNat ((e.res.drop 8).take 8) = 0 → ∀ x, e.loc = some (.hbm x) →
        (e.res.getD 16 0 = 2#8 → ∃ t, exec (.fget o) s = .next t ∧
          t = (s.modPl fun x => x.dropAccess a).takeTrap s.fc s.fp (preciseInfo s 15 s.pl.pc (fa ||| 2#64) s.pl.pc)) ∧
        (e.res.getD 16 0 ≠ 2#8 → s.pl.oc.zero = true → exec (.fget o) s = .next (s.suspendTo s.fc s.fp s.pl.pc)) ∧
        (e.res.getD 16 0 ≠ 2#8 → s.pl.oc.zero = false → exec (.fget o) s = .next (s.holdOn (.counts 0 0 0 0))))) ∧
    (∀ o : DA, s.pl.guard o.g = true → o.g ≠ 8 → s.pl.mine AccKind.isFget = none → s.pl.rg o.a &&& 15#64 ≠ 0#64 →
      ∃ t, exec (.fget o) s = .next t ∧ Traps s t 7 (s.pl.rg o.a)) ∧
    (∀ (o : Fput) (a : Access), s.pl.guard o.g = true → s.pl.mine AccKind.isFput = some a → a.performed = true →
      ∃ t, exec (.fput o) s = .next t ∧ OnlyPlane s t ∧ SameMemory s t ∧ t.pl.pc = s.nextPc 1 ∧ t.pl.regs = s.pl.regs ∧
        t.pl.acc = s.pl.acc.filter fun b => b.id != a.id) ∧
    ∀ o : Fput, s.pl.guard o.g = true → s.pl.mine AccKind.isFput = none →
      (s.pl.rg o.a &&& 15#64 ≠ 0#64 → ∃ t, exec (.fput o) s = .next t ∧ Traps s t 7 (s.pl.rg o.a)) ∧
      (s.pl.rg o.a &&& 15#64 = 0#64 → isHost (s.pl.rg o.a) = false → exec (.fput o) s = .next (s.doAccess 1 .fput 0 2 (s.futureScope (s.pl.rg o.a))
        none futurePlace [mkElem 0 [0] (s.pl.rg o.a) 16 (lowMask 16) (wordBytes (s.pl.rg o.b) ++ wordBytes 1)]))

/-- RETT, XINV and the line-store invalidation (R100, R116, R249, R277, R388, R452): in T mode RETT and XINV raise PRIV; RETT names the trap
record of its own task, else ILLEGAL; with every count 0 it returns; XINV and LSINV of a task with no store outstanding remove every cached
translation, every stored line, that they name. -/
def Obligations.ReturnsAndInvalidations : Prop :=
  ∀ (s : State),
    (∀ o : AMode, o.g ≠ 8 → s.pl.sr.smode = false →
      (∃ t w, exec (.rett o) s = .next t ∧ encode (.rett o) = some w ∧ Traps s t 2 (w.1.setWidth 64)) ∧
      ∃ t w, exec (.xinv o) s = .next t ∧ encode (.xinv o) = some w ∧ Traps s t 2 (w.1.setWidth 64)) ∧
    (∀ (o : AMode) (t : Task), o.g ≠ 8 → s.pl.guard o.g = true → s.pl.sr.smode = true → s.curTask = some t →
      (s.ownRecord t ≠ some (s.pl.rg o.a) → ∃ u, exec (.rett o) s = .next u ∧ Traps s u 1 (s.pl.rg o.a)) ∧
      (s.ownRecord t = some (s.pl.rg o.a) → s.pl.oc.zero = false → exec (.rett o) s = .next (s.holdOn (.counts 0 0 0 0))) ∧
      (s.ownRecord t = some (s.pl.rg o.a) → s.pl.oc.zero = true → exec (.rett o) s = .next (s.returnFrom (o.mode == 1)))) ∧
    (∀ o : AMode, o.g ≠ 8 → s.pl.guard o.g = true → s.pl.sr.smode = true → s.pl.acc = [] → s.pl.hold = none → o.mode = 1 →
      let u := (s.tcInval s.curVd fun _ => true).walksNoFill fun w => w.vd == s.curVd
      u.usersOf s.curVd (fun _ => true) = [] → ∃ t, exec (.xinv o) s = .next t ∧ t = u.advance 1 ∧ t.pl.pc = s.nextPc 1 ∧ t.pl.regs = s.pl.regs ∧
        ∀ c k, tget t.cores c = some k → ∀ e ∈ k.tc, e.vd ≠ s.curVd) ∧
    ∀ o : Lsi, s.pl.guard o.g = true → s.pl.acc = [] →
      let line := s.pl.rg o.d &&& 0xFFFFFFFFFFC0#64
      ∃ t, exec (.lsinv o) s = .next t ∧ SameMemory s t ∧ t.pl.pc = s.nextPc 1 ∧ t.pl.regs = s.pl.regs ∧ t.pl.sr = s.pl.sr ∧
        (∀ c k, tget t.cores c = some k → ∀ l ∈ k.lines, ¬ (l.vd = s.curVd ∧ l.addr = line)) ∧
        ∀ c k, tget s.cores c = some k → ∀ l ∈ k.lines, ¬ (l.vd = s.curVd ∧ l.addr = line) → ∃ k', tget t.cores c = some k' ∧ l ∈ k'.lines

/-- Taking a trap (R275, R276, R279): with an operation still counted in sr.oc, sr.cause, sr.epc and sr.tval take the trap's words, the trap
is kept, a hold ends, and nothing else changes; with none, it is delivered: a free pair k and a kept spill slot n are taken, the task is
spilled with NEXT = RESUME, its trap record written, and the trap task of the pair made in S mode at tvec + 4 with the record's address in g1;
without a pair or slot the VD halts with reason DOUBLE. -/
def Obligations.TrapTaken : Prop :=
  ∀ (s : State) (c : Nat) (p : BitVec 1) (i : TrapInfo),
    let u := s.modPlane c p fun x =>
      { x with sr := { x.sr with cause := i.cause, epc := i.epc, tval := i.tval }, trap := some i, hold := none, park := none }
    ((s.plane c p).oc.zero = false → s.takeTrap c p i = u) ∧
    ((s.plane c p).oc.zero = true → s.takeTrap c p i = u.finishTrap c p) ∧
    ∀ (key : Nat) (t : Task) (d : Vd), (s.plane c p).trap = some i → (s.plane c p).task = some key → s.task key = some t → s.vd t.vd = some d →
      ((s.pick (s.freePairs t.vd d) = none ∨ s.freeKept t.vd d = none) → s.finishTrap c p = s.raiseHalt t.vd 2 i.cause) ∧
      ∀ k n u v, s.pick (s.freePairs t.vd d) = some k → s.freeKept t.vd d = some n → i.cause.getLsbD 8 = false →
        (s.bump.modTask (taskKey t.vd t.idx) fun t => { t with more := none, requeued := false, parkAt := none, parkWords := 0, kept := none, lanes := [] }).spillTo
          c p n i.resume = (none, u) →
        u.quietWrite t.vd (d.d.tra + 64 * k) ([i.cause, (i.resume.setWidth 48).setWidth 64, i.tval, BitVec.ofNat 64 (d.d.poolBase + 64 * t.idx), (i.origin.setWidth 48).setWidth 64,
           BitVec.ofNat 64 (1099511627776 * i.more + 268435456 * i.state + 16777216 * i.step + i.bkh), i.slot, BitVec.ofNat 64 (65536 * c + n)].flatMap wordBytes) =
          (none, v) →
        ∃ h : Task, h.kind = 2 ∧ h.smode = true ∧ h.pri = 3 ∧ h.dcnt = 0 ∧ h.idx = d.d.poolCount - 16 + k ∧ h.rows = t.rows ∧ h.record = some k ∧
          h.trapped = some (taskKey t.vd t.idx) ∧ h.trapSr = (i.cause, i.epc, i.tval) ∧
          s.finishTrap c p = (v.createTask h (BitVec.ofNat 64 (d.d.tvec + 4)) [BitVec.ofNat 64 (d.d.tra + 64 * k), 0, 0, 0, 0]).count t.vd 5 0 1

/-! ## The events of the frontier units and dispatchers -/

/-- The frontier unit's and dispatchers' messages and firings, each of which always completes (R15, R25, R43, R45, R46, R49, R50, R51,
R299): a
point fires its column's IN-FLIGHT bit and makes a READY task of kind 0 from the descriptor; an edge message replaces the receiver's ghost of
a column, those from one die to another in the order sent; a gate addition saturates at 65,535; either acts on the sweep it was sent for, and
a sweep ends when what delivers its completion action has arrived (R299); a waiting sweep takes a free id; a decrement
lowers DCNT, and at 0 a WAITING task is READY. -/
def Obligations.FrontierEvents : Prop :=
  ∀ (s : State),
    (∀ (die : BitVec 3) (x : Sweep) (c q idx : Nat) (d : Vd), s.fireTurn die.toNat = some (x, c, q) → s.vd x.vd = some d →
      s.freeIdx x.vd d = some idx → x.desc.getD 5 0 = 0 →
      let g := geoOf x.desc
      let k := tgetD x.cols c Col.reset
      let w4 := x.desc.getD 4 0
      let u := s.bump.modSweep x.vd x.swid fun x => { x with cols := tset x.cols c { k with i := k.i ||| (1#33 <<< (q - k.h)) } }
      let u := ({ u with dies := tset u.dies die.toNat { tgetD u.dies die.toNat Die.reset with lastFired := some (x.vd, x.swid.toNat) } } : State)
      let t := Task.fresh x.vd idx 0 (descPri x.desc) 0 die.toNat x.swid (pointWord (g.pointOf c q)) (fld w4 48 8)
      exec (.pointFire die) s = .next ((u.clipped x.vd (descScope x.desc)).createTask t ((w4.extractLsb' 0 48).setWidth 64 + 4)
        ((List.range 5).map fun i => x.desc.getD (8 + i) 0)) ∧ t.kind = 0 ∧ t.smode = false ∧ t.state = .ready ∧ t.home = die.toNat) ∧
    (∀ die : BitVec 3, s.fireTurn die.toNat = none → exec (.pointFire die) s = .next s) ∧
    (∀ (i : Nat) (e : Edge), s.fr.edges[i]? = some e →
      ((∀ (j : Nat) (y : Edge), j < i → s.fr.edges[j]? = some y → ¬ (y.src = e.src ∧ y.dst = e.dst)) → ∃ t, exec (.edgeMessage i) s = .next t ∧
        t.fr.edges = dropAt s.fr.edges i ∧ SameMemory s t ∧ t.vds = s.vds ∧ t.cores = s.cores ∧ t.fr.tasks = s.fr.tasks ∧
        t.fr.sweeps = s.fr.sweeps.map fun x =>
          if x.key = e.key then { x with ghosts := tset x.ghosts (65536 * e.dst + e.col) { h := e.h, w := e.w, i := 0 } } else x) ∧
      ((∃ (j : Nat) (y : Edge), j < i ∧ s.fr.edges[j]? = some y ∧ y.src = e.src ∧ y.dst = e.dst) → exec (.edgeMessage i) s = .next s)) ∧
    (∀ (i : Nat) (a : GAdd), s.fr.gadds[i]? = some a → ∃ t, exec (.gateAddition i) s = .next (t.endSweep? a.fin) ∧
      t.fr.gadds = dropAt s.fr.gadds i ∧ SameMemory s t ∧ t.vds = s.vds ∧ t.cores = s.cores ∧ t.fr.tasks = s.fr.tasks ∧
      t.fr.sweeps.length = s.fr.sweeps.length ∧ ∀ (j : Nat) (x : Sweep), s.fr.sweeps[j]? = some x → ∃ y, t.fr.sweeps[j]? = some y ∧
        y.gate a.die a.face = (if x.key = a.key then min 65535 (x.gate a.die a.face + a.amount) else x.gate a.die a.face) ∧
        (∀ k, k ≠ 8 * a.die + a.face → tget y.gates k = tget x.gates k) ∧ { y with gates := x.gates } = x) ∧
    s.endSweep? none = s ∧
    (∀ (key : Nat) (x : Sweep), (s.fr.sweeps.find? fun x => x.key == key) = some x →
      s.endSweep? (some key) = if x.acted = true ∧ s.delivering x = false then s.freeSweep x.vd x.swid else s) ∧
    (∀ (vd : BitVec 8) (w : WaitSweep) (id : BitVec 12), (s.fr.waiting.find? fun x => x.vd == vd.toNat) = some w → s.works vd.toNat = true →
      s.freeSweepId vd.toNat = some id → ∃ t, exec (.sweepIdAssign vd) s = .next t ∧
        t.fr.waiting = dropFirst (fun x => x.vd == vd.toNat) s.fr.waiting ∧
        t.fr.sweeps = s.fr.sweeps ++ [Sweep.fresh s.fr.nextSweep vd.toNat id w.desc w.src] ∧ t.fr.nextSweep = s.fr.nextSweep + 1 ∧ SameMemory s t ∧ t.vds = s.vds ∧ t.cores = s.cores ∧
        t.fr.tasks = s.fr.tasks) ∧
    (∀ (i : Nat) (d : Dec), s.fr.decs[i]? = some d → ∃ t, exec (.decrement i) s = .next t ∧
      t = ((s.modFr fun f => { f with decs := dropAt f.decs i }).applyDec d.vd d.va).endSweep? d.fin) ∧
    ∀ (v va k : Nat) (x : Task), s.keyOfVa v va = some k → s.task k = some x → x.state ≠ .done → x.dcnt ≠ -32768 → twf s.fr.tasks = true →
      ∃ y, (s.applyDec v va).task k = some y ∧ y.dcnt = x.dcnt - 1 ∧
        y.state = if x.state = .waiting ∧ x.dcnt - 1 = 0 then .ready else x.state

/-- The dispatchers and planes (R19, R30, R32, R34, R242): a READY task is staged on the next core that can take it, or killed where its
record is marked CX; a core swaps its planes when it may, and only then; a PARKED task whose plane is wanted is spilled with NEXT at its own
instruction; in a freeze its bookings go first; a task that runs is not spilled. -/
def Obligations.DispatchEvents : Prop :=
  ∀ (s : State),
    (∀ (die : BitVec 3) (c key : Nat) (p : BitVec 1) (t : Task), s.stageTurn die.toNat = some (c, key, p) → s.task key = some t →
      let u := ({ s with dies := tset s.dies die.toNat { tgetD s.dies die.toNat Die.reset with lastCore := c % 128 } } : State)
      exec (.taskStage die) s = .next (if t.cx = true then u.killTask key 17
        else (u.loadTask c p key).wantLine c ((u.loadTask c p key).vdOf c p) (lineOf ((u.loadTask c p key).plane c p).pc))) ∧
    (∀ die : BitVec 3, s.stageTurn die.toNat = none → exec (.taskStage die) s = .next s) ∧
    (∀ core : BitVec 10,
      (s.maySwap core.toNat = true → ∃ t, exec (.planeSwap core) s = .next t ∧ (t.core core.toNat).act = (s.core core.toNat).act + 1 ∧
        (t.core core.toNat).p0 = (s.core core.toNat).p0 ∧ (t.core core.toNat).p1 = (s.core core.toNat).p1 ∧ SameMemory s t ∧ t.fr = s.fr ∧
        t.vds = s.vds) ∧
      (s.maySwap core.toNat = false → exec (.planeSwap core) s = .next s)) ∧
    (∀ (core : BitVec 10) (p : BitVec 1) (key n : Nat) (t : Task) (d : Vd), s.taskOf core.toNat p = some (key, t) → s.vd t.vd = some d →
      t.state = .parked → d.halt.isNone = true → (s.plane core.toNat p).onlyParked = true →
      (d.freeze = none → s.planeWanted core.toNat p = true → s.freeSlot t.vd d = some n →
        exec (.spill core p) s = .next (s.spillParked core.toNat p key t.vd n false)) ∧
      (d.freeze = none → s.planeWanted core.toNat p = false → exec (.spill core p) s = .next s)) ∧
    (∀ (core : BitVec 10) (p : BitVec 1) (key : Nat) (t : Task) (d : Vd), s.taskOf core.toNat p = some (key, t) → s.vd t.vd = some d →
      d.freeze = none → t.state ≠ .parked → exec (.spill core p) s = .next s) ∧
    (∀ (c key n : Nat) (p : BitVec 1) (f : Bool) (v : Nat) (u : State),
      ((s.bump.parkFrame c p key).count v 3 6 1).spillTo c p n (((s.bump.parkFrame c p key).count v 3 6 1).plane c p).pc = (none, u) →
      s.spillParked c p key v n f = u.modTask key fun t => if t.kept.isSome = true then { t with lanes := [] } else t) ∧
    ∀ (core : BitVec 10) (p : BitVec 1) (key n : Nat) (t : Task) (d : Vd), s.taskOf core.toNat p = some (key, t) → s.vd t.vd = some d →
      t.state = .parked → d.halt = none → d.freeze.isSome = true → s.bk.bookings = [] →
      (s.plane core.toNat p).onlyParked = true → s.freeSlot t.vd d = some n →
      exec (.spill core p) s = .next (s.spillParked core.toNat p key t.vd n true)

/-! ## Events of accesses: walks, homes, answers, line fills, fault requests -/

/-- An access at its home, and its end (R60, R97, R98, R102, R204, R206, R214, R215, R237, R239, R240, R252, R253, R258): a translated element is
looked up, and on a miss waits for its die's walk of the page, whose end gives it its place; a store, a load and an atomic perform at a home
agent, whose channel group has room, or at a peer core's memory, when their turn has come; a split operation there reads, then writes; a
write to a migrating frame is held; a performed load's result, a performed posted store's acknowledgement, take it out of its class count. -/
def Obligations.AccessEvents : Prop :=
  ∀ (s : State) (core : BitVec 10) (p : BitVec 1) (acc el : Nat),
    let c := core.toNat
    let performs (u : State) (bs : List Byte) : State := u.modElem c p acc el fun e => { e with st := .performed, res := bs }
    (∀ a e, s.elemOf c p acc el = some (a, e) → a.id = acc →
      (e.st = .translating →
        (∀ t u, s.tcLook c (s.vdOf c p) e.start a.kind.ty = (some (.ok t), u) → exec (.walk core p acc el) s =
          .next (u.modElem c p acc el fun e => { e with loc := some (.hbm (t.dpa e.start)), st := .ready })) ∧
        ∀ u, s.tcLook c (s.vdOf c p) e.start a.kind.ty = (none, u) → exec (.walk core p acc el) s =
          .next ((u.joinWalk c (u.vdOf c p) e.start).modElem c p acc el fun e => { e with st := .walking })) ∧
      (e.st = .walking →
        let w := ((s.die (dieOf c)).walks.take 64).find? (Walk.of (s.vdOf c p) ((hbmVa e.start).toNat / 65536))
        (w = none → exec (.walk core p acc el) s = .next s) ∧
        ∀ w', w = some w' → s.walkers (dieOf c) w' = [(c, p, acc, el)] → ∀ t u, s.walkRun (s.vdOf c p) e.start a.kind.ty = (.ok t, u) →
          let v := (if w'.fill = true then u.modCore c fun k => { k with tc := tcPut k.tc t } else u).modElem c p acc el
            fun e => { e with loc := some (.hbm (t.dpa e.start)), st := .ready }
          exec (.walk core p acc el) s =
            .next ((v.modDie (dieOf c) fun d => { d with walks := dropFirst (Walk.of w'.vd w'.page) d.walks }).startWalks (dieOf c))) ∧
      (e.st ≠ .translating → e.st ≠ .walking → exec (.walk core p acc el) s = .next s) ∧
      (∀ dpa, e.loc = some (.hbm dpa) → s.turnAt c p a el e = true → s.looseRoom (cgCal dpa) e.len = true →
        let v := s.spend (cgCal dpa) e.len
        (v.hbm = s.hbm ∧ v.cores = s.cores ∧ v.fr = s.fr) ∧
        ((a.kind.writes = true → s.hbm.migOf dpa = none) →
          (∀ u, a.kind = .st → v.homeWrite dpa (mergeBytes e.mask (memBytes s.hbm.mem dpa e.len) e.data) true = some u →
            exec (.homeAgentAccess core p acc el) s = .next (performs u [])) ∧
          (∀ d sx bs u, a.kind = .ld d sx → v.homeRead dpa e.len = (some bs, u) →
            exec (.homeAgentAccess core p acc el) s = .next (performs u bs)) ∧
          (∀ d aop bs u w, a.kind = .amo d aop → v.homeRead dpa e.len = (some bs, u) →
            u.homeWrite dpa (wordBytes (amoNew aop (leWord bs) (leWord e.data))) false = some w →
            exec (.homeAgentAccess core p acc el) s = .next (performs w bs)) ∧
          ∀ d bs u, a.kind = .cas d → v.homeRead dpa e.len = (some bs, u) →
            (bs ≠ e.data.take 8 → exec (.homeAgentAccess core p acc el) s = .next (performs u bs)) ∧
            ∀ w, bs = e.data.take 8 → u.homeWrite dpa (e.data.drop 8) false = some w →
              exec (.homeAgentAccess core p acc el) s = .next (performs w bs)) ∧
        ∀ i, s.hbm.migOf dpa = some i → a.kind.writes = true →
          (s.hbm.heldFull i = false → ∃ t, exec (.homeAgentAccess core p acc el) s = .next t ∧ t.hbm.mem = s.hbm.mem ∧
            t.hbm.migs = modAt s.hbm.migs i fun m => { m with held := m.held ++ [.elem c p.toNat acc el] }) ∧
          (s.hbm.heldFull i = true → exec (.homeAgentAccess core p acc el) s = .next s)) ∧
      (∀ dpa, e.loc = some (.hbm dpa) → (s.turnAt c p a el e = false ∨ s.looseRoom (cgCal dpa) e.len = false) →
        exec (.homeAgentAccess core p acc el) s = .next s) ∧
      ∀ k o, e.loc = some (.spad k o) → e.peer = true →
        (e.st = .half → ∀ d aop, a.kind = .amo d aop → exec (.peerAccess core p acc el) s =
          .next (performs (s.coreWrite (.spad k o) (wordBytes (amoNew aop (leWord e.res) (leWord e.data)))) e.res)) ∧
        (s.turnAt c p a el e = true → e.st ≠ .half →
          (∀ d aop, a.kind = .amo d aop → s.splitAt (.spad k o) = false → exec (.peerAccess core p acc el) s =
            .next (s.modElem c p acc el fun e => { e with st := .half, res := memBytes (s.core k).spad o e.len })) ∧
          ((s.core k).spad.wf = true →
            (∀ d sx, a.kind = .ld d sx → ∃ t, exec (.peerAccess core p acc el) s = .next t ∧
              t = performs (s.readSect (s.vdOf c p) k o e.len) (memBytes (s.core k).spad o e.len)) ∧
            (a.kind = .st → ∃ t, exec (.peerAccess core p acc el) s = .next t ∧ (∀ x, memRead t.hbm.mem x = memRead s.hbm.mem x) ∧
              (∀ j, j < e.data.length → j < e.len → memRead (t.core k).spad (o + j) =
                if e.mask.getLsbD j then e.data.getD j 0 else memRead (s.core k).spad (o + j)) ∧
              ∀ x, (x < o ∨ o + e.data.length ≤ x) → memRead (t.core k).spad x = memRead (s.core k).spad x)))) ∧
    (∀ a, (s.plane c p).access acc = some a → a.performed = true →
      (a.kind.inLdc = true → a.kind.byInstr = false → ∃ t, exec (.loadResult core p acc) s = .next t ∧ SameMemory s t ∧
        (t.plane c p).acc = ((s.plane c p).acc.filter fun b => b.id != a.id) ∧ (t.plane c p).oc.ldc = (s.plane c p).oc.ldc - 1 ∧
        (t.plane c p).pc = (s.plane c p).pc ∧ (t.plane c p).sr = (s.plane c p).sr ∧
        ∀ d e, (a.kind = .cas d ∨ ∃ aop, a.kind = .amo d aop) → a.elems = [e] → ∀ r,
          (t.plane c p).rg r = if r = 0 then 0 else if r = d then leWord e.res else (s.plane c p).rg r) ∧
      (a.kind.isStore = true → a.posted c = true → ∃ t, exec (.postedWriteAck core p acc) s = .next t ∧ SameMemory s t ∧
        (t.plane c p).acc = ((s.plane c p).acc.filter fun b => b.id != a.id) ∧ (t.plane c p).oc.stc = (s.plane c p).oc.stc - 1 ∧
        (t.plane c p).regs = (s.plane c p).regs ∧ (t.plane c p).pc = (s.plane c p).pc)) ∧
    ∀ a, (s.plane c p).access acc = some a → a.performed = false →
      exec (.loadResult core p acc) s = .next s ∧ exec (.postedWriteAck core p acc) s = .next s

/-- Line fills, the fault request ring and its replies (R99, R111, R244, R245, R246): the line a plane holds for enters the line store first, as does the
first line that its core fetches ahead (R111); the first request that waits is written to the ring at RQT, and RQT goes on by one, unless the ring is full; a reply at the head is consumed and
acts on the request it names, retried where CODE is 0 and failed where it is 1; one that names no request counts as stray. -/
def Obligations.RingEvents : Prop :=
  ∀ (s : State) (v : BitVec 8),
    (∀ (core : BitVec 10) (p : BitVec 1) (line : Word) (key : Nat) (t : Task), (s.plane core.toNat p).hold = some (.fill line) →
      s.taskOf core.toNat p = some (key, t) →
      ((s.core core.toNat).findLine t.vd line = none → ∀ e u bs w, s.trNow core.toNat t.vd line .fetch = (.ok e, u) →
        u.homeRead (e.dpa line) 64 = (some bs, w) → ∃ x, exec (.lineFill core p) s = .next x ∧ SameMemory w x ∧ x.fr = w.fr ∧ x.vds = w.vds ∧
          (x.core core.toNat).lines = { vd := t.vd, addr := line, words := iwordsOf bs 16 } ::
            (let old := (w.core core.toNat).lines
            let keep := w.certain core.toNat 0 ++ w.certain core.toNat 1
            if old.length < 1024 then old else (dropFirst (fun l => !(keep.contains (l.vd, l.addr))) old.reverse).reverse)) ∧
      ((s.core core.toNat).findLine t.vd line ≠ none → exec (.lineFill core p) s = .next s)) ∧
    (∀ (core : BitVec 10) (p : BitVec 1), (∀ line, (s.plane core.toNat p).hold ≠ some (.fill line)) →
      ((s.core core.toNat).want = [] → exec (.lineFill core p) s = .next s) ∧
      ∀ x line rest, (s.core core.toNat).want = (x, line) :: rest →
        let u := s.modCore core.toNat fun k => { k with want := rest.filter fun w => w != (x, line) }
        ((s.core core.toNat).findLine x line ≠ none ∨ inHbmWindow line = false → exec (.lineFill core p) s = .next u) ∧
        ((s.core core.toNat).findLine x line = none → inHbmWindow line = true → ∀ e v bs w, u.trNow core.toNat x line .fetch = (.ok e, v) →
          v.homeRead (e.dpa line) 64 = (some bs, w) → exec (.lineFill core p) s = .next (w.putLine core.toNat { vd := x, addr := line, words := iwordsOf bs 16 }))) ∧
    (∀ (d : Vd) (r : FReq) (w : Word) (u : State), s.vd v.toNat = some d → (s.hbm.freqs.find? fun r => r.vd == v.toNat && !r.posted) = some r →
      s.sureWord v.toNat (d.d.fcb + 24) = (some w, u) →
      (2 ^ d.d.lgn ≤ (d.rqt - w.setWidth 32).toNat → exec (.faultPost v) s = .next u) ∧
      ∀ x y, (d.rqt - w.setWidth 32).toNat < 2 ^ d.d.lgn →
        u.mustWrite v.toNat (d.d.rqb + 32 * (d.rqt.toNat % 2 ^ d.d.lgn))
          [r.va, BitVec.ofNat 64 r.task, BitVec.ofNat 64 (2 ^ 60 * r.kind + 2 ^ 56 * r.acc + 2 ^ 54 * r.lvl + d.rqt.toNat), BitVec.ofNat 64 r.bkh] =
          (true, x) →
        x.mustWrite v.toNat (d.d.fcb + 16) [(d.rqt + 1).setWidth 64] = (true, y) → d.d.pfut = 0 → d.d.hnot = 0 →
        exec (.faultPost v) s = .next ((((y.modHbm fun h =>
          { h with freqs := h.freqs.map fun x => if FReq.same r.vd r.page r.kind x then { x with rid := d.rqt, posted := true } else x }).modVd
            v.toNat fun d' => { d' with rqt := d.rqt + 1 }).count v.toNat 3 2 1))) ∧
    (∀ (w : Word) (u : State), (s.pollTail v.toNat).headReply v.toNat = (some w, u) →
      (u.repliedTo v.toNat w = none → exec (.ringPoll v) s = .next ((u.tookReply v.toNat).count v.toNat 3 5 1)) ∧
      ((u.repliedTo v.toNat w).isSome = true → exec (.ringPoll v) s = .next u) ∧
      (w.getLsbD 63 = false → ∀ r, (u.tookReply v.toNat).repliedTo v.toNat w = some r →
        (w.getLsbD 62 = false → exec (.replyRetry v .ring) s = .next ((u.tookReply v.toNat).replyTo r false)) ∧
        (w.getLsbD 62 = true → exec (.replyFail v .ring) s = .next ((u.tookReply v.toNat).replyTo r true)))) ∧
    (∀ u, (s.pollTail v.toNat).headReply v.toNat = (none, u) → exec (.ringPoll v) s = .next u) ∧
    ∀ (i : Nat) (r : FReq), (s.hbm.freqs.filter fun r => r.vd == v.toNat && decide (3 ≤ r.kind))[i]? = some r → (s.served v.toNat).isSome = true →
      exec (.replyRetry v (.firmware i)) s = .next (s.replyTo r false) ∧ exec (.replyFail v (.firmware i)) s = .next (s.replyTo r true)

/-! ## Halts, freezes, world switches, migrations, engine events -/

/-- Halts, freezes and migrations (R13, R37, R252, R253, R266, R280, R282, R285, R288): a held task takes a pending fault; a unit that the
halt line has reached is entered among the stopped; the 17 sensors (notes/assumptions/97.md) are read once every 4,096 slots, and one at 105
degrees halts every running VD with reason THERMAL and trips the package; a task still issued FLIM slots after a freeze began is killed; a
saved VD may take the hanks that another leaves; a migration whose blocks are copied has its entries written for the new frame, one that fails
for the old, and ends once the invalidation has waited for what used them. -/
def Obligations.DeviceEvents : Prop :=
  ∀ (s : State),
    (∀ (core : BitVec 10) (p : BitVec 1) (key : Nat) (t : Task), s.taskOf core.toNat p = some (key, t) → t.faults ≠ [] →
      s.planeStopped core.toNat p = false → (s.plane core.toNat p).trap = none →
      (t.state = .held → exec (.asyncFaultTaken core p) s = .next (s.takeAsync core.toNat p)) ∧
      (t.state ≠ .held → exec (.asyncFaultTaken core p) s = .next s)) ∧
    (∀ (v : BitVec 8) (u : HaltUnit) (d : Vd) (h : Halt), s.vd v.toNat = some d → d.halt = some h → (s.unitsOf v.toNat).contains u = true →
      h.stopped.contains u = false → d.steppingOn u = false → (s.power = .run ∨ s.power = .tripped) → ∃ t, exec (.unitStop v u) s = .next t ∧
        t = s.stopUnit v.toNat d h u ∧ (h.fatal = false →
          SameMemory s t ∧ t.vd v.toNat = some { d with halt := some { h with stopped := h.stopped ++ [u] } })) ∧
    (∀ temps : List Nat,
      (s.power = .run → temps.length = 17 → (∀ t, s.fw.polled = some t → t + 4096 ≤ s.now) →
        ((∃ x ∈ temps, 105 ≤ x) → ∃ t, exec (.thermalPoll temps) s = .next t ∧ t.power = .tripped ∧ t.fw.polled = some s.now ∧ SameMemory s t ∧
          ∀ v d, s.vd v = some d → d.run = true → d.halt = none → ∃ d' h, t.vd v = some d' ∧ d'.halt = some h ∧ h.reason = 5 ∧ h.fatal = true) ∧
        ((∀ x ∈ temps, x < 105) → exec (.thermalPoll temps) s = .next { s with fw := { s.fw with polled := some s.now } })) ∧
      ((s.power ≠ .run ∨ temps.length ≠ 17 ∨ ∃ t, s.fw.polled = some t ∧ s.now < t + 4096) → exec (.thermalPoll temps) s = .next s)) ∧
    (∀ (v : BitVec 8) (d : Vd), s.vd v.toNat = some d → s.power = .run → d.run = true → d.halt = none → d.freeze = none → d.unsave = false →
      let u := ((s.modVd v.toNat fun d => { d with freeze := some { start := s.now, saved := false }, retmpl := [] }).count v.toNat 5 3 1).modFr
        fun f => { f with sweeps := f.sweeps.map fun x => if x.vd == v.toNat && x.st == .running then { x with st := .freezing } else x }
      let w := (u.tasksOf v.toNat).foldl State.freezeTask (u.freezeReqs v.toNat)
      exec (.freeze v) s = .next (w.modVd v.toNat fun d => { d with retmpl := d.retmpl.filter fun k => (w.task k).isSome })) ∧
    (∀ (key : Nat) (t : Task) (d : Vd) (f : Freeze), s.task key = some t → s.vd t.vd = some d → d.freeze = some f → f.saved = false →
      d.halt = none → (t.state = .active ∨ t.state = .held ∨ t.state = .staged) →
      (f.start + d.d.flim ≤ s.now → exec (.flimKill key) s = .next ((s.killTask key 17).count t.vd 5 5 1)) ∧
      (s.now < f.start + d.d.flim → exec (.flimKill key) s = .next s)) ∧
    (∀ (v : BitVec 8) (d : Vd) (f : Freeze), s.vd v.toNat = some d → d.freeze = some f → f.saved = false → d.halt = none →
      s.quiet v.toNat = true → s.power = .run →
      let u := ((s.tasksOf v.toNat).foldl State.voidOwned (s.freezeReqs v.toNat)).flushStats v.toNat 2 true
      (u.vd v.toNat).map (fun d => d.stats) = some [] →
      (∀ w, saveSweeps u (u.sweepsOf v.toNat) = (false, w) → exec (.freezeSave v) s = .next (w.unsaveable v.toNat)) ∧
      ∀ w x, saveSweeps u (u.sweepsOf v.toNat) = (true, w) → w.quietWrite v.toNat d.d.csa ((w.banks v.toNat).flatMap wordBytes) = (none, x) →
        exec (.freezeSave v) s = .next (x.modVd v.toNat fun d => { d with freeze := some { f with saved := true }, savedTasks := x.tasksOf v.toNat })) ∧
    (∀ (o i : BitVec 8) (d : Vd), s.vd i.toNat = some d → s.power = .run → s.mayLeave o.toNat = true → d.run = false → d.halt = none →
      d.unsave = false → (∀ f, d.freeze = some f → f.saved = true) →
      let t := if (match s.vd o.toNat with | some x => x.run | none => false) = true then s.leaveHanks o.toNat else s
      (∀ h ∈ d.d.hanks, t.hankFree i.toNat h = true) →
      let u := d.d.hanks.foldl (fun t h => t.takeHank i.toNat h) t
      let w := (u.rootHome i.toNat).modVd i.toNat fun d => { d with run := true }
      exec (.worldSwitch o i) s = .next (if d.freeze.isSome then w.restoreVd i.toNat d else w)) ∧
    ∀ (i : Nat) (m : Mig), s.hbm.migs[i]? = some m →
      let u := s.modHbm fun h => h.takeCtrs m.f m.g
      (m.st ≠ .copying → exec (.migrationCopyEnd i) s = .next s ∧ exec (.migrationCopyFail i) s = .next s) ∧
      (m.st = .copying →
        (∀ w, u.copyBlocks m.f m.g (List.range 1024) = (true, w) →
          exec (.migrationCopyEnd i) s = .next ((w.dropLeaves m.f m.g).migInval i m m.g false .last)) ∧
        (∀ w, u.copyBlocks m.f m.g (List.range 1024) = (false, w) →
          exec (.migrationCopyEnd i) s = .next ((w.mismatch (65536 * m.f) m.vd (BitVec.ofNat 64 (65536 * m.page))).migInval i m m.f false .undo)) ∧
        exec (.migrationCopyFail i) s = .next (s.migInval i m m.f false .undo)) ∧
      (m.waits.all s.accSettled = false → s.migOn i = s) ∧
      (m.waits.all s.accSettled = true → (m.st = .last → s.migOn i = s.endMig i m m.f m.g) ∧ (m.st = .undo → s.migOn i = s.endMig i m m.g m.f) ∧
        (m.st = .first → (s.migOn i).hbm.migs = modAt s.hbm.migs i fun m => { m with st := .copying, waits := [] }))

/-- The engine and calendar events (R87, R162, R163, R183, R194, R195, R197, R373): the matrix operation whose turn it is begins or does one
boundary; MBRD_READY writes its register; a copy does the next piece of its entry, or is faulted by it; what has finished completes and its class counter
falls; a slot boundary advances the slot. -/
def Obligations.EngineEvents : Prop :=
  ∀ (s : State) (core : BitVec 10),
    let c := core.toNat
    (∀ o, s.mxTurn c = some o → s.mxMay c o = true →
      (o.c.st = .waiting → exec (.kStep core) s = .next (s.beginMx c)) ∧
      (o.c.st ≠ .waiting → exec (.kStep core) s = .next (s.mxBoundary c o)) ∧
      ∀ row seg ty v rm, o.kind = .mbrd row seg ty v rm → o.c.st = .running →
        let e := 1024 / tyWidth ty.toNat
        s.cmdClear c o.c (.bobbin c (entryOff o.tile row (seg * e))) (8 * e) = true → (s.plane c o.c.plane).task = some o.c.task →
        ∃ t, exec (.mbrdReady core) s = .next t ∧ (t.core c).bobbin = (s.core c).bobbin ∧ (t.core c).spad = (s.core c).spad ∧
          (∀ r, (t.plane c o.c.plane).rv r = if r = v then
            ofElems (tyWidth ty.toNat) (drainRow (s.core c) o.tile rm.toNat (o.en.getLsbD 3) false ty.toNat row (seg * e) e).1
            else (s.plane c o.c.plane).rv r) ∧ ∀ r, (t.plane c o.c.plane).rg r = (s.plane c o.c.plane).rg r) ∧
    (s.mxTurn c = none → exec (.kStep core) s = .next s ∧ exec (.mbrdReady core) s = .next s) ∧
    (∀ o, s.mxDone c = some o → exec (.matrixComplete core) s = .next (if s.unitRuns o.c.vd (mxUnit c) = true then s.mxComplete c o else s)) ∧
    (∀ o, s.cpDone c = some o → s.unitRuns o.c.vd (cpUnit c) = true → ∃ t, exec (.copyComplete core) s = .next t ∧
      t = s.cpComplete c o ∧ (o.c.bk = 0 → (t.core c).cp = (s.core c).cp.filter fun x => x.c.id != o.c.id) ∧
      (o.c.bk = 0 → (s.plane c o.c.plane).task = some o.c.task → o.flags &&& o.en = 0 → (t.plane c o.c.plane).oc.cpc = (s.plane c o.c.plane).oc.cpc - 1 ∧
        (o.c.endState ≠ 6 → (t.plane c o.c.plane).sr.fps = (s.plane c o.c.plane).sr.fps ||| (o.flags &&& 0x1F)) ∧
        ∀ tag, o.tag = some tag → (t.plane c o.c.plane).sr.tags.getLsbD tag.toNat = true)) ∧
    (∀ o, s.cpTurn c = some o → s.cpMay c o = true →
      (∀ line w e u v o', s.entryAt c o = (.ok (line, w, e), u) → v = u.modCp c o.c.id (fun o => { o with c := { o.c with st := .running } }) →
        v.cpOp c o.c.id = some o' →
        (∀ tag, e = .tag tag → exec (.chainTag core) s = .next ((v.entryDone c o' line w 1).setTag c o'.c tag)) ∧
        (e = .fin → o'.loop = none → exec (.chainEnd core) s = .next ((v.entryDone c o' line w 1).cpEnd c o')) ∧
        (e = .fin → o'.loop ≠ none → exec (.chainEnd core) s = .next (v.cpFault c o 1 line)) ∧
        (∀ k n si di, e = .loopc k n si di → o'.loop = none → n ≠ 0 →
          exec (.chainLoop core) s = .next ((v.entryDone c o' line w 1).modCp c o'.c.id fun o =>
            { o with loop := some { line := line, word := w, k := k, left := k, r := 0, n := n, sinc := si, dinc := di } })) ∧
        (∀ k cond x a bs y, e = .ifc k cond x a → a &&& 7#64 = 0#64 → o'.loop = none → v.gather c o' [.read a 8] = (.ok bs, y) →
          (ifcCond cond (leWord bs) x = true → exec (.chainIf core) s = .next (y.entryDone c o' line w 1)) ∧
          ∀ l' w' z, ifcCond cond (leWord bs) x = false → skipGo y c o' line w k = (.ok (l', w'), z) →
            exec (.chainIf core) s = .next (z.entryDone c o' l' w' (k + 1))) ∧
        ∀ ss ds rk dec len src dst, e = .copy ss ds rk dec len src dst →
          (∀ bs x, v.doCopy c o' ss ds rk dec len src dst = (.ok bs, x) → exec (.copyEntry core) s =
            .next (if o'.chain = true then x.entryDone c o' line w 1 else (x.entryDone c o' line w 1).cpEnd c o')) ∧
          (∀ x, v.doCopy c o' ss ds rk dec len src dst = (.stop, x) → exec (.copyEntry core) s = .next x) ∧
          ∀ code tv x, v.doCopy c o' ss ds rk dec len src dst = (.fault code tv, x) → exec (.copyEntry core) s = .next (x.cpFault c o code tv)) ∧
      ∀ code tv u, s.entryAt c o = (.error (.fault code tv), u) → exec (.copyEntry core) s = .next (u.cpFault c o code tv)) ∧
    (s.power = .run →
      let u := (({ s with slot := s.slot + 1 } : State).prunePeriods).newBudgets
      let cs := u.cores.map (·.1)
      let w := ((cs.foldl State.coreBoundary (cs.foldl State.freeSent u.freeSteps)).freezeDebt : State)
      let x := cs.foldl (fun s c => ((s.startHeld c 0).startHeld c 1).beginMx c) w
      exec .slotBoundary s = .next ((if x.bk.freed = true then x.backfill else x).modBk fun k => { k with freed := false }) ∧
        u.slot = s.slot + 1) ∧
    (s.power ≠ .run → exec .slotBoundary s = .next s)

/-! ## Booking events and Fliurn -/

/-- A message of a TYPE that this package takes now: its header is right, it names this node, and the VD that it names is defined here, spans
its sender, and is not halted, which holds all but TIME messages (R282, R311, R312). -/
def Sys2Proof.Claims.Comes (s : State) (m : FMsg) (type : Nat) (d : Vd) : Prop :=
  m.type = type ∧ msgOk m = true ∧ s.fab.node.isSome = true ∧ m.dst = s.node ∧ s.power = .run ∧ s.vd m.vd = some d ∧
    d.span.contains m.src = true ∧ (d.halt = none ∨ 24 ≤ type)

/-- The exchange between booking units (R67, R70, R71, R87): PREPARE places a tentative hold on the first candidate with room and sends GRANT, or
REFUSE with the next free slot; GRANT, REFUSE and CONFIRM reach their request; COMMIT turns its hold into a committed interval and sends
CONFIRM, or LOST where the hold is gone; ABORT frees the hold, CANCEL the interval, for the searches of the next slot on (R87); LOST fails the
commit. -/
def Obligations.BookingExchange : Prop :=
  ∀ (s : State) (i : Nat),
    let took := s.modBk fun k => { k with msgs := dropAt k.msgs i }
    let sends (u : State) (b : BMsg) : State := u.modBk fun k => { k with msgs := k.msgs ++ [b] }
    (∀ id j start len rate cands (r : BReq), s.bk.msgs[i]? = some (.prepare id j start len rate cands none) →
      (s.bk.reqs.find? fun r => r.id == id) = some r → (∀ k, k < i → s.bk.msgs[k]? ≠ some (.abort id j)) →
      let iv := s.bk.ivalsOf id r.task r.record
      (∀ cal, ((cands.filter s.calUp).find? fun cal => fitsIn true (iv cal) (calBudget cal) start len rate) = some cal →
        exec (.bookPrepare (.inner i)) s = .next (took.modBk fun k => { k with msgs := k.msgs ++ [.grant id j cal start], holds := k.holds ++
          [{ cal := cal, start := start, len := len, rate := rate, req := id, node := none, step := j, placed := s.now, senior := none, dead := false }] })) ∧
      (((cands.filter s.calUp).find? fun cal => fitsIn true (iv cal) (calBudget cal) start len rate) = none →
        exec (.bookPrepare (.inner i)) s = .next (sends took (.refuse id j
          (sortNat ((cands.filter s.calUp).filterMap fun cal => firstFit true (iv cal) (calBudget cal) start len rate (s.now + 4096))).head?)))) ∧
    (∀ id j cal start, s.bk.msgs[i]? = some (.grant id j cal start) →
      exec (.bookGrant (.inner i)) s = .next (took.answer id j (.grant cal start))) ∧
    (∀ id j h, s.bk.msgs[i]? = some (.refuse id j h) → exec (.bookRefuse (.inner i)) s = .next (took.answer id j (.refuse h))) ∧
    (∀ id j, s.bk.msgs[i]? = some (.confirm id j) → exec (.bookConfirm (.inner i)) s = .next (took.confirmed id j)) ∧
    (∀ id j, s.bk.msgs[i]? = some (.lost id j) → exec (.bookLost (.inner i)) s = .next (took.lost id)) ∧
    (∀ h j, s.bk.msgs[i]? = some (.cancel h j) → exec (.bookCancel (.inner i)) s = .next (took.cancelInner h j)) ∧
    (∀ id j h, s.bk.msgs[i]? = some (.commit id j h) →
      let mine (x : CHold) : Bool := x.req == id && x.node.isNone && x.senior.isNone && x.step == j && !x.dead
      let vd := ((s.bk.reqs.find? fun r => r.id == id).map (·.vd)).getD 0
      (∀ x, s.bk.holds.find? mine = some x → exec (.bookCommit (.inner i)) s = .next (sends (took.modBk fun k =>
        { k with holds := dropFirst mine k.holds, rints := k.rints ++
          [{ node := 4096, vd := vd, handle := h, step := x.step, cal := x.cal, start := x.start, len := x.len, rate := x.rate, dead := false }] }) (.confirm id j))) ∧
      (s.bk.holds.find? mine = none → exec (.bookCommit (.inner i)) s = .next (sends took (.lost id j)))) ∧
    (∀ id j, s.bk.msgs[i]? = some (.abort id j) → ∃ t, exec (.bookAbort (.inner i)) s = .next t ∧ t.bk.msgs = dropAt s.bk.msgs i ∧
      t.bk.holds = (s.bk.holds.map fun x =>
        if x.node = none ∧ x.senior = none ∧ x.req = id ∧ x.step = j then { x with dead := true } else x) ∧ t.bk.bookings = s.bk.bookings ∧
      t.bk.rints = s.bk.rints) ∧
    ∀ (m : FMsg) (d : Vd),
      (Comes s m 16 d → exec (.bookPrepare (.outer m)) s = .next (s.prepareOuter m)) ∧
      (Comes s m 17 d → exec (.bookGrant (.outer m)) s = .next (s.answer (m.rid / 8) (8 + m.rid % 8) (.grant (m.w2.setWidth 12).toNat m.w1.toNat))) ∧
      (Comes s m 18 d → exec (.bookRefuse (.outer m)) s = .next (s.answer (m.rid / 8) (8 + m.rid % 8)
        (.refuse (if m.w1 = BitVec.allOnes 64 then none else some m.w1.toNat)))) ∧
      (Comes s m 19 d → (s.bk.holds.find? fun h => h.node == some m.src && h.req == m.rid && !h.dead) = none →
        exec (.bookCommit (.outer m)) s = .next (s.bookMsg 22 m.src m.vd 0 (BitVec.ofNat 64 m.rid <<< 32) 0)) ∧
      (Comes s m 20 d → ∃ t, exec (.bookAbort (.outer m)) s = .next t ∧
        t.bk.holds = s.bk.holds.map fun x => if x.node = some m.src ∧ x.req = m.rid then { x with dead := true } else x) ∧
      (Comes s m 21 d → m.w3.extractLsb' 28 4 = 0#4 → ∃ t, exec (.bookCancel (.outer m)) s = .next t ∧ t.bk.holds = s.bk.holds ∧
        t.bk.rints = s.bk.rints.map fun x =>
          if x.node = m.src ∧ x.handle = (m.w3.setWidth 24).toNat ∧ x.step = (m.w3.extractLsb' 24 3).toNat then { x with dead := true } else x) ∧
      (Comes s m 22 d → exec (.bookLost (.outer m)) s = .next (s.lost (m.rid / 8))) ∧
      (Comes s m 23 d → exec (.bookConfirm (.outer m)) s = .next (s.confirmed (m.rid / 8) (8 + m.rid % 8)))

/-- The booking units' searches and clocks (R67, R69, R70, R71, R74, R79, R80, R86, R454): a search takes the next request of a free unit, a
template's retry comes at its slot, a tentative hold ends after 32 slots and a senior one after 64, an exchange without an answer fails after
32, a postponed request expires after 256 slots (cause 1) or past its deadline (cause 3), and a booked operation overruns at max(4 · DUR, 64)
slots, an unbooked one at 4,096. -/
def Obligations.BookingClocks : Prop :=
  ∀ (s : State),
    (∀ (die : BitVec 3) (r : BReq), s.searching die.toNat = false → s.power = .run → (∀ x ∈ s.bk.reqs, s.seniorStart x = none) →
      (s.bk.reqs.find? fun r => r.die == die.toNat && r.st == .queued) = some r →
      let s0 := if r.tmpl = true then r.s0 else s.now
      let r' := { r with s0 := s0, h0 := s.now, t := max (s0 + 1 + r.chain.early) (s.now + 1), rounds := 0, ans := [] }
      exec (.bookingSearch die) s = .next ((s.modReq r.id fun _ => r').tryReq r')) ∧
    (∀ die : BitVec 3, s.searching die.toNat = true → exec (.bookingSearch die) s = .next s) ∧
    (∀ (task : Nat) (r : BReq) (n : Nat), (s.bk.reqs.find? fun r => r.tmpl && r.task == task && r.st == .postponed) = some r → r.nextTry = some n →
      (n ≤ s.now → exec (.templateRetry task) s = .next (s.modReq r.id fun r => { r with st := .queued, nextTry := none })) ∧
      (s.now < n → exec (.templateRetry task) s = .next s)) ∧
    (∀ (i : Nat) (h : CHold), s.bk.holds[i]? = some h →
      let ends (e : Instr) (n : Nat) : Prop :=
        (h.placed + n ≤ s.now → ∃ t, exec e s = .next t ∧ t.bk.holds = dropAt s.bk.holds i ∧ t.bk.reqs = s.bk.reqs ∧ SameMemory s t ∧
          t.vds = s.vds ∧ t.cores = s.cores) ∧ (s.now < h.placed + n → exec e s = .next s)
      (h.senior = none → ends (.tentativeHoldExpiry i) 32) ∧ (h.senior ≠ none → ends (.seniorHoldExpiry i) 64) ∧
      (h.senior = none → exec (.seniorHoldExpiry i) s = .next s) ∧ (h.senior ≠ none → exec (.tentativeHoldExpiry i) s = .next s)) ∧
    (∀ (i : Nat) (r : BReq), s.bk.reqs[i]? = some r →
      (∀ sent, r.st = .preparing sent → sent + 32 < s.now → exec (.prepareTimeout i) s = .next ((s.abortAll r).refuseReq r 7 none)) ∧
      (∀ sent, r.st = .committing sent → sent + 32 < s.now → exec (.commitTimeout i) s = .next (s.commitFails r)) ∧
      (∀ sent, r.st = .committing sent → s.now ≤ sent + 32 → exec (.commitTimeout i) s = .next s) ∧
      (∀ first, r.st = .postponed → r.tmpl = false → r.firstRef = some first →
        (first + 256 ≤ s.now → exec (.postponedExpiry i) s = .next (s.expireReq r 1)) ∧
        (s.now < first + 256 → exec (.postponedExpiry i) s = .next s)) ∧
      (r.st = .postponed → r.tmpl = false → 0 < r.chain.deadline →
        let e := chainEnd (max s.now (r.s0 + 1 + r.chain.early)) none r.chain.steps
        (r.s0 + r.chain.deadline < e → exec (.deadlinePass i) s = .next (s.expireReq r 3)) ∧
        (e ≤ r.s0 + r.chain.deadline → exec (.deadlinePass i) s = .next s))) ∧
    ∀ (core : BitVec 10) (copy : Bool) (c : Cmd),
      (((s.liveCmds core.toNat copy).find? fun c => (match s.cmdStep c with | some (_, t) => decide (max (4 * t.dur) 64 < c.ran) | none => false)) =
          some c → exec (.overrun core copy) s = .next (s.overrunStop core.toNat copy c c.ran)) ∧
      (((s.liveCmds core.toNat copy).find? fun c => !(s.isBooked c) && decide (c.issued + 4096 ≤ s.now)) = some c →
        exec (.unbookedOverrun core copy) s = .next (s.overrunStop core.toNat copy c (s.now - c.issued))) ∧
      (c ∈ s.liveCmds core.toNat true ↔ ∃ o ∈ (s.core core.toNat).cp, o.c = c ∧ ¬ (c.st = .finished ∧ o.wait = false) ∧ c.ended = none) ∧
      (c ∈ s.liveCmds core.toNat false ↔ ∃ o ∈ (s.core core.toNat).mx, o.c = c ∧ ¬ (c.st = .finished ∧ o.acks = 0) ∧ c.ended = none)

/-- Fliurn messages (R311 to R316): an access request that this package takes is served and answered, and its response kept, while a
duplicate has the kept response sent again and performs nothing; a response closes the open request that it matches, which takes its bytes; a
NACK fails it; FAULTED stops its timer; TIME is answered with the slots of receipt and answer; a message of a VD that is not defined here or
does not span its sender is answered NACK code 1, one of a halted VD waits (R282), and one with a wrong header changes nothing. Integrity's NACK kind
is the model's (notes/assumptions/13.md). -/
def Obligations.FabricMessages : Prop :=
  ∀ (s : State) (m : FMsg),
    let forms : List (Instr × Nat) := [(.msgRead m, 1), (.msgWrite m, 3), (.msgAtomic m, 5), (.msgMdadd m, 7)]
    (∀ e ∈ forms, ∀ d, Comes s m e.2 d → (s.fab.kept.find? fun k => k.1 == m.src && k.2.1 == m.tid) = none → s.underWay m = false →
      exec e.1 s = .next ((s.serve m d).2.answerReq m (s.serve m d).1)) ∧
    (∀ e ∈ forms ++ [(.msgGate m, 8)], ∀ d k, Comes s m e.2 d → (s.fab.kept.find? fun k => k.1 == m.src && k.2.1 == m.tid) = some k →
      ∃ t, exec e.1 s = .next t ∧ t.fab.out = s.fab.out ++ [k.2.2.1] ∧ SameMemory s t ∧ t.fr = s.fr ∧ t.vds = s.vds ∧ t.cores = s.cores) ∧
    (∀ d, Comes s m 8 d → (s.fab.kept.find? fun k => k.1 == m.src && k.2.1 == m.tid) = none → s.underWay m = false →
      exec (.msgGate m) s = .next ((s.gateAdd none m.vd (m.w1.setWidth 12) (m.w1.extractLsb' 16 3).toNat (m.w1.extractLsb' 32 16).toNat).respond m
        (mkMsg 4 m.src s.node m.vd m.tid 0 0 0 0 []))) ∧
    (∀ e ∈ forms ++ [(.msgGate m, 8), (.msgRdata m, 2), (.msgAck m, 4), (.msgArsp m, 6), (.msgFaulted m, 9), (.msgTime m, 24), (.msgTimeRsp m, 25)],
      m.type = e.2 → msgOk m = true → s.fab.node.isSome = true → m.dst = s.node → s.power = .run → (∀ d, s.vd m.vd = some d → d.span.contains m.src = false) → ∃ t, exec e.1 s = .next t ∧
        t.fab.out = s.fab.out ++ [mkMsg 10 m.src s.node m.vd m.tid 1 0 0 0 []] ∧ SameMemory s t ∧ t.fr = s.fr ∧ t.vds = s.vds) ∧
    (∀ e ∈ forms ++ [(.msgGate m, 8), (.msgRdata m, 2), (.msgAck m, 4), (.msgArsp m, 6), (.msgFaulted m, 9), (.msgNack m, 10), (.msgTime m, 24),
      (.msgTimeRsp m, 25)], (m.type ≠ e.2 ∨ msgOk m = false ∨ m.dst ≠ s.node) → exec e.1 s = .next s) ∧
    (∀ (d : Vd) (r : OpenReq), s.openOf m.src m.tid = some r →
      (Comes s m 2 d → r.msg.type = 1 → m.data.length = reqSpan r.msg → exec (.msgRdata m) s = .next ((s.closeReq r).took r m.data)) ∧
      (Comes s m 4 d → (r.msg.type = 3 ∨ r.msg.type = 7 ∨ r.msg.type = 8) → exec (.msgAck m) s = .next ((s.closeReq r).took r [])) ∧
      (Comes s m 6 d → r.msg.type = 5 → exec (.msgArsp m) s = .next ((s.closeReq r).took r (wordBytes m.w1))) ∧
      (Comes s m 9 d → ∃ t, exec (.msgFaulted m) s = .next t ∧ t.fab.opens =
        s.fab.opens.map fun x => if x.node == r.node && x.tid == r.tid then { x with stopped := true } else x) ∧
      (Comes s m 10 d → exec (.msgNack m) s =
        .next (s.reqFails r (if m.w1.setWidth 8 = 2#8 then (if (m.w2.setWidth 4).toNat = 5 then 16 else (m.w2.setWidth 4).toNat) else 1)))) ∧
    (∀ (d : Vd) (h : Halt), ∀ e ∈ forms ++ [(.msgGate m, 8), (.msgRdata m, 2), (.msgAck m, 4), (.msgArsp m, 6), (.msgFaulted m, 9), (.msgNack m, 10)],
      m.type = e.2 → msgOk m = true → s.fab.node.isSome = true → m.dst = s.node → s.power = .run → s.vd m.vd = some d →
      d.span.contains m.src = true → d.halt = some h → exec e.1 s = .next (s.heldFlit m h)) ∧
    (∀ d, Comes s m 24 d → ∃ t, exec (.msgTime m) s = .next t ∧
      t.fab.out = s.fab.out ++ [mkMsg 25 m.src s.node m.vd m.tid m.w1 s.slot s.slot 0 []]) ∧
    ∀ (d : Vd) (o : Offset), Comes s m 25 d →
      tget s.fab.offs m.src = some o → o.probe = some m.w1.toNat → ∃ t o', exec (.msgTimeRsp m) s = .next t ∧ tget t.fab.offs m.src = some o' ∧
        o'.probe = none ∧
        (4 < (s.now : Int) - m.w1.toNat - ((m.w3.toNat : Int) - m.w2.toNat) → o'.o = o.o ∧ o'.validAt = o.validAt) ∧
        ((s.now : Int) - m.w1.toNat - ((m.w3.toNat : Int) - m.w2.toNat) ≤ 4 → o'.validAt = s.now ∧
          ∃ h, o'.o = some h ∧ (2 * h - (((m.w2.toNat : Int) - m.w1.toNat) + ((m.w3.toNat : Int) - s.now))).natAbs ≤ 1)

/-- Fliurn's transport (R309, R310, R314, R316): an open request unanswered for 256 slots is sent again, at most 8 times, then fails; a kept
response goes after 4,096 slots; a request that waits takes a free id; TIME goes to a node of a span every 4,096 slots; an offset is not
valid after 65,536 slots; one frame is sent again, and the sixteenth time in a row the port goes down; a port that has trained sends TIME,
and is up with its answer, or at once where no span has another node (notes/assumptions/45.md). -/
def Obligations.FabricTransport : Prop :=
  ∀ (s : State),
    (∀ (i : Nat) (r : OpenReq), s.fab.opens[i]? = some r →
      (r.stopped = false → r.sent + 256 ≤ s.now → s.flitsHeld r.msg.vd = false →
        (r.tries < 8 → s.otherPorts r ≠ [] → ∃ t, ∃ p ∈ s.otherPorts r, exec (.requestRetransmit i) s = .next t ∧ t.fab.out = s.fab.out ++ [r.msg] ∧
          t.fab.opens = modAt s.fab.opens i fun x => { x with sent := s.now, tries := x.tries + 1, port := p }) ∧
        (r.tries < 8 → s.otherPorts r = [] → exec (.requestRetransmit i) s = .next s) ∧
        (8 ≤ r.tries → exec (.requestRetransmit i) s = .next (s.reqFails r 3))) ∧
      ((r.stopped = true ∨ s.now < r.sent + 256 ∨ s.flitsHeld r.msg.vd = true) → exec (.requestRetransmit i) s = .next s)) ∧
    (∀ (i : Nat) (k : Nat × Nat × FMsg × Nat), s.fab.kept[i]? = some k →
      (k.2.2.2 + 4096 ≤ s.now → exec (.responseExpiry i) s = .next (s.modFab fun f => { f with kept := dropAt f.kept i })) ∧
      (s.now < k.2.2.2 + 4096 → exec (.responseExpiry i) s = .next s)) ∧
    (∀ (node : BitVec 12) (n : Nat) (m : FMsg) (w : Who),
      let next (w : Nat × FMsg × Who) : Bool := w.1 == node.toNat && !(s.flitsHeld w.2.1.vd)
      s.fab.waits.find? next = some (n, m, w) → s.freePorts (flitBytes m) ≠ [] →
      (s.busyTids node.toNat).length < 2097152 → ∃ t tid, ∃ p ∈ s.freePorts (flitBytes m), exec (.tidAllocate node) s = .next t ∧
        t.fab.waits = dropFirst next s.fab.waits ∧ t.fab.out = s.fab.out ++ [m.withTid tid] ∧ t.fab.opens = s.fab.opens ++
          [{ node := node.toNat, tid := tid, msg := m.withTid tid, sent := s.now, tries := 0, stopped := false, who := w, port := p }]) ∧
    (∀ node : BitVec 12,
      (s.spanNodes.contains node.toNat = true → s.timeDue node.toNat = true → ∃ t, exec (.timeProbe node) s = .next t ∧
        t.fab.out = s.fab.out ++ [mkMsg 24 node.toNat s.node (s.timeVd node.toNat) 0 s.slot 0 0 0 []] ∧
        ((tget t.fab.offs node.toNat).map fun o => (o.probe, o.sent)) = some (some s.now, some s.now)) ∧
      ((s.spanNodes.contains node.toNat = false ∨ s.timeDue node.toNat = false) → exec (.timeProbe node) s = .next s) ∧
      ∀ o, tget s.fab.offs node.toNat = some o →
        (o.validAt + 65536 ≤ s.now → ∃ t, exec (.offsetExpiry node) s = .next t ∧ s.offset node.toNat = o.o ∧ t.offset node.toNat = none) ∧
        (s.now < o.validAt + 65536 → exec (.offsetExpiry node) s = .next s)) ∧
    ∀ p : BitVec 4, s.power = .run →
      let x := tgetD s.fab.ports p.toNat Port.reset
      let spans := s.spanNodes
      (∀ again : Bool,
        let n := if again = true then x.resent + 1 else 1
        let resent := s.modFab fun f => { f with ports := tset f.ports p.toNat { x with resent := n } }
        (x.up = true → n < 16 → exec (.frameRetransmit ⟨p, again⟩) s = .next resent) ∧
        (x.up = true → 16 ≤ n → exec (.frameRetransmit ⟨p, again⟩) s = .next (resent.portFails p.toNat)) ∧
        (x.up = false → exec (.frameRetransmit ⟨p, again⟩) s = .next s)) ∧
      exec (.portDown p) s = .next (s.portFails p.toNat) ∧
      (x.up = false → x.xchg = false →
        (spans = [] → exec (.portUp p) s = .next (s.modFab fun f => { f with ports := tset f.ports p.toNat Port.reset })) ∧
        (spans ≠ [] → exec (.portUp p) s =
          .next (spans.foldl (fun s n => s.sendTime n) (s.modFab fun f => { f with ports := tset f.ports p.toNat { x with xchg := true } })))) ∧
      ((x.up = true ∨ x.xchg = true) → exec (.portUp p) s = .next s)

/-! ## Queues, completion actions, the host's RDMA, firmware, power -/

/-- The launch front end (R282, R294 to R301): a NOTIFY waits behind a held write of its queue pair and while its VD is halted; one of an older generation, a stale SEQ or a TAIL out of range only counts, any other takes TAIL
and SEQ; a reconcile, every 64 slots, takes a tail of this generation; a command of an event's OP is taken from HEAD and acts, one with a nonzero field shown
as 0 is rejected with code 48; a completed sweep acts once it may; a completion entry is written when its ring has room. -/
def Obligations.QueueEvents : Prop :=
  ∀ (s : State) (v : BitVec 8) (q : BitVec 6) (d : Vd), s.vd v.toNat = some d → s.power = .run →
    (∀ (qp : Nat) (w0 w1 : Word), s.hbm.qpBusy v.toNat qp = true ∨ d.halt ≠ none → exec (.notify ⟨v, qp⟩ w0 w1) s = .next s) ∧
    (∀ (qp : Nat) (w0 w1 : Word), s.hbm.qpBusy v.toNat qp = false → d.halt = none → w0.extractLsb' 48 16 ≠ d.gen →
      exec (.notify ⟨v, qp⟩ w0 w1) s = .next (s.count v.toNat 6 1 1)) ∧
    (∀ (qp : Nat) (w0 w1 : Word) (b : QBlock) (u : State), s.hbm.qpBusy v.toNat qp = false → d.halt = none → w0.extractLsb' 48 16 = d.gen →
      s.readQueue v.toNat d.d (w0.extractLsb' 32 6).toNat = (some b, u) →
      let n := (w0.extractLsb' 32 6).toNat
      let k := d.queue n
      let tail : BitVec 32 := w0.setWidth 32
      ((w1.toNat ≤ k.seq.toNat ∨ 2 ^ b.lgn < (tail - k.head).toNat ∨ 2147483648 ≤ (tail - k.tail).toNat) →
        exec (.notify ⟨v, qp⟩ w0 w1) s = .next (u.count v.toNat 6 2 1)) ∧
      (k.seq.toNat < w1.toNat → (tail - k.head).toNat ≤ 2 ^ b.lgn → (tail - k.tail).toNat < 2147483648 →
        exec (.notify ⟨v, qp⟩ w0 w1) s = .next ((u.modQueue v.toNat n fun k => { k with tail := tail, seq := w1 }).count v.toNat 6 0 1))) ∧
    (∀ (b : QBlock) (u : State), s.readQueue v.toNat d.d q.toNat = (some b, u) →
      let k := d.queue q.toNat
      ((k.polled = none ∨ ∃ t, k.polled = some t ∧ t + 64 ≤ s.now) → b.vdid = v.toNat → b.pri = k.pri → b.maxs = k.maxs → b.ok = true →
        exec (.reconcile v q) s =
          .next (if b.tgen = d.gen.toNat ∧ (b.tail - k.head).toNat ≤ 2 ^ b.lgn ∧ (b.tail - k.tail).toNat < 2147483648
            then (u.modQueue v.toNat q.toNat fun k => { k with tail := b.tail, polled := some s.now }).count v.toNat 6 3 1
            else u.modQueue v.toNat q.toNat fun k => { k with polled := some s.now }))) ∧
    (∀ t, (d.queue q.toNat).polled = some t → s.now < t + 64 → exec (.reconcile v q) s = .next s) ∧
    (∀ (c : QCmd) (u : State), s.nextCmd v.toNat d q.toNat = (some c, u) →
      let t := u.takeCmd v.toNat d q.toNat
      let rejected := t.post v.toNat q.toNat (BitVec.ofNat 64 (2 ^ 60 + 48 * 2 ^ 52 + c.tag)) 0xFFF
      (c.op = 0 → c.ok = true → exec (.nopCommand v q) s = .next (t.post v.toNat q.toNat (BitVec.ofNat 64 c.tag) 0xFFF)) ∧
      ((c.op = 0 ∨ 2 < c.op) → c.ok = false → exec (.nopCommand v q) s = .next rejected) ∧
      (c.op = 1 → c.ok = false → exec (.sweepCommand v q) s = .next rejected) ∧
      (c.op = 2 → c.ok = false → exec (.graphCommand v q) s = .next rejected) ∧
      (c.op = 1 → c.ok = true → ∀ x, t.launchFrom v.toNat d.d (c.w1.setWidth 48).toNat (d.queue q.toNat).pri (.queue q.toNat c.tag) = (none, x) →
        exec (.sweepCommand v q) s = .next (x.modQueue v.toNat q.toNat fun k => { k with open_ := k.open_ + 1 })) ∧
      (c.op = 1 → c.ok = true → ∀ code x,
        t.launchFrom v.toNat d.d (c.w1.setWidth 48).toNat (d.queue q.toNat).pri (.queue q.toNat c.tag) = (some code, x) →
        exec (.sweepCommand v q) s = .next (x.post v.toNat q.toNat (BitVec.ofNat 64 (2 ^ 60 + code * 2 ^ 52 + c.tag)) 0xFFF)) ∧
      (c.op = 2 → c.ok = true →
        let m := c.w2.toNat
        let y := ({ t with nextId := t.nextId + 1 } : State).modQueue v.toNat q.toNat fun k => { k with open_ := k.open_ + 1 }
        ∀ bs x, y.devRead v.toNat (c.w1.setWidth 48).toNat (16 * m) = (some bs, x) →
          exec (.graphCommand v q) s = .next ((x.modFr fun f => { f with graphs := (tset f.graphs t.nextId
            { vd := v.toNat, q := q.toNat, tag := c.tag, table := BitVec.ofNat 64 (c.w1.setWidth 48).toNat, nnode := m,
              counts := (List.range m).map fun i => ((wordsOf bs (2 * m)).getD (2 * i) 0 |>.extractLsb' 48 16).toNat, launched := [], done := [],
              reject := none }) }).runGraph t.nextId))) ∧
    (∀ u, s.nextCmd v.toNat d q.toNat = (none, u) → exec (.nopCommand v q) s = .next u ∧ exec (.sweepCommand v q) s = .next u ∧
      exec (.graphCommand v q) s = .next u) ∧
    (∀ (turn : Nat) (x : Sweep), (s.fr.sweeps.find? fun x => x.turn == turn) = some x →
      (s.mayAct x = true →
        (x.act = 1 → exec (.actionSignal turn) s = .next (s.act x)) ∧ (x.act = 2 → exec (.actionFput turn) s = .next (s.act x)) ∧
        (x.act = 3 → exec (.actionGate turn) s = .next (s.act x)) ∧ ((x.act = 0 ∨ x.act = 4) → exec (.actionPost turn) s = .next (s.act x))) ∧
      (s.mayAct x = false → ∀ e ∈ [Instr.actionSignal turn, .actionFput turn, .actionGate turn, .actionPost turn], exec e s = .next s)) ∧
    ∀ (p : Post) (b : QBlock) (u w : State), (∀ h, d.halt = some h → h.fatal = false) →
      (s.fr.posts.find? fun p => p.vd == v.toNat && p.q == q.toNat) = some p → s.readQueue v.toNat d.d q.toNat = (some b, u) → b.ok = true →
      let ct := (d.queue q.toNat).ctail
      (ct - b.chead = BitVec.ofNat 32 (2 ^ b.clg) → exec (.completionPost v q) s = .next u) ∧
      (ct - b.chead ≠ BitVec.ofNat 32 (2 ^ b.clg) →
        u.devWords v.toNat (b.crb + 16 * (ct.toNat % 2 ^ b.clg)) [p.w0, BitVec.ofNat 64 (2 ^ 48 * d.gen.toNat + p.swid % 4096)] = (true, w) →
        let x' := w.modFr fun f => { f with posts := dropFirst (fun x => x.vd == v.toNat && x.q == q.toNat) f.posts }
        let x := if (p.w0.extractLsb' 60 4).toNat = 0 then x'.clipped v.toNat 4 else x'
        let y' := ((x.modQueue v.toNat q.toNat fun k => { k with ctail := ct + 1 }).devWords v.toNat (d.d.qcb + 64 * q.toNat + 40)
          [(ct + 1).setWidth 64]).2
        let y := if b.cfut = 0 then y' else y'.devFill v.toNat b.cfut ((ct + 1).setWidth 64)
        exec (.completionPost v q) s = .next (match y.sweep v.toNat (BitVec.ofNat 12 p.swid) with | some x => y.endSweep x.key | none => y))

/-- The host's RDMA, and its responses (R206, R252, R253, R282, R283, R294): an access of a VD that is not halted performs and is answered with
what it read, a write in the order of its queue pair, which a migration may hold; a read of the notify window returns free bytes (the model's
reading, notes/assumptions/97.md); one of no VD, or after a fatal halt, is answered with an error, and a debug halt holds it; a response takes its
operation out, and succeeds or fails what waits for it. -/
def Obligations.HostAccesses : Prop :=
  ∀ (s : State) (v : BitVec 8) (va : Word), s.power = .run →
    (∀ d, s.vd v.toNat = some d → d.halt = none →
      (∀ len bs u, s.rdmaRead v.toNat va len = (.ok bs, u) → exec (.hostRdmaRead ⟨v, false⟩ va len) s = .next (u.toHost (.response v.toNat true bs))) ∧
      (∀ len u, s.rdmaRead v.toNat va len = (.err, u) → exec (.hostRdmaRead ⟨v, false⟩ va len) s = .next (u.toHost (.response v.toNat false []))) ∧
      (∀ len, 0 < len → va.toNat + len ≤ 16 → ∃ t bs, exec (.hostRdmaRead ⟨v, true⟩ va len) s = .next t ∧ bs.length = len ∧
        t.io.out = s.io.out ++ [.response v.toNat true bs] ∧ SameMemory s t ∧ t.vds = s.vds ∧ t.fr = s.fr ∧ t.cores = s.cores) ∧
      (∀ qp data, s.hbm.qpBusy v.toNat qp = true → exec (.hostRdmaWrite ⟨v, qp⟩ va data) s = .next s) ∧
      (∀ qp data u, s.hbm.qpBusy v.toNat qp = false → s.rdmaWrite v.toNat va data = (.ok [], u) →
        exec (.hostRdmaWrite ⟨v, qp⟩ va data) s = .next (u.toHost (.response v.toNat true []))) ∧
      (∀ qp data i u, s.hbm.qpBusy v.toNat qp = false → s.rdmaWrite v.toNat va data = (.held i, u) → ∃ t, exec (.hostRdmaWrite ⟨v, qp⟩ va data) s = .next t ∧
        t.hbm.migs = modAt u.hbm.migs i fun m => { m with held := m.held ++ [.rdmaWrite v.toNat qp va data] }) ∧
      (∀ qp data u, s.hbm.qpBusy v.toNat qp = false → s.rdmaWrite v.toNat va data = (.later, u) → exec (.hostRdmaWrite ⟨v, qp⟩ va data) s = .next u) ∧
      (∀ cas op new bs u, s.rdmaAtomic v.toNat va cas op new = (.ok bs, u) →
        exec (.hostRdmaAtomic v va cas op new) s = .next (u.toHost (.response v.toNat true bs))) ∧
      (∀ cas op new, va &&& 7#64 ≠ 0#64 → exec (.hostRdmaAtomic v va cas op new) s = .next (s.toHost (.response v.toNat false [])))) ∧
    (∀ len qp data cas op new notify, ∀ e ∈ [Instr.hostRdmaRead ⟨v, notify⟩ va len, .hostRdmaWrite ⟨v, qp⟩ va data, .hostRdmaAtomic v va cas op new],
      ((s.vd v.toNat = none ∨ ∃ d h, s.vd v.toNat = some d ∧ d.halt = some h ∧ h.fatal = true) →
        exec e s = .next (s.toHost (.response v.toNat false []))) ∧
      ∀ d h, s.vd v.toNat = some d → d.halt = some h → h.fatal = false → exec e s = .next s) ∧
    ∀ (i : Nat) (o : HostOp) (data : List Byte), s.io.ops[i]? = some o →
      let u : State := { s with io := { s.io with ops := dropAt s.io.ops i } }
      ((s.flitsHeld o.vd = false ∨ o.who = .load) →
        exec (.hostWindowResponse i true data) s = .next (u.hostDone o data) ∧
        exec (.hostWindowResponse i false data) s = .next (u.hostFailed o)) ∧
      (s.flitsHeld o.vd = true → o.who ≠ .load → ∀ ok, exec (.hostWindowResponse i ok data) s = .next s)

/-- The package in RUN with firmware answering a request now (R304, R306). -/
def Sys2Proof.Claims.answering (s : State) : State := { s with fw := { s.fw with alive := s.now } }

/-- A message of the management channel does its work and is answered with status 0 (R304). -/
def Sys2Proof.Claims.Does (s : State) (v op : Nat) (h : MgmtHdr) (e : Instr) (t : State) : Prop := exec e s = .next (t.toHost (.reply op v h.seq 0 []))

/-- A message of the management channel is refused: status 1, and nothing else changes (R304). -/
def Sys2Proof.Claims.Refuses (s : State) (v op : Nat) (h : MgmtHdr) (e : Instr) : Prop :=
  exec e s = .next ((answering s).toHost (.reply op v h.seq 1 []))

/-- The header of a message of OP `op` over `n` list entries is right (R304): its OP, word 1, and the length of its body, which is the model's own for the
bodies that the spec does not lay out (notes/assumptions/98.md). -/
def Sys2Proof.Claims.HdrOf (h : MgmtHdr) (op n : Nat) : Prop := h.op.toNat = op ∧ h.w1 = 0 ∧ h.len.toNat = bodyOf op n

/-- A message of the management channel with a wrong header is answered with status 2, and nothing else changes (R304). -/
def Sys2Proof.Claims.BadHeader (s : State) (v : Nat) (h : MgmtHdr) (e : Instr) : Prop :=
  exec e s = .next ((answering s).toHost (.reply h.op.toNat v h.seq 2 []))

/-- What RESET discards of a VD, its units stopped first (R302). -/
def Sys2Proof.Claims.discarded (u : State) (v : Nat) (d : Vd) : State := (if d.run = true then (u.raiseHalt v 7 0).stopAll v else u).discard v

/-- The messages that define and end VDs and give them hosts, spans, windows and frames (R252, R268, R269, R271, R293, R294, R302, R304, R311):
each does what its rule says where its parameters are within their limits, else it is refused; so is one that names a VD that is not
defined; one with a wrong header is answered with status 2. -/
def Obligations.VdMessages : Prop :=
  ∀ (s : State) (n : MgmtHdr) (vd : BitVec 8), s.power = .run → s.fw.load = none →
    let v := vd.toNat
    let u := answering s
    (∀ d, HdrOf n 1 (defCount d) → (s.vd v).isNone = true → defAddrsOk d = true → defLimitsOk d = true → u.sharesOk v d = true →
      Does s v 1 n (.fwDefine n vd d) (u.define v d)) ∧
    (∀ d, HdrOf n 1 (defCount d) → ((s.vd v).isSome = true ∨ defAddrsOk d = false ∨ defLimitsOk d = false) → Refuses s v 1 n (.fwDefine n vd d)) ∧
    (∀ d, s.vd v = some d →
      (HdrOf n 2 0 →
        let w := ((u.freezeHalt v d).discard v).flushStats v 2 false
        let x := (((w.windowsOf v).foldl (fun s e => s.closeWindow e.1) w).dropDomain v).scrubHanks v
        exec (.fwTeardown n vd) s = .next (({ x with vds := terase x.vds v } : State).toHost (.reply 2 v n.seq 0 [])).settleMaps) ∧
      (HdrOf n 3 0 → Does s v 3 n (.fwReset n vd) ((List.range 64).foldl (fun s q => s.resetQueue v d.d q) ((discarded u v d).modVd v fun d =>
        { d with halt := none, freeze := none, unsave := false, step := none, savedTasks := [], retmpl := [], gen := d.gen + 1 }))) ∧
      (∀ sched, HdrOf n 4 sched.length →
        ((∀ e ∈ sched, e.1 ∈ d.d.hanks) →
          Does s v 4 n (.fwSchedule n vd sched) (u.modVd v fun d => { d with d := { d.d with sched := sched } })) ∧
        ((∃ e ∈ sched, e.1 ∉ d.d.hanks) → Refuses s v 4 n (.fwSchedule n vd sched))) ∧
      (∀ w, HdrOf n 5 0 →
        (w.len ≤ 1099511627776 → Does s v 5 n (.fwHostwin n vd w) (u.modVd v fun d => { d with hostw := tset d.hostw w.h.toNat w })) ∧
        (1099511627776 < w.len → Refuses s v 5 n (.fwHostwin n vd w))) ∧
      (∀ own nodes, HdrOf n 6 nodes.length → (∀ x ∈ nodes, x < 4096) → ∃ t, Does s v 6 n (.fwSpan n vd own nodes) t ∧
        t.fab.node = some (s.fab.node.getD own) ∧ t.vd v = some { d with span := nodes }) ∧
      (∀ r : WindowReq, HdrOf n 7 r.frames.length → r.close = false → u.windowOk v d r = true →
        let asked := s.hbm.winReqs.find? fun x => x.1 == r.peer.toNat && x.2.num == r.num && x.2.peer == vd
        (asked = none → Does s v 7 n (.fwWindow n vd r) (u.modHbm fun h =>
          { h with winReqs := h.winReqs.filter (fun x => !(x.1 == v && x.2.num == r.num)) ++ [(v, r)] })) ∧
        ∀ w q, asked = some (w, q) → q.size = r.size → q.frames = r.frames → Does s v 7 n (.fwWindow n vd r) (u.createWindow v r w q)) ∧
      (∀ (r : WindowReq) x, HdrOf n 7 r.frames.length → r.close = true → tget s.hbm.wins r.num.toNat = some x → (x.a = v ∨ x.b = v) →
        x.closing = none → Does s v 7 n (.fwWindow n vd r) ((u.closeWindow r.num.toNat).endWindow r.num.toNat)) ∧
      ∀ f t p fr, HdrOf n 8 0 → ((s.hbm.mapsOf f).find? fun x => x.1 == v) = some (v, p) → tget s.hbm.frames f = some fr → tget s.hbm.frames t = none →
        t < tenantFrames → (∀ m ∈ s.hbm.migs, m.f ≠ f ∧ m.g ≠ f) →
        let m : Mig := { st := .first, waits := [], vd := v, page := p, f := f, g := t, held := [] }
        let w := (u.assignFrame t fr.dom fr.page).modHbm fun h => { h with migs := h.migs ++ [m] }
        Does s v 8 n (.fwMigrate n vd f t) ((w.migInval s.hbm.migs.length m f true .first).migOn s.hbm.migs.length)) ∧
    (s.vd v = none → ∀ sched w own nodes (r : WindowReq) f t, (HdrOf n 2 0 → Refuses s v 2 n (.fwTeardown n vd)) ∧
      (HdrOf n 3 0 → Refuses s v 3 n (.fwReset n vd)) ∧ (HdrOf n 4 sched.length → Refuses s v 4 n (.fwSchedule n vd sched)) ∧
      (HdrOf n 5 0 → Refuses s v 5 n (.fwHostwin n vd w)) ∧ (HdrOf n 6 nodes.length → Refuses s v 6 n (.fwSpan n vd own nodes)) ∧
      (HdrOf n 7 r.frames.length → Refuses s v 7 n (.fwWindow n vd r)) ∧ (HdrOf n 8 0 → Refuses s v 8 n (.fwMigrate n vd f t))) ∧
    ∀ d sched w own nodes (r : WindowReq) f t,
      (¬ HdrOf n 1 (defCount d) → BadHeader s v n (.fwDefine n vd d)) ∧ (¬ HdrOf n 2 0 → BadHeader s v n (.fwTeardown n vd)) ∧
      (¬ HdrOf n 3 0 → BadHeader s v n (.fwReset n vd)) ∧ (¬ HdrOf n 4 sched.length → BadHeader s v n (.fwSchedule n vd sched)) ∧
      (¬ HdrOf n 5 0 → BadHeader s v n (.fwHostwin n vd w)) ∧ (¬ HdrOf n 6 nodes.length → BadHeader s v n (.fwSpan n vd own nodes)) ∧
      (¬ HdrOf n 7 r.frames.length → BadHeader s v n (.fwWindow n vd r)) ∧ (¬ HdrOf n 8 0 → BadHeader s v n (.fwMigrate n vd f t))

/-- Debug commands, counters, attestation and updates (R290 to R292, R303, R305, R306): with DBG a debugger halts, resumes, steps, dumps and
loads, each but HALT at a debug halt, else it is refused; a LOAD reads its frame from a host window, and the plane takes it, and is answered for,
when it has come; COUNTERS answers a bank; ATTEST takes a nonce of 1 to 64 bytes; UPDATE takes an image that is signed and imports the
table, and else is refused. -/
def Obligations.DebugMessages : Prop :=
  ∀ (s : State) (n : MgmtHdr) (vd : BitVec 8), s.power = .run →
    let v := vd.toNat
    let u := answering s
    (s.fw.load = none → ∀ d, s.vd v = some d →
      (d.d.dbg = true →
        (HdrOf n 9 0 → d.run = true → Does s v 9 n (.fwHalt n vd) (u.raiseHalt v 6 0)) ∧
        ∀ h, d.halt = some h → h.fatal = false →
          (HdrOf n 10 0 → Does s v 10 n (.fwResume n vd) ((((s.cores.filter fun e => ownsCore d e.1).map (·.1)).foldl (fun s c => s.resumeCore v h c) u).modVd v
            fun d => { d with halt := none, step := none })) ∧
          ∀ (core : BitVec 10) (p : BitVec 1), h.stopped.contains (.plane core p) = true → ∀ key t, s.taskOf core.toNat p = some (key, t) →
            (HdrOf n 11 0 → t.vd = v → (t.state = .active ∨ t.state = .held) → Does s v 11 n (.fwStep n vd core p) ((u.modVd v fun d => { d with step := some (core.toNat, p.toNat), halt := some { h with stopped := h.stopped.filter (· != .plane core p) } }).modPlane core.toNat p fun x => { x with stepping := true })) ∧
            (∀ win hw, HdrOf n 12 0 → tget d.hostw win.toNat = some hw → (u.planeBytes core.toNat p key).length ≤ hw.len →
              Does s v 12 n (.fwDump n vd core p win)
                (u.hostOp v win.toNat 0 .gate fun id => .rdmaWrite id win.toNat 0 none (u.planeBytes core.toNat p key))) ∧
            (∀ win hw, HdrOf n 13 0 → tget d.hostw win.toNat = some hw → 4864 ≤ hw.len →
              exec (.fwLoad n vd core p win) s = .next (({ u with fw := { u.fw with load := some (n, v, core.toNat, p.toNat) } } : State).hostOp v
                win.toNat 0 .load fun id => .rdmaRead id win.toNat 0 4864))) ∧
      ((d.d.dbg = false ∨ d.halt = none ∨ ∃ h, d.halt = some h ∧ h.fatal = true) → ∀ core p win, (HdrOf n 10 0 → Refuses s v 10 n (.fwResume n vd)) ∧
        (HdrOf n 11 0 → Refuses s v 11 n (.fwStep n vd core p)) ∧ (HdrOf n 12 0 → Refuses s v 12 n (.fwDump n vd core p win)) ∧
        (HdrOf n 13 0 → Refuses s v 13 n (.fwLoad n vd core p win))) ∧
      (HdrOf n 9 0 → (d.d.dbg = false ∨ d.run = false) → Refuses s v 9 n (.fwHalt n vd)) ∧
      (∀ bank, HdrOf n 14 0 → exec (.fwCounters n vd bank) s = .next (u.toHost (.reply 14 v n.seq 0
        ((List.range 32).flatMap fun i => wordBytes (s.counter v bank.toNat i))))) ∧
      ∀ nonce, n.op.toNat = 15 → n.w1 = 0 → n.len.toNat = nonce.length →
        (nonce ≠ [] → nonce.length ≤ 64 → exec (.fwAttest n vd nonce) s = .next (u.toHost (.reply 15 v n.seq 0 (s.report d nonce)))) ∧
        ((nonce = [] ∨ 64 < nonce.length) → exec (.fwAttest n vd nonce) s = .next (u.toHost (.reply 15 v n.seq 2 [])))) ∧
    (s.fw.load = none → HdrOf n 16 0 → ∀ i : FwImage,
      (i.signed = true → i.importsTable = true → Does s v 16 n (.fwUpdate n vd i) { u with fw :=
        (if s.fw.active = 0 then { u.fw with ver1 := i.version, img1 := i.bytes, ok1 := true, takeover := true }
        else { u.fw with ver0 := i.version, img0 := i.bytes, ok0 := true, takeover := true }) }) ∧
      ((i.signed = false ∨ i.importsTable = false) → Refuses s v 16 n (.fwUpdate n vd i))) ∧
    (s.fw.load = none → s.vd v = none → ∀ bank, (HdrOf n 9 0 → Refuses s v 9 n (.fwHalt n vd)) ∧ (HdrOf n 10 0 → Refuses s v 10 n (.fwResume n vd)) ∧
      (HdrOf n 14 0 → Refuses s v 14 n (.fwCounters n vd bank))) ∧
    (s.fw.load = none → ∀ core p win bank i, (¬ HdrOf n 9 0 → BadHeader s v n (.fwHalt n vd)) ∧ (¬ HdrOf n 10 0 → BadHeader s v n (.fwResume n vd)) ∧
      (¬ HdrOf n 11 0 → BadHeader s v n (.fwStep n vd core p)) ∧ (¬ HdrOf n 12 0 → BadHeader s v n (.fwDump n vd core p win)) ∧
      (¬ HdrOf n 13 0 → BadHeader s v n (.fwLoad n vd core p win)) ∧ (¬ HdrOf n 14 0 → BadHeader s v n (.fwCounters n vd bank)) ∧
      (¬ HdrOf n 16 0 → BadHeader s v n (.fwUpdate n vd i))) ∧
    ∀ (o : HostOp) (c : Nat) (p : BitVec 1) (key : Nat) (bs : List Byte), o.who = .load → s.fw.load = some (n, v, c, p.toNat) → bs.length = 4864 →
      (s.plane c p).task = some key →
      s.hostDone o bs = ((({ s with fw := { s.fw with load := none } } : State).modPlane c p fun x => x.loadedFrom bs).loadParked c p key bs).toHost
        (.reply 13 v n.seq 0 [])

/-- The standby complex is the active one, and the host has message 130 (R304, R306). -/
def Sys2Proof.Claims.takenOver (s : State) : State :=
  ({ s with fw := { s.fw with active := s.fw.active + 1, takeover := false, alive := s.now } } : State).toHost (.unsolicited 130 0 [])

/-- Power and the firmware complexes (R254, R305, R306, R307): power-on takes everything to its reset value in BOOT and power-off in OFF, but for
the random source, the firmware images, and the model's own schedule and free numbers; BOOT ends in RUN where an image is good, each complex with a good
image started; the standby takes over when an update waits for it, or, started, when the active complex has not answered for 4,096 slots,
and tells the host. -/
def Obligations.PowerEvents : Prop :=
  ∀ (s : State),
    let cleared (p : Power) : State := { State.reset with
      power := p, focus := s.focus, agenda := s.agenda, freeCtr := s.freeCtr, hbm := { State.reset.hbm with nextKeys := s.hbm.nextKeys },
      fw := { State.reset.fw with img0 := s.fw.img0, img1 := s.fw.img1, ver0 := s.fw.ver0, ver1 := s.fw.ver1 } }
    exec .powerOn s = .next (cleared .boot) ∧ exec .powerOff s = .next (cleared .off) ∧
    (∀ ok0 ok1, (s.power = .boot → (ok0 = true ∨ ok1 = true) → exec (.bootComplete ⟨ok0, ok1⟩) s =
        .next { s with power := .run, fw := { s.fw with ok0 := ok0, ok1 := ok1, active := if ok0 = true then 0 else 1 } }) ∧
      ((s.power ≠ .boot ∨ (ok0 = false ∧ ok1 = false)) → exec (.bootComplete ⟨ok0, ok1⟩) s = .next s)) ∧
    ((s.power = .run → s.fw.takeover = true → exec .complexTakeover s = .next (takenOver s)) ∧
      (s.fw.takeover = false → exec .complexTakeover s = .next s) ∧
      (s.power = .run → (if s.fw.active = 0 then s.fw.ok1 else s.fw.ok0) = true → s.fw.alive + 4096 ≤ s.now →
        exec .watchdogTakeover s = .next (takenOver s)) ∧
      ((s.now < s.fw.alive + 4096 ∨ (if s.fw.active = 0 then s.fw.ok1 else s.fw.ok0) = false) → exec .watchdogTakeover s = .next s))

/-! ## Columns, reset, decoding, steps -/

/-- The column update of EXIT (R42, R47), for a point in the window of its column whose done and in-flight positions do not meet: exactly that
point becomes done, and exactly it is in flight no more; done and in-flight positions still do not meet, and H does not fall. -/
def Obligations.ColumnUpdate : Prop :=
  ∀ (c : Col) (q : Nat), c.h ≤ q → q ≤ c.h + 32 → (∀ p, ¬ (c.isDone p = true ∧ c.inFlight p = true)) → c.isDone q = false →
    (∀ p, (c.exit q).isDone p = (c.isDone p || p == q)) ∧ (∀ p, (c.exit q).inFlight p = (c.inFlight p && p != q)) ∧
    (∀ p, ¬ ((c.exit q).isDone p = true ∧ (c.exit q).inFlight p = true)) ∧ c.h ≤ (c.exit q).h ∧
    (c.exit q).isDone (c.exit q).h = false

/-- After reset the package is in BOOT with no VD, task, sweep or booking, its slot 0 and no node id; every byte of a core's memories is 0; no
plane holds a task, and every register of R93 with a reset value reads it; memories are canonical (R93, R307, R311). -/
def Obligations.ResetState : Prop :=
  let s := State.reset
  s.power = .boot ∧ s.vds = [] ∧ s.fr.tasks = [] ∧ s.fr.sweeps = [] ∧ s.bk.bookings = [] ∧ s.slot = 0 ∧ s.fab.node = none ∧ s.hbm.frames = [] ∧
    (∀ c a, memRead (s.core c).spad a = 0 ∧ memRead (s.core c).bobbin a = 0 ∧ memRead (s.core c).creel a = 0) ∧
    (∀ c p, (s.plane c p).task = none ∧ (s.plane c p).sr.tags = 0 ∧ (s.plane c p).sr.fps = 0 ∧ (s.plane c p).sr.tensor = 0 ∧
      (s.plane c p).sr.cause = 0 ∧ (s.plane c p).sr.epc = 0 ∧ (s.plane c p).sr.tval = 0 ∧ (s.plane c p).oc.zero = true ∧
      (s.plane c p).loop.n = 0 ∧ (s.plane c p).loop.act = false) ∧
    (∀ c k, (s.core c).tile k = Tile.reset) ∧ s.memOk = true ∧ s.keysOk = true

/-- Words that the spec gives as examples decode to the instructions it gives for them (R318, R323, R333, R334, R338, R353, R354, R363, R369,
R378, R387, R391). -/
def Obligations.DecodedWords : Prop :=
  decode 0x0238E400 0 = .ok (.addTri { d := 7, a := 7, b := 8, w := 0, g := 0 }) ∧
  decode 0x1A2FFFE0 0 = .ok (.andnSim { d := 5, imm := 0xFFF, w := 1, g := 0 }) ∧
  decode 0x3628C050 0x000000C8 = .ok (.bfxuImm { d := 5, a := 6, g := 0, len := 3, pos := 8 }) ∧
  decode 0xF80000A0 0 = .ok (.brk { code := 5, g := 0 }) ∧
  decode 0x4B300000 0 = .ok (.callReg { a := 12, g := 0 }) ∧
  decode 0x3D00A010 0x0000000A = .ok (.cmpImm { pd := 4, pq := 0, a := 5, cc := 0, g := 0, imm := 10 }) ∧
  decode 0x620000C0 0 = .ok (.flushp { scp := 3, g := 0 }) ∧
  decode 0xEC00A310 0x00000003 = .ok (.frgate { a := 5, b := 6, g := 0, face := 3 }) ∧
  decode 0x30380050 0x00001388 = .ok (.ldiLim { d := 7, g := 0, imm := 5000 }) ∧
  decode 0x3ECA4000 0 = .ok (.pand { d := 3, a := 1, b := 2, na := 0, nb := 1, g := 0 }) ∧
  decode 0xC25164B0 0x40402400 =
    .ok (.mmt { a := 10, b := 11, bk := 9, f := 1, g := 0, step := 2, ar := 0, scp := 0, tile := 2, ty := 9, st := 0 }) ∧
  decode 0x4C000002 0 = .ok (.ret { g := 2 }) ∧
  decode 0x3A28C390 0x00000002 = .ok (.sel { d := 5, a := 6, b := 7, g := 0, sp := 2 })

/-- For every well-formed instruction, decoding the words that the encoder lays out gives it back, with every operand; so two well-formed
instructions with the same words are one. -/
def Obligations.RoundTrip : Prop :=
  (∀ i : Instr, wellFormed i = true → ∀ w, encode i = some w → decode w.1 (w.2.getD 0#32) = .ok i) ∧
  ∀ i j : Instr, wellFormed i = true → wellFormed j = true → encode i = encode j → (encode i).isSome = true → i = j

/-- A step runs the decoded instruction: where the words at the pc decode to a well-formed instruction none of whose registers awaits a
result, step is exec of it; where one does, the task is HELD for those whose result comes from outside the core's own windows, and where there
is none of these it stalls (R91); an event at the head of the agenda runs as exec of it. In a well-formed line the
words at the pc are those of its index, a pair's second word the next (R90, R110, R112, R114). -/
def Obligations.StepRunsInstruction : Prop :=
  (∀ (s u : State) (t : Task) (w0 w1 : IWord) (n : Nat) (i : Instr), TurnOf s u → MayIssue u t w0 w1 n → guardOf w0 ≠ 8 →
    decode w0 w1 = .ok i → wellFormed i = true →
    let x := issuing u t
    let gs := i.gs.filter x.pl.busyG
    let vs := i.vs.filter (x.pl.busyV (x.core x.fc))
    (gs = [] → vs = [] → step s = after (match exec i x with
      | .next y => .next (y.replayed x.fc x.fp (taskKey t.vd t.idx)) | .fault f => .fault f | .refused r => .refused r)) ∧
    let ags := gs.filter fun r => r != 0 && x.pl.acc.any fun a => a.kind.destG == some r && !(a.elems.all Elem.own)
    let avs := x.pl.awayV (x.core x.fc) vs
    ((gs ≠ [] ∨ vs ≠ []) → (ags ≠ [] ∨ avs ≠ []) → step s = after (.next (x.holdOn (.regs ags avs)))) ∧
    ((gs ≠ [] ∨ vs ≠ []) → ags = [] → avs = [] → step s = after (.next u.useFetched))) ∧
  (∀ (s : State) (l : Line), s.pl.pc &&& 3#64 = 0#64 → wordIdx s.pl.pc ≠ 0 → lineOf s.pl.pc ≠ 0#64 → inHbmWindow s.pl.pc = true →
    s.lineAt s.fc s.fp = some l → l.wellFormed = true → (wordIdx s.pl.pc = 1 → s.pl.loop.inBody = false) →
    wordIdx s.pl.pc ≤ linkCnt (l.word 0) →
    let k := wordIdx s.pl.pc
    (isPair (l.word k) = false → s.fetched = .instr (l.word k) 0 1) ∧
    (isPair (l.word k) = true → k < linkCnt (l.word 0) → s.fetched = .instr (l.word k) (l.word (k + 1)) 2)) ∧
  ∀ (s : State) (e : Instr) (rest : List Turn), s.agenda = .event e :: rest → encode e = none → step s = after (exec e { s with agenda := rest })

/-- Words that run no instruction (R103, R114, R116): under guard 0b1000 a word or pair has no effect; else words that no instruction has, or
whose instruction is not well formed, raise ILLEGAL at the pc with word 0 as trap value, whatever the guard: the reserved opcodes 0x00 and
0x7F among them. -/
def Obligations.WordsRefused : Prop :=
  (∀ (s u : State) (t : Task) (w0 w1 : IWord) (n : Nat), TurnOf s u → MayIssue u t w0 w1 n →
    (guardOf w0 = 8 → step s = after (.next ((issuing u t).advance n))) ∧
    (guardOf w0 ≠ 8 → ((∃ e, decode w0 w1 = .error e) ∨ ∃ i, decode w0 w1 = .ok i ∧ wellFormed i = false) →
      ∃ x, Traps (issuing u t) x 1 (w0.setWidth 64) ∧ step s = after (.next x))) ∧
  ∀ (w0 w1 : IWord), (w0.extractLsb' 25 7 = 0#7 ∨ w0.extractLsb' 25 7 = 127#7) → ∃ e, decode w0 w1 = .error e

/-- Every step goes on: no state, however it came about, is one where the machine stops. -/
def Obligations.EveryStepGoesOn : Prop := ∀ s : State, Safe s
end

