-- ==== Sys2Proof/Laws/Memory.lean ====
section
/-! SUPPORT. Laws of byte memories: read after write, and that every operation keeps the canonical form. -/

namespace Sys2Proof.Machine

/-- Every listed address of a memory is at least `a`. -/
def Memory.above (m : Memory) (a : Nat) : Prop := ∀ c ∈ m, a ≤ c.1

/-- The parts of a canonical memory. -/
theorem wf_cons {a : Nat} {v : Byte} {m : Memory} (h : Memory.wf ((a, v) :: m) = true) :
    v ≠ memEmptyByte ∧ Memory.above m (a + 1) ∧ Memory.wf m = true := by
  induction m generalizing a v with
  | nil => simp [Memory.wf] at h; simp [Memory.above, Memory.wf, h]
  | cons c rest ih =>
    obtain ⟨b, w⟩ := c
    simp only [Memory.wf, Bool.and_eq_true, decide_eq_true_eq] at h
    have hr : Memory.wf ((b, w) :: rest) = true := by simp only [Memory.wf, Bool.and_eq_true, decide_eq_true_eq]; exact h.2
    refine ⟨h.1.1, ?_, hr⟩
    intro c hc
    rcases List.mem_cons.1 hc with rfl | hc
    · exact h.1.2
    · have := (ih hr).2.1 c hc
      have := h.1.2
      omega

/-- Putting a byte before a canonical memory. -/
theorem wf_cons_of {a : Nat} {v : Byte} {m : Memory} (hv : v ≠ memEmptyByte) (hf : Memory.above m (a + 1))
    (h : Memory.wf m = true) : Memory.wf ((a, v) :: m) = true := by
  cases m with
  | nil => simp [Memory.wf, hv]
  | cons c rest =>
    obtain ⟨b, w⟩ := c
    have : a + 1 ≤ b := hf (b, w) (by simp)
    have hab : a < b := by omega
    rw [Memory.wf.eq_def]
    simp [hv, hab, h]

/-- An address below every listed one reads as an unlisted one. -/
theorem memRead_below {m : Memory} {a x : Nat} (hf : Memory.above m a) (hx : x < a) : memRead m x = memEmptyByte := by
  cases m with
  | nil => simp [memRead]
  | cons c rest =>
    obtain ⟨b, w⟩ := c
    have : a ≤ b := hf (b, w) (by simp)
    have h1 : b ≠ x := by omega
    have h2 : x < b := by omega
    simp [memRead, h1, h2]

/-- `memFrom` of a canonical memory: canonical, at or above the bound, and reads as before there. -/
theorem memFrom_spec {m : Memory} (h : Memory.wf m = true) (a : Nat) :
    Memory.wf (memFrom m a) = true ∧ Memory.above (memFrom m a) a ∧ ∀ x, a ≤ x → memRead (memFrom m a) x = memRead m x := by
  induction m with
  | nil => simp [memFrom, Memory.wf, Memory.above]
  | cons c rest ih =>
    obtain ⟨b, w⟩ := c
    obtain ⟨hv, hf, hr⟩ := wf_cons h
    by_cases hb : b < a
    · simp only [memFrom, hb, if_true]
      refine ⟨(ih hr).1, (ih hr).2.1, fun x hx => ?_⟩
      have h1 : b ≠ x := by omega
      have h2 : ¬ x < b := by omega
      simp [memRead, h1, h2, (ih hr).2.2 x hx]
    · simp only [memFrom, hb, if_false]
      refine ⟨h, fun c hc => ?_, fun x _ => by simp⟩
      rcases List.mem_cons.1 hc with rfl | hc
      · simp; omega
      · have := hf c hc; omega

/-- Reading a memory made of a canonical part below `a` and one at or above it. -/
theorem memRead_below_append {m n : Memory} (h : Memory.wf m = true) {a : Nat} (hn : Memory.above n a) (x : Nat) :
    memRead (memBelow m a ++ n) x = if x < a then memRead m x else memRead n x := by
  induction m with
  | nil =>
    by_cases hx : x < a
    · simp [memBelow, hx, memRead, memRead_below hn hx]
    · simp [memBelow, hx]
  | cons c rest ih =>
    obtain ⟨b, w⟩ := c
    obtain ⟨hv, hf, hr⟩ := wf_cons h
    by_cases hb : b < a
    · simp only [memBelow, hb, if_true, List.cons_append]
      by_cases hbx : b = x
      · subst hbx; simp [memRead, hb]
      · by_cases hxb : x < b
        · have : x < a := by omega
          simp [memRead, hbx, hxb, this]
        · simp only [memRead, hbx, hxb, if_false, ih hr]
    · simp only [memBelow, hb, if_false, List.nil_append]
      by_cases hx : x < a
      · have h1 : b ≠ x := by omega
        have h2 : x < b := by omega
        simp [hx, memRead, h1, h2, memRead_below hn hx]
      · simp [hx]

/-- A canonical part below `a` before a canonical one at or above it is canonical. -/
theorem memBelow_append_wf {m n : Memory} (h : Memory.wf m = true) {a : Nat} (hn : Memory.above n a)
    (hw : Memory.wf n = true) : Memory.wf (memBelow m a ++ n) = true := by
  have key : ∀ k, Memory.above m k → Memory.above n k → Memory.above (memBelow m a ++ n) k := by
    intro k hm hn c hc
    rcases List.mem_append.1 hc with hc | hc
    · have : ∀ m : Memory, c ∈ memBelow m a → c ∈ m := by
        intro m hc
        induction m with
        | nil => simp [memBelow] at hc
        | cons d rest ih =>
          obtain ⟨b, w⟩ := d
          by_cases hb : b < a
          · simp only [memBelow, hb, if_true] at hc
            rcases List.mem_cons.1 hc with rfl | hc
            · simp
            · exact List.mem_cons_of_mem _ (ih hc)
          · simp [memBelow, hb] at hc
      exact hm c (this m hc)
    · exact hn c hc
  clear key
  induction m with
  | nil => simpa [memBelow] using hw
  | cons c rest ih =>
    obtain ⟨b, w⟩ := c
    obtain ⟨hv, hf, hr⟩ := wf_cons h
    by_cases hb : b < a
    · simp only [memBelow, hb, if_true, List.cons_append]
      refine wf_cons_of hv ?_ (ih hr)
      intro c hc
      rcases List.mem_append.1 hc with hc | hc
      · have : ∀ m : Memory, c ∈ memBelow m a → c ∈ m := by
          intro m hc
          induction m with
          | nil => simp [memBelow] at hc
          | cons d rest ih =>
            obtain ⟨b', w'⟩ := d
            by_cases hb' : b' < a
            · simp only [memBelow, hb', if_true] at hc
              rcases List.mem_cons.1 hc with rfl | hc
              · simp
              · exact List.mem_cons_of_mem _ (ih hc)
            · simp [memBelow, hb'] at hc
        exact hf c (this rest hc)
      · have := hn c hc; omega
    · simpa [memBelow, hb] using hw

/-- The cells of a run of bytes before a memory above it: canonical, at or above its start, and reads as the run. -/
theorem memCells_spec (bs : List Byte) {n : Memory} (hw : Memory.wf n = true) :
    ∀ a, Memory.above n (a + bs.length) →
      Memory.wf (memCells a bs ++ n) = true ∧ Memory.above (memCells a bs ++ n) a ∧
      (∀ i, (hi : i < bs.length) → memRead (memCells a bs ++ n) (a + i) = bs[i]) ∧
      (∀ x, a + bs.length ≤ x → memRead (memCells a bs ++ n) x = memRead n x) := by
  induction bs with
  | nil =>
    intro a hn
    refine ⟨by simpa [memCells] using hw, by simpa [memCells] using hn, by simp, by simp [memCells]⟩
  | cons b rest ih =>
    intro a hn
    have hn' : Memory.above n (a + 1 + rest.length) := by
      intro c hc; have := hn c hc; simp at this; omega
    obtain ⟨w, f, r, o⟩ := ih (a + 1) hn'
    by_cases hb : b = memEmptyByte
    · simp only [memCells, hb, if_true]
      refine ⟨w, fun c hc => ?_, fun i hi => ?_, fun x hx => ?_⟩
      · have := f c hc; omega
      · cases i with
        | zero => simpa using memRead_below f (by omega : a < a + 1)
        | succ i =>
          have := r i (by simpa using hi)
          simpa [Nat.add_assoc, Nat.add_comm 1 i] using this
      · exact o x (by simp at hx; omega)
    · simp only [memCells, hb, if_false, List.cons_append]
      refine ⟨wf_cons_of hb f w, fun c hc => ?_, fun i hi => ?_, fun x hx => ?_⟩
      · rcases List.mem_cons.1 hc with rfl | hc
        · simp
        · have := f c hc; omega
      · cases i with
        | zero => simp [memRead]
        | succ i =>
          have h1 : ¬ a = a + (i + 1) := by omega
          have h2 : ¬ a + (i + 1) < a := by omega
          have := r i (by simpa using hi)
          simpa [memRead, h1, h2, Nat.add_assoc, Nat.add_comm 1 i] using this
      · have h1 : ¬ a = x := by simp at hx; omega
        have h2 : ¬ x < a := by omega
        simpa [memRead, h1, h2] using o x (by simp at hx; omega)

/-- A store keeps the canonical form. -/
theorem memWrite_wf {m : Memory} (h : Memory.wf m = true) (a : Nat) (bs : List Byte) :
    Memory.wf (memWrite m a bs) = true := by
  obtain ⟨w, f, -⟩ := memFrom_spec h (a + bs.length)
  obtain ⟨w', f', -⟩ := memCells_spec bs w a f
  exact memBelow_append_wf h f' w'

/-- A stored byte reads as it was stored. -/
theorem memRead_memWrite_in {m : Memory} (h : Memory.wf m = true) (a : Nat) (bs : List Byte) (i : Nat)
    (hi : i < bs.length) : memRead (memWrite m a bs) (a + i) = bs[i] := by
  obtain ⟨w, f, -⟩ := memFrom_spec h (a + bs.length)
  obtain ⟨w', f', r, -⟩ := memCells_spec bs w a f
  have : ¬ a + i < a := by omega
  rw [memWrite, memRead_below_append h f', if_neg this, r i hi]

/-- A byte outside the stored run reads as before. -/
theorem memRead_memWrite_out {m : Memory} (h : Memory.wf m = true) (a : Nat) (bs : List Byte) (x : Nat)
    (hx : x < a ∨ a + bs.length ≤ x) : memRead (memWrite m a bs) x = memRead m x := by
  obtain ⟨w, f, e⟩ := memFrom_spec h (a + bs.length)
  obtain ⟨w', f', -, o⟩ := memCells_spec bs w a f
  rw [memWrite, memRead_below_append h f']
  rcases hx with hx | hx
  · rw [if_pos hx]
  · rw [if_neg (by omega), o x hx, e x hx]

/-- Clearing a range keeps the canonical form. -/
theorem memClear_wf {m : Memory} (h : Memory.wf m = true) (a n : Nat) : Memory.wf (memClear m a n) = true := by
  obtain ⟨w, f, -⟩ := memFrom_spec h (a + n)
  exact memBelow_append_wf h (fun c hc => by have := f c hc; omega) w

/-- A cleared byte reads as an unlisted one, every other as before. -/
theorem memRead_memClear {m : Memory} (h : Memory.wf m = true) (a n x : Nat) :
    memRead (memClear m a n) x = if a ≤ x ∧ x < a + n then memEmptyByte else memRead m x := by
  obtain ⟨w, f, e⟩ := memFrom_spec h (a + n)
  rw [memClear, memRead_below_append h (a := a) (fun c hc => by have := f c hc; omega)]
  by_cases h1 : x < a
  · rw [if_pos h1, if_neg (by omega)]
  · rw [if_neg h1]
    by_cases h2 : x < a + n
    · rw [if_pos ⟨by omega, h2⟩, memRead_below f h2]
    · rw [if_neg (by omega), e x (by omega)]

/-- A run of bytes read along the list is what reading them one by one gives. -/
theorem memBytesGo_eq {m : Memory} (h : Memory.wf m = true) (n : Nat) :
    ∀ a, Memory.above m a → memBytesGo m a n = (List.range n).map fun i => memRead m (a + i) := by
  induction n generalizing m with
  | zero => intro a _; simp [memBytesGo]
  | succ n ih =>
    intro a hf
    rw [List.range_succ_eq_map, List.map_cons, List.map_map]
    cases m with
    | nil =>
      have := ih (m := []) rfl (a + 1) (by simp [Memory.above])
      simp only [memBytesGo, memRead, this, List.cons.injEq, true_and]
      apply List.map_congr_left
      intro i _
      rfl
    | cons c rest =>
      obtain ⟨b, w⟩ := c
      obtain ⟨hv, hfr, hr⟩ := wf_cons h
      have hab : a ≤ b := hf (b, w) (by simp)
      by_cases hb : b = a
      · subst hb
        have := ih hr (b + 1) hfr
        simp only [memBytesGo, if_true, this, memRead, Nat.add_zero, List.cons.injEq, true_and]
        apply List.map_congr_left
        intro i _
        have h1 : ¬ b = b + (i + 1) := by omega
        simp [Nat.add_assoc, Nat.add_comm 1 i]
      · have hlt : a < b := by omega
        have := ih h (a + 1) (fun c hc => by
          rcases List.mem_cons.1 hc with rfl | hc
          · exact hlt
          · have := hfr c hc; omega)
        simp only [memBytesGo, hb, if_false, this, memRead, Nat.add_zero, hlt, if_true, List.cons.injEq, true_and]
        apply List.map_congr_left
        intro i _
        simp [Nat.add_assoc, Nat.add_comm 1 i]

/-- A run of bytes of a canonical memory, read one by one. -/
theorem memBytes_eq {m : Memory} (h : Memory.wf m = true) (a n : Nat) :
    memBytes m a n = (List.range n).map fun i => memRead m (a + i) := by
  obtain ⟨w, f, e⟩ := memFrom_spec h a
  rw [memBytes, memBytesGo_eq w n a f]
  apply List.map_congr_left
  intro i _
  exact e (a + i) (by omega)

end Sys2Proof.Machine
end

