-- ==== Sys2Proof/Laws/Table.lean ====
section
/-! SUPPORT. Laws of sparse tables: read after write, writes that meet. They hold of every list, sorted or not. -/

namespace Sys2Proof.Machine

/-- Reading the key just set. -/
@[simp] theorem tget_tset_same {α : Type} (t : Table α) (k : Nat) (v : α) : tget (tset t k v) k = some v := by
  induction t with
  | nil => simp [tset, tget]
  | cons e rest ih =>
    obtain ⟨j, w⟩ := e
    by_cases h : j = k
    · simp [tset, tget, h]
    · by_cases h' : k < j
      · simp [tset, tget, h, h']
      · simp [tset, tget, h, h', ih]

/-- Reading another key after a set. -/
theorem tget_tset_ne {α : Type} (t : Table α) {k j : Nat} (v : α) (h : j ≠ k) : tget (tset t k v) j = tget t j := by
  have h' : k ≠ j := fun x => h x.symm
  induction t with
  | nil => simp [tset, tget, h']
  | cons e rest ih =>
    obtain ⟨i, w⟩ := e
    by_cases hi : i = k
    · subst hi
      simp [tset, tget, h']
    · by_cases hk : k < i
      · by_cases hj : j < k
        · have : i ≠ j := by omega
          have : j < i := by omega
          simp [tset, tget, *]
        · simp [tset, tget, *]
      · simp only [tset, hi, hk, if_false]
        by_cases hj : i = j
        · simp [tget, hj]
        · by_cases hlt : j < i
          · simp [tget, hj, hlt]
          · simp [tget, hj, hlt, ih]

/-- Two sets of one key: the later one counts. -/
@[simp] theorem tset_tset_same {α : Type} (t : Table α) (k : Nat) (v w : α) : tset (tset t k v) k w = tset t k w := by
  induction t with
  | nil => simp [tset]
  | cons e rest ih =>
    obtain ⟨j, x⟩ := e
    by_cases h : j = k
    · simp [tset, h]
    · by_cases h' : k < j
      · simp [tset, h, h']
      · simp [tset, h, h', ih]

/-- Reading the key just set, with a default. -/
@[simp] theorem tgetD_tset_same {α : Type} (t : Table α) (k : Nat) (v d : α) : tgetD (tset t k v) k d = v := by
  simp [tgetD]

/-- Reading another key after a set, with a default. -/
theorem tgetD_tset_ne {α : Type} (t : Table α) {k j : Nat} (v d : α) (h : j ≠ k) :
    tgetD (tset t k v) j d = tgetD t j d := by
  simp [tgetD, tget_tset_ne t v h]

/-- Reading the key just rewritten. -/
@[simp] theorem tget_tmod_same {α : Type} (t : Table α) (k : Nat) (f : α → α) :
    tget (tmod t k f) k = (tget t k).map f := by
  induction t with
  | nil => simp [tmod, tget]
  | cons e rest ih =>
    obtain ⟨j, w⟩ := e
    by_cases h : j = k
    · simp [tmod, tget, h]
    · by_cases h' : k < j
      · simp [tmod, tget, h, h']
      · simp [tmod, tget, h, h', ih]

/-- Reading another key after a rewrite. -/
theorem tget_tmod_ne {α : Type} (t : Table α) {k j : Nat} (f : α → α) (h : j ≠ k) :
    tget (tmod t k f) j = tget t j := by
  have h' : k ≠ j := fun x => h x.symm
  induction t with
  | nil => simp [tmod]
  | cons e rest ih =>
    obtain ⟨i, w⟩ := e
    by_cases hi : i = k
    · subst hi
      simp [tmod, tget, h']
    · simp only [tmod, hi, if_false]
      by_cases hj : i = j
      · simp [tget, hj]
      · by_cases hlt : j < i
        · simp [tget, hj, hlt]
        · simp [tget, hj, hlt, ih]

/-- A set keeps the keys rising. -/
theorem twf_tset {α : Type} (t : Table α) (k : Nat) (v : α) (h : twf t = true) : twf (tset t k v) = true := by
  induction t with
  | nil => simp [tset, twf]
  | cons e rest ih =>
    obtain ⟨j, w⟩ := e
    simp only [twf, Bool.and_eq_true] at h
    by_cases hj : j = k
    · subst hj
      simp only [tset, if_true, twf, Bool.and_eq_true]
      exact h
    · by_cases hk : k < j
      · simp [tset, hj, hk, twf, h.1, h.2]
      · simp only [tset, hj, hk, if_false, twf, Bool.and_eq_true]
        refine ⟨?_, ih h.2⟩
        cases rest with
        | nil => simp [tset]; omega
        | cons e' rest' =>
          obtain ⟨i, x⟩ := e'
          have hji : j < i := by simpa using h.1
          by_cases hi : i = k
          · subst hi; simp [tset, hji]
          · by_cases hki : k < i
            · simp [tset, hi, hki]; omega
            · simp [tset, hi, hki, hji]

end Sys2Proof.Machine
end

