-- ==== Sys2Proof/Laws/State.lean ====
section
/-! SUPPORT. What each named update of State leaves in each field, and what the accessors read after an update. -/

namespace Sys2Proof.Machine

/-! ### setCore -/

@[simp] theorem State.setCore_power (s : State) (c : Nat) (k : Core) : (s.setCore c k).power = s.power := rfl
@[simp] theorem State.setCore_slot (s : State) (c : Nat) (k : Core) : (s.setCore c k).slot = s.slot := rfl
@[simp] theorem State.setCore_cores (s : State) (c : Nat) (k : Core) : (s.setCore c k).cores = tset s.cores c k := rfl
@[simp] theorem State.setCore_dies (s : State) (c : Nat) (k : Core) : (s.setCore c k).dies = s.dies := rfl
@[simp] theorem State.setCore_vds (s : State) (c : Nat) (k : Core) : (s.setCore c k).vds = s.vds := rfl
@[simp] theorem State.setCore_hanks (s : State) (c : Nat) (k : Core) : (s.setCore c k).hanks = s.hanks := rfl
@[simp] theorem State.setCore_fr (s : State) (c : Nat) (k : Core) : (s.setCore c k).fr = s.fr := rfl
@[simp] theorem State.setCore_bk (s : State) (c : Nat) (k : Core) : (s.setCore c k).bk = s.bk := rfl
@[simp] theorem State.setCore_hbm (s : State) (c : Nat) (k : Core) : (s.setCore c k).hbm = s.hbm := rfl
@[simp] theorem State.setCore_fab (s : State) (c : Nat) (k : Core) : (s.setCore c k).fab = s.fab := rfl
@[simp] theorem State.setCore_io (s : State) (c : Nat) (k : Core) : (s.setCore c k).io = s.io := rfl
@[simp] theorem State.setCore_fw (s : State) (c : Nat) (k : Core) : (s.setCore c k).fw = s.fw := rfl
@[simp] theorem State.setCore_nextId (s : State) (c : Nat) (k : Core) : (s.setCore c k).nextId = s.nextId := rfl
@[simp] theorem State.setCore_focus (s : State) (c : Nat) (k : Core) : (s.setCore c k).focus = s.focus := rfl
@[simp] theorem State.setCore_agenda (s : State) (c : Nat) (k : Core) : (s.setCore c k).agenda = s.agenda := rfl
@[simp] theorem State.setCore_freeCtr (s : State) (c : Nat) (k : Core) : (s.setCore c k).freeCtr = s.freeCtr := rfl

/-! ### modCore -/

@[simp] theorem State.modCore_power (s : State) (c : Nat) (f : Core → Core) : (s.modCore c f).power = s.power := rfl
@[simp] theorem State.modCore_slot (s : State) (c : Nat) (f : Core → Core) : (s.modCore c f).slot = s.slot := rfl
@[simp] theorem State.modCore_cores (s : State) (c : Nat) (f : Core → Core) : (s.modCore c f).cores = tset s.cores c (f (s.core c)) := rfl
@[simp] theorem State.modCore_dies (s : State) (c : Nat) (f : Core → Core) : (s.modCore c f).dies = s.dies := rfl
@[simp] theorem State.modCore_vds (s : State) (c : Nat) (f : Core → Core) : (s.modCore c f).vds = s.vds := rfl
@[simp] theorem State.modCore_hanks (s : State) (c : Nat) (f : Core → Core) : (s.modCore c f).hanks = s.hanks := rfl
@[simp] theorem State.modCore_fr (s : State) (c : Nat) (f : Core → Core) : (s.modCore c f).fr = s.fr := rfl
@[simp] theorem State.modCore_bk (s : State) (c : Nat) (f : Core → Core) : (s.modCore c f).bk = s.bk := rfl
@[simp] theorem State.modCore_hbm (s : State) (c : Nat) (f : Core → Core) : (s.modCore c f).hbm = s.hbm := rfl
@[simp] theorem State.modCore_fab (s : State) (c : Nat) (f : Core → Core) : (s.modCore c f).fab = s.fab := rfl
@[simp] theorem State.modCore_io (s : State) (c : Nat) (f : Core → Core) : (s.modCore c f).io = s.io := rfl
@[simp] theorem State.modCore_fw (s : State) (c : Nat) (f : Core → Core) : (s.modCore c f).fw = s.fw := rfl
@[simp] theorem State.modCore_nextId (s : State) (c : Nat) (f : Core → Core) : (s.modCore c f).nextId = s.nextId := rfl
@[simp] theorem State.modCore_focus (s : State) (c : Nat) (f : Core → Core) : (s.modCore c f).focus = s.focus := rfl
@[simp] theorem State.modCore_agenda (s : State) (c : Nat) (f : Core → Core) : (s.modCore c f).agenda = s.agenda := rfl
@[simp] theorem State.modCore_freeCtr (s : State) (c : Nat) (f : Core → Core) : (s.modCore c f).freeCtr = s.freeCtr := rfl

/-! ### modPlane -/

@[simp] theorem State.modPlane_power (s : State) (c : Nat) (p : BitVec 1) (f : Plane → Plane) : (s.modPlane c p f).power = s.power := rfl
@[simp] theorem State.modPlane_slot (s : State) (c : Nat) (p : BitVec 1) (f : Plane → Plane) : (s.modPlane c p f).slot = s.slot := rfl
@[simp] theorem State.modPlane_dies (s : State) (c : Nat) (p : BitVec 1) (f : Plane → Plane) : (s.modPlane c p f).dies = s.dies := rfl
@[simp] theorem State.modPlane_vds (s : State) (c : Nat) (p : BitVec 1) (f : Plane → Plane) : (s.modPlane c p f).vds = s.vds := rfl
@[simp] theorem State.modPlane_hanks (s : State) (c : Nat) (p : BitVec 1) (f : Plane → Plane) : (s.modPlane c p f).hanks = s.hanks := rfl
@[simp] theorem State.modPlane_fr (s : State) (c : Nat) (p : BitVec 1) (f : Plane → Plane) : (s.modPlane c p f).fr = s.fr := rfl
@[simp] theorem State.modPlane_bk (s : State) (c : Nat) (p : BitVec 1) (f : Plane → Plane) : (s.modPlane c p f).bk = s.bk := rfl
@[simp] theorem State.modPlane_hbm (s : State) (c : Nat) (p : BitVec 1) (f : Plane → Plane) : (s.modPlane c p f).hbm = s.hbm := rfl
@[simp] theorem State.modPlane_fab (s : State) (c : Nat) (p : BitVec 1) (f : Plane → Plane) : (s.modPlane c p f).fab = s.fab := rfl
@[simp] theorem State.modPlane_io (s : State) (c : Nat) (p : BitVec 1) (f : Plane → Plane) : (s.modPlane c p f).io = s.io := rfl
@[simp] theorem State.modPlane_fw (s : State) (c : Nat) (p : BitVec 1) (f : Plane → Plane) : (s.modPlane c p f).fw = s.fw := rfl
@[simp] theorem State.modPlane_nextId (s : State) (c : Nat) (p : BitVec 1) (f : Plane → Plane) : (s.modPlane c p f).nextId = s.nextId := rfl
@[simp] theorem State.modPlane_focus (s : State) (c : Nat) (p : BitVec 1) (f : Plane → Plane) : (s.modPlane c p f).focus = s.focus := rfl
@[simp] theorem State.modPlane_agenda (s : State) (c : Nat) (p : BitVec 1) (f : Plane → Plane) : (s.modPlane c p f).agenda = s.agenda := rfl
@[simp] theorem State.modPlane_freeCtr (s : State) (c : Nat) (p : BitVec 1) (f : Plane → Plane) : (s.modPlane c p f).freeCtr = s.freeCtr := rfl

/-! ### modPl -/

@[simp] theorem State.modPl_power (s : State) (f : Plane → Plane) : (s.modPl f).power = s.power := rfl
@[simp] theorem State.modPl_slot (s : State) (f : Plane → Plane) : (s.modPl f).slot = s.slot := rfl
@[simp] theorem State.modPl_dies (s : State) (f : Plane → Plane) : (s.modPl f).dies = s.dies := rfl
@[simp] theorem State.modPl_vds (s : State) (f : Plane → Plane) : (s.modPl f).vds = s.vds := rfl
@[simp] theorem State.modPl_hanks (s : State) (f : Plane → Plane) : (s.modPl f).hanks = s.hanks := rfl
@[simp] theorem State.modPl_fr (s : State) (f : Plane → Plane) : (s.modPl f).fr = s.fr := rfl
@[simp] theorem State.modPl_bk (s : State) (f : Plane → Plane) : (s.modPl f).bk = s.bk := rfl
@[simp] theorem State.modPl_hbm (s : State) (f : Plane → Plane) : (s.modPl f).hbm = s.hbm := rfl
@[simp] theorem State.modPl_fab (s : State) (f : Plane → Plane) : (s.modPl f).fab = s.fab := rfl
@[simp] theorem State.modPl_io (s : State) (f : Plane → Plane) : (s.modPl f).io = s.io := rfl
@[simp] theorem State.modPl_fw (s : State) (f : Plane → Plane) : (s.modPl f).fw = s.fw := rfl
@[simp] theorem State.modPl_nextId (s : State) (f : Plane → Plane) : (s.modPl f).nextId = s.nextId := rfl
@[simp] theorem State.modPl_focus (s : State) (f : Plane → Plane) : (s.modPl f).focus = s.focus := rfl
@[simp] theorem State.modPl_agenda (s : State) (f : Plane → Plane) : (s.modPl f).agenda = s.agenda := rfl
@[simp] theorem State.modPl_freeCtr (s : State) (f : Plane → Plane) : (s.modPl f).freeCtr = s.freeCtr := rfl

/-! ### modVd -/

@[simp] theorem State.modVd_power (s : State) (v : Nat) (f : Vd → Vd) : (s.modVd v f).power = s.power := rfl
@[simp] theorem State.modVd_slot (s : State) (v : Nat) (f : Vd → Vd) : (s.modVd v f).slot = s.slot := rfl
@[simp] theorem State.modVd_cores (s : State) (v : Nat) (f : Vd → Vd) : (s.modVd v f).cores = s.cores := rfl
@[simp] theorem State.modVd_dies (s : State) (v : Nat) (f : Vd → Vd) : (s.modVd v f).dies = s.dies := rfl
@[simp] theorem State.modVd_vds (s : State) (v : Nat) (f : Vd → Vd) : (s.modVd v f).vds = tmod s.vds v f := rfl
@[simp] theorem State.modVd_hanks (s : State) (v : Nat) (f : Vd → Vd) : (s.modVd v f).hanks = s.hanks := rfl
@[simp] theorem State.modVd_fr (s : State) (v : Nat) (f : Vd → Vd) : (s.modVd v f).fr = s.fr := rfl
@[simp] theorem State.modVd_bk (s : State) (v : Nat) (f : Vd → Vd) : (s.modVd v f).bk = s.bk := rfl
@[simp] theorem State.modVd_hbm (s : State) (v : Nat) (f : Vd → Vd) : (s.modVd v f).hbm = s.hbm := rfl
@[simp] theorem State.modVd_fab (s : State) (v : Nat) (f : Vd → Vd) : (s.modVd v f).fab = s.fab := rfl
@[simp] theorem State.modVd_io (s : State) (v : Nat) (f : Vd → Vd) : (s.modVd v f).io = s.io := rfl
@[simp] theorem State.modVd_fw (s : State) (v : Nat) (f : Vd → Vd) : (s.modVd v f).fw = s.fw := rfl
@[simp] theorem State.modVd_nextId (s : State) (v : Nat) (f : Vd → Vd) : (s.modVd v f).nextId = s.nextId := rfl
@[simp] theorem State.modVd_focus (s : State) (v : Nat) (f : Vd → Vd) : (s.modVd v f).focus = s.focus := rfl
@[simp] theorem State.modVd_agenda (s : State) (v : Nat) (f : Vd → Vd) : (s.modVd v f).agenda = s.agenda := rfl
@[simp] theorem State.modVd_freeCtr (s : State) (v : Nat) (f : Vd → Vd) : (s.modVd v f).freeCtr = s.freeCtr := rfl

/-! ### count -/

@[simp] theorem State.count_power (s : State) (v b i n : Nat) : (s.count v b i n).power = s.power := rfl
@[simp] theorem State.count_slot (s : State) (v b i n : Nat) : (s.count v b i n).slot = s.slot := rfl
@[simp] theorem State.count_cores (s : State) (v b i n : Nat) : (s.count v b i n).cores = s.cores := rfl
@[simp] theorem State.count_dies (s : State) (v b i n : Nat) : (s.count v b i n).dies = s.dies := rfl
@[simp] theorem State.count_hanks (s : State) (v b i n : Nat) : (s.count v b i n).hanks = s.hanks := rfl
@[simp] theorem State.count_fr (s : State) (v b i n : Nat) : (s.count v b i n).fr = s.fr := rfl
@[simp] theorem State.count_bk (s : State) (v b i n : Nat) : (s.count v b i n).bk = s.bk := rfl
@[simp] theorem State.count_hbm (s : State) (v b i n : Nat) : (s.count v b i n).hbm = s.hbm := rfl
@[simp] theorem State.count_fab (s : State) (v b i n : Nat) : (s.count v b i n).fab = s.fab := rfl
@[simp] theorem State.count_io (s : State) (v b i n : Nat) : (s.count v b i n).io = s.io := rfl
@[simp] theorem State.count_fw (s : State) (v b i n : Nat) : (s.count v b i n).fw = s.fw := rfl
@[simp] theorem State.count_nextId (s : State) (v b i n : Nat) : (s.count v b i n).nextId = s.nextId := rfl
@[simp] theorem State.count_focus (s : State) (v b i n : Nat) : (s.count v b i n).focus = s.focus := rfl
@[simp] theorem State.count_agenda (s : State) (v b i n : Nat) : (s.count v b i n).agenda = s.agenda := rfl
@[simp] theorem State.count_freeCtr (s : State) (v b i n : Nat) : (s.count v b i n).freeCtr = s.freeCtr := rfl

/-! ### modFr -/

@[simp] theorem State.modFr_power (s : State) (f : Front → Front) : (s.modFr f).power = s.power := rfl
@[simp] theorem State.modFr_slot (s : State) (f : Front → Front) : (s.modFr f).slot = s.slot := rfl
@[simp] theorem State.modFr_cores (s : State) (f : Front → Front) : (s.modFr f).cores = s.cores := rfl
@[simp] theorem State.modFr_dies (s : State) (f : Front → Front) : (s.modFr f).dies = s.dies := rfl
@[simp] theorem State.modFr_vds (s : State) (f : Front → Front) : (s.modFr f).vds = s.vds := rfl
@[simp] theorem State.modFr_hanks (s : State) (f : Front → Front) : (s.modFr f).hanks = s.hanks := rfl
@[simp] theorem State.modFr_fr (s : State) (f : Front → Front) : (s.modFr f).fr = f s.fr := rfl
@[simp] theorem State.modFr_bk (s : State) (f : Front → Front) : (s.modFr f).bk = s.bk := rfl
@[simp] theorem State.modFr_hbm (s : State) (f : Front → Front) : (s.modFr f).hbm = s.hbm := rfl
@[simp] theorem State.modFr_fab (s : State) (f : Front → Front) : (s.modFr f).fab = s.fab := rfl
@[simp] theorem State.modFr_io (s : State) (f : Front → Front) : (s.modFr f).io = s.io := rfl
@[simp] theorem State.modFr_fw (s : State) (f : Front → Front) : (s.modFr f).fw = s.fw := rfl
@[simp] theorem State.modFr_nextId (s : State) (f : Front → Front) : (s.modFr f).nextId = s.nextId := rfl
@[simp] theorem State.modFr_focus (s : State) (f : Front → Front) : (s.modFr f).focus = s.focus := rfl
@[simp] theorem State.modFr_agenda (s : State) (f : Front → Front) : (s.modFr f).agenda = s.agenda := rfl
@[simp] theorem State.modFr_freeCtr (s : State) (f : Front → Front) : (s.modFr f).freeCtr = s.freeCtr := rfl

/-! ### modTask -/

@[simp] theorem State.modTask_power (s : State) (k : Nat) (f : Task → Task) : (s.modTask k f).power = s.power := rfl
@[simp] theorem State.modTask_slot (s : State) (k : Nat) (f : Task → Task) : (s.modTask k f).slot = s.slot := rfl
@[simp] theorem State.modTask_cores (s : State) (k : Nat) (f : Task → Task) : (s.modTask k f).cores = s.cores := rfl
@[simp] theorem State.modTask_dies (s : State) (k : Nat) (f : Task → Task) : (s.modTask k f).dies = s.dies := rfl
@[simp] theorem State.modTask_vds (s : State) (k : Nat) (f : Task → Task) : (s.modTask k f).vds = s.vds := rfl
@[simp] theorem State.modTask_hanks (s : State) (k : Nat) (f : Task → Task) : (s.modTask k f).hanks = s.hanks := rfl
@[simp] theorem State.modTask_bk (s : State) (k : Nat) (f : Task → Task) : (s.modTask k f).bk = s.bk := rfl
@[simp] theorem State.modTask_hbm (s : State) (k : Nat) (f : Task → Task) : (s.modTask k f).hbm = s.hbm := rfl
@[simp] theorem State.modTask_fab (s : State) (k : Nat) (f : Task → Task) : (s.modTask k f).fab = s.fab := rfl
@[simp] theorem State.modTask_io (s : State) (k : Nat) (f : Task → Task) : (s.modTask k f).io = s.io := rfl
@[simp] theorem State.modTask_fw (s : State) (k : Nat) (f : Task → Task) : (s.modTask k f).fw = s.fw := rfl
@[simp] theorem State.modTask_nextId (s : State) (k : Nat) (f : Task → Task) : (s.modTask k f).nextId = s.nextId := rfl
@[simp] theorem State.modTask_focus (s : State) (k : Nat) (f : Task → Task) : (s.modTask k f).focus = s.focus := rfl
@[simp] theorem State.modTask_agenda (s : State) (k : Nat) (f : Task → Task) : (s.modTask k f).agenda = s.agenda := rfl
@[simp] theorem State.modTask_freeCtr (s : State) (k : Nat) (f : Task → Task) : (s.modTask k f).freeCtr = s.freeCtr := rfl

/-! ### modBk -/

@[simp] theorem State.modBk_power (s : State) (f : Bk → Bk) : (s.modBk f).power = s.power := rfl
@[simp] theorem State.modBk_slot (s : State) (f : Bk → Bk) : (s.modBk f).slot = s.slot := rfl
@[simp] theorem State.modBk_cores (s : State) (f : Bk → Bk) : (s.modBk f).cores = s.cores := rfl
@[simp] theorem State.modBk_dies (s : State) (f : Bk → Bk) : (s.modBk f).dies = s.dies := rfl
@[simp] theorem State.modBk_vds (s : State) (f : Bk → Bk) : (s.modBk f).vds = s.vds := rfl
@[simp] theorem State.modBk_hanks (s : State) (f : Bk → Bk) : (s.modBk f).hanks = s.hanks := rfl
@[simp] theorem State.modBk_fr (s : State) (f : Bk → Bk) : (s.modBk f).fr = s.fr := rfl
@[simp] theorem State.modBk_bk (s : State) (f : Bk → Bk) : (s.modBk f).bk = f s.bk := rfl
@[simp] theorem State.modBk_hbm (s : State) (f : Bk → Bk) : (s.modBk f).hbm = s.hbm := rfl
@[simp] theorem State.modBk_fab (s : State) (f : Bk → Bk) : (s.modBk f).fab = s.fab := rfl
@[simp] theorem State.modBk_io (s : State) (f : Bk → Bk) : (s.modBk f).io = s.io := rfl
@[simp] theorem State.modBk_fw (s : State) (f : Bk → Bk) : (s.modBk f).fw = s.fw := rfl
@[simp] theorem State.modBk_nextId (s : State) (f : Bk → Bk) : (s.modBk f).nextId = s.nextId := rfl
@[simp] theorem State.modBk_focus (s : State) (f : Bk → Bk) : (s.modBk f).focus = s.focus := rfl
@[simp] theorem State.modBk_agenda (s : State) (f : Bk → Bk) : (s.modBk f).agenda = s.agenda := rfl
@[simp] theorem State.modBk_freeCtr (s : State) (f : Bk → Bk) : (s.modBk f).freeCtr = s.freeCtr := rfl

/-! ### modHbm -/

@[simp] theorem State.modHbm_power (s : State) (f : Hbm → Hbm) : (s.modHbm f).power = s.power := rfl
@[simp] theorem State.modHbm_slot (s : State) (f : Hbm → Hbm) : (s.modHbm f).slot = s.slot := rfl
@[simp] theorem State.modHbm_cores (s : State) (f : Hbm → Hbm) : (s.modHbm f).cores = s.cores := rfl
@[simp] theorem State.modHbm_dies (s : State) (f : Hbm → Hbm) : (s.modHbm f).dies = s.dies := rfl
@[simp] theorem State.modHbm_vds (s : State) (f : Hbm → Hbm) : (s.modHbm f).vds = s.vds := rfl
@[simp] theorem State.modHbm_hanks (s : State) (f : Hbm → Hbm) : (s.modHbm f).hanks = s.hanks := rfl
@[simp] theorem State.modHbm_fr (s : State) (f : Hbm → Hbm) : (s.modHbm f).fr = s.fr := rfl
@[simp] theorem State.modHbm_bk (s : State) (f : Hbm → Hbm) : (s.modHbm f).bk = s.bk := rfl
@[simp] theorem State.modHbm_hbm (s : State) (f : Hbm → Hbm) : (s.modHbm f).hbm = f s.hbm := rfl
@[simp] theorem State.modHbm_fab (s : State) (f : Hbm → Hbm) : (s.modHbm f).fab = s.fab := rfl
@[simp] theorem State.modHbm_io (s : State) (f : Hbm → Hbm) : (s.modHbm f).io = s.io := rfl
@[simp] theorem State.modHbm_fw (s : State) (f : Hbm → Hbm) : (s.modHbm f).fw = s.fw := rfl
@[simp] theorem State.modHbm_nextId (s : State) (f : Hbm → Hbm) : (s.modHbm f).nextId = s.nextId := rfl
@[simp] theorem State.modHbm_focus (s : State) (f : Hbm → Hbm) : (s.modHbm f).focus = s.focus := rfl
@[simp] theorem State.modHbm_agenda (s : State) (f : Hbm → Hbm) : (s.modHbm f).agenda = s.agenda := rfl
@[simp] theorem State.modHbm_freeCtr (s : State) (f : Hbm → Hbm) : (s.modHbm f).freeCtr = s.freeCtr := rfl

/-! ### modFab -/

@[simp] theorem State.modFab_power (s : State) (f : Fab → Fab) : (s.modFab f).power = s.power := rfl
@[simp] theorem State.modFab_slot (s : State) (f : Fab → Fab) : (s.modFab f).slot = s.slot := rfl
@[simp] theorem State.modFab_cores (s : State) (f : Fab → Fab) : (s.modFab f).cores = s.cores := rfl
@[simp] theorem State.modFab_dies (s : State) (f : Fab → Fab) : (s.modFab f).dies = s.dies := rfl
@[simp] theorem State.modFab_vds (s : State) (f : Fab → Fab) : (s.modFab f).vds = s.vds := rfl
@[simp] theorem State.modFab_hanks (s : State) (f : Fab → Fab) : (s.modFab f).hanks = s.hanks := rfl
@[simp] theorem State.modFab_fr (s : State) (f : Fab → Fab) : (s.modFab f).fr = s.fr := rfl
@[simp] theorem State.modFab_bk (s : State) (f : Fab → Fab) : (s.modFab f).bk = s.bk := rfl
@[simp] theorem State.modFab_hbm (s : State) (f : Fab → Fab) : (s.modFab f).hbm = s.hbm := rfl
@[simp] theorem State.modFab_fab (s : State) (f : Fab → Fab) : (s.modFab f).fab = f s.fab := rfl
@[simp] theorem State.modFab_io (s : State) (f : Fab → Fab) : (s.modFab f).io = s.io := rfl
@[simp] theorem State.modFab_fw (s : State) (f : Fab → Fab) : (s.modFab f).fw = s.fw := rfl
@[simp] theorem State.modFab_nextId (s : State) (f : Fab → Fab) : (s.modFab f).nextId = s.nextId := rfl
@[simp] theorem State.modFab_focus (s : State) (f : Fab → Fab) : (s.modFab f).focus = s.focus := rfl
@[simp] theorem State.modFab_agenda (s : State) (f : Fab → Fab) : (s.modFab f).agenda = s.agenda := rfl
@[simp] theorem State.modFab_freeCtr (s : State) (f : Fab → Fab) : (s.modFab f).freeCtr = s.freeCtr := rfl

/-! ### bump -/

@[simp] theorem State.bump_power (s : State) : (s.bump).power = s.power := rfl
@[simp] theorem State.bump_slot (s : State) : (s.bump).slot = s.slot := rfl
@[simp] theorem State.bump_cores (s : State) : (s.bump).cores = s.cores := rfl
@[simp] theorem State.bump_dies (s : State) : (s.bump).dies = s.dies := rfl
@[simp] theorem State.bump_vds (s : State) : (s.bump).vds = s.vds := rfl
@[simp] theorem State.bump_hanks (s : State) : (s.bump).hanks = s.hanks := rfl
@[simp] theorem State.bump_fr (s : State) : (s.bump).fr = s.fr := rfl
@[simp] theorem State.bump_bk (s : State) : (s.bump).bk = s.bk := rfl
@[simp] theorem State.bump_hbm (s : State) : (s.bump).hbm = s.hbm := rfl
@[simp] theorem State.bump_fab (s : State) : (s.bump).fab = s.fab := rfl
@[simp] theorem State.bump_io (s : State) : (s.bump).io = s.io := rfl
@[simp] theorem State.bump_fw (s : State) : (s.bump).fw = s.fw := rfl
@[simp] theorem State.bump_nextId (s : State) : (s.bump).nextId = s.nextId := rfl
@[simp] theorem State.bump_focus (s : State) : (s.bump).focus = s.focus := rfl
@[simp] theorem State.bump_agenda (s : State) : (s.bump).agenda = s.agenda := rfl
@[simp] theorem State.bump_freeCtr (s : State) : (s.bump).freeCtr = s.freeCtr + 1 := rfl

/-! ### Writes of a plane's registers -/

@[simp] theorem Plane.wg_task (p : Plane) (r : BitVec 6) (x : Word) : (p.wg r x).task = p.task := by
  unfold Plane.wg; split <;> rfl
@[simp] theorem Plane.wg_pc (p : Plane) (r : BitVec 6) (x : Word) : (p.wg r x).pc = p.pc := by
  unfold Plane.wg; split <;> rfl
@[simp] theorem Plane.wg_sr (p : Plane) (r : BitVec 6) (x : Word) : (p.wg r x).sr = p.sr := by
  unfold Plane.wg; split <;> rfl
@[simp] theorem Plane.wg_oc (p : Plane) (r : BitVec 6) (x : Word) : (p.wg r x).oc = p.oc := by
  unfold Plane.wg; split <;> rfl
@[simp] theorem Plane.wg_loop (p : Plane) (r : BitVec 6) (x : Word) : (p.wg r x).loop = p.loop := by
  unfold Plane.wg; split <;> rfl
@[simp] theorem Plane.wg_row (p : Plane) (r : BitVec 6) (x : Word) : (p.wg r x).row = p.row := by
  unfold Plane.wg; split <;> rfl
@[simp] theorem Plane.wg_rows (p : Plane) (r : BitVec 6) (x : Word) : (p.wg r x).rows = p.rows := by
  unfold Plane.wg; split <;> rfl
@[simp] theorem Plane.wg_acc (p : Plane) (r : BitVec 6) (x : Word) : (p.wg r x).acc = p.acc := by
  unfold Plane.wg; split <;> rfl
@[simp] theorem Plane.wg_nextId (p : Plane) (r : BitVec 6) (x : Word) : (p.wg r x).nextId = p.nextId := by
  unfold Plane.wg; split <;> rfl
@[simp] theorem Plane.wg_hold (p : Plane) (r : BitVec 6) (x : Word) : (p.wg r x).hold = p.hold := by
  unfold Plane.wg; split <;> rfl
@[simp] theorem Plane.wg_park (p : Plane) (r : BitVec 6) (x : Word) : (p.wg r x).park = p.park := by
  unfold Plane.wg; split <;> rfl
@[simp] theorem Plane.wg_trap (p : Plane) (r : BitVec 6) (x : Word) : (p.wg r x).trap = p.trap := by
  unfold Plane.wg; split <;> rfl
@[simp] theorem Plane.wg_stepping (p : Plane) (r : BitVec 6) (x : Word) : (p.wg r x).stepping = p.stepping := by
  unfold Plane.wg; split <;> rfl

@[simp] theorem Plane.wv_task (p : Plane) (r : BitVec 5) (x : VReg) : (p.wv r x).task = p.task := rfl
@[simp] theorem Plane.wv_pc (p : Plane) (r : BitVec 5) (x : VReg) : (p.wv r x).pc = p.pc := rfl
@[simp] theorem Plane.wv_sr (p : Plane) (r : BitVec 5) (x : VReg) : (p.wv r x).sr = p.sr := rfl
@[simp] theorem Plane.wv_oc (p : Plane) (r : BitVec 5) (x : VReg) : (p.wv r x).oc = p.oc := rfl
@[simp] theorem Plane.wv_loop (p : Plane) (r : BitVec 5) (x : VReg) : (p.wv r x).loop = p.loop := rfl
@[simp] theorem Plane.wv_row (p : Plane) (r : BitVec 5) (x : VReg) : (p.wv r x).row = p.row := rfl
@[simp] theorem Plane.wv_rows (p : Plane) (r : BitVec 5) (x : VReg) : (p.wv r x).rows = p.rows := rfl
@[simp] theorem Plane.wv_acc (p : Plane) (r : BitVec 5) (x : VReg) : (p.wv r x).acc = p.acc := rfl
@[simp] theorem Plane.wv_nextId (p : Plane) (r : BitVec 5) (x : VReg) : (p.wv r x).nextId = p.nextId := rfl
@[simp] theorem Plane.wv_hold (p : Plane) (r : BitVec 5) (x : VReg) : (p.wv r x).hold = p.hold := rfl
@[simp] theorem Plane.wv_park (p : Plane) (r : BitVec 5) (x : VReg) : (p.wv r x).park = p.park := rfl
@[simp] theorem Plane.wv_trap (p : Plane) (r : BitVec 5) (x : VReg) : (p.wv r x).trap = p.trap := rfl
@[simp] theorem Plane.wv_stepping (p : Plane) (r : BitVec 5) (x : VReg) : (p.wv r x).stepping = p.stepping := rfl

@[simp] theorem Plane.wp_task (p : Plane) (r : BitVec 3) (b : Bool) : (p.wp r b).task = p.task := by
  unfold Plane.wp; split <;> rfl
@[simp] theorem Plane.wp_pc (p : Plane) (r : BitVec 3) (b : Bool) : (p.wp r b).pc = p.pc := by
  unfold Plane.wp; split <;> rfl
@[simp] theorem Plane.wp_sr (p : Plane) (r : BitVec 3) (b : Bool) : (p.wp r b).sr = p.sr := by
  unfold Plane.wp; split <;> rfl
@[simp] theorem Plane.wp_oc (p : Plane) (r : BitVec 3) (b : Bool) : (p.wp r b).oc = p.oc := by
  unfold Plane.wp; split <;> rfl
@[simp] theorem Plane.wp_loop (p : Plane) (r : BitVec 3) (b : Bool) : (p.wp r b).loop = p.loop := by
  unfold Plane.wp; split <;> rfl
@[simp] theorem Plane.wp_row (p : Plane) (r : BitVec 3) (b : Bool) : (p.wp r b).row = p.row := by
  unfold Plane.wp; split <;> rfl
@[simp] theorem Plane.wp_rows (p : Plane) (r : BitVec 3) (b : Bool) : (p.wp r b).rows = p.rows := by
  unfold Plane.wp; split <;> rfl
@[simp] theorem Plane.wp_acc (p : Plane) (r : BitVec 3) (b : Bool) : (p.wp r b).acc = p.acc := by
  unfold Plane.wp; split <;> rfl
@[simp] theorem Plane.wp_nextId (p : Plane) (r : BitVec 3) (b : Bool) : (p.wp r b).nextId = p.nextId := by
  unfold Plane.wp; split <;> rfl
@[simp] theorem Plane.wp_hold (p : Plane) (r : BitVec 3) (b : Bool) : (p.wp r b).hold = p.hold := by
  unfold Plane.wp; split <;> rfl
@[simp] theorem Plane.wp_park (p : Plane) (r : BitVec 3) (b : Bool) : (p.wp r b).park = p.park := by
  unfold Plane.wp; split <;> rfl
@[simp] theorem Plane.wp_trap (p : Plane) (r : BitVec 3) (b : Bool) : (p.wp r b).trap = p.trap := by
  unfold Plane.wp; split <;> rfl
@[simp] theorem Plane.wp_stepping (p : Plane) (r : BitVec 3) (b : Bool) : (p.wp r b).stepping = p.stepping := by
  unfold Plane.wp; split <;> rfl

@[simp] theorem Plane.wm_task (p : Plane) (r : BitVec 3) (x : BitVec 16) : (p.wm r x).task = p.task := by
  unfold Plane.wm; split <;> rfl
@[simp] theorem Plane.wm_pc (p : Plane) (r : BitVec 3) (x : BitVec 16) : (p.wm r x).pc = p.pc := by
  unfold Plane.wm; split <;> rfl
@[simp] theorem Plane.wm_sr (p : Plane) (r : BitVec 3) (x : BitVec 16) : (p.wm r x).sr = p.sr := by
  unfold Plane.wm; split <;> rfl
@[simp] theorem Plane.wm_oc (p : Plane) (r : BitVec 3) (x : BitVec 16) : (p.wm r x).oc = p.oc := by
  unfold Plane.wm; split <;> rfl
@[simp] theorem Plane.wm_loop (p : Plane) (r : BitVec 3) (x : BitVec 16) : (p.wm r x).loop = p.loop := by
  unfold Plane.wm; split <;> rfl
@[simp] theorem Plane.wm_row (p : Plane) (r : BitVec 3) (x : BitVec 16) : (p.wm r x).row = p.row := by
  unfold Plane.wm; split <;> rfl
@[simp] theorem Plane.wm_rows (p : Plane) (r : BitVec 3) (x : BitVec 16) : (p.wm r x).rows = p.rows := by
  unfold Plane.wm; split <;> rfl
@[simp] theorem Plane.wm_acc (p : Plane) (r : BitVec 3) (x : BitVec 16) : (p.wm r x).acc = p.acc := by
  unfold Plane.wm; split <;> rfl
@[simp] theorem Plane.wm_nextId (p : Plane) (r : BitVec 3) (x : BitVec 16) : (p.wm r x).nextId = p.nextId := by
  unfold Plane.wm; split <;> rfl
@[simp] theorem Plane.wm_hold (p : Plane) (r : BitVec 3) (x : BitVec 16) : (p.wm r x).hold = p.hold := by
  unfold Plane.wm; split <;> rfl
@[simp] theorem Plane.wm_park (p : Plane) (r : BitVec 3) (x : BitVec 16) : (p.wm r x).park = p.park := by
  unfold Plane.wm; split <;> rfl
@[simp] theorem Plane.wm_trap (p : Plane) (r : BitVec 3) (x : BitVec 16) : (p.wm r x).trap = p.trap := by
  unfold Plane.wm; split <;> rfl
@[simp] theorem Plane.wm_stepping (p : Plane) (r : BitVec 3) (x : BitVec 16) : (p.wm r x).stepping = p.stepping := by
  unfold Plane.wm; split <;> rfl

@[simp] theorem Plane.wg_regs_v (p : Plane) (r : BitVec 6) (x : Word) : (p.wg r x).regs.v = p.regs.v := by
  unfold Plane.wg; split <;> rfl
@[simp] theorem Plane.wg_regs_m (p : Plane) (r : BitVec 6) (x : Word) : (p.wg r x).regs.m = p.regs.m := by
  unfold Plane.wg; split <;> rfl
@[simp] theorem Plane.wg_regs_p (p : Plane) (r : BitVec 6) (x : Word) : (p.wg r x).regs.p = p.regs.p := by
  unfold Plane.wg; split <;> rfl
@[simp] theorem Plane.wv_regs_g (p : Plane) (r : BitVec 5) (x : VReg) : (p.wv r x).regs.g = p.regs.g := rfl
@[simp] theorem Plane.wv_regs_m (p : Plane) (r : BitVec 5) (x : VReg) : (p.wv r x).regs.m = p.regs.m := rfl
@[simp] theorem Plane.wv_regs_p (p : Plane) (r : BitVec 5) (x : VReg) : (p.wv r x).regs.p = p.regs.p := rfl
@[simp] theorem Plane.wp_regs_g (p : Plane) (r : BitVec 3) (b : Bool) : (p.wp r b).regs.g = p.regs.g := by
  unfold Plane.wp; split <;> rfl
@[simp] theorem Plane.wp_regs_m (p : Plane) (r : BitVec 3) (b : Bool) : (p.wp r b).regs.m = p.regs.m := by
  unfold Plane.wp; split <;> rfl
@[simp] theorem Plane.wp_regs_v (p : Plane) (r : BitVec 3) (b : Bool) : (p.wp r b).regs.v = p.regs.v := by
  unfold Plane.wp; split <;> rfl
@[simp] theorem Plane.wm_regs_g (p : Plane) (r : BitVec 3) (x : BitVec 16) : (p.wm r x).regs.g = p.regs.g := by
  unfold Plane.wm; split <;> rfl
@[simp] theorem Plane.wm_regs_p (p : Plane) (r : BitVec 3) (x : BitVec 16) : (p.wm r x).regs.p = p.regs.p := by
  unfold Plane.wm; split <;> rfl
@[simp] theorem Plane.wm_regs_v (p : Plane) (r : BitVec 3) (x : BitVec 16) : (p.wm r x).regs.v = p.regs.v := by
  unfold Plane.wm; split <;> rfl

/-! ### What the register accessors read after a write (spec/05_core.md R92) -/

/-- g0 reads 0, whatever is written to it; any other g register reads what was written. -/
theorem Plane.rg_wg (p : Plane) (r d : BitVec 6) (x : Word) :
    (p.wg d x).rg r = if r = 0 then 0 else if r = d then x else p.rg r := by
  unfold Plane.wg Plane.rg
  by_cases hr : r = 0#6
  · simp [hr]
  · by_cases hd : d = 0#6
    · have : ¬ r = d := by rw [hd]; exact hr
      simp [hr, hd]
    · by_cases h : r = d
      · subst h; simp [hr]
      · have : d.toNat ≠ r.toNat := fun e => h (BitVec.eq_of_toNat_eq e.symm)
        simp [hr, hd, h, Vector.getElem_set, this]

/-- A v register reads what was written to it. -/
theorem Plane.rv_wv (p : Plane) (r d : BitVec 5) (x : VReg) :
    (p.wv d x).rv r = if r = d then x else p.rv r := by
  unfold Plane.wv Plane.rv
  by_cases h : r = d
  · subst h; simp
  · have : d.toNat ≠ r.toNat := fun e => h (BitVec.eq_of_toNat_eq e.symm)
    simp [h, Vector.getElem_set, this]

/-- m0 reads 0xFFFF, whatever is written to it; any other mask reads what was written. -/
theorem Plane.rm_wm (p : Plane) (r d : BitVec 3) (x : BitVec 16) :
    (p.wm d x).rm r = if r = 0 then 0xFFFF#16 else if r = d then x else p.rm r := by
  unfold Plane.wm Plane.rm
  by_cases hr : r = 0#3
  · simp [hr]
  · by_cases hd : d = 0#3
    · have : ¬ r = d := by rw [hd]; exact hr
      simp [hr, hd]
    · by_cases h : r = d
      · subst h; simp [hr]
      · have : d.toNat ≠ r.toNat := fun e => h (BitVec.eq_of_toNat_eq e.symm)
        simp [hr, hd, h, Vector.getElem_set, this]

/-- p0 reads true, whatever is written to it; any other predicate reads what was written. -/
theorem Plane.rp_wp (p : Plane) (r d : BitVec 3) (b : Bool) :
    (p.wp d b).rp r = if r = 0 then true else if r = d then b else p.rp r := by
  have key : ∀ q : BitVec 8, ∀ r d : BitVec 3, ∀ b : Bool,
      (if b then q ||| (1#8 <<< d.toNat) else q &&& ~~~(1#8 <<< d.toNat)).getLsbD r.toNat =
        if r = d then b else q.getLsbD r.toNat := by
    intro q r d b
    have hd := d.isLt
    have hr := r.isLt
    by_cases h : r = d
    · subst h
      cases b <;> simp [BitVec.getLsbD_and, BitVec.getLsbD_not, BitVec.getLsbD_or, BitVec.getLsbD_shiftLeft] <;> omega
    · have hne : r.toNat ≠ d.toNat := fun e => h (BitVec.eq_of_toNat_eq e)
      have : (1#8 <<< d.toNat).getLsbD r.toNat = false := by
        simp only [BitVec.getLsbD_shiftLeft, BitVec.getLsbD_one]
        simp
        omega
      have hr8 : r.toNat < 8 := by omega
      cases b <;> simp only [Bool.false_eq_true, if_false, if_true, BitVec.getLsbD_and, BitVec.getLsbD_not, BitVec.getLsbD_or,
        this, h, hr8, decide_true, Bool.not_false, Bool.and_true, Bool.or_false]
  unfold Plane.wp Plane.rp
  by_cases hr : r = 0#3
  · simp [hr]
  · by_cases hd : d = 0#3
    · have : ¬ r = d := by rw [hd]; exact hr
      simp [hr, hd]
    · have hd' : ¬ d = 0 := hd
      have hr' : ¬ r = 0 := hr
      simp only [hd', hr', if_false, decide_false, Bool.false_or]
      exact key p.regs.p r d b

/-! ### Register kinds do not meet -/

@[simp] theorem Plane.wg_rv (p : Plane) (r : BitVec 6) (x : Word) (d : BitVec 5) : (p.wg r x).rv d = p.rv d := by
  simp [Plane.rv]
@[simp] theorem Plane.wg_rp (p : Plane) (r : BitVec 6) (x : Word) (d : BitVec 3) : (p.wg r x).rp d = p.rp d := by
  simp [Plane.rp]
@[simp] theorem Plane.wg_rm (p : Plane) (r : BitVec 6) (x : Word) (d : BitVec 3) : (p.wg r x).rm d = p.rm d := by
  simp [Plane.rm]
@[simp] theorem Plane.wv_rg (p : Plane) (r : BitVec 5) (x : VReg) (d : BitVec 6) : (p.wv r x).rg d = p.rg d := by
  simp [Plane.rg]
@[simp] theorem Plane.wv_rp (p : Plane) (r : BitVec 5) (x : VReg) (d : BitVec 3) : (p.wv r x).rp d = p.rp d := by
  simp [Plane.rp]
@[simp] theorem Plane.wv_rm (p : Plane) (r : BitVec 5) (x : VReg) (d : BitVec 3) : (p.wv r x).rm d = p.rm d := by
  simp [Plane.rm]
@[simp] theorem Plane.wp_rg (p : Plane) (r : BitVec 3) (x : Bool) (d : BitVec 6) : (p.wp r x).rg d = p.rg d := by
  simp [Plane.rg]
@[simp] theorem Plane.wp_rv (p : Plane) (r : BitVec 3) (x : Bool) (d : BitVec 5) : (p.wp r x).rv d = p.rv d := by
  simp [Plane.rv]
@[simp] theorem Plane.wp_rm (p : Plane) (r : BitVec 3) (x : Bool) (d : BitVec 3) : (p.wp r x).rm d = p.rm d := by
  simp [Plane.rm]
@[simp] theorem Plane.wm_rg (p : Plane) (r : BitVec 3) (x : BitVec 16) (d : BitVec 6) : (p.wm r x).rg d = p.rg d := by
  simp [Plane.rg]
@[simp] theorem Plane.wm_rv (p : Plane) (r : BitVec 3) (x : BitVec 16) (d : BitVec 5) : (p.wm r x).rv d = p.rv d := by
  simp [Plane.rv]
@[simp] theorem Plane.wm_rp (p : Plane) (r : BitVec 3) (x : BitVec 16) (d : BitVec 3) : (p.wm r x).rp d = p.rp d := by
  simp [Plane.rp]

/-! ### Cores and planes after an update -/

@[simp] theorem State.core_setCore (s : State) (c : Nat) (k : Core) : (s.setCore c k).core c = k := by
  simp [State.core, State.setCore]

theorem State.core_setCore_ne (s : State) {c d : Nat} (k : Core) (h : d ≠ c) : (s.setCore c k).core d = s.core d := by
  simp [State.core, State.setCore, tgetD_tset_ne _ _ _ h]

@[simp] theorem State.core_modCore (s : State) (c : Nat) (f : Core → Core) : (s.modCore c f).core c = f (s.core c) := by
  simp [State.modCore]

theorem State.core_modCore_ne (s : State) {c d : Nat} (f : Core → Core) (h : d ≠ c) : (s.modCore c f).core d = s.core d := by
  simp [State.modCore, State.core_setCore_ne s _ h]

@[simp] theorem Core.plane_setPlane (k : Core) (p : BitVec 1) (x : Plane) : (k.setPlane p x).plane p = x := by
  unfold Core.setPlane Core.plane; split <;> simp [*]

theorem Core.plane_setPlane_ne (k : Core) {p q : BitVec 1} (x : Plane) (h : q ≠ p) :
    (k.setPlane p x).plane q = k.plane q := by
  have : ∀ p q : BitVec 1, q ≠ p → (p = 1#1 ∧ ¬ q = 1#1) ∨ (¬ p = 1#1 ∧ q = 1#1) := by decide
  rcases this p q h with ⟨h1, h2⟩ | ⟨h1, h2⟩ <;> simp [Core.setPlane, Core.plane, h1, h2]

@[simp] theorem Core.setPlane_act (k : Core) (p : BitVec 1) (x : Plane) : (k.setPlane p x).act = k.act := by
  unfold Core.setPlane; split <;> rfl
@[simp] theorem Core.setPlane_lines (k : Core) (p : BitVec 1) (x : Plane) : (k.setPlane p x).lines = k.lines := by
  unfold Core.setPlane; split <;> rfl
@[simp] theorem Core.setPlane_tc (k : Core) (p : BitVec 1) (x : Plane) : (k.setPlane p x).tc = k.tc := by
  unfold Core.setPlane; split <;> rfl
@[simp] theorem Core.setPlane_spad (k : Core) (p : BitVec 1) (x : Plane) : (k.setPlane p x).spad = k.spad := by
  unfold Core.setPlane; split <;> rfl
@[simp] theorem Core.setPlane_creel (k : Core) (p : BitVec 1) (x : Plane) : (k.setPlane p x).creel = k.creel := by
  unfold Core.setPlane; split <;> rfl
@[simp] theorem Core.setPlane_bobbin (k : Core) (p : BitVec 1) (x : Plane) : (k.setPlane p x).bobbin = k.bobbin := by
  unfold Core.setPlane; split <;> rfl
@[simp] theorem Core.setPlane_tiles (k : Core) (p : BitVec 1) (x : Plane) : (k.setPlane p x).tiles = k.tiles := by
  unfold Core.setPlane; split <;> rfl
@[simp] theorem Core.setPlane_mx (k : Core) (p : BitVec 1) (x : Plane) : (k.setPlane p x).mx = k.mx := by
  unfold Core.setPlane; split <;> rfl
@[simp] theorem Core.setPlane_cp (k : Core) (p : BitVec 1) (x : Plane) : (k.setPlane p x).cp = k.cp := by
  unfold Core.setPlane; split <;> rfl
@[simp] theorem Core.setPlane_sect (k : Core) (p : BitVec 1) (x : Plane) : (k.setPlane p x).sect = k.sect := by
  unfold Core.setPlane; split <;> rfl

@[simp] theorem Core.setPlane_setPlane (k : Core) (p : BitVec 1) (x y : Plane) :
    (k.setPlane p x).setPlane p y = k.setPlane p y := by
  unfold Core.setPlane; split <;> rfl

@[simp] theorem Core.setPlane_plane (k : Core) (p : BitVec 1) : k.setPlane p (k.plane p) = k := by
  unfold Core.setPlane Core.plane; split <;> rfl

@[simp] theorem State.plane_modPlane (s : State) (c : Nat) (p : BitVec 1) (f : Plane → Plane) :
    (s.modPlane c p f).plane c p = f (s.plane c p) := by
  simp [State.plane, State.modPlane]

@[simp] theorem State.fc_modPl (s : State) (f : Plane → Plane) : (s.modPl f).fc = s.fc := rfl

@[simp] theorem State.fp_modPl (s : State) (f : Plane → Plane) : (s.modPl f).fp = s.fp := by
  unfold State.fp; rw [State.fc_modPl]; simp [State.modPl, State.modPlane, State.fp]

/-- The executing plane after it was rewritten. -/
@[simp] theorem State.pl_modPl (s : State) (f : Plane → Plane) : (s.modPl f).pl = f s.pl := by
  unfold State.pl
  rw [State.fc_modPl, State.fp_modPl]
  exact State.plane_modPlane s s.fc s.fp f

@[simp] theorem State.setCore_setCore (s : State) (c : Nat) (k l : Core) : (s.setCore c k).setCore c l = s.setCore c l := by
  simp [State.setCore]

@[simp] theorem State.modCore_modCore (s : State) (c : Nat) (f g : Core → Core) :
    (s.modCore c f).modCore c g = s.modCore c fun k => g (f k) := by
  simp [State.modCore]

@[simp] theorem State.modPlane_modPlane (s : State) (c : Nat) (p : BitVec 1) (f g : Plane → Plane) :
    (s.modPlane c p f).modPlane c p g = s.modPlane c p fun x => g (f x) := by
  simp [State.modPlane]

/-- Two rewrites of the executing plane are one. -/
@[simp] theorem State.modPl_modPl (s : State) (f g : Plane → Plane) :
    (s.modPl f).modPl g = s.modPl fun x => g (f x) := by
  unfold State.modPl
  rw [show (s.modPlane s.fc s.fp f).fc = s.fc from rfl, show (s.modPlane s.fc s.fp f).fp = s.fp from State.fp_modPl s f]
  exact State.modPlane_modPlane s s.fc s.fp f g

/-- A rewrite of the executing plane that depends on it alone. -/
theorem State.modPl_const (s : State) (f : Plane → Plane) : s.modPl f = s.modPl fun _ => f s.pl := rfl

/-- The other plane, and the planes of every other core, are as before a rewrite of the executing plane. -/
theorem State.plane_modPl_ne (s : State) (f : Plane → Plane) (c : Nat) (p : BitVec 1) (h : ¬ (c = s.fc ∧ p = s.fp)) :
    (s.modPl f).plane c p = s.plane c p := by
  unfold State.plane State.modPl State.modPlane
  by_cases hc : c = s.fc
  · subst hc
    have : p ≠ s.fp := fun e => h ⟨rfl, e⟩
    simp [Core.plane_setPlane_ne _ _ this]
  · rw [State.core_modCore_ne s _ hc]

@[simp] theorem State.core_modPl_act (s : State) (g : Plane → Plane) (c : Nat) :
    ((s.modPl g).core c).act = (s.core c).act := by
  unfold State.modPl State.modPlane
  by_cases hc : c = s.fc
  · subst hc; simp
  · rw [State.core_modCore_ne s _ hc]

@[simp] theorem State.core_modPl_lines (s : State) (g : Plane → Plane) (c : Nat) :
    ((s.modPl g).core c).lines = (s.core c).lines := by
  unfold State.modPl State.modPlane
  by_cases hc : c = s.fc
  · subst hc; simp
  · rw [State.core_modCore_ne s _ hc]

@[simp] theorem State.core_modPl_tc (s : State) (g : Plane → Plane) (c : Nat) :
    ((s.modPl g).core c).tc = (s.core c).tc := by
  unfold State.modPl State.modPlane
  by_cases hc : c = s.fc
  · subst hc; simp
  · rw [State.core_modCore_ne s _ hc]

@[simp] theorem State.core_modPl_spad (s : State) (g : Plane → Plane) (c : Nat) :
    ((s.modPl g).core c).spad = (s.core c).spad := by
  unfold State.modPl State.modPlane
  by_cases hc : c = s.fc
  · subst hc; simp
  · rw [State.core_modCore_ne s _ hc]

@[simp] theorem State.core_modPl_creel (s : State) (g : Plane → Plane) (c : Nat) :
    ((s.modPl g).core c).creel = (s.core c).creel := by
  unfold State.modPl State.modPlane
  by_cases hc : c = s.fc
  · subst hc; simp
  · rw [State.core_modCore_ne s _ hc]

@[simp] theorem State.core_modPl_bobbin (s : State) (g : Plane → Plane) (c : Nat) :
    ((s.modPl g).core c).bobbin = (s.core c).bobbin := by
  unfold State.modPl State.modPlane
  by_cases hc : c = s.fc
  · subst hc; simp
  · rw [State.core_modCore_ne s _ hc]

@[simp] theorem State.core_modPl_tiles (s : State) (g : Plane → Plane) (c : Nat) :
    ((s.modPl g).core c).tiles = (s.core c).tiles := by
  unfold State.modPl State.modPlane
  by_cases hc : c = s.fc
  · subst hc; simp
  · rw [State.core_modCore_ne s _ hc]

@[simp] theorem State.core_modPl_mx (s : State) (g : Plane → Plane) (c : Nat) :
    ((s.modPl g).core c).mx = (s.core c).mx := by
  unfold State.modPl State.modPlane
  by_cases hc : c = s.fc
  · subst hc; simp
  · rw [State.core_modCore_ne s _ hc]

@[simp] theorem State.core_modPl_cp (s : State) (g : Plane → Plane) (c : Nat) :
    ((s.modPl g).core c).cp = (s.core c).cp := by
  unfold State.modPl State.modPlane
  by_cases hc : c = s.fc
  · subst hc; simp
  · rw [State.core_modCore_ne s _ hc]

@[simp] theorem State.core_modPl_sect (s : State) (g : Plane → Plane) (c : Nat) :
    ((s.modPl g).core c).sect = (s.core c).sect := by
  unfold State.modPl State.modPlane
  by_cases hc : c = s.fc
  · subst hc; simp
  · rw [State.core_modCore_ne s _ hc]

/-- Reading tasks and VDs after a rewrite of the executing plane. -/
@[simp] theorem State.task_modPl (s : State) (f : Plane → Plane) (k : Nat) : (s.modPl f).task k = s.task k := rfl
@[simp] theorem State.vd_modPl (s : State) (f : Plane → Plane) (v : Nat) : (s.modPl f).vd v = s.vd v := rfl
@[simp] theorem State.vd_modVd_same (s : State) (v : Nat) (f : Vd → Vd) : (s.modVd v f).vd v = (s.vd v).map f := by
  simp [State.vd, State.modVd]
theorem State.vd_modVd_ne (s : State) {v w : Nat} (f : Vd → Vd) (h : w ≠ v) : (s.modVd v f).vd w = s.vd w := by
  simp [State.vd, State.modVd, tget_tmod_ne _ _ h]
@[simp] theorem State.task_modTask_same (s : State) (k : Nat) (f : Task → Task) : (s.modTask k f).task k = (s.task k).map f := by
  simp [State.task, State.modTask]
theorem State.task_modTask_ne (s : State) {k j : Nat} (f : Task → Task) (h : j ≠ k) : (s.modTask k f).task j = s.task j := by
  simp [State.task, State.modTask, tget_tmod_ne _ _ h]

/-- A rewrite of the executing plane that keeps its task keeps the VD of that task. -/
theorem State.curTask_modPl (s : State) (f : Plane → Plane) (h : (f s.pl).task = s.pl.task) :
    (s.modPl f).curTask = s.curTask := by
  simp only [State.curTask, State.pl_modPl, h]; rfl

end Sys2Proof.Machine
end

