-- ==== Sys2Proof/Laws/Ops.lean ====
section
/-! SUPPORT. One lemma per shared operation of the scalar meanings: everything it can do. -/

namespace Sys2Proof.Machine

/-! ### Passing an instruction -/

@[simp] theorem Loop.stop_n (l : Loop) : l.stop.n = l.n := rfl

/-- What passing an instruction leaves in a plane: everything but pc, loop and hold. -/
theorem Plane.pass_eq (x : Plane) (l : Option Line) (n : Nat) :
    x.pass l n = { x with pc := (x.pass l n).pc, loop := (x.pass l n).loop, hold := none } := by
  cases l with
  | none => rfl
  | some l =>
    by_cases h1 : wordIdx x.pc + n ≤ linkCnt (l.word 0)
    · simp [Plane.pass, h1]
    · cases h2 : x.loop.act <;> cases h3 : linkEnd (l.word 0) <;>
        by_cases h4 : (x.loop.exit != 0 && linkNext (lineOf x.pc) (l.word 0) == x.loop.exit) = true <;>
        by_cases h5 : x.loop.j.toNat + 1 < x.loop.passes <;>
        simp only [Plane.pass, Plane.lineEnd, Plane.endPass, h1, h2, h3, h4, h5, if_true, if_false, Bool.false_eq_true]

/-- Passing an instruction looks at the pc and the loop alone. -/
theorem Plane.pass_pc_congr (x y : Plane) (l : Option Line) (n : Nat) (hp : x.pc = y.pc) (hl : x.loop = y.loop) :
    (x.pass l n).pc = (y.pass l n).pc ∧ (x.pass l n).loop = (y.pass l n).loop := by
  obtain ⟨xt, xp, xr, xs, xo, xl, xw, xv, xa, xn, xh, xk, xtr, xst⟩ := x
  obtain ⟨yt, yp, yr, ys, yo, yl, yw, yv, ya, yn, yh, yk, ytr, yst⟩ := y
  subst hp hl
  cases l with
  | none => exact ⟨rfl, rfl⟩
  | some l =>
    by_cases h1 : wordIdx xp + n ≤ linkCnt (l.word 0)
    · simp [Plane.pass, h1]
    · cases h2 : xl.act <;> cases h3 : linkEnd (l.word 0) <;>
        by_cases h4 : (xl.exit != 0 && linkNext (lineOf xp) (l.word 0) == xl.exit) = true <;>
        by_cases h5 : xl.j.toNat + 1 < xl.passes <;>
        simp only [Plane.pass, Plane.lineEnd, Plane.endPass, h1, h2, h3, h4, h5, if_true, if_false, Bool.false_eq_true,
          and_self]

/-- The line at the executing plane's pc after a rewrite that keeps its pc and task. -/
theorem State.lineAt_modPl (s : State) (f : Plane → Plane) (hp : (f s.pl).pc = s.pl.pc) (ht : (f s.pl).task = s.pl.task) :
    (s.modPl f).lineAt (s.modPl f).fc (s.modPl f).fp = s.lineAt s.fc s.fp := by
  have h1 : (s.modPl f).plane s.fc s.fp = f s.pl := State.plane_modPlane s s.fc s.fp f
  have h2 : s.plane s.fc s.fp = s.pl := rfl
  unfold State.lineAt State.vdOf Core.findLine
  rw [State.fc_modPl, State.fp_modPl, h1, h2, hp, ht, State.core_modPl_lines]
  rfl

/-- `advance` rewrites the executing plane alone: its pc, its loop and its hold. -/
theorem State.advance_eq (s : State) (n : Nat) : s.advance n = s.modPl fun x => x.pass (s.lineAt s.fc s.fp) n := rfl

/-- `advance` after a rewrite of the executing plane that keeps pc, loop and task. -/
theorem State.modPl_advance (s : State) (f : Plane → Plane) (n : Nat) (hp : (f s.pl).pc = s.pl.pc)
    (ht : (f s.pl).task = s.pl.task) :
    (s.modPl f).advance n = s.modPl fun _ => (f s.pl).pass (s.lineAt s.fc s.fp) n := by
  rw [State.advance_eq, State.lineAt_modPl s f hp ht, State.modPl_modPl]
  rfl

/-- The plane that a scalar instruction leaves. -/
theorem State.pl_modPl_advance (s : State) (f : Plane → Plane) (n : Nat) (hp : (f s.pl).pc = s.pl.pc)
    (ht : (f s.pl).task = s.pl.task) (hl : (f s.pl).loop = s.pl.loop) :
    ((s.modPl f).advance n).pl =
      { f s.pl with pc := s.nextPc n, loop := (s.pl.pass (s.lineAt s.fc s.fp) n).loop, hold := none } := by
  have h := Plane.pass_pc_congr (f s.pl) s.pl (s.lineAt s.fc s.fp) n hp hl
  rw [State.modPl_advance s f n hp ht, State.pl_modPl, Plane.pass_eq, h.1, h.2]
  rfl

/-- A completed scalar instruction (R103, R104): what it does under a true guard and under a false one. -/
theorem State.scalar_eq (s : State) (g : BitVec 4) (n : Nat) (d : BitVec 6) (x : Word) :
    s.scalar g n d x = if s.pl.guard g then (s.modPl fun p => p.wg d x).advance n else s.advance n := rfl

end Sys2Proof.Machine
end

