-- ==== Sys2Proof/Machine/Assembler.lean ====
section
/-! DEFINITION. The two choices of the sminis assembler, which form of an instruction to use and where a line ends, on source that has been
read and whose names are numbers (spec/07_assembly.md R132, R134 to R138). No step of the machine uses it: it says which lines a program's
memory holds (notes/assumptions/86.md). -/

namespace Sys2Proof.Machine

/-! ### The form of an instruction (R134) -/

/-- A second source as it is written (R133): a register, or a constant with its exact value. -/
inductive AsmSrc where
  | reg (r : BitVec 6)
  | const (n : Int)
  deriving DecidableEq, Repr

/-- A value in a signed field of `w` bits, or an error (R131). -/
def asmField (w : Nat) (n : Int) : Option (BitVec w) :=
  if -(2 ^ (w - 1) : Int) ≤ n ∧ n < 2 ^ (w - 1) then some (BitVec.ofInt w n) else none

/-- An arithmetic major: TRI with a register; SIM where the destination is the first source and the constant fits 12 bits; else LIM. -/
def asmArith (tri : Tri → Instr) (sim : Sim → Instr) (lim : Lim → Instr) (d a : BitVec 6) (b : AsmSrc) (w : BitVec 1) (g : BitVec 4) : Option Instr :=
  match b with
  | .reg r => some (tri { d := d, a := a, b := r, w := w, g := g })
  | .const n =>
    match (if d = a then asmField 12 n else none), asmField 32 n with
    | some i, _ => some (sim { d := d, imm := i, w := w, g := g })
    | none, some i => some (lim { d := d, a := a, w := w, g := g, imm := i })
    | none, none => none

/-- LDI: SIM if the value fits 12 bits signed, else LIM. -/
def asmLdi (d : BitVec 6) (n : Int) (g : BitVec 4) : Option Instr :=
  match asmField 12 n, asmField 32 n with
  | some i, _ => some (.ldiSim { d := d, imm := i, g := g })
  | none, some i => some (.ldiLim { d := d, g := g, imm := i })
  | none, none => none

/-- A memory operand that takes X = 1: the ordering, its scope, which is the device's where none is written, and the offset; none where the
operand takes X = 0, which plain ordering and offset 0 do. A scope without an ordering, and an offset out of its field, are errors (R132,
R134). -/
def asmMem (ar : BitVec 2) (scp : Option (BitVec 3)) (off : Int) : Option (Option (BitVec 2 × BitVec 3 × BitVec 24)) :=
  if ar = 0 ∧ scp.isSome = true then none
  else if ar = 0 ∧ off = 0 then some none
  else (asmField 24 off).map fun o => some (ar, if ar = 0 then 0 else scp.getD 2, o)

/-- LD. -/
def asmLd (o : Ld0) (ar : BitVec 2) (scp : Option (BitVec 3)) (off : Int) : Option Instr :=
  (asmMem ar scp off).map fun x => match x with
    | none => .ld o
    | some (r, s, f) => .ldOff { d := o.d, a := o.a, sz := o.sz, cl := o.cl, s := o.s, g := o.g, ar := r, scp := s, off := f }

/-- ST. -/
def asmSt (o : St0) (ar : BitVec 2) (scp : Option (BitVec 3)) (off : Int) : Option Instr :=
  (asmMem ar scp off).map fun x => match x with
    | none => .st o
    | some (r, s, f) => .stOff { d := o.d, a := o.a, sz := o.sz, cl := o.cl, g := o.g, ar := r, scp := s, off := f }

/-- VLD. -/
def asmVld (o : Vld0) (ar : BitVec 2) (scp : Option (BitVec 3)) (off : Int) : Option Instr :=
  (asmMem ar scp off).map fun x => match x with
    | none => .vld o
    | some (r, s, f) => .vldOff { v := o.v, a := o.a, lay := o.lay, cl := o.cl, g := o.g, ar := r, scp := s, off := f }

/-- VST. -/
def asmVst (o : Vst0) (ar : BitVec 2) (scp : Option (BitVec 3)) (off : Int) : Option Instr :=
  (asmMem ar scp off).map fun x => match x with
    | none => .vst o
    | some (r, s, f) => .vstOff { v := o.v, a := o.a, cl := o.cl, g := o.g, ar := r, scp := s, off := f }

/-- The ordering and scope of a memory operand that takes X = 1 whatever is written: the scope is the device's where an ordering stands without one;
a scope without an ordering is an error (R132). -/
def asmOrd (ar : BitVec 2) (scp : Option (BitVec 3)) : Option (BitVec 3) :=
  if ar = 0 then (if scp.isSome then none else some 0) else some (scp.getD 2)

/-- LDSEC or STSEC, whose offset is OFF18 (R120, R134). -/
def asmSec (mk : Sec → Instr) (v : BitVec 5) (a : BitVec 6) (cl g : BitVec 4) (ar : BitVec 2) (scp : Option (BitVec 3)) (mr : BitVec 6) (off : Int) :
    Option Instr :=
  match asmOrd ar scp, asmField 18 off with
  | some s, some o => some (mk { v := v, a := a, cl := cl, g := g, ar := ar, scp := s, mr := mr, off := o })
  | _, _ => none

/-- AMO, whose offset is OFF11 (R121, R134). -/
def asmAmo (d a : BitVec 6) (cl g : BitVec 4) (ar : BitVec 2) (scp : Option (BitVec 3)) (aop : BitVec 4) (b : BitVec 6) (off : Int) : Option Instr :=
  match asmOrd ar scp, asmField 11 off with
  | some s, some o => some (.amo { d := d, a := a, cl := cl, g := g, ar := ar, scp := s, aop := aop, b := b, off := o })
  | _, _ => none

/-- CAS, whose offset is OFF11. -/
def asmCas (d a : BitVec 6) (cl g : BitVec 4) (ar : BitVec 2) (scp : Option (BitVec 3)) (b c : BitVec 6) (off : Int) : Option Instr :=
  match asmOrd ar scp, asmField 11 off with
  | some s, some o => some (.cas { d := d, a := a, cl := cl, g := g, ar := ar, scp := s, b := b, c := c, off := o })
  | _, _ => none

/-- BPUT, whose offset is OFF11. -/
def asmBput (a : BitVec 6) (cl g : BitVec 4) (ar : BitVec 2) (scp : Option (BitVec 3)) (aop : BitVec 4) (b : BitVec 6) (off : Int) : Option Instr :=
  match asmOrd ar scp, asmField 11 off with
  | some s, some o => some (.bput { a := a, cl := cl, g := g, ar := ar, scp := s, aop := aop, b := b, off := o })
  | _, _ => none

/-- A vector major that takes either X, from its operands written in the longer form: X = 1 where RM, SAT, SC or an immediate is not 0, else
X = 0 (notes/assumptions/86.md). Any other instruction is the form it is. -/
def asmForm (i : Instr) : Instr :=
  let v0 (mk : V0 → Instr) (o : V1) : Instr :=
    if o.rm = 0 ∧ o.sat = 0 ∧ o.sc = 0 then mk { vd := o.vd, va := o.va, vb := o.vb, ty := o.ty, g := o.g } else i
  let l0 (mk : Vl0 → Instr) (o : Vl1) : Instr := if o.sc = 0 then mk { vd := o.vd, va := o.va, vb := o.vb, g := o.g } else i
  let r0 (mk : Vu0 → Instr) (o : Vred1) : Instr := if o.rop = 0 then mk { vd := o.vd, va := o.va, ty := o.ty, g := o.g } else i
  let b0 (mk : Vu0 → Instr) (o : Vab1) : Instr := if o.sat = 0 then mk { vd := o.vd, va := o.va, ty := o.ty, g := o.g } else i
  match i with
  | .vaddX o => v0 .vadd o
  | .vsubX o => v0 .vsub o
  | .vmulX o => v0 .vmul o
  | .vdivX o => if o.rm = 0 ∧ o.sc = 0 then .vdiv { vd := o.vd, va := o.va, vb := o.vb, ty := o.ty, g := o.g } else i
  | .vsqrtX o => if o.rm = 0 then .vsqrt { vd := o.vd, va := o.va, ty := o.ty, g := o.g } else i
  | .vabsX o => b0 .vabs o
  | .vnegX o => b0 .vneg o
  | .vandX o => l0 .vand o
  | .vorX o => l0 .vor o
  | .vxorX o => l0 .vxor o
  | .vredX o => r0 .vred o
  | .vscanX o => r0 .vscan o
  | .vmin o => .vmin { o with x := 0 }
  | .vmax o => .vmax { o with x := 0 }
  | .vshl o => .vshl { o with x := 0 }
  | .vshr o => .vshr { o with x := 0 }
  | .vsar o => .vsar { o with x := 0 }
  | .vperm o => .vperm { o with x := 0 }
  | .vclass o => .vclass { o with x := 0 }
  | _ => i

/-! ### Line packing (R135 to R138) -/

/-- What stands in `.text`. A label is a number; `forces` says that it is declared `.global` or is the entry of a `.sweep`. -/
inductive AsmItem where
  | instr (i : Instr)
  | br (g : BitVec 4) (target : Nat)
  | call (g : BitVec 4) (target : Nat)
  | label (n : Nat) (forces : Bool)
  | line (stg : BitVec 2) (l : Bool)
  | lineEnd
  | owner (o : BitVec 2)
  | align (k : Nat)
  | task (n : Nat)
  | data (w : IWord)
  | chain (n : Nat) (entries : List (List IWord))
  deriving DecidableEq, Repr

/-- A word of a line before labels are known: an instruction's first word, any other word, a BR or CALL to a label. -/
inductive AsmWord where
  | first (w : IWord)
  | rest (w : IWord)
  | br (g : BitVec 4) (target : Nat)
  | call (g : BitVec 4) (target : Nat)
  deriving DecidableEq, Repr

/-- A line: its number from the start of `.text`, the link word's fields that are known, its words from word 1 on. -/
structure AsmLine where
  num : Nat
  own : BitVec 2
  stg : BitVec 2
  l : Bool
  stop : Bool
  words : List AsmWord
  deriving DecidableEq, Repr

/-- The assembler on its way: lines done, the open line, the next line's number, owner and attributes in force, labels that wait for a word,
labels with their line and word. -/
structure Asm where
  done : List AsmLine
  cur : Option AsmLine
  next : Nat
  own : BitVec 2
  stg : BitVec 2
  l : Bool
  waiting : List Nat
  labels : List (Nat × Nat × Nat)
  deriving DecidableEq, Repr

/-- The start of `.text`. -/
def Asm.start : Asm := { done := [], cur := none, next := 0, own := 0, stg := 0, l := false, waiting := [], labels := [] }

/-- The next word begins a line. -/
def Asm.close (s : Asm) : Asm := { s with done := s.done ++ s.cur.toList, cur := none }

/-- The run of lines ends with the current line (`.line end`, `.chain`): the last line that holds words, which a transfer or a loop may have
ended already. -/
def Asm.stop (s : Asm) : Asm :=
  let t := s.close
  { t with done := match t.done.reverse with | c :: rest => (({ c with stop := true } : AsmLine) :: rest).reverse | [] => [] }

/-- The line ends after these words: the instruction is BR, JMP, CALL, RET, LOOP or LOOPM (R135). -/
def AsmWord.ends (w : AsmWord) : Bool :=
  match w with | .first w => isTransfer w || isLoop w | .br _ _ => true | .call _ _ => true | .rest _ => false

/-- The word ends the line in a transfer: E (R136). -/
def AsmWord.transfers (w : AsmWord) : Bool :=
  match w with | .first w => isTransfer w | .br _ _ => true | .call _ _ => true | .rest _ => false

/-- Puts the words of one instruction or entry into the open line, or, where they do not fit its 15 words, into a new one. -/
def Asm.place (s : Asm) (ws : List AsmWord) : Asm :=
  let s := if (s.cur.map fun c => c.words.length).getD 0 + ws.length ≤ 15 then s else s.close
  let c := s.cur.getD { num := s.next, own := s.own, stg := s.stg, l := s.l, stop := false, words := [] }
  let s := { s with cur := some { c with words := c.words ++ ws }, next := c.num + 1, waiting := [],
                    labels := s.labels ++ s.waiting.map fun n => (n, c.num, c.words.length + 1) }
  if ws.any AsmWord.ends then s.close else s

/-- One item; `named` are the labels that BR and CALL name. None is an error. `.align k` counts the multiples of `k` from the start of `.text`
(notes/assumptions/86.md). -/
def Asm.item (named : List Nat) (s : Asm) (x : AsmItem) : Option Asm :=
  match x with
  | .instr i => if wellFormed i then (encode (asmForm i)).map fun w => s.place (.first w.1 :: w.2.toList.map .rest) else none
  | .br g t => some (s.place [.br g t])
  | .call g t => some (s.place [.call g t])
  | .label n forces => some { (if forces || named.contains n then s.close else s) with waiting := s.waiting ++ [n] }
  | .line stg l => some { s.close with stg := stg, l := l }
  | .lineEnd => some { s.stop with stg := 0, l := false }
  | .owner o => if o = 3 then none else some { s.close with own := o }
  | .align k => if k = 0 ∨ 2097152 < k ∨ 2097152 % k ≠ 0 then none else some { s.close with next := if k ≤ 64 then s.next else (s.next + k / 64 - 1) / (k / 64) * (k / 64) }
  | .task n => some { s.close with own := 0, stg := 0, l := false, waiting := s.waiting ++ [n] }
  | .data w => if s.own = 2 then some (s.place [.rest w]) else none
  | .chain n es =>
    if es.any fun e => e.isEmpty || decide (15 < e.length) then none
    else
      let t : Asm := es.foldl (fun s e => s.place (e.map .rest)) { s.close with own := 1, waiting := s.waiting ++ [n] }
      some { t.stop with own := s.own }

/-- The line of a label, which must be a line's start. -/
def asmTarget (labels : List (Nat × Nat × Nat)) (n : Nat) : Option Nat :=
  match labels.filter fun e => e.1 == n with | [(_, l, 1)] => some l | _ => none

/-- A word with its label's distance (R136). -/
def AsmWord.fix (labels : List (Nat × Nat × Nat)) (num : Nat) (w : AsmWord) : Option IWord :=
  match w with
  | .first w => some w
  | .rest w => some w
  | .br g t => (asmTarget labels t).bind fun l => (asmField 20 ((l : Int) - num)).bind fun o => (encode (.br { off := o, g := g })).map (·.1)
  | .call g t => (asmTarget labels t).bind fun l => (asmField 19 ((l : Int) - num)).bind fun o => (encode (.callRel { off := o, g := g })).map (·.1)

/-- The link word of a line, given the line after it (R136). -/
def AsmLine.link (x : AsmLine) (after : Option AsmLine) : IWord :=
  let e := match x.words.getLast? with | some w => w.transfers | none => false
  let nxt : BitVec 22 := match after with
    | some y => if !x.stop && y.own == x.own then BitVec.ofNat 22 (y.num - x.num) else 0x200000
    | none => 0x200000
  x.own ++ BitVec.ofNat 4 x.words.length ++ BitVec.ofBool e ++ x.stg ++ BitVec.ofBool x.l ++ nxt

/-- The lines with their link words, the words above CNT zero. -/
def asmLines (labels : List (Nat × Nat × Nat)) : List AsmLine → Option (List (Nat × List IWord))
  | [] => some []
  | x :: rest =>
    match (x.words.mapM (AsmWord.fix labels x.num)), asmLines labels rest with
    | some ws, some ls => some ((x.num, x.link rest.head? :: ws ++ List.replicate (15 - x.words.length) 0) :: ls)
    | _, _ => none

/-- The labels that BR and CALL name (R137). -/
def asmNamed (xs : List AsmItem) : List Nat :=
  xs.filterMap fun x => match x with
    | .br _ t => some t | .call _ t => some t | .instr _ => none | .label _ _ => none | .line _ _ => none | .lineEnd => none | .owner _ => none
    | .align _ => none | .task _ => none | .data _ => none | .chain _ _ => none

/-- The lines of a `.text` section: each line's number and its 16 words. None where the source has an error: then nothing is emitted (R131). -/
def assemble (xs : List AsmItem) : Option (List (Nat × List IWord)) :=
  match xs.foldl (fun s x => s.bind fun s => s.item (asmNamed xs) x) (some Asm.start) with
  | some s => asmLines s.labels s.close.done
  | none => none

end Sys2Proof.Machine
end

