-- ==== Sys2Proof/Tests/Slice0.lean ====
section
/-! SUPPORT. Tests: ill-formed terms, words of the spec's encodings, steps on small states, and for every statement with hypotheses a state and
operands that meet them. Expected values are the spec's worked values, or computed by hand from its rules. -/

namespace Sys2Proof.Tests

open Sys2Proof Sys2Proof.Machine Sys2Proof.Claims

/-! ### WellFormed refuses one ill-formed term for each of its checks -/

/-- W = 1 of MULH and MULHU; S = 1 with SZ = 3; POS + LEN of 65; two destinations p3 (R117, R120, R126, R105). -/
theorem test_wf_scalar : [Instr.mulhTri ⟨1, 2, 3, 1, 0⟩, .mulhSim ⟨1, 2, 1, 0⟩, .mulhLim ⟨1, 2, 1, 0, 3⟩, .mulhuTri ⟨1, 2, 3, 1, 0⟩, .mulhuSim ⟨1, 2, 1, 0⟩,
    .mulhuLim ⟨1, 2, 1, 0, 3⟩, .ld ⟨1, 2, 3, 0, 1, 0⟩, .bfxImm ⟨1, 2, 0, 63, 1⟩, .bfxuImm ⟨1, 2, 0, 0, 63⟩, .bfxuImm ⟨1, 2, 0, 1, 63⟩, .bfiImm ⟨1, 2, 0, 32, 32⟩,
    .sel ⟨1, 2, 3, 0, 8⟩, .cmpReg ⟨3, 3, 1, 2, 0, 0⟩, .cmpImm ⟨3, 3, 1, 0, 0, 7⟩, .cmpReg ⟨0, 0, 1, 2, 0, 0⟩].map wellFormed =
  [false, false, false, false, false, false, false, false, true, false, false, false, false, false, true] := by decide

/-- AR not admitted, SCP of 5, SCP with AR = 0, an AMO operation of 9, a BPUT operation of 4 (R120, R121, R223). -/
theorem test_wf_memory : [Instr.ldOff ⟨1, 2, 3, 0, 1, 0, 0, 0, 0⟩, .ldOff ⟨1, 2, 3, 0, 0, 0, 2, 1, 0⟩, .stOff ⟨1, 2, 3, 0, 0, 1, 1, 0⟩, .ldsec ⟨1, 2, 0, 0, 1, 5, 3, 0⟩,
    .stsec ⟨1, 2, 0, 0, 0, 1, 3, 0⟩, .amo ⟨1, 2, 0, 0, 3, 4, 9, 3, 0⟩, .amo ⟨1, 2, 0, 0, 3, 4, 8, 3, 0⟩, .cas ⟨1, 2, 0, 0, 3, 7, 3, 4, 0⟩,
    .bput ⟨1, 0, 0, 0, 0, 4, 2, 0⟩, .fence ⟨0, 5, 0⟩, .flushp ⟨5, 0⟩, .vld ⟨1, 2, 3, 0, 0⟩, .vldOff ⟨1, 2, 0, 0, 0, 2, 0, 0⟩, .vstOff ⟨1, 2, 0, 0, 1, 0, 0⟩,
    .vgath ⟨1, 2, 0, 0, 3, 0, 3, 3, 0⟩, .vscat ⟨1, 2, 0, 0, 1, 0, 3, 3, 0⟩].map wellFormed =
  [false, false, false, false, false, false, true, false, false, false, false, false, false, false, false, false] := by decide

/-- Types, rounding modes, SAT, SC, conditions, element numbers, distances and digits out of their ranges (R122, R123, R128, R409, R418). -/
theorem test_wf_vector : [Instr.vadd ⟨1, 2, 3, 4, 0⟩, .vaddX ⟨1, 2, 3, 1, 0, 6, 0, 0, 0⟩, .vaddX ⟨1, 2, 3, 1, 0, 0, 1, 0, 0⟩, .vaddX ⟨1, 2, 3, 8, 0, 1, 0, 0, 0⟩,
    .vaddX ⟨1, 2, 3, 1, 0, 0, 0, 5, 1⟩, .vfma ⟨1, 2, 3, 6, 0, 4, 0, 0, 0⟩, .vdiv ⟨1, 2, 3, 6, 0⟩, .vsqrtX ⟨1, 2, 1, 0, 7⟩, .vmin ⟨1, 2, 3, 7, 1, 1, 0⟩,
    .vabs ⟨1, 2, 10, 0⟩, .vabsX ⟨1, 2, 1, 0, 1⟩, .vnegX ⟨1, 2, 13, 0, 0⟩, .vcmp ⟨1, 2, 3, 4, 7, 0, 0, 0, 3⟩, .vcmp ⟨1, 2, 3, 4, 1, 0, 0, 0, 4⟩, .vcmp ⟨2, 2, 3, 4, 1, 0, 0, 0, 0⟩,
    .vandX ⟨1, 2, 3, 0, 5, 1⟩, .vshl ⟨1, 2, 3, 10, 0, 0⟩, .vshlImm ⟨1, 2, 9, 0, 8⟩, .vcvt ⟨1, 2, 14, 0, 0, 0, 1⟩, .vcvt ⟨1, 2, 7, 0, 1, 0, 8⟩, .vredX ⟨1, 2, 1, 0, 3⟩,
    .vredX ⟨1, 2, 7, 0, 6⟩, .vscanX ⟨1, 2, 1, 0, 3⟩, .vbcastElement ⟨1, 2, 6, 0, 16⟩, .vext ⟨2, 6, 0, 1, 16⟩, .vext ⟨2, 4, 0, 1, 0⟩, .vperm ⟨1, 2, 3, 10, 0, 0⟩,
    .vslide ⟨1, 2, 3, 6, 0, 0, 17⟩, .vclass ⟨1, 2, 6, 0, 0⟩, .vsplit ⟨1, 2, 3, 0, 4, 3, 4⟩, .vsplit ⟨1, 2, 1, 0, 4, 3, 3⟩, .vjoin ⟨1, 2, 3, 0, 4, 0, 1⟩,
    .vpack4 ⟨1, 2, 0, 0, 0, 0, 0⟩, .vpack4 ⟨1, 2, 1, 0, 6, 0, 0⟩, .vunpk4 ⟨1, 2, 4, 0, 0⟩].all (fun i => !wellFormed i) = true := by decide

/-- Matrix types, copies without a tag that name one, a step without a handle, selectors and modes out of range, CSR numbers (R93, R124, R129). -/
theorem test_wf_engine_system : [Instr.mmt ⟨1, 2, 0, 0, 0, 0, 0, 0, 0, 0, 0⟩, .mmt ⟨1, 2, 0, 2, 0, 0, 0, 0, 0, 3, 0⟩, .mmt ⟨1, 2, 0, 0, 0, 1, 0, 0, 0, 3, 0⟩,
    .mmt ⟨1, 2, 0, 0, 0, 0, 0, 2, 0, 3, 0⟩, .mdrain ⟨1, 0, 0, 0, 0, 0, 0, 14, 0, 0⟩, .mdrain ⟨1, 0, 0, 0, 0, 0, 0, 1, 0, 6⟩, .mdadd ⟨1, 0, 2, 0, 0, 0, 0, 0⟩,
    .mbrd ⟨1, 0, 0, 14, 3⟩, .cpy ⟨1, 0, 0, 0, 0, 0, 5, 0⟩, .cpys ⟨1, 0, 0, 1, 0, 0, 0, 0⟩, .frq ⟨1, 2, 3, 0, 4⟩, .rett ⟨1, 2, 0⟩, .xinv ⟨1, 3, 0⟩, .csrr ⟨1, 0x013, 0⟩,
    .csrr ⟨1, 0x0FF, 0⟩, .csrr ⟨1, 0x200, 0⟩, .csrw ⟨1, 0x00F, 0⟩].all (fun i => !wellFormed i) = true := by decide

/-! ### Words of the spec's encodings -/

/-- Scalar arithmetic, constants and bit fields (R318, R323, R336, R363, R380, R391, R402, R453). -/
theorem test_decode_scalar :
    decode 0x0238E400 0 = .ok (.addTri ⟨7, 7, 8, 0, 0⟩) ∧ decode 0x1428C380 0 = .ok (.andTri ⟨5, 6, 7, 0, 0⟩) ∧
    decode 0x1A2FFFE0 0 = .ok (.andnSim ⟨5, 0xFFF, 1, 0⟩) ∧ decode 0x0428C380 0 = .ok (.subTri ⟨5, 6, 7, 0, 0⟩) ∧
    decode 0x042800C0 0 = .ok (.subSim ⟨5, 1, 0, 0⟩) ∧ decode 0x1828C380 0 = .ok (.xorTri ⟨5, 6, 7, 0, 0⟩) ∧
    decode 0x1028C380 0 = .ok (.remTri ⟨5, 6, 7, 0, 0⟩) ∧ decode 0x1228C380 0 = .ok (.remuTri ⟨5, 6, 7, 0, 0⟩) ∧
    decode 0x2A28C000 0 = .ok (.clz ⟨5, 6, 0, 0⟩) ∧ decode 0x2C28C000 0 = .ok (.popc ⟨5, 6, 0, 0⟩) ∧
    decode 0x2E302000 0 = .ok (.mov ⟨6, 1, 0, 0⟩) ∧ decode 0x30380040 0 = .ok (.ldiSim ⟨7, 0, 0⟩) ∧
    decode 0x30380050 0x1388 = .ok (.ldiLim ⟨7, 0, 5000⟩) ∧ decode 0x32380050 1 = .ok (.ldih ⟨7, 0, 1⟩) ∧
    decode 0x3628C050 0xC8 = .ok (.bfxuImm ⟨5, 6, 0, 3, 8⟩) ∧ decode 0x3A28C390 2 = .ok (.sel ⟨5, 6, 7, 0, 2⟩) := by
  refine ⟨rfl, rfl, rfl, rfl, rfl, rfl, rfl, rfl, rfl, rfl, rfl, rfl, rfl, rfl, rfl, rfl⟩

/-- Predicates, masks and control (R332, R333, R334, R338, R357, R369, R387). -/
theorem test_decode_control :
    decode 0x3D00A010 0xA = .ok (.cmpImm ⟨4, 0, 5, 0, 0, 10⟩) ∧ decode 0x3ECA4000 0 = .ok (.pand ⟨3, 1, 2, 0, 1, 0⟩) ∧
    decode 0x7C9C0001 0 = .ok (.mor ⟨2, 3, 4, 0, 0, 1⟩) ∧ decode 0x4B300000 0 = .ok (.callReg ⟨12, 0⟩) ∧
    decode 0x4C000002 0 = .ok (.ret ⟨2⟩) ∧ decode 0xF80000A0 0 = .ok (.brk ⟨5, 0⟩) := by
  refine ⟨rfl, rfl, rfl, rfl, rfl, rfl⟩

/-- Memory, ordering and booking (R325, R329, R331, R353, R431). -/
theorem test_decode_memory :
    decode 0x620000C0 0 = .ok (.flushp ⟨3, 0⟩) ∧ decode 0x5E009810 0x01120000 = .ok (.bput ⟨4, 0, 0, 0, 0, 2, 9, 0⟩) ∧
    decode 0x72810000 0 = .ok (.vld ⟨8, 4, 0, 0, 0⟩) ∧ decode 0x72811190 0x50000100 = .ok (.vldOff ⟨8, 4, 2, 3, 0, 1, 2, 256⟩) ∧
    decode 0x76810010 0xB00000 = .ok (.vgath ⟨8, 4, 0, 0, 0, 0, 2, 3, 0⟩) ∧ decode 0xD4494000 0 = .ok (.book ⟨9, 10, 0⟩) ∧
    decode 0xEC00A310 3 = .ok (.frgate ⟨5, 6, 0, 3⟩) := by
  refine ⟨rfl, rfl, rfl, rfl, rfl, rfl, rfl⟩

/-- The vector unit (R409, R411 to R447). -/
theorem test_decode_vector :
    decode 0x82110C40 0 = .ok (.vadd ⟨1, 2, 3, 1, 0⟩) ∧ decode 0x82420212 0x008F0000 = .ok (.vaddX ⟨4, 4, 0, 8, 2, 0, 1, 7, 1⟩) ∧
    decode 0x84110C40 0 = .ok (.vsub ⟨1, 2, 3, 1, 0⟩) ∧ decode 0x86531C10 0x02000000 = .ok (.vmulX ⟨5, 6, 7, 0, 0, 2, 0, 0, 0⟩) ∧
    decode 0x88110C10 0x20000000 = .ok (.vfma ⟨1, 2, 3, 0, 0, 4, 0, 0, 0⟩) ∧ decode 0x8E110C40 0 = .ok (.vdiv ⟨1, 2, 3, 1, 0⟩) ∧
    decode 0x90110000 0 = .ok (.vsqrt ⟨1, 2, 0, 0⟩) ∧ decode 0x96110040 0 = .ok (.vabs ⟨1, 2, 1, 0⟩) ∧
    decode 0x98110040 0 = .ok (.vneg ⟨1, 2, 1, 0⟩) ∧ decode 0x9A990A31 1 = .ok (.vcmp ⟨2, 3, 4, 5, 1, 1, 0, 0, 1⟩) ∧
    decode 0x9C110C10 4 = .ok (.vsel ⟨1, 2, 3, 0, 4⟩) ∧ decode 0x9E110C00 0 = .ok (.vand ⟨1, 2, 3, 0⟩) ∧
    decode 0xA0110C00 0 = .ok (.vor ⟨1, 2, 3, 0⟩) ∧ decode 0xA2110C00 0 = .ok (.vxor ⟨1, 2, 3, 0⟩) ∧
    decode 0xAA638110 0x00800001 = .ok (.vcvt ⟨6, 7, 4, 0, 0, 1, 1⟩) ∧ decode 0xB03001D0 0x00130000 = .ok (.vbcastScalar ⟨3, 7, 0, 9⟩) ∧
    decode 0xB0320190 5 = .ok (.vbcastElement ⟨3, 4, 6, 0, 5⟩) ∧ decode 0xB20202D0 0x00120003 = .ok (.vext ⟨4, 11, 0, 9, 3⟩) ∧
    decode 0xB4110DC0 0 = .ok (.vperm ⟨1, 2, 3, 7, 0, 0⟩) ∧ decode 0xB6110D90 1 = .ok (.vslide ⟨1, 2, 3, 6, 0, 0, 1⟩) ∧
    decode 0xB8218080 0 = .ok (.vclass ⟨2, 3, 2, 0, 0⟩) ∧ decode 0xBCA5B010 0x50000011 = .ok (.vjoin ⟨10, 11, 12, 0, 10, 1, 1⟩) := by
  refine ⟨rfl, rfl, rfl, rfl, rfl, rfl, rfl, rfl, rfl, rfl, rfl, rfl, rfl, rfl, rfl, rfl, rfl, rfl, rfl, rfl, rfl, rfl⟩

/-- The matrix engine and the system (R378, R452), and a word that no instruction has. -/
theorem test_decode_system :
    decode 0xC25164B0 0x40402400 = .ok (.mmt ⟨10, 11, 9, 1, 0, 2, 0, 0, 2, 9, 0⟩) ∧ decode 0xFC000020 0 = .ok (.xinv ⟨0, 1, 0⟩) ∧
    (∃ e, decode 0 0 = .error e) ∧ ∃ e, decode 0xFFFFFFFF 0xFFFFFFFF = .error e := by
  refine ⟨rfl, rfl, ⟨_, rfl⟩, ⟨_, rfl⟩⟩

/-! ### One instruction on a small state -/

/-- Task 0 of VD 0 ACTIVE in plane 0 of core 0, in T mode, at word 1 of a line that the line store holds (notes/assumptions/9.md). -/
def base : State := State.reset.withWords 0 0

/-- `base` with g registers written. -/
def withG (rs : List (BitVec 6 × Word)) : State := rs.foldl (fun s e => s.modPl fun p => p.wg e.1 e.2) base

/-- What an instruction leaves. -/
def after1 (i : Instr) (s : State) : State := match exec i s with | .next t => t | _ => s

/-- g register `r` after an instruction on `base` with g registers written. -/
def gAfter (i : Instr) (rs : List (BitVec 6 × Word)) (r : BitVec 6) : Word := (after1 i (withG rs)).pl.rg r

/-- A v register of 64-bit lanes. -/
def vreg (ws : List Word) : VReg := (ws.zipIdx).foldl (fun r e => setLane r e.2 e.1) 0

/-- `s` with v registers written. -/
def withV (s : State) (rs : List (BitVec 5 × VReg)) : State := rs.foldl (fun s e => s.modPl fun p => p.wv e.1 e.2) s

/-- R319, R402, R453: the worked values of ADD, SUB and XOR under W. -/
theorem test_add_sub_xor : gAfter (.addSim ⟨7, 1, 1, 0⟩) [(7, 0x7FFFFFFF)] 7 = 0xFFFFFFFF80000000 ∧
    gAfter (.subTri ⟨5, 6, 7, 1, 0⟩) [(7, 1)] 5 = 0xFFFFFFFFFFFFFFFF ∧ gAfter (.xorSim ⟨5, 0xFFF, 1, 0⟩) [(5, 0x100000000)] 5 = 0xFFFFFFFFFFFFFFFF := by
  decide

/-- R372, R383, R390: the worked values of MINU, MIN, MULH, MULHU, SAR, SHR and SHL. -/
theorem test_min_mul_shift : gAfter (.minuSim ⟨5, 0xFFF, 1, 0⟩) [(5, 0xFFFFFFFF00000005)] 5 = 5 ∧ gAfter (.minTri ⟨5, 6, 7, 0, 0⟩) [(6, -1), (7, 1)] 5 = -1 ∧
    gAfter (.minuTri ⟨5, 6, 7, 0, 0⟩) [(6, -1), (7, 1)] 5 = 1 ∧ gAfter (.mulhTri ⟨5, 6, 7, 0, 0⟩) [(6, -1), (7, 1)] 5 = -1 ∧
    gAfter (.mulhTri ⟨5, 6, 6, 0, 0⟩) [(6, 0x8000000000000000)] 5 = 0x4000000000000000 ∧ gAfter (.mulhuTri ⟨5, 6, 6, 0, 0⟩) [(6, -1)] 5 = 0xFFFFFFFFFFFFFFFE ∧
    gAfter (.sarSim ⟨5, 2, 0, 0⟩) [(5, -16)] 5 = -4 ∧ gAfter (.shrSim ⟨5, 60, 0, 0⟩) [(5, -16)] 5 = 0xF ∧ gAfter (.shlSim ⟨5, 64, 0, 0⟩) [(5, 9)] 5 = 9 ∧
    gAfter (.shlSim ⟨5, 31, 1, 0⟩) [(5, 1)] 5 = 0xFFFFFFFF80000000 ∧ gAfter (.shrSim ⟨5, 4, 1, 0⟩) [(5, 0xFFFFFFFF00000010)] 5 = 1 := by decide

/-- R346, R386: the worked values of DIV, DIVU, REM and REMU. -/
theorem test_div_rem : gAfter (.divTri ⟨5, 6, 7, 1, 0⟩) [(6, -0x80000000), (7, -1)] 5 = 0xFFFFFFFF80000000 ∧ gAfter (.divTri ⟨5, 6, 7, 0, 0⟩) [(6, -7), (7, 2)] 5 = -3 ∧
    gAfter (.divuTri ⟨5, 6, 7, 0, 0⟩) [(6, -7), (7, 2)] 5 = 0x7FFFFFFFFFFFFFFC ∧ gAfter (.remTri ⟨5, 6, 7, 0, 0⟩) [(6, -7), (7, 2)] 5 = -1 ∧
    gAfter (.remuTri ⟨5, 6, 7, 0, 0⟩) [(6, -7), (7, 2)] 5 = 1 ∧ gAfter (.remTri ⟨5, 6, 7, 0, 0⟩) [(6, 7), (7, -2)] 5 = 1 ∧
    gAfter (.divTri ⟨5, 6, 7, 0, 0⟩) [(6, 0x8000000000000000), (7, -1)] 5 = 0x8000000000000000 := by decide

/-- R324, R336, R363, R380: the worked values of BFXU, BFX, BFI, CLZ, LDI, LDIH and MOV. -/
theorem test_bits_and_constants : gAfter (.bfxuImm ⟨5, 6, 0, 3, 8⟩) [(6, 0x12345678)] 5 = 6 ∧ gAfter (.bfxImm ⟨5, 6, 0, 3, 4⟩) [(6, 0x12345678)] 5 = 7 ∧
    gAfter (.bfiReg ⟨5, 6, 7, 0⟩) [(6, 0x12345678), (7, 60 + 256 * 7)] 5 = 0x8000000000000000 ∧ gAfter (.clz ⟨5, 6, 1, 0⟩) [(6, 1)] 5 = 63 ∧
    gAfter (.clz ⟨5, 6, 0, 0⟩) [] 5 = 64 ∧ gAfter (.ldiLim ⟨7, 0, 0x80000000⟩) [] 7 = 0xFFFFFFFF80000000 ∧ gAfter (.ldih ⟨7, 0, 1⟩) [(7, 0xFFFFFFFF80000000)] 7 = 0x180000000 ∧
    gAfter (.mov ⟨5, 6, 1, 0⟩) [(6, 0x180000000)] 5 = 0xFFFFFFFF80000000 ∧ gAfter (.addTri ⟨0, 6, 6, 0, 0⟩) [(6, 1)] 0 = 0 := by decide

/-- R370: `pnot p1, p0` makes p1 false; `mxor m5, m0, m2` complements m2. R338: CMP.LT of −1 and 1 is signed, and writes both predicates. -/
theorem test_predicates_and_masks : (after1 (.pnot ⟨1, 0, 0⟩) base).pl.rp 1 = false ∧
    (after1 (.mxor ⟨5, 0, 2, 0, 0, 0⟩) (base.modPl fun p => p.wm 2 0x00F1)).pl.rm 5 = 0xFF0E ∧
    (after1 (.cmpReg ⟨1, 2, 6, 7, 1, 0⟩) (withG [(6, -1), (7, 1)])).pl.rp 1 = true ∧
    (after1 (.cmpReg ⟨1, 2, 6, 7, 2, 0⟩) (withG [(6, -1), (7, 1)])).pl.rp 2 = true := by decide

/-- R346: DIV by zero with an operation still outstanding leaves its trap pending: cause 11, the dividend in sr.tval, gd unchanged. -/
theorem test_divide_by_zero : let t := after1 (.divTri ⟨5, 6, 0, 0, 0⟩) ((withG [(5, 3), (6, 7)]).modPl fun p => { p with oc := { p.oc with ldc := 1 } })
    t.pl.sr.cause = 11 ∧ t.pl.sr.epc = 4100 ∧ t.pl.sr.tval = 7 ∧ t.pl.rg 5 = 3 ∧ t.pl.trap.isSome = true := by decide

/-- R114, R319: a step fetches the placed word of `add g7, g7, g8` and runs it; the line has one word, so pc goes on at the next line. -/
theorem test_step_runs_add : (match step ((withG [(7, 40), (8, 2)]).withFetchWord 32 0x0238E400) with
    | .next t => t.pl.pc == 4164 | _ => false) = true ∧
    (match step (State.reset.withFetchWord 32 0x30380050) with | .next t => t.power == .run | _ => false) = true := by decide

/-- R419: the worked VCMP: m2 = 0x0004, m3 = 0x0003, NV set. -/
theorem test_vcmp : let s := withV (base.modPl fun p => p.wm 1 7) [(4, vreg [0x400000003F800000, 0x3F80000080000000, 0x40A000003F800000]),
      (5, vreg [0x4000000040400000, 0x7FC0000000000000, 0x40C0000040000000])]
    let t := after1 (.vcmp ⟨2, 3, 4, 5, 1, 1, 0, 0, 1⟩) s
    t.pl.rm 2 = 4 ∧ t.pl.rm 3 = 3 ∧ t.pl.sr.fps.getLsbD 0 = true := by decide +kernel

/-- R429: the worked rebuild by two VJOINs gives 3.01171875. -/
theorem test_vjoin : let s := withV (base.modPl fun p => p.wm 1 1) [(11, vreg [3072]), (12, vreg [3])]
    let t := withV (after1 (.vjoin ⟨10, 11, 12, 1, 10, 1, 1⟩) s) [(11, vreg [6144])]
    elemAt 64 ((after1 (.vjoin ⟨10, 11, 12, 1, 10, 1, 0⟩) t).pl.rv 10) 0 = 0x4008180000000000 := by decide +kernel

/-- R144: VADD.I16.SAT of 30,000 and 5,000 gives 32,767 and sets SV. R412: 1.0 + 2.0 in FP32, and −0.0 of VNEG. -/
theorem test_vadd : let s := withV (base.modPl fun p => (p.wm 1 1).wg 7 5000) [(4, vreg [30000]), (2, vreg [0x3F800000]), (3, vreg [0x40000000])]
    elemAt 16 ((after1 (.vaddX ⟨4, 4, 0, 8, 1, 0, 1, 7, 1⟩) s).pl.rv 4) 0 = 32767 ∧
    (after1 (.vaddX ⟨4, 4, 0, 8, 1, 0, 1, 7, 1⟩) s).pl.sr.fps.getLsbD 5 = true ∧
    elemAt 32 ((after1 (.vadd ⟨1, 2, 3, 1, 1⟩) s).pl.rv 1) 0 = 0x40400000 ∧ elemAt 32 ((after1 (.vneg ⟨1, 4, 1, 1⟩) (withV s [(4, 0)])).pl.rv 1) 0 = 0x80000000 := by
  decide +kernel

/-- The worked example of spec/07_assembly.md. -/
def sumd : List AsmItem :=
  let is (x : Option Instr) : List AsmItem := x.toList.map .instr
  [.task 0] ++ is (asmLdi 7 0 0) ++ [.instr (.mov ⟨6, 1, 0, 0⟩), .instr (.loop ⟨2, 0⟩), .line 0 true] ++ is (asmLd ⟨8, 6, 3, 0, 0, 0⟩ 0 none 0) ++
    is (asmArith .addTri .addSim .addLim 7 7 (.reg 8) 0 0) ++ is (asmArith .addTri .addSim .addLim 6 6 (.const 8) 0 0) ++ [.line 0 false] ++
    is (asmSt ⟨7, 3, 3, 1, 0⟩ 0 none 0) ++ [.instr (.exit ⟨0⟩)]

/-- R134 to R136: the lines that the assembler emits for it. -/
theorem test_assembler_example : (assemble sumd).map (fun ls => ls.map fun l => (l.1, l.2.take 4)) =
    some [(0, [0x0C000001, 0x30380040, 0x2E302000, 0x4E100000]), (1, [0x0C400001, 0x5240D800, 0x0238E400, 0x02300440]), (2, [0x08200000, 0x54387880, 0xE2000000, 0])] := by
  decide

/-- R132, R134, R135: ADD to another register takes LIM, a scope needs an ordering, LDI 5000 is a pair; after 13 words a pair ends the line, after 14 it
begins one. -/
theorem test_assembler_choices : asmArith .addTri .addSim .addLim 6 5 (.const 8) 0 0 = some (.addLim ⟨6, 5, 0, 0, 8⟩) ∧
    asmLd ⟨8, 6, 3, 0, 0, 0⟩ 0 (some 2) 0 = none ∧ asmLdi 7 5000 0 = some (.ldiLim ⟨7, 0, 5000⟩) ∧
    (assemble (List.replicate 13 (.instr (.mov ⟨6, 1, 0, 0⟩)) ++ [.instr (.ldiLim ⟨7, 0, 5000⟩)])).map List.length = some 1 ∧
    (assemble (List.replicate 14 (.instr (.mov ⟨6, 1, 0, 0⟩)) ++ [.instr (.ldiLim ⟨7, 0, 5000⟩)])).map List.length = some 2 := by decide

/-- R134, R138: VADD without RM, SAT and SC takes X = 0; OFF18 and OFF11 bound the offset; `.line end` after a RET ends the owner's run. -/
theorem test_assembler_forms : asmForm (.vaddX ⟨4, 5, 6, 1, 0, 0, 0, 0, 0⟩) = .vadd ⟨4, 5, 6, 1, 0⟩ ∧
    asmForm (.vaddX ⟨4, 5, 6, 1, 0, 2, 0, 0, 0⟩) = .vaddX ⟨4, 5, 6, 1, 0, 2, 0, 0, 0⟩ ∧ asmSec .ldsec 1 2 0 0 0 none 3 131072 = none ∧
    (asmBput 1 0 0 0 none 0 2 1023).isSome = true ∧ asmBput 1 0 0 0 none 0 2 1024 = none ∧
    ((assemble [.instr (.ret ⟨0⟩), .lineEnd, .instr (.ret ⟨0⟩)]).map fun ls => ls.map fun l => (l.2.headD 0).extractLsb' 0 22) = some [0x200000, 0x200000] := by
  decide


/-! ### States and operands that meet the hypotheses of the statements: scalar majors, control, memory -/

/-- Task 0 as `base` holds it. -/
def task0 : Task := { Task.fresh 0 0 1 0 0 0 0xFFF#12 0 1 with state := .active }

/-- `base` with VD 0 changed. -/
def withVd (f : Vd → Vd) (s : State) : State := { s with vds := tset s.vds 0 (f placedVd) }

/-- `base` with VD 0's definition changed. -/
def withDef (f : VdDef → VdDef) : State := withVd (fun d => { d with d := f d.d }) base

/-- `base` in S mode. -/
def sys : State := base.modPl fun p => { p with sr := { p.sr with smode := true } }

/-- `base` with a loop running. -/
def looping : State := base.modPl fun p => { p with loop := { p.loop with act := true, n := 2 } }

/-- `base` with task 0 changed. -/
def withTask (f : Task → Task) : State := base.modTask 0 f

/-- A stage-2 leaf for each of 32 pages from `i`, at DPA page `i` + 1. -/
def leaves (i : Nat) : Table Word := (List.range 32).map fun j => (j, s2Leaf (i + j + 1) true false)

/-- `base` with VD 0's first 2 MiB mapped: a stage-1 table at each of VPA 0xF000, 0xE000 and 0xD000, the leaf readable, writable and executable;
stage-2 tables at DPA 0x20000 to 0x24000, with leaves for 64 pages, page i at DPA page i + 1. -/
def mapped : State :=
  withVd (fun d => { d with d := { d.d with s1root := 0xF000, lmax := 1 }, s2root := 0x20000 })
    (base.modHbm fun h =>
      { h with
        mem := [(65536 + 0xD000, 0x0D), (65536 + 0xE000, 0x03), (65536 + 0xE001, 0xD0), (65536 + 0xF000, 0x03), (65536 + 0xF001, 0xE0)]
        tabs := [(32, ⟨0, [(0, 0x21003)]⟩), (33, ⟨0, [(0, 0x22003)]⟩), (34, ⟨0, [(0, 0x23003), (1, 0x24003)]⟩), (35, ⟨0, leaves 0⟩), (36, ⟨0, leaves 32⟩)] })

theorem base_vd : base.vd base.curVd = some placedVd := by decide

/-- What MayIssue asks, as equations. -/
theorem mayIssue {s : State} {t : Task} {w0 w1 : IWord} {n : Nat} (h : s.power = .run ∧ s.curTask = some t ∧ s.mute t = false ∧ s.failedLane = none ∧
    s.heldAtomic = none ∧ s.stalled = false ∧ s.fetched = .instr w0 w1 n ∧ s.pl.park = none ∧ t.faults = []) : MayIssue s t w0 w1 n := by
  obtain ⟨a, b, c, d, e, e', f, g, i⟩ := h
  exact ⟨a, b, c, d, e, e', f, (fun id h => by rw [g] at h; cases h), i⟩

theorem wit_ScalarForms : triOps.length = 16 ∧ simOps.length = 16 ∧ limOps.length = 16 := ⟨rfl, rfl, rfl⟩

/-- Divisors not zero: 1, a low half with only its top bit, −1 of 12 and of 32 bits; zero: g0, a low half of 0 under W, constants of 0. -/
theorem wit_Division : divOps.length = 4 ∧ (¬ zeroDivisor 0 ((withG [(7, 1)]).pl.rg 7) ∧ ¬ zeroDivisor 1 ((withG [(7, 0xFFFFFFFF80000000)]).pl.rg 7) ∧
    ¬ zeroDivisor 0 ((0xFFF#12).signExtend 64) ∧ ¬ zeroDivisor 1 ((0xFFFFFFFF#32).signExtend 64)) ∧
    zeroDivisor 0 (base.pl.rg 0) ∧ zeroDivisor 1 ((withG [(7, 0xFFFFFFFF00000000)]).pl.rg 7) ∧ zeroDivisor 1 ((0#12).signExtend 64) ∧
    zeroDivisor 0 ((0#32).signExtend 64) := by unfold zeroDivisor; decide

/-- The longest field, the highest position. -/
theorem wit_BitFieldBits : (0#6).toNat + (63#6).toNat + 1 ≤ 64 ∧ (63#6).toNat + (0#6).toNat + 1 ≤ 64 := by decide

/-- The words of `cmp.eq p3, p3, g1, g2` and of its form with a constant, at the pc. -/
theorem wit_CompareResult : (∃ w0, TurnOf (State.reset.withWords w0 0) (State.reset.withWords w0 0) ∧
    MayIssue (State.reset.withWords w0 0) task0 w0 0 1 ∧ guardOf w0 ≠ 8 ∧ decode w0 0 = .ok (.cmpReg ⟨3, 3, 1, 2, 0, 0⟩)) ∧
    ∃ w0 w1, MayIssue (State.reset.withWords w0 w1) task0 w0 w1 2 ∧ guardOf w0 ≠ 8 ∧ decode w0 w1 = .ok (.cmpImm ⟨3, 3, 1, 0, 0, 7⟩) := by
  refine ⟨⟨((encode (.cmpReg ⟨3, 3, 1, 2, 0, 0⟩)).map (·.1)).getD 0, .inl ⟨rfl, rfl⟩, mayIssue (by decide), by decide, rfl⟩, ?_⟩
  exact ⟨((encode (.cmpImm ⟨3, 3, 1, 0, 0, 7⟩)).map (·.1)).getD 0, 7, mayIssue (by decide), by decide, rfl⟩

/-- Targets: the lowest line and the last, by a register, by a backward branch, by a call to the own line. -/
theorem wit_TransfersTaken : let s := withG [(4, 64), (62, 0xFFFFFFFFFFC0)]
    AtLineEnd s (placedLine 0 0) ∧ s.pl.guard 0 = true ∧ GoodTarget ((s.pl.pc &&& ~~~63#64) + 64 * (-63#20).signExtend 64) ∧ GoodTarget (s.pl.rg 4) ∧
    GoodTarget (s.pl.rg 62) ∧ GoodTarget ((s.pl.pc &&& ~~~63#64) + 64 * (0#19).signExtend 64) := by unfold AtLineEnd GoodTarget; decide

/-- A guard that is false; targets 0, 65 and 2^48; a line whose last word is not the pc's. -/
theorem wit_TransfersNotMade : (AtLineEnd base (placedLine 0 0) ∧ base.pl.loop.act = false ∧ base.pl.guard 1 = false) ∧
    (let s := withG [(4, 65), (62, 0x1000000000000)]
     AtLineEnd s (placedLine 0 0) ∧ s.pl.guard 0 = true ∧ ¬ GoodTarget ((s.pl.pc &&& ~~~63#64) + 64 * (-64#20).signExtend 64) ∧
     ¬ GoodTarget ((s.pl.pc &&& ~~~63#64) + 64 * (-64#19).signExtend 64) ∧ ¬ GoodTarget (s.pl.rg 4) ∧ ¬ GoodTarget (s.pl.rg 62)) ∧
    let s := State.reset.withWords 0x10 0
    s.lineAt s.fc s.fp = some (placedLine 0x10 0) ∧ wordIdx s.pl.pc ≠ linkCnt ((placedLine 0x10 0).word 0) := by unfold AtLineEnd GoodTarget; decide

theorem wit_LoopStart : (AtLineEnd base (placedLine 0 0) ∧ base.pl.loop.act = false ∧ linkEnd ((placedLine 0 0).word 0) = false) ∧
    AtLineEnd looping (placedLine 0 0) ∧ looping.pl.loop.act = true := by unfold AtLineEnd; decide

theorem wit_CallsAndBreaks : (∀ d, base.vd base.curVd = some d → d.d.brkHalt = false) ∧
    let s := withDef fun d => { d with brkHalt := true }
    ∃ d, s.vd s.curVd = some d ∧ d.d.brkHalt = true ∧ d.halt = none ∧ s.pl.guard 0 = true := by
  refine ⟨fun d h => ?_, _, rfl, by decide⟩
  rw [base_vd] at h; cases h; rfl

/-- Every number of R93 has its row; sr.cause and sr.tval in S mode and in T mode; the first counter and the last. -/
theorem wit_CsrAccess : (csrTable sys).map (·.1) = [0x000, 0x001, 0x002, 0x003, 0x005, 0x006, 0x007, 0x008, 0x009, 0x00A, 0x00B, 0x00C, 0x00D, 0x00E, 0x00F,
      0x010, 0x011, 0x012] ∧ sys.pl.sr.smode = true ∧ base.pl.sr.smode = false ∧ base.vd base.curVd = some placedVd ∧
    ((0x100#12).toNat = 0x100 + 32 * 0 + 0 ∧ ¬ ((0 : Nat) = 2 ∧ (0 : Nat) = 0) ∧ ¬ ((0 : Nat) = 0 ∧ (0 : Nat) = 20)) ∧
    (0x1FF#12).toNat = 0x100 + 32 * 7 + 31 ∧ 0x010 ≤ (0x010#12).toNat ∧ (0x012#12).toNat ≤ 0x012 := by
  refine ⟨rfl, by decide, by decide, base_vd, by decide, by decide, by decide, by decide⟩

/-! Memory -/

/-- An element is ready at the memory of another core of core `c`'s die. -/
def atPeer (c : Nat) (e : Elem) : Bool :=
  e.peer && e.st == .ready && match e.loc with
  | some (.spad k _) => dieOf k == dieOf c | some (.bobbin k _) => dieOf k == dieOf c | some (.creel k _) => dieOf k == dieOf c | _ => false

theorem atPeer_spec {c : Nat} {e : Elem} (h : atPeer c e = true) : AtPeer c e := by
  obtain ⟨i, l, v, n, m, p, loc, st, d, r⟩ := e
  unfold atPeer at h
  simp only [Bool.and_eq_true, beq_iff_eq] at h
  obtain ⟨⟨h1, h2⟩, h3⟩ := h
  refine ⟨h1, h2, ?_⟩
  cases loc with
  | none => cases h3
  | some l =>
    cases l <;> first
      | cases h3
      | exact ⟨_, _, .inl rfl, by simpa using h3⟩ | exact ⟨_, _, .inr (.inl rfl), by simpa using h3⟩ | exact ⟨_, _, .inr (.inr rfl), by simpa using h3⟩

/-- The windows that a span starts and ends in admit it. -/
def spanOk (s : State) (d : Vd) (span : Option (Word × Nat)) : Bool :=
  match span with | none => true | some x => match s.target d s.fc x.1 x.2 with | .bad _ => false | _ => true

/-- What Passes asks, as a computation that gives the placed elements. -/
def passes (s : State) (k : AccKind) (ar : BitVec 2) (scp : BitVec 3) (span : Option (Word × Nat)) (place : Vd → List Elem → Option (Nat × Word))
    (es : List Elem) : Option (List Elem) :=
  match s.vd s.curVd with
  | none => none
  | some d => match s.placeAll d s.fc es with
    | .error _ => none
    | .ok es' =>
      if spanOk s d span = true ∧ place d es' = none ∧
        (es'.all fun e => !s.pl.outOfLease e) = true ∧ (ar = 0 ∨ scp.toNat ≤ d.d.ceil.toNat) ∧ s.pl.countFull k = false then some es' else none

theorem passes_spec {s : State} {k : AccKind} {ar : BitVec 2} {scp : BitVec 3} {span : Option (Word × Nat)} {place : Vd → List Elem → Option (Nat × Word)}
    {es es' : List Elem} (h : passes s k ar scp span place es = some es') : ∃ d, Passes s d k ar scp span place es es' := by
  unfold passes at h
  split at h
  · cases h
  · next d hd =>
    split at h
    · cases h
    · next x he =>
      split at h
      · next c =>
        obtain ⟨c1, c2, c3, c4, c5⟩ := c
        cases h
        refine ⟨d, hd, ?_, he, c2, fun e h => by simpa using List.all_eq_true.1 c3 e h, c4, c5⟩
        intro va len cause hs hb
        simp [spanOk, hs, hb] at c1
      · cases h

/-- What Admits asks, as a computation. -/
def admits (s : State) (k : AccKind) (ar : BitVec 2) (scp : BitVec 3) (span : Option (Word × Nat)) (place : Vd → List Elem → Option (Nat × Word))
    (es : List Elem) : Bool :=
  match passes s k ar scp span place es with | none => false | some es' => !es'.isEmpty && es'.all (atPeer s.fc) && s.pl.acc.isEmpty

theorem admits_spec {s : State} {k : AccKind} {ar : BitVec 2} {scp : BitVec 3} {span : Option (Word × Nat)} {place : Vd → List Elem → Option (Nat × Word)}
    {es : List Elem} (h : admits s k ar scp span place es = true) : ∃ d es', Admits s d k ar scp span place es es' := by
  unfold admits at h
  split at h
  · cases h
  · next es' hp =>
    simp only [Bool.and_eq_true, Bool.not_eq_true', List.isEmpty_iff, List.isEmpty_eq_false_iff, List.all_eq_true] at h
    obtain ⟨d, hd⟩ := passes_spec hp
    exact ⟨d, es', hd, h.1.1, fun x hx => atPeer_spec (h.1.2 x hx), h.2⟩

/-- g4 at the scratchpad of core 1, g5 at its bobbin, g6 a byte mask, g7 not aligned, and mask m1 = 0x8000. -/
def mem1 : State := (withG [(4, 0x2000000400000), (5, 0x2000000500000), (6, 0x80000000), (7, 0x2000000400001)]).modPl fun p => p.wm 1 0x8000

/-- `base` with host window 0 of 4,096 bytes, g4 at its start, g6 a mask whose first piece has a gap, g5 its last sector. -/
def host0 : State :=
  let s := withVd (fun d => { d with hostw := [(0, { h := 0, len := 4096, key := 1, raddr := 0 })] }) base
  s.modPl fun p => ((p.wg 4 0x4000000000000).wg 5 0x4000000000FE0).wg 6 0x80000081

/-- `base` with g4 at its lease's first byte, g5 at its last sector, g6 a byte mask, g8 at the last entry of its bobbin. -/
def own1 : State := withG [(4, 0x1000000000000), (5, 0x1000000000000 + 6112), (6, 0x80000001), (8, 0x10000001FFFF8)]

/-- The first clause: every memory instruction at the memory of core 1, the widest and the narrowest load, offsets, ordered forms at the ceiling's scope. -/
theorem wit_memoryAtPeer : (mem1.pl.guard 0 = true ∧ (mem1.pl.rg 4).toNat % 2 ^ (3#2).toNat = 0 ∧ (mem1.pl.rg 7).toNat % 2 ^ (0#2).toNat = 0 ∧
      (at' mem1 4 (-8#24)).toNat % 2 ^ (3#2).toNat = 0 ∧ at' mem1 4 (32#18) &&& 31#64 = 0 ∧ (mem1.pl.rg 6).setWidth 32 ≠ 0#32 ∧
      isHost (at' mem1 4 (32#18)) = false ∧ at' mem1 4 (8#11) &&& 7#64 = 0 ∧ at' mem1 5 (8#11) &&& 7#64 = 0) ∧
    (∃ d es', Admits mem1 d (.ld 1 false) 0 0 none anyPlace (oneElem (mem1.pl.rg 4) 8 []) es') ∧
    (∃ d es', Admits mem1 d (.ld 1 true) 1 4 none anyPlace (oneElem (at' mem1 4 (8#24)) 1 []) es') ∧
    (∃ d es', Admits mem1 d .st 0 0 none bobbinStore (oneElem (mem1.pl.rg 4) 8 ((leBytes (mem1.pl.rg 6).toNat 8).take 8)) es') ∧
    (∃ d es', Admits mem1 d .st 2 4 none bobbinStore (oneElem (at' mem1 5 (8#24)) 8 ((leBytes (mem1.pl.rg 6).toNat 8).take 8)) es') ∧
    (∃ d es', Admits mem1 d (.ldsec 1) 0 0 none anyPlace
      [mkElem 0 [0] (at' mem1 4 (32#18)) 32 (((mem1.pl.rg 6).setWidth 32).setWidth 64) (List.replicate 32 0)] es') ∧
    (∃ d es', Admits mem1 d .st 0 0 none bobbinStore
      [mkElem 0 [0] (at' mem1 4 (32#18)) 32 (((mem1.pl.rg 6).setWidth 32).setWidth 64) (leBytes ((mem1.pl.rv 1).setWidth 256).toNat 32)] es') ∧
    (∃ d es', Admits mem1 d (.amo 1 8) 3 4 none (atomicPlace false) (oneElem (at' mem1 4 (8#11)) 8 (leBytes (mem1.pl.rg 6).toNat 8)) es') ∧
    (∃ d es', Admits mem1 d (.cas 1) 0 0 none (atomicPlace true)
      (oneElem (at' mem1 4 (8#11)) 8 (leBytes (mem1.pl.rg 6).toNat 8 ++ leBytes (mem1.pl.rg 7).toNat 8)) es') ∧
    ∃ d es', Admits mem1 d (.bput 3) 0 0 none bputPlace (oneElem (at' mem1 5 (8#11)) 8 (leBytes (mem1.pl.rg 6).toNat 8)) es' := by
  refine ⟨by decide, ?_, ?_, ?_, ?_, ?_, ?_, ?_, ?_, ?_⟩ <;> exact admits_spec (by decide +kernel)

/-- Sectors in a host window, the first and the last; masks of 0 (g0) with the counts below 63; the lease's first and last sector and doubleword;
the bobbin's last entry, put with AOP 0 and 3 at the ceiling's scope. -/
theorem wit_MemoryIssue :
    (host0.pl.guard 0 = true ∧ at' host0 4 (0#18) &&& 31#64 = 0 ∧ at' host0 5 (0#18) &&& 31#64 = 0 ∧ (host0.pl.rg 6).setWidth 32 ≠ 0#32 ∧
      isHost (at' host0 4 (0#18)) = true ∧ isHost (at' host0 5 (0#18)) = true) ∧
    (∃ d es', Passes host0 d (.ldsec 1) 0 0 none anyPlace
      ([0, 8, 16, 24].flatMap (pieceElem (at' host0 4 (0#18)) (((host0.pl.rg 6).setWidth 32).setWidth 64) (List.replicate 32 0))) es') ∧
    (∃ d es', Passes host0 d .st 2 4 none bobbinStore
      ([0, 8, 16, 24].flatMap (pieceElem (at' host0 5 (0#18)) (((host0.pl.rg 6).setWidth 32).setWidth 64)
        (leBytes ((host0.pl.rv 1).setWidth 256).toNat 32))) es') ∧
    ((host0.pl.rg 0).setWidth 32 = 0#32 ∧ host0.pl.oc.ldc ≠ 63 ∧ host0.pl.oc.stc ≠ 63) ∧
    (own1.pl.guard 0 = true ∧ (own1.pl.rg 6).setWidth 32 ≠ 0#32 ∧ OwnAccess own1 placedVd (at' own1 4 (0#18)) 0 32 0 0 ∧
      OwnAccess own1 placedVd (at' own1 5 (0#18)) 6112 32 2 4 ∧ OwnAccess own1 placedVd (at' own1 4 (0#11)) 0 8 0 0 ∧
      OwnAccess own1 placedVd (at' own1 5 (24#11)) 6136 8 3 4) ∧
    own1.vd own1.curVd = some placedVd ∧ own1.pl.acc = [] ∧ own1.pl.oc.stc ≠ 63 ∧ (at' own1 8 (0#11)).toNat = 0x1000000100000 + 0xFFFF8 ∧
    (4#3).toNat ≤ placedVd.d.ceil.toNat ∧ (own1.core own1.fc).bobbin.wf = true := by
  refine ⟨by decide, ?_, ?_, by decide, by unfold OwnAccess; decide, by decide⟩
  · obtain ⟨es, h⟩ := Option.isSome_iff_exists.mp (show (passes host0 (.ldsec 1) 0 0 none anyPlace
      ([0, 8, 16, 24].flatMap (pieceElem (at' host0 4 (0#18)) (((host0.pl.rg 6).setWidth 32).setWidth 64) (List.replicate 32 0)))).isSome = true
      by decide +kernel)
    obtain ⟨d, h⟩ := passes_spec h
    exact ⟨d, es, h⟩
  · obtain ⟨es, h⟩ := Option.isSome_iff_exists.mp (show (passes host0 .st 2 4 none bobbinStore
      ([0, 8, 16, 24].flatMap (pieceElem (at' host0 5 (0#18)) (((host0.pl.rg 6).setWidth 32).setWidth 64)
        (leBytes ((host0.pl.rv 1).setWidth 256).toNat 32)))).isSome = true by decide +kernel)
    obtain ⟨d, h⟩ := passes_spec h
    exact ⟨d, es, h⟩

/-- All sixteen lanes, and lane 15 alone; a host window; no active lane. -/
theorem wit_VectorMemoryIssue : (Lanes mem1 0 0xFFFF ∧ Lanes mem1 1 0x8000 ∧ mem1.pl.rg 4 &&& 31#64 = 0 ∧ isHost (mem1.pl.rg 4) = false ∧
      at' mem1 4 (32#24) &&& 31#64 = 0 ∧ isHost (at' mem1 4 (32#24)) = false) ∧
    (∃ d es', Admits mem1 d (.vld 1 0 0) 0 0 (laneSpan (mem1.pl.rg 4) 0xFFFF) anyPlace (vecElems false false (mem1.pl.rg 4) 0xFFFF fun _ => 0) es') ∧
    (∃ d es', Admits mem1 d (.vld 1 0 0) 1 4 (laneSpan (at' mem1 4 (32#24)) 0x8000) anyPlace
      (vecElems false false (at' mem1 4 (32#24)) 0x8000 fun _ => 0) es') ∧
    (∃ d es', Admits mem1 d .st 0 0 (laneSpan (mem1.pl.rg 4) 0xFFFF) bobbinStore
      (vecElems false true (mem1.pl.rg 4) 0xFFFF fun l => (mem1.pl.rv 1).extractLsb' (64 * l) 64) es') ∧
    (∃ d es', Admits mem1 d .st 2 4 (laneSpan (at' mem1 4 (32#24)) 0x8000) bobbinStore
      (vecElems false true (at' mem1 4 (32#24)) 0x8000 fun l => (mem1.pl.rv 1).extractLsb' (64 * l) 64) es') ∧
    mem1.gatherMask ⟨1, 4, 0, 1, 0, 0, 2, 3, 0⟩ 0x8000 (fun a => a.toNat % 8 ≠ 0) = 0 ∧
    (∃ d es', Admits mem1 d (.vgath 1 3) 0 0 none anyPlace [mkElem 15 [15] (mem1.pl.rg 4) 8 (lowMask 8) ((leBytes 0 8).take 8)] es') ∧
    (∃ d es', Admits mem1 d .st 0 0 none anyPlace [mkElem 15 [15] (mem1.pl.rg 4) 8 (lowMask 8) ((leBytes 0 8).take 8)] es') ∧
    (∃ c x, winOf (mem1.pl.rg 4) = .peer c x ∧ x < 0xC0000) ∧ (isHost (host0.pl.rg 4) = true ∧ host0.pl.rg 4 &&& 31#64 = 0 ∧ Lanes host0 0 0xFFFF) ∧
    (∃ d es', Passes host0 d .st 0 0 (laneSpan (host0.pl.rg 4) 0xFFFF) bobbinStore
      (vecElems true true (host0.pl.rg 4) 0xFFFF fun l => (host0.pl.rv 1).extractLsb' (64 * l) 64) es') ∧
    mem1.pl.park = none ∧ mem1.pl.vguard 2 = 0 := by
  refine ⟨by unfold Lanes; decide, ?_, ?_, ?_, ?_, by decide +kernel, ?_, ?_, ⟨1, 0, by decide⟩, by unfold Lanes; decide, ?_, by decide⟩
  case refine_7 =>
    obtain ⟨es, h⟩ := Option.isSome_iff_exists.mp (show (passes host0 .st 0 0 (laneSpan (host0.pl.rg 4) 0xFFFF) bobbinStore
      (vecElems true true (host0.pl.rg 4) 0xFFFF fun l => (host0.pl.rv 1).extractLsb' (64 * l) 64)).isSome = true by decide +kernel)
    obtain ⟨d, h⟩ := passes_spec h
    exact ⟨d, es, h⟩
  all_goals exact admits_spec (by decide +kernel)

/-- The first byte and the last doubleword of a lease of one row. -/
theorem wit_OwnLease : let s := withG [(4, 0x1000000000000), (5, 0x1000000000000 + 6136)]
    (s.pl.guard 0 = true ∧ OwnAccess s placedVd (s.pl.rg 4) 0 1 0 0) ∧ OwnAccess s placedVd (at' s 5 (0#24)) 6136 8 1 4 := by
  unfold OwnAccess; decide

/-- An address that is no multiple of any width but 1; an even one that is no multiple of 4; no active lane. -/
theorem wit_MisalignedAccess : mem1.pl.guard 0 = true ∧ (mem1.pl.rg 7).toNat % 2 ^ (1#2).toNat ≠ 0 ∧ (at' mem1 4 (4#24)).toNat % 2 ^ (3#2).toNat ≠ 0 ∧
    at' mem1 4 (16#18) &&& 31#64 ≠ 0 ∧ at' mem1 4 (1#11) &&& 7#64 ≠ 0 ∧ mem1.pl.guard 1 = false ∧ Lanes mem1 1 0x8000 ∧ mem1.pl.rg 7 &&& 31#64 ≠ 0 ∧ at' mem1 4 (16#24) &&& 31#64 ≠ 0 ∧
    mem1.pl.park = none ∧ mem1.pl.vguard 2 = 0 := by unfold Lanes; decide

/-! ### Ordering, waits, the vector unit -/

/-- A performed access of the placed instruction, of a kind and with the bytes that its element took. -/
def doneAcc (k : AccKind) (res : List Byte) : Access :=
  { id := 0, pc := 4100, w0 := 0, w1 := 0, kind := k, cls := 1, acq := false, rel := false, scp := 0, tensor := 0,
    elems := [{ mkElem 0 [0] 0x10000 8 (lowMask 8) [] with loc := some (.hbm 65536), st := .performed, res := res }] }

/-- A posted store to the HBM of die 1 that has not performed. -/
def openStore : Access :=
  { doneAcc .st [] with elems := [{ mkElem 0 [0] 0x10000 8 (lowMask 8) [] with loc := some (.hbm (8 * 65536)), st := .ready }] }

/-- `base` with outstanding accesses, counted. -/
def withAcc (as : List Access) : State :=
  base.modPl fun p => { p with acc := as, nextId := 1, oc := { p.oc with stc := 1, ldc := 1 } }

/-- Scope 4 under ceiling 4; an earlier store of class 1, which the mask names or not. -/
theorem wit_FencesAndScopes : (base.pl.guard 0 = true ∧ InCeiling base 4 ∧
      (withAcc [openStore]).pl.acc.filter (fun a => (a.kind.classed && (1#16).getLsbD a.cls.toNat) && !(a.doneAt 4)) = [] ∧
      (withAcc [openStore]).pl.acc.filter (fun a => (a.kind.classed && (2#16).getLsbD a.cls.toNat) && !(a.doneAt 4)) ≠ [] ∧
      (withAcc [openStore]).pl.acc.filter (fun a => (a.kind.isStore && a.posted 0) && !(a.doneAt 4)) ≠ [] ∧
      base.pl.acc.filter (fun a => (a.kind.isStore && a.posted 0) && !(a.doneAt 4)) = []) ∧
    (let s := withDef fun d => { d with ceil := 3, sctrap := true }
     ∃ d, s.vd s.curVd = some d ∧ d.d.ceil.toNat < (4#3).toNat ∧ s.pl.acc = [] ∧ d.d.sctrap = true) ∧
    let s := withDef fun d => { d with ceil := 0 }
    ∃ d, s.vd s.curVd = some d ∧ d.d.ceil.toNat < (1#3).toNat ∧ s.pl.acc = [] ∧ d.d.sctrap = false ∧ d.ord.toNat < 18446744069414584320 := by
  refine ⟨⟨by decide, ⟨_, rfl, by decide⟩, by decide, by decide, by decide, by decide⟩, ⟨_, rfl, by decide⟩, _, rfl, by decide⟩

/-- A window of one page at page 2 of VD 0. -/
def withWin : State :=
  (mapped.modHbm fun h =>
    { h with wins := [(7, { a := 0, b := 1, aw := true, bw := true, aPage := 2, bPage := 2, size := 65536, frames := [3], seq := 41, closing := none })]
             frames := [(3, { dom := 263, page := 2 })] }).modPl
    fun p => (p.wg 4 0x20000).wg 5 0x1FFC0

theorem wit_ShareSequence : ((withAcc [doneAcc (.shacq 1 7) (wordBytes 42)]).pl.mine AccKind.isShare = some (doneAcc (.shacq 1 7) (wordBytes 42)) ∧
      (doneAcc (.shacq 1 7) (wordBytes 42)).performed = true ∧ (withAcc [doneAcc (.shrel 1 7) (wordBytes 42)]).pl.mine AccKind.isShare ≠ none) ∧
    (withWin.pl.guard 0 = true ∧ withWin.pl.mine AccKind.isShare = none ∧ withWin.windowAt withWin.curVd (withWin.pl.rg 5) = none) ∧
    withWin.windowAt withWin.curVd (withWin.pl.rg 4) = some 7 ∧ withWin.pl.acc = [] := by decide +kernel

/-- Counts at their thresholds and one above; tags 0 and 63; a copy that may still set tag 63, and none. -/
theorem wit_Waits : (let s := (withAcc []).modPl fun p => (p.wg 4 (1 + 64)).wg 5 0x8000000000000001
     s.leads = [] ∧ s.pl.oc.ldc.toNat ≤ ((s.pl.rg 4).extractLsb' 0 6).toNat ∧ s.pl.oc.stc.toNat ≤ ((s.pl.rg 4).extractLsb' 6 6).toNat ∧
     s.pl.oc.cpc.toNat ≤ ((s.pl.rg 4).extractLsb' 12 6).toNat ∧ s.pl.oc.mxc.toNat ≤ ((s.pl.rg 4).extractLsb' 18 6).toNat ∧
     s.pl.oc.ldc.toNat ≤ (63#6).toNat ∧ s.pl.guard 0 = true ∧ (0#6).toNat < s.pl.oc.ldc.toNat ∧
     ((s.pl.rg 0).extractLsb' 0 6).toNat < s.pl.oc.ldc.toNat ∧ ((s.pl.rg 4).extractLsb' 12 6).toNat < 63 ∧ s.pl.guard 1 = false ∧ s.pl.sr.tags &&& s.pl.rg 5 = 0 ∧ s.pl.rg 5 ≠ 0 ∧
     s.named &&& s.pl.rg 5 = 0 ∧ s.pl.rg 5 &&& ~~~s.pl.sr.tags &&& ~~~s.named ≠ 0) ∧
    (let s := base.modPl fun p => { p.wg 5 0x8000000000000001 with sr := { p.sr with tags := 0x8000000000000001 } }
     s.leads = [] ∧ s.pl.sr.tags &&& s.pl.rg 5 ≠ 0 ∧ s.pl.sr.tags &&& s.pl.rg 5 = s.pl.rg 5) ∧
    let s := (base.modPl fun p => { (p.wg 5 0x8000000000000001).wg 6 0x8000000000000000 with sr := { p.sr with tags := 1 } }).modCore 0 fun k => { k with cp := [
      { c := command base 0 0 0 0, chain := false, line := 0x10000, word := 0, tag := some 63, ents := 0, bytes := 0, done := 0, loop := none, buf := none,
        wait := false, wrote := 0, moved := [], flits := 0, doms := [], en := 0, flags := 0, cur := none }] }
    s.named = 0x8000000000000000 ∧ s.pl.sr.tags &&& s.pl.rg 6 = 0 ∧ s.pl.rg 6 ≠ 0 ∧ s.named &&& s.pl.rg 6 ≠ 0 ∧ s.pl.sr.tags &&& s.pl.rg 5 ≠ s.pl.rg 5 ∧
      s.pl.rg 5 &&& ~~~s.pl.sr.tags &&& ~~~s.named = 0 := by decide

/-- A copy not yet complete, and waits on both sides of every limit of a bin. -/
theorem wit_LeadTimeBins : ∀ w ∈ [none, some 0, some 1, some 2, some 3, some 4, some 7, some 8, some 15, some 16, some 63, some 64, some 255, some 256],
    let l : Lead := { id := 0, tag := none, done := w.map fun x => 300 - x }
    let s := { withTask (fun t => { t with leads := [l] }) with slot := 300 }
    s.pl.task = some 0 ∧ (s.task 0).map (fun t => (t.leads, t.vd)) = some ([l], 0) ∧ (s.vd 0).isSome = true ∧
      (match l.done with | some x => s.now - x | none => 0) = w.getD 0 := by decide +kernel

/-- Where sr.fpen enables no trap no element traps. -/
theorem quiet {s : State} (h5 : s.pl.sr.fpen.getLsbD 5 = false) (h : (s.pl.sr.fpen.setWidth 5).setWidth 6 = 0#6) (es : List FElem) : Quiet s es := by
  refine ⟨fun x => ?_, fun e _ => by rw [h]; exact BitVec.and_zero⟩
  rw [h5] at x; cases x

theorem quiet_base (es : List FElem) : Quiet base es := quiet (by decide) (by decide) es

/-- `base` with every floating-point trap and ESN enabled, and 1.0 and 2.0 in v1 and v2. -/
def trapping : State := withV (base.modPl fun p => { p with sr := { p.sr with fpen := 0x13F } }) [(1, vreg [0x3F800000]), (2, vreg [0x40000000])]

/-- An addition that is exact raises nothing, with every trap enabled. -/
theorem wit_VectorArithmetic : (∀ es, Quiet base es) ∧ Quiet trapping ((actives 32 (trapping.pl.vguard 0)).map fun e =>
    { lane := 32 * e / 64, r := Arith.add.elem 1 (trapping.pl.fctl 0) false (elemAt 32 (trapping.pl.rv 1) e) (elemAt 32 (trapping.pl.rv 2) e),
      fmt := tyFmt 1 }) := ⟨quiet_base, by unfold Quiet; decide +kernel⟩

/-- The lowest and the highest integer type, the highest signed type, the lowest unsigned type. -/
theorem wit_IntegerElements : (6 ≤ 6 ∧ 6 ≤ 13 ∧ 6 ≤ 9) ∧ (6 ≤ 9 ∧ 9 ≤ 13 ∧ 9 ≤ 9) ∧ (6 ≤ 10 ∧ 10 ≤ 13 ∧ ¬ 10 ≤ 9) ∧ 6 ≤ 13 ∧ 13 ≤ 13 := by decide

/-- Guard 0b1000 and the one below it; the highest lane; two masks, one of which may be m0. -/
theorem wit_VectorCompare : ((8#4) = 8 ∧ (7#4) ≠ 8) ∧ (∀ es, Quiet base es) ∧ (15 < 16 ∧ (7#3) ≠ 0 ∧ (1#3) ≠ 0 ∧ (1#3) ≠ 7#3) ∧
    Quiet trapping ((actives 32 (trapping.pl.vguard 0)).map fun e =>
      { lane := 32 * e / 64, r := (cmpElem 1 (trapping.pl.fctl 0) 1 (elemAt 32 (trapping.pl.rv 1) e) (elemAt 32 (trapping.pl.rv 2) e)).2, fmt := none }) :=
  ⟨by decide, quiet_base, by decide, by unfold Quiet; decide +kernel⟩

theorem wit_VectorFolds : (∀ es, Quiet base es) ∧ Quiet trapping ((redSteps 1 (trapping.pl.fctl 0) 0 (trapping.pl.rv 1) (actives 32 (trapping.pl.vguard 0))).map
    fun r => { lane := 32 * r.1 / 64, r := r.2, fmt := tyFmt 1 }) := ⟨quiet_base, by unfold Quiet; decide +kernel⟩

/-- VPACK4 with lane 0 active and with it inactive; two destination registers of VSPLIT. -/
theorem wit_VectorConversions : (∀ es, Quiet base es) ∧ (base.pl.vguard 0).getLsbD 0 = true ∧
    ((base.modPl fun p => p.wm 1 0xFFFE).pl.vguard 1).getLsbD 0 = false ∧ (10#5) ≠ 11#5 ∧
    Quiet trapping (((actives 64 (trapping.pl.vguard 0)).filter fun e => decide (e < 1024 / max 32 64)).map fun e =>
      { lane := 64 * e / 64, r := convElem 1 0 (trapping.pl.fctl 0) false (elemAt 32 (trapping.pl.rv 1) e), fmt := tyFmt 0 }) :=
  ⟨quiet_base, by decide, by decide, by decide, by unfold Quiet; decide +kernel⟩

/-- An sNaN in element 31 with ESN; the same with ESN off, where the enabled NV traps; an inexact sum with NX alone. -/
theorem wit_FloatingTraps : let v : VReg := setLane 0 15 0x7F80000100000000
    let s (en : Word) := withV (base.modPl fun p => { p with sr := { p.sr with fpen := en } }) [(1, v), (2, vreg [0x3F800000]), (3, vreg [0x33000000])]
    let r (s : State) (a : BitVec 5) (e : Nat) : FRes := Arith.add.elem 1 (s.pl.fctl 0) false (elemAt 32 (s.pl.rv a) e) (elemAt 32 (s.pl.rv 2) e)
    ((s 0x120).pl.sr.fpen.getLsbD 5 = true ∧ ∃ e ∈ actives 32 ((s 0x120).pl.vguard 0), (r (s 0x120) 1 e).sn = true) ∧
    (¬ ((s 0x101).pl.sr.fpen.getLsbD 5 = true ∧ ∃ e ∈ actives 32 ((s 0x101).pl.vguard 0), (r (s 0x101) 1 e).sn = true) ∧
      ∃ e ∈ actives 32 ((s 0x101).pl.vguard 0), (r (s 0x101) 1 e).fl &&& ((s 0x101).pl.sr.fpen.setWidth 5).setWidth 6 ≠ 0#6) ∧
    ∃ e ∈ actives 32 ((s 0x110).pl.vguard 0), (r (s 0x110) 3 e).fl &&& ((s 0x110).pl.sr.fpen.setWidth 5).setWidth 6 ≠ 0#6 := by decide +kernel

/-! ### Engines -/

/-- The placed instruction's access as a decoding load of layout 1 from a page of FP16 elements. -/
def decAcc : Access := { doneAcc (.vld 3 1 8) (List.replicate 128 0x3C) with elems := [{ mkElem 0 (List.range 16) 0x10000 128 (lowMask 64) [] with
  loc := some (.hbm 65536), st := .performed, res := List.replicate 128 0x3C }] }

theorem wit_DecodingLoad : (withAcc [decAcc]).pl.vguard 0 ≠ 0 ∧ (1#3) ≠ 0 ∧ (withAcc [decAcc]).pl.mine AccKind.isDec = some decAcc ∧
    decAcc.performed = true ∧ decAcc.kind = .vld 3 1 8 ∧ (decSrc 1 8).isSome = true ∧
    ∀ es, Quiet (withAcc [decAcc]) es := by
  refine ⟨by decide, by decide, by decide +kernel, by decide +kernel, rfl, by decide, quiet (by decide +kernel) (by decide +kernel)⟩

theorem unbooked_base {copy : Bool} {bk : BitVec 6} {ar : BitVec 2} {scp : BitVec 3} (h : (ar = 0 ∨ scp.toNat ≤ 4) ∧
    (bk = 0 ∨ (base.pl.rg bk).setWidth 24 = 0#24)) : Unbooked base copy bk ar scp :=
  ⟨placedVd, base_vd, h.1, h.2, by cases copy <;> decide⟩

/-- Unbooked by register 0, by a register that holds 0, with order at the ceiling; MMT of no element and of the whole lease's rows; the last
segment of the last row; a bobbin address; the first line of the lease and a line in HBM. -/
theorem wit_EngineWorkEnters : (Unbooked base false 0 0 0 ∧ Unbooked base false 9 3 4 ∧ Unbooked base true 0 0 7) ∧
    (let s := withG [(4, 0x1000000000000), (5, 0x0000000000208080), (6, 2047), (7, 0x1000000100000), (8, 0x10000)]
     let b := s.pl.rg 5
     (s.pl.guard 0 = true ∧ (b.extractLsb' 0 8).toNat ≤ 128 ∧ (b.extractLsb' 8 8).toNat ≤ 128 ∧ b.extractLsb' 46 18 = 0#18 ∧
       (b.extractLsb' 32 14).toNat % 32 = 0 ∧ s.pl.rg 4 &&& 31#64 = 0#64 ∧
       s.pl.leased (s.pl.rg 4) (128 * mmtPitch 9 32) = true ∧ s.pl.leased (s.pl.rg 4) 64 = true) ∧
     (s.vd s.curVd = some placedVd ∧ s.mdaddBad placedVd (s.pl.rg 7 + 0x20000) = none) ∧
     ((s.pl.rg 6).extractLsb' 11 53 = 0#53 ∧ ((s.pl.rg 6).extractLsb' 7 4).toNat = 15 ∧ 0 * (1024 / tyWidth 1) < 128 ∧
       ((s.pl.rg 6 - 1536).extractLsb' 11 53 = 0#53 ∧ ((s.pl.rg 6 - 1536).extractLsb' 7 4).toNat * (1024 / tyWidth 1) < 128)) ∧
     (s.pl.rg 4 &&& 63#64 = 0#64 ∧ s.cpyBad (s.pl.rg 4) 64 64 = none ∧ s.cpyBad (s.pl.rg 4 + 6120) 8 24 = none ∧ s.cpyBad (s.pl.rg 8) 64 64 = none ∧
       s.pl.task = some 0 ∧ (s.task 0).isSome = true)) ∧
    let s := base.modPl fun p => { p with rows := 128 }
    s.pl.guard 0 = true ∧ s.pl.leased 0x1000000000000 (16384 * (tyWidth 1 / 8)) = true ∧ (0x1000000000000 : Word) &&& 31#64 = 0 := by
  refine ⟨⟨unbooked_base (by decide), unbooked_base (by decide), unbooked_base (by decide)⟩, by decide, by decide⟩

/-- A COPY step of task 0 on calendar 40, [start, start + 8), at entry 5 of die 0. -/
def bstep (start : Nat) : BStep :=
  { kind := 1, withRel := false, gap := 0, dur := 8, len := 8, rate := 1, vol := 64, cal := 40, start := start, orig := start, late := 0, st := .booked,
    consumed := false, slipCancel := false, free := false, rem := none }

/-- `base` in slot 100 with a booking of task 0 under handle 5. -/
def bookedAt (start : Nat) : State :=
  { (withG [(4, 0x10000), (5, 5)]).modBk fun k => { k with bookings := [(5, { vd := 0, owner := 0, gen := 0, pri := 0, steps := [bstep start, bstep start] })] }
    with slot := 100 }

/-- The slot before the start, the first slot, the last. -/
theorem wit_BookedWorkStarts : ∀ start ∈ [101, 100, 93], let s := bookedAt start
    ((s.pl.rg 5).setWidth 24).toNat = 5 ∧ s.pl.guard 0 = true ∧ s.cpyBad (s.pl.rg 4) 64 64 = none ∧ s.vd s.curVd = some placedVd ∧ s.pl.oc.cpc ≠ 63 ∧
      s.stepUse s.curVd (s.pl.task.getD 0) 5 1 true = .booked 5 (bstep start) ∧ (start = 101 → s.now < start) ∧
      (start ≠ 101 → start ≤ s.now ∧ s.now < start + (bstep start).len) := by decide +kernel

/-- A tag's copy that has left the engine; a booking's step; a handle that names nothing; no sweep, and one. -/
theorem wit_StatusReads : (let s := withTask fun t => { t with cpq := [(63, ⟨3, 2, 70000, 64⟩)] };
      (s.curTask.bind fun k => tget k.cpq (63#6).toNat) = some ⟨3, 2, 70000, 64⟩ ∧
        ((s.core s.fc).cp.all fun x => x.c.id != 3) = true) ∧
    (let s := bookedAt 101;
      (∃ b, s.booking s.curVd ((s.pl.rg 5).setWidth 24).toNat = some b ∧ b.steps[1]? = some (bstep 101)) ∧
        s.booking s.curVd ((s.pl.rg 4).setWidth 24).toNat = none ∧ s.pendingReq s.curVd ((s.pl.rg 4).setWidth 24).toNat = none) ∧
    base.sweep base.curVd ((base.pl.rg 4).setWidth 12) = none ∧
    let s := base.modFr fun f => { f with sweeps := [Sweep.fresh 0 0 0 (List.replicate 16 0) .launch] }
    s.sweep s.curVd ((s.pl.rg 4).setWidth 12) = some (Sweep.fresh 0 0 0 (List.replicate 16 0) .launch) := by
  refine ⟨by decide, ⟨⟨_, rfl, rfl⟩, by decide, by decide⟩, by decide, by decide⟩

/-- M of 129, N of 129, a reserved bit; a column base of 1; addresses off by one; a lease that ends a row early; SCTRAP with a lower ceiling. -/
theorem wit_EngineOperandTraps : (let s := withG [(4, 0x1000000000001), (5, 129), (6, 129 * 256), (7, 0x400000000000), (8, 0x100000000), (9, 0x8080)]
      s.pl.guard 0 = true ∧ 128 < ((s.pl.rg 5).extractLsb' 0 8).toNat ∧ 128 < ((s.pl.rg 6).extractLsb' 8 8).toNat ∧ (s.pl.rg 7).extractLsb' 46 18 ≠ 0#18 ∧
      (((s.pl.rg 8).extractLsb' 0 8).toNat ≤ 128 ∧ ((s.pl.rg 8).extractLsb' 8 8).toNat ≤ 128 ∧ (s.pl.rg 8).extractLsb' 46 18 = 0#18 ∧
        ((s.pl.rg 8).extractLsb' 32 14).toNat % 32 ≠ 0) ∧
      (((s.pl.rg 9).extractLsb' 0 8).toNat ≤ 128 ∧ ((s.pl.rg 9).extractLsb' 8 8).toNat ≤ 128 ∧ (s.pl.rg 9).extractLsb' 46 18 = 0#18 ∧
        s.pl.rg 4 &&& 31#64 ≠ 0#64) ∧ (s.pl.rg 4).toNat % 64 ≠ 0 ∧ (s.pl.rg 4).toNat % 8 ≠ 0 ∧ (s.pl.rg 8).extractLsb' 11 53 ≠ 0#53) ∧
    (base.pl.leased 0x1000000000000 (16384 * (tyWidth 1 / 8)) = false ∧ (0x1000000000000 : Word) &&& 31#64 = 0) ∧
    let s := withDef fun d => { d with ceil := 3, sctrap := true }
    ∃ d, s.vd s.curVd = some d ∧ s.pl.guard 0 = true ∧ s.cpyBad 0x10000 64 64 = none ∧ d.d.sctrap = true ∧ (1#2) ≠ 0 ∧ d.d.ceil.toNat < (4#3).toNat := by
  refine ⟨by decide, by decide, _, rfl, by decide⟩

/-- A matrix operation of task 0. -/
def mxop (k : MxKind) : MxOp :=
  { c := command base 0 0 0 0, kind := k, tile := 7, en := 0, tensor := 0, ftz := false, prog := 0, acks := 0, flags := 0,
    srcNx := false, stat := Stat.reset, sf := 0, tested := false }

/-- `base` with operations in the matrix engine of core 0. -/
def withMx (os : List MxOp) : State := base.modCore 0 fun k => { k with mx := os }

/-- MZERO of tile 7, whose bobbin holds a byte. -/
theorem wit_ZeroedTile : let s := (withMx [mxop .mzero]).modCore 0 fun k => { k with bobbin := [(1048575, 1)] }
    s.mxTurn 0 = some (mxop .mzero) ∧ (mxop .mzero).kind = .mzero ∧ (mxop .mzero).c.st = .waiting ∧ (mxop .mzero).c.acq = false ∧
      (mxop .mzero).c.rel = false ∧ s.unitRuns 0 (mxUnit 0) = true ∧ s.cmdClear 0 (mxop .mzero).c (.bobbin 0 (entryOff 7 0 0)) 131072 = true ∧
      (s.core 0).bobbin.wf = true := by decide

/-! ### Bookings, tasks, futures, returns, traps -/

/-- A pair whose first component is known. -/
theorem pair {α β : Type} {x : β × α} {b : β} (h : x.1 = b) : x = (b, x.2) := by rw [← h]

/-- A computation that has an answer. -/
theorem some_of {α : Type} {x : Option α} (h : x.isSome = true) : ∃ y, x = some y := Option.isSome_iff_exists.mp h

/-- `base` holding for the result `w` of its request 9. -/
def answered (w : Word) : State :=
  ((withG [(4, 0x1000000000000), (5, 0x1000000000000 + 6128)]).modPl fun p => { p with hold := some (.book 9) }).modBk fun k => { k with results := [(9, w)] }

/-- Results with TAG 1, with TAG 3 and with another, of a record at the lease's first and last doubleword pair; a request for a record that is not aligned,
and outside the lease; a booking of the VD, its steps, and no booking. -/
theorem wit_BookingInstructions : (∀ w, (answered w).pl.guard 0 = true ∧ (answered w).pl.hold = some (.book 9) ∧ tget (answered w).bk.results 9 = some w ∧
      (answered w).pl.rg 4 = 0x1000000000000 ∧ (answered w).pl.rg 5 = 0x10000000017F0 ∧ ((answered w).core (answered w).fc).spad.wf = true) ∧
    (winOf 0x1000000000000 = .spad 0 ∧ winOf 0x10000000017F0 = .spad 6128) ∧
    ((0x1000000000000005 : Word).extractLsb' 60 4 = 1#4 ∧ (0x3000000000000005 : Word).extractLsb' 60 4 = 3#4 ∧ (0x5 : Word).extractLsb' 60 4 ≠ 1#4 ∧
      (0x5 : Word).extractLsb' 60 4 ≠ 3#4) ∧
    (let s := withG [(4, 0x1000000000004), (5, 0x1000000000000 + 6136)];
      s.pl.hold = none ∧ s.pl.rg 4 &&& 7#64 ≠ 0#64 ∧ s.pl.rg 5 &&& 7#64 = 0#64 ∧ s.pl.leased (s.pl.rg 5) 16 = false) ∧
    (let s := bookedAt 101;
      (∃ b, s.booking s.curVd ((s.pl.rg 5).setWidth 24).toNat = some b ∧ b.steps[0]? = some (bstep 101) ∧ b.steps[1]? = some (bstep 101)) ∧
        (bstep 101).st = .booked ∧ s.booking s.curVd ((s.pl.rg 4).setWidth 24).toNat = none ∧
        s.pendingReq s.curVd ((s.pl.rg 4).setWidth 24).toNat = none ∧ s.pl.guard 0 = true) := by
  refine ⟨fun w => ⟨rfl, rfl, rfl, rfl, rfl, rfl⟩, by decide, by decide, ⟨rfl, by decide, by decide, by decide⟩, ⟨_, rfl, rfl, rfl⟩, by decide, by decide, by decide,
    by decide⟩

/-- A sweep of three points of one axis on die 0, its entry at line 64. -/
def desc3 : List Word := [0x10000000000, 0x0001000100010003, 1, 0, 0x0001000000000040, 0, 0, 0, 0, 0, 0, 0, 0, 64, 0, 0]

/-- `base` with LAUNCH's access performed, and what it read. -/
def launching (desc : List Word) : State := withAcc [doneAcc (.desc 3) (desc.flatMap wordBytes)]

/-- DCNT 0 and 32,767 at a line; a signal to a task's record; a descriptor that is rejected and one that is not; a gate of no sweep and of a running one. -/
theorem wit_TaskCreation : (let s := withG [(4, 64), (5, 32767), (6, 65)];
      (s.vd s.curVd = some placedVd ∧ s.pl.guard 0 = true ∧ s.pl.acc = [] ∧ 2 ≤ placedVd.d.ceil.toNat) ∧
      (s.pl.rg 4 &&& 63#64 = 0#64 ∧ s.pl.rg 4 ≠ 0#64 ∧ inHbmWindow (s.pl.rg 4) = true ∧ (s.pl.rg 5).toNat ≤ 32767 ∧ (s.pl.rg 0).toNat ≤ 32767 ∧
        s.pl.rows ≤ placedVd.d.lmax ∧ (∃ idx, s.spawnIdx s.curVd placedVd = some idx)) ∧
      (s.keyOfVa s.curVd (s.pl.rg 4).toNat).isSome = true ∧ s.pl.mine AccKind.isDesc = none ∧ s.pl.rg 6 &&& 63#64 ≠ 0#64) ∧
    (let s := launching [];
      (∃ a, s.pl.mine AccKind.isDesc = some a ∧ a.performed = true ∧
        ∃ code, s.checkDesc s.curVd placedVd.d (wordsOf (a.elems.flatMap (·.res)) 16) = (some code, s))) ∧
    (let s := launching desc3;
      ∃ a, s.pl.mine AccKind.isDesc = some a ∧ a.performed = true ∧ wordsOf (a.elems.flatMap (·.res)) 16 = desc3 ∧
        s.checkDesc s.curVd placedVd.d desc3 = (none, s) ∧ s.pl.acc = [a] ∧ (descScope desc3).toNat ≤ placedVd.d.ceil.toNat ∧
        ∃ id, s.freeSweepId s.curVd = some id) ∧
    (let s := withG [(4, 7), (5, 65536)];
      s.pl.rg 4 &&& 0xFFFFF000#64 = 0#64 ∧ (s.sweepScope s.curVd ((s.pl.rg 4).setWidth 12)).toNat ≤ placedVd.d.ceil.toNat ∧
        s.sweep s.curVd ((s.pl.rg 4).setWidth 12) = none ∧ min (s.pl.rg 5).toNat 65535 ≠ 0) ∧
    let s := (withG [(4, 7), (5, 1)]).modFr fun f => { f with sweeps := [Sweep.fresh 0 0 7 desc3 .launch] }
    ∃ x, s.sweep s.curVd ((s.pl.rg 4).setWidth 12) = some x ∧ x.st = .running ∧ min (s.pl.rg 5).toNat 65535 ≠ 0 := by
  refine ⟨⟨by decide, ⟨by decide, by decide, by decide, by decide, by decide, by decide, some_of (by decide)⟩, by decide⟩, ⟨_, rfl, by decide, _, rfl⟩,
    ⟨_, rfl, by decide, by decide +kernel, by decide +kernel, by decide, by decide, some_of (by decide)⟩, by decide, _, rfl, by decide⟩

/-- Suspended with its record mapped; in a loop; with an operation outstanding. -/
theorem wit_TaskLeaves : (mapped.pl.guard 0 = true ∧ mapped.pl.loop.act = false ∧ mapped.pl.oc.zero = true ∧ mapped.pl.task = some 0 ∧
      (∃ x, mapped.task 0 = some x) ∧ (∃ x, mapped.curTask = some x) ∧
      ∃ u, (mapped.applyInc 0).writeRecord 0 (mapped.nextPc 1) mapped.pl.carried = (true, u)) ∧
    (looping.pl.loop.act = true ∧ looping.pl.guard 0 = true ∧ (0#4) ≠ 8) ∧
    (withAcc []).pl.oc.zero = false ∧ (withAcc []).pl.loop.act = false ∧ ∃ x, (withAcc []).curTask = some x := by
  refine ⟨⟨by decide +kernel, by decide +kernel, by decide +kernel, by decide +kernel, some_of (by decide +kernel), some_of (by decide +kernel), _,
    pair (by decide +kernel)⟩, by decide, by decide, by decide, some_of (by decide)⟩

/-- A future's access, with VALUE 5, FULL and WMODE given, its home HBM or a scratchpad. -/
def futAcc (full : Word) (mode : Byte) (l : Loc) : Access :=
  { doneAcc (.fget 3) [] with elems := [{ mkElem 0 [0] 0x10000 24 (lowMask 24) [] with
      loc := some l, st := .performed, res := wordBytes 5 ++ wordBytes full ++ mode :: List.replicate 7 0 }] }

/-- FULL; EMPTY in a scratchpad; EMPTY in HBM with WMODE 2 and with 0, the counts zero or not; addresses 0x10000 and 8 above it. -/
theorem wit_Futures : (∀ a ∈ [futAcc 1 0 (.hbm 65536), futAcc 0 0 (.spad 0 0), futAcc 0 2 (.hbm 65536), futAcc 0 0 (.hbm 65536)],
      let s := withAcc [a]
      s.vd s.curVd = some placedVd ∧ s.pl.loop.act = false ∧ s.pl.guard 0 = true ∧ s.pl.mine AccKind.isFget = some a ∧ a.performed = true ∧
        a.elems.length = 1 ∧ s.pl.oc.zero = false ∧ (s.modPl fun p => { p with oc := Oc.reset }).pl.oc.zero = true ∧
        (s.futureScope (s.pl.rg 4)).toNat ≤ placedVd.d.ceil.toNat) ∧
    (∀ e ∈ (futAcc 1 0 (.hbm 65536)).elems, leNat ((e.res.drop 8).take 8) ≠ 0) ∧
    (∀ e ∈ (futAcc 0 0 (.spad 0 0)).elems, leNat ((e.res.drop 8).take 8) = 0 ∧ e.loc = some (.spad 0 0)) ∧
    (∀ e ∈ (futAcc 0 2 (.hbm 65536)).elems, leNat ((e.res.drop 8).take 8) = 0 ∧ e.loc = some (.hbm 65536) ∧ e.res.getD 16 0 = 2#8) ∧
    (∀ e ∈ (futAcc 0 0 (.hbm 65536)).elems, leNat ((e.res.drop 8).take 8) = 0 ∧ e.loc = some (.hbm 65536) ∧ e.res.getD 16 0 ≠ 2#8) ∧
    (let s := withG [(4, 0x10000), (5, 0x10008)];
      s.pl.mine AccKind.isFget = none ∧ s.pl.mine AccKind.isFput = none ∧ s.pl.rg 5 &&& 15#64 ≠ 0#64 ∧ s.pl.rg 4 &&& 15#64 = 0#64 ∧
        isHost (s.pl.rg 4) = false) ∧
    (withAcc [doneAcc .fput []]).pl.mine AccKind.isFput = some (doneAcc .fput []) ∧ (doneAcc .fput []).performed = true := by decide +kernel

/-- `sys` as the trap task of pair 15. -/
def handling : State := (sys.modTask 0 fun t => { t with kind := 2, smode := true, record := some 15 }).modPl fun p => (p.wg 4 (8192 + 64 * 15)).wg 5 0x10000

theorem wit_ReturnsAndInvalidations : (base.pl.sr.smode = false ∧ (0#4) ≠ 8) ∧
    (handling.pl.guard 0 = true ∧ handling.pl.sr.smode = true ∧ handling.pl.acc = [] ∧ handling.pl.hold = none ∧
      ∃ t, handling.curTask = some t ∧ handling.ownRecord t = some (handling.pl.rg 4) ∧ handling.ownRecord t ≠ some (handling.pl.rg 5)) ∧
    (handling.pl.oc.zero = true ∧ (handling.modPl fun p => { p with oc := { p.oc with mxc := 63 } }).pl.oc.zero = false) ∧
    let s := handling.modCore 0 fun k => { k with tc := [{ vd := 0, page := 1, dpage := 1, n := 1, lvl := 0, fmt := 0, w := true, x := true, c := true, w2 := true,
                                                            m := false }] }
    ((s.tcInval s.curVd fun _ => true).walksNoFill fun w => w.vd == s.curVd).usersOf s.curVd (fun _ => true) = [] ∧ s.pl.acc = [] := by
  refine ⟨by decide, ⟨by decide, by decide, by decide, by decide, _, rfl, by decide, by decide⟩, by decide, by decide⟩

/-- A trap of task 0 with cause FPE. -/
def trapInfo : TrapInfo := preciseInfo base 9 4100 0 4100

/-- `mapped` with that trap pending, every pair but 15 and every kept slot but 31 taken by tasks. -/
def delivering : State :=
  (mapped.modPl fun p => { p with trap := some trapInfo }).modFr fun f => { f with
    tasks := f.tasks ++ (List.range 15).map fun k => (48 + k, { Task.fresh 0 (48 + k) 1 0 0 0 0xFFF#12 0 1 with state := .spilled, frame := some (16 + k, 0, 0) }) }

/-- Outstanding and not; no free pair or slot, and one of each with everything mapped. -/
theorem wit_TrapTaken : ((withAcc []).plane 0 0).oc.zero = false ∧ (base.plane 0 0).oc.zero = true ∧
    (let s := (base.modPl fun p => { p with trap := some trapInfo }).modFr fun f => { f with
       tasks := f.tasks ++ (List.range 16).map fun k => (48 + k, { Task.fresh 0 (48 + k) 1 0 0 0 0xFFF#12 0 1 with state := .waiting }) };
     (s.plane 0 0).trap = some trapInfo ∧ (s.plane 0 0).task = some 0 ∧ (s.task 0).isSome = true ∧ s.vd 0 = some placedVd ∧
       s.pick (s.freePairs 0 placedVd) = none) ∧
    ((delivering.plane 0 0).trap = some trapInfo ∧ (delivering.plane 0 0).task = some 0 ∧ trapInfo.cause.getLsbD 8 = false ∧
      ∃ t d u v, delivering.task 0 = some t ∧ delivering.vd t.vd = some d ∧ delivering.pick (delivering.freePairs t.vd d) = some 15 ∧
        delivering.freeKept t.vd d = some 31 ∧
        (delivering.bump.modTask (taskKey t.vd t.idx) fun t => { t with more := none, requeued := false, parkAt := none, parkWords := 0, kept := none, lanes := [] }).spillTo
          0 0 31 trapInfo.resume = (none, u) ∧
        u.quietWrite t.vd (d.d.tra + 64 * 15)
          ([trapInfo.cause, (trapInfo.resume.setWidth 48).setWidth 64, trapInfo.tval, BitVec.ofNat 64 (d.d.poolBase + 64 * t.idx),
           (trapInfo.origin.setWidth 48).setWidth 64, BitVec.ofNat 64 (1099511627776 * trapInfo.more + 268435456 * trapInfo.state + 16777216 * trapInfo.step +
           trapInfo.bkh), trapInfo.slot, BitVec.ofNat 64 (65536 * 0 + 31)].flatMap wordBytes) = (none, v)) := by
  refine ⟨by decide, by decide, by decide, by decide, by decide, by decide, _, _, _, _, rfl, rfl, by decide, by decide, pair (by decide +kernel),
    pair (by decide +kernel)⟩

/-! ### Events -/

/-- `base` with a sweep of three points running, and another that waits. -/
def sweeping : State :=
  base.modFr fun f => { f with sweeps := [Sweep.fresh 0 0 7 desc3 .launch], waiting := [{ vd := 0, desc := desc3, src := .launch }],
                               edges := [{ key := 0, src := 0, dst := 1, vd := 0, swid := 7, col := 0, h := 1, w := 0 },
                                         { key := 0, src := 0, dst := 1, vd := 0, swid := 7, col := 0, h := 2, w := 0 }],
                               gadds := [{ key := 0, fin := some 0, vd := 0, swid := 7, die := 7, face := 7, amount := 65535 }],
                               decs := [{ vd := 0, va := 64, fin := some 0 }] }

/-- A point to fire and none; the first of two edges and the second; every message in flight; a task with DCNT 1 and with the lowest DCNT that can fall. -/
theorem wit_FrontierEvents : ((∃ x, sweeping.fireTurn 0 = some (x, 0, 0) ∧ x.vd = 0 ∧ x.desc.getD 5 0 = 0) ∧ sweeping.vd 0 = some placedVd ∧
      (∃ idx, sweeping.freeIdx 0 placedVd = some idx) ∧ base.fireTurn 0 = none) ∧
    ((∃ e, sweeping.fr.edges[0]? = some e ∧ (sweeping.sweep e.vd e.swid).isSome = true) ∧
      ∃ e y, sweeping.fr.edges[1]? = some e ∧ sweeping.fr.edges[0]? = some y ∧ y.src = e.src ∧ y.dst = e.dst) ∧
    (∃ a, sweeping.fr.gadds[0]? = some a ∧ ∃ x, (sweeping.fr.sweeps.find? fun x => x.key == a.key) = some x ∧ x.acted = false) ∧
    ((∃ w, (sweeping.fr.waiting.find? fun x => x.vd == 0) = some w) ∧ sweeping.works 0 = true ∧ ∃ id, sweeping.freeSweepId 0 = some id) ∧
    (∃ d, sweeping.fr.decs[0]? = some d) ∧
    ∀ n ∈ [(1 : Int), -32767], let s := withTask fun t => { t with dcnt := n, state := .waiting }
      s.keyOfVa 0 64 = some 0 ∧ (s.task 0).map (fun t => (t.dcnt, t.state)) = some (n, .waiting) ∧ n ≠ -32768 ∧ twf s.fr.tasks = true := by
  refine ⟨⟨⟨_, rfl, rfl, rfl⟩, by decide, some_of (by decide), by decide⟩, ⟨⟨_, rfl, by decide⟩, _, _, rfl, rfl, rfl, rfl⟩, ⟨_, rfl, _, rfl, rfl⟩,
    ⟨⟨_, rfl⟩, by decide, some_of (by decide)⟩, ⟨_, rfl⟩, by decide⟩

/-- VD 0 on hank 0, task 0 in its plane in a state `st`, task 1 READY. -/
def staging (s : State) (st : TState) (cx : Bool) : State :=
  { (s.modTask 0 fun t => { t with state := st }).modFr fun f => { f with tasks := f.tasks ++ [(1, { Task.fresh 0 1 1 0 0 0 0xFFF#12 0 1 with cx := cx })] }
    with hanks := [(0, 0)] }

/-- `staging` with task 2 STAGED in the shadow plane. -/
def shadowed (s : State) (st : TState) : State :=
  ((staging s st false).modFr fun f => { f with tasks := f.tasks ++ [(2, { Task.fresh 0 2 1 0 0 0 0xFFF#12 0 1 with state := .staged })] }).modCore 0 fun k =>
    { k with p1 := { Plane.reset with task := some 2, row := 1, rows := 1 } }

/-- A task to stage, marked CX or not, and none; planes that may be swapped and that may not; a PARKED task whose plane is wanted and is not; in a
freeze; an ACTIVE one. -/
theorem wit_DispatchEvents : (∀ cx ∈ [true, false], (staging base .active cx).stageTurn 0 = some (0, 1, 1) ∧
      ((staging base .active cx).task 1).map (·.cx) = some cx) ∧ base.stageTurn 0 = none ∧
    ((shadowed base .held).maySwap 0 = true ∧ (shadowed base .active).maySwap 0 = false) ∧
    (let s := shadowed base .parked;
     (∃ t, s.taskOf 0 0 = some (0, t) ∧ t.vd = 0 ∧ t.state = .parked) ∧ s.vd 0 = some placedVd ∧ placedVd.halt.isNone = true ∧ placedVd.freeze = none ∧
       (s.plane 0 0).onlyParked = true ∧ s.planeWanted 0 0 = true ∧ ∃ n, s.freeSlot 0 placedVd = some n) ∧
    ((staging base .parked false).planeWanted 0 0 = false ∧ ((staging base .parked false).plane 0 0).onlyParked = true) ∧
    (∃ t, (staging base .active false).taskOf 0 0 = some (0, t) ∧ t.state ≠ .parked) ∧
    (let s := shadowed mapped .parked;
     ∃ u, ((s.bump.parkFrame 0 0 0).count 0 3 6 1).spillTo 0 0 0 (((s.bump.parkFrame 0 0 0).count 0 3 6 1).plane 0 0).pc = (none, u)) ∧
    let s := withVd (fun d => { d with freeze := some { start := 0, saved := false } }) (shadowed base .parked)
    ∃ t d, s.taskOf 0 0 = some (0, t) ∧ s.vd t.vd = some d ∧ t.state = .parked ∧ d.halt = none ∧ d.freeze.isSome = true ∧ s.bk.bookings = [] ∧
      (s.plane 0 0).onlyParked = true ∧ ∃ n, s.freeSlot t.vd d = some n := by
  refine ⟨by decide +kernel, by decide +kernel, by decide +kernel, ⟨⟨_, rfl, rfl, rfl⟩, by decide, by decide, by decide, by decide, by decide,
    some_of (by decide)⟩, by decide, ⟨_, rfl, by decide⟩, ⟨_, pair (by decide +kernel)⟩, _, _, rfl, rfl, rfl, rfl, rfl, rfl, by decide, some_of (by decide)⟩

/-- A walk that finds its page. -/
theorem walk_ok {x : TrRes × State} (h : (match x.1 with | .ok _ => true | _ => false) = true) : ∃ t u, x = (.ok t, u) := by
  obtain ⟨r, u⟩ := x
  cases r <;> simp at h
  exact ⟨_, _, rfl⟩

/-- A pair whose first component is an answer. -/
theorem ans {α : Type} {x : Option α × State} (h : x.1.isSome = true) : ∃ y u, x = (some y, u) := by
  obtain ⟨y, hy⟩ := some_of h
  exact ⟨y, x.2, by rw [← hy]⟩

/-- `s` with one access of the plane, of a kind, whose element stands as given. -/
def elemAcc (k : AccKind) (st : ElemSt) (l : Option Loc) (data : List Byte) : Access :=
  { doneAcc k [] with elems := [{ mkElem 0 [0] 0x10000 8 (lowMask 8) data with loc := l, st := st, peer := match l with | some (.spad _ _) => true | _ => false }] }

/-- `s` with accesses outstanding. -/
def outstanding (s : State) (as : List Access) : State := s.modPl fun p => { p with acc := as, nextId := 1 }

/-- An answer that meets a test. -/
theorem any_of {α : Type} {x : Option α} {p : α → Bool} (h : x.any p = true) : ∃ y, x = some y ∧ p y = true := by
  cases x with
  | none => cases h
  | some y => exact ⟨y, rfl, h⟩

/-- `mapped` with one access whose element stands as given, a walk of its page under way, and perhaps its translation cached. -/
def walked (st : ElemSt) (cached : Bool) : State :=
  ((outstanding mapped [elemAcc .st st none []]).modDie 0 fun d => { d with walks := [{ vd := 0, page := 1, fill := true, counted := true }] }).modCore 0 fun k =>
    { k with tc := if cached then [{ vd := 0, page := 1, dpage := 2, n := 1, lvl := 2, fmt := 0, w := true, x := true, c := false, w2 := true, m := false }] else [] }

/-- A cached translation that permits. -/
theorem look_ok {x : Option TrRes × State} (h : (match x.1 with | some (.ok _) => true | _ => false) = true) : ∃ t u, x = (some (.ok t), u) := by
  obtain ⟨r, u⟩ := x
  cases r with
  | none => cases h
  | some r => cases r <;> simp at h; exact ⟨_, _, rfl⟩

/-- A look-up that hits and one that misses, a walk whose slot is held and none; each kind at its home agent, at a migrating frame, at a peer of the die,
accepted at another die; an operation split in two there; what has performed and what has not. -/
theorem wit_AccessEvents :
    ((∃ a e, (walked .translating true).elemOf 0 0 0 0 = some (a, e) ∧ a.id = 0 ∧ e.st = .translating ∧
        ∃ t u, (walked .translating true).tcLook 0 ((walked .translating true).vdOf 0 0) e.start a.kind.ty = (some (.ok t), u)) ∧
      (∃ a e, (walked .translating false).elemOf 0 0 0 0 = some (a, e) ∧ a.id = 0 ∧ e.st = .translating ∧
        ∃ u, (walked .translating false).tcLook 0 ((walked .translating false).vdOf 0 0) e.start a.kind.ty = (none, u)) ∧
      (∃ a e w, (walked .walking false).elemOf 0 0 0 0 = some (a, e) ∧ a.id = 0 ∧ e.st = .walking ∧
        (((walked .walking false).die (dieOf 0)).walks.take 64).find? (Walk.of ((walked .walking false).vdOf 0 0) ((hbmVa e.start).toNat / 65536)) = some w ∧
        (walked .walking false).walkers (dieOf 0) w = [(0, 0, 0, 0)] ∧
        ∃ t u, (walked .walking false).walkRun ((walked .walking false).vdOf 0 0) e.start a.kind.ty = (.ok t, u)) ∧
      (let s := outstanding mapped [elemAcc .st .walking none []]
       ∃ a e, s.elemOf 0 0 0 0 = some (a, e) ∧ e.st = .walking ∧
         ((s.die (dieOf 0)).walks.take 64).find? (Walk.of (s.vdOf 0 0) ((hbmVa e.start).toNat / 65536)) = none) ∧
      ∃ a e, (outstanding base [elemAcc .st .ready none []]).elemOf 0 0 0 0 = some (a, e) ∧ e.st ≠ .translating ∧ e.st ≠ .walking) ∧
    (∀ k ∈ [AccKind.st, .ld 3 false, .amo 3 0, .cas 3], let s := outstanding base [elemAcc k .ready (some (.hbm 65536)) (List.replicate 16 0)]
      ∃ a e, s.elemOf 0 0 0 0 = some (a, e) ∧ a.kind = k ∧ e.loc = some (.hbm 65536) ∧ s.turnAt 0 0 a 0 e = true ∧
        s.looseRoom (cgCal 65536) e.len = true ∧ s.hbm.migOf 65536 = none ∧
        let v := s.spend (cgCal 65536) e.len
        (∃ u, v.homeWrite 65536 (mergeBytes e.mask (memBytes s.hbm.mem 65536 e.len) e.data) true = some u) ∧
        (∃ bs u, v.homeRead 65536 e.len = (some bs, u) ∧ (∃ w, u.homeWrite 65536 (wordBytes (amoNew 0 (leWord bs) (leWord e.data))) false = some w) ∧
          bs = e.data.take 8 ∧ (∃ w, u.homeWrite 65536 (e.data.drop 8) false = some w) ∧ bs ≠ ([1] ++ e.data).take 8)) ∧
    (let s := (outstanding base [elemAcc .st .ready (some (.hbm 65536)) []]).modHbm fun h =>
       { h with migs := [{ st := .copying, waits := [], vd := 0, page := 0, f := 1, g := 2, held := [] }] };
      ∃ a e, s.elemOf 0 0 0 0 = some (a, e) ∧ s.turnAt 0 0 a 0 e = true ∧ s.looseRoom (cgCal 65536) e.len = true ∧ s.hbm.migOf 65536 = some 0 ∧
        a.kind.writes = true ∧ s.hbm.heldFull 0 = false) ∧
    (∀ k ∈ [AccKind.st, .ld 3 false, .amo 3 0], let s := outstanding base [elemAcc k .ready (some (.spad 127 786424)) (List.replicate 8 1)]
      ∃ a e, s.elemOf 0 0 0 0 = some (a, e) ∧ a.id = 0 ∧ e.loc = some (.spad 127 786424) ∧ e.peer = true ∧ s.turnAt 0 0 a 0 e = true ∧ e.st ≠ .half ∧
        s.splitAt (.spad 127 786424) = false ∧ (s.core 127).spad.wf = true) ∧
    (let s := outstanding base [elemAcc .st (.accepted 5) (some (.spad 1023 786424)) (List.replicate 8 1)]
      ∃ a e, s.elemOf 0 0 0 0 = some (a, e) ∧ a.id = 0 ∧ e.loc = some (.spad 1023 786424) ∧ e.peer = true ∧ s.turnAt 0 0 a 0 e = true ∧ e.st ≠ .half) ∧
    (let s := outstanding base [elemAcc (.amo 3 0) .half (some (.spad 127 786424)) (List.replicate 8 1)]
      ∃ a e, s.elemOf 0 0 0 0 = some (a, e) ∧ a.id = 0 ∧ e.loc = some (.spad 127 786424) ∧ e.peer = true ∧ e.st = .half ∧ a.kind = .amo 3 0 ∧
        s.turnAt 0 0 a 0 e = false) ∧
    (∀ k ∈ [AccKind.ld 3 false, .cas 3, .amo 0 0], ∃ a, (outstanding base [doneAcc k (wordBytes 7)]).pl.access 0 = some a ∧ a.performed = true ∧
      a.kind.inLdc = true ∧ a.kind.byInstr = false ∧ a.elems.length = 1) ∧
    (∃ a, (outstanding base [elemAcc .st .performed (some (.hbm (8 * 65536))) []]).pl.access 0 = some a ∧ a.performed = true ∧ a.kind.isStore = true ∧
      a.posted 0 = true) ∧
    ∃ a, (outstanding base [openStore]).pl.access 0 = some a ∧ a.performed = false := by
  refine ⟨⟨⟨_, _, rfl, rfl, rfl, look_ok (by decide +kernel)⟩, ⟨_, _, rfl, rfl, rfl, _, pair (by decide +kernel)⟩,
    ⟨_, _, _, rfl, rfl, rfl, rfl, by decide +kernel, walk_ok (by decide +kernel)⟩, ⟨_, _, rfl, rfl, by decide⟩, _, _, rfl, by decide, by decide⟩, ?_,
    ⟨_, _, rfl, by decide, by decide, by decide, by decide, by decide⟩, ?_, ⟨_, _, rfl, rfl, rfl, rfl, by decide, by decide⟩,
    ⟨_, _, rfl, rfl, rfl, rfl, rfl, rfl, by decide⟩, ?_, ⟨_, rfl, by decide, by decide, by decide⟩, _, rfl, by decide⟩
  · have hw : ∀ k ∈ [AccKind.st, .ld 3 false, .amo 3 0, .cas 3],
        let s := outstanding base [elemAcc k .ready (some (.hbm 65536)) (List.replicate 16 0)]
        (s.elemOf 0 0 0 0).any (fun x =>
          let v := s.spend (cgCal 65536) x.2.len
          x.1.kind == k && x.2.loc == some (.hbm 65536) && s.turnAt 0 0 x.1 0 x.2 && s.looseRoom (cgCal 65536) x.2.len && s.hbm.migOf 65536 == none &&
          (v.homeWrite 65536 (mergeBytes x.2.mask (memBytes s.hbm.mem 65536 x.2.len) x.2.data) true).isSome &&
          match v.homeRead 65536 x.2.len with
          | (some bs, u) => (u.homeWrite 65536 (wordBytes (amoNew 0 (leWord bs) (leWord x.2.data))) false).isSome && bs == x.2.data.take 8 &&
              (u.homeWrite 65536 (x.2.data.drop 8) false).isSome && bs != ([1] ++ x.2.data).take 8
          | _ => false) = true := by decide +kernel
    intro k hk s
    have h := hw k hk
    obtain ⟨⟨a, e⟩, he, h⟩ := any_of h
    simp only [Bool.and_eq_true, beq_iff_eq] at h
    obtain ⟨⟨⟨⟨⟨⟨h1, h2⟩, h3⟩, h0⟩, h4⟩, h5⟩, h6⟩ := h
    refine ⟨a, e, he, h1, h2, h3, h0, h4, some_of h5, ?_⟩
    split at h6
    · next bs u hb =>
      simp only [Bool.and_eq_true, beq_iff_eq, bne_iff_ne] at h6
      exact ⟨bs, u, hb, some_of h6.1.1.1, h6.1.1.2, some_of h6.1.2, h6.2⟩
    · cases h6
  · intro k hk
    simp only [List.mem_cons, List.not_mem_nil, or_false] at hk
    rcases hk with rfl | rfl | rfl <;> exact ⟨_, _, rfl, rfl, rfl, rfl, by decide, by decide, by decide, by decide⟩
  · intro k hk
    simp only [List.mem_cons, List.not_mem_nil, or_false] at hk
    rcases hk with rfl | rfl | rfl <;> exact ⟨_, rfl, by decide, by decide, by decide, by decide⟩

/-- An answer and a state meet a test. -/
def has {α : Type} (x : Option α × State) (p : α → State → Bool) : Bool := match x with | (some y, u) => p y u | (none, _) => false

theorem ans2 {α : Type} {x : Option α × State} {p : α → State → Bool} (h : has x p = true) : ∃ y u, x = (some y, u) ∧ p y u = true := by
  obtain ⟨y, u⟩ := x
  cases y with
  | none => cases h
  | some y => exact ⟨y, u, rfl, h⟩

/-- A translation and a state that meet a test. -/
theorem walk2 {x : TrRes × State} (p : TcEnt → State → Bool) (h : (match x with | (.ok y, u) => p y u | _ => false) = true) :
    ∃ y u, x = (.ok y, u) ∧ p y u = true := by
  obtain ⟨y, u⟩ := x
  cases y with
  | ok y => exact ⟨y, u, rfl, h⟩
  | _ => cases h

/-- A fault request of task 0. -/
def freq (kind : Nat) (posted : Bool) : FReq :=
  { vd := 0, page := 3, kind := kind, va := 0x30000, acc := 0, lvl := 0, task := 64, bkh := 0, rid := 0, posted := posted, att := [] }

/-- `mapped` with fault requests, cells of its page 0, and the ring position RQT. -/
def ringing (mem : List (Nat × Byte)) (rqt : BitVec 32) (rs : List FReq) : State :=
  let s := mapped.modHbm fun h => { h with mem := mem ++ h.mem, freqs := rs }
  { s with vds := tmod s.vds 0 fun d => { d with rqt := rqt } }

/-- Words written to a VD. -/
def written (u : State) (a : Nat) (ws : List Word) : State := (u.mustWrite 0 a ws).2

/-- What a posted request finds: RQH is 0, and its entry and RQT can be written. -/
def room (rqt : BitVec 32) (w : Word) (u : State) : Bool :=
  w == 0 && (u.mustWrite 0 (0 + 32 * (rqt.toNat % 2 ^ 4)) [0x30000, 64, BitVec.ofNat 64 (2 ^ 60 * 0 + 2 ^ 56 * 0 + 2 ^ 54 * 0 + rqt.toNat), 0]).1 &&
    ((written u (0 + 32 * (rqt.toNat % 2 ^ 4)) [0x30000, 64, BitVec.ofNat 64 (2 ^ 60 * 0 + 2 ^ 56 * 0 + 2 ^ 54 * 0 + rqt.toNat), 0]).mustWrite 0 (0 + 16)
      [(rqt + 1).setWidth 64]).1

/-- A reply names a request, with its CODE. -/
def names (fail : Bool) (w : Word) (u : State) : Bool :=
  (u.repliedTo 0 w).isSome && !(w.getLsbD 63) && (w.getLsbD 62 == fail) && ((u.tookReply 0).repliedTo 0 w).isSome

/-- `mapped` with one line that core 0 is to fetch ahead. -/
def wanting (line : Word) : State := mapped.modCore 0 fun k => { k with want := [(0, line)] }

/-- A line to fill and one that is there; nothing to fetch ahead, lines to fetch ahead that are there, outside HBM, and to fetch; a ring with room for one request and a full one; a reply that retries, one that fails, one that names nothing;
no reply; a request to firmware. -/
theorem wit_RingEvents : (let s := mapped.modPl fun p => { p with hold := some (.fill 0x10000) };
      (s.plane 0 0).hold = some (.fill 0x10000) ∧ (∃ t, s.taskOf 0 0 = some (0, t) ∧ t.vd = 0) ∧ (s.core 0).findLine 0 0x10000 = none ∧
        (s.core 0).findLine 0 4096 ≠ none ∧
        ∃ e u, s.trNow 0 0 0x10000 .fetch = (.ok e, u) ∧ ∃ bs w, u.homeRead (e.dpa 0x10000) 64 = (some bs, w)) ∧
    ((∀ line, (mapped.plane 0 0).hold ≠ some (.fill line)) ∧ (mapped.core 0).want = [] ∧
      (∀ line, ((wanting line).core 0).want = [(0, line)] ∧ ((wanting line).plane 0 0).hold = none) ∧
      ((wanting 4096).core 0).findLine 0 4096 ≠ none ∧ inHbmWindow 0x1000000000000 = false ∧
      ((wanting 0x10000).core 0).findLine 0 0x10000 = none ∧ inHbmWindow 0x10000 = true ∧
      ∃ e u, ((wanting 0x10000).modCore 0 fun k => { k with want := [] }).trNow 0 0 0x10000 .fetch = (.ok e, u) ∧
        ∃ bs w, u.homeRead (e.dpa 0x10000) 64 = (some bs, w)) ∧
    (∀ n ∈ [15, 16], let rqt := BitVec.ofNat 32 n
      let s := ringing [] rqt [freq 0 false]
      (∃ d, s.vd 0 = some d ∧ (d.rqt == rqt && d.d.lgn == 4 && d.d.pfut == 0 && d.d.hnot == 0 && d.d.fcb == 0 && d.d.rqb == 0) = true) ∧
        (s.hbm.freqs.find? fun r => r.vd == 0 && !r.posted) = some (freq 0 false) ∧
        ∃ w u, s.sureWord 0 (0 + 24) = (some w, u) ∧ w = 0 ∧ ∃ x, u.mustWrite 0 (0 + 32 * (rqt.toNat % 2 ^ 4))
          [0x30000, 64, BitVec.ofNat 64 (2 ^ 60 * 0 + 2 ^ 56 * 0 + 2 ^ 54 * 0 + rqt.toNat), 0] = (true, x) ∧
          ∃ y, x.mustWrite 0 (0 + 16) [(rqt + 1).setWidth 64] = (true, y)) ∧
    (∀ fail ∈ [true, false], let s := ringing [(65543, if fail then 0x40 else 0), (65568, 1)] 1 [freq 0 true]
      ∃ w u, (s.pollTail 0).headReply 0 = (some w, u) ∧ (u.repliedTo 0 w).isSome = true ∧ w.getLsbD 63 = false ∧ w.getLsbD 62 = fail ∧
        ∃ r, (u.tookReply 0).repliedTo 0 w = some r) ∧
    (∃ w u, ((ringing [(65568, 1)] 0 []).pollTail 0).headReply 0 = (some w, u) ∧ u.repliedTo 0 w = none) ∧
    (∃ u, ((ringing [] 0 []).pollTail 0).headReply 0 = (none, u)) ∧
    ∃ r, ((ringing [] 0 [freq 3 true]).hbm.freqs.filter fun r => r.vd == 0 && decide (3 ≤ r.kind))[0]? = some r ∧
      ((ringing [] 0 [freq 3 true]).served 0).isSome = true := by
  refine ⟨⟨rfl, ⟨_, rfl, rfl⟩, by decide +kernel, by decide +kernel, ?_⟩, ⟨(fun _ h => nomatch (h.symm.trans (rfl : (mapped.plane 0 0).hold = none))), rfl, fun _ => ⟨rfl, rfl⟩, by decide +kernel, by decide,
    by decide +kernel, by decide, ?_⟩, ?_, ?_, ?_, ?_, _, rfl, by decide +kernel⟩
  · obtain ⟨e, u, h, g⟩ := walk2 (x := (mapped.modPl fun p => { p with hold := some (.fill 0x10000) }).trNow 0 0 0x10000 .fetch)
      (fun e u => (u.homeRead (e.dpa 0x10000) 64).1.isSome) (by decide +kernel)
    exact ⟨e, u, h, ans g⟩
  · obtain ⟨e, u, h, g⟩ := walk2 (x := ((wanting 0x10000).modCore 0 fun k => { k with want := [] }).trNow 0 0 0x10000 .fetch)
      (fun e u => (u.homeRead (e.dpa 0x10000) 64).1.isSome) (by decide +kernel)
    exact ⟨e, u, h, ans g⟩
  · intro n hn rqt s
    have hb : ∀ n ∈ [15, 16], has ((ringing [] (BitVec.ofNat 32 n) [freq 0 false]).sureWord 0 (0 + 24)) (room (BitVec.ofNat 32 n)) = true := by decide +kernel
    have hd : ∀ n ∈ [15, 16], ((ringing [] (BitVec.ofNat 32 n) [freq 0 false]).vd 0).any (fun d => d.rqt == BitVec.ofNat 32 n && d.d.lgn == 4 && d.d.pfut == 0 &&
        d.d.hnot == 0 && d.d.fcb == 0 && d.d.rqb == 0) = true := by decide +kernel
    obtain ⟨w, u, h, g⟩ := ans2 (hb n hn)
    have g1 := Bool.and_eq_true_iff.mp g
    have g2 := Bool.and_eq_true_iff.mp g1.1
    exact ⟨any_of (hd n hn), rfl, w, u, h, beq_iff_eq.mp g2.1, written u _ _, pair g2.2, _, pair g1.2⟩
  · intro fail hf s
    have hb : ∀ fail ∈ [true, false], has (((ringing [(65543, if fail then 0x40 else 0), (65568, 1)] 1 [freq 0 true]).pollTail 0).headReply 0) (names fail) =
        true := by decide +kernel
    obtain ⟨w, u, h, g⟩ := ans2 (hb fail hf)
    simp only [names, Bool.and_eq_true, beq_iff_eq, Bool.not_eq_true'] at g
    exact ⟨w, u, h, g.1.1.1, g.1.1.2, g.1.2, some_of g.2⟩
  · obtain ⟨w, u, h, g⟩ := ans2 (x := ((ringing [(65568, 1)] 0 []).pollTail 0).headReply 0) (p := fun w u => (u.repliedTo 0 w).isNone) (by decide +kernel)
    exact ⟨w, u, h, Option.isNone_iff_eq_none.mp g⟩
  · have h : (((ringing [] 0 []).pollTail 0).headReply 0).1.isNone = true := by decide +kernel
    refine ⟨(((ringing [] 0 []).pollTail 0).headReply 0).2, ?_⟩
    rw [← Option.isNone_iff_eq_none.mp h]

/-- No frame is assigned, no block is bad, no group has wrapped more than `n` times. -/
def Clean (h : Hbm) (n : Nat) : Prop := h.bad = [] ∧ h.frames = [] ∧ ∀ k, (tgetD h.ctrs k Ctr.reset).maj.toNat ≤ n

theorem clean_touch {s : State} {n : Nat} (h : Clean s.hbm n) (a : Nat) : s.leafTouch a = (true, s) := by
  simp [State.leafTouch, Hbm.leafKey, h.2.1, tget]

theorem clean_write {s : State} {n : Nat} (h : Clean s.hbm n) (hn : n < 18446744073709551615) (a : Nat) (bs : List Byte) (r : Bool) :
    ∃ t, s.homeWrite a bs r = some t ∧ Clean t.hbm (n + 1) := by
  have hm : ∃ t, s.minorAdvance a = some t ∧ t.hbm.bad = [] ∧ t.hbm.frames = [] ∧ ∀ k, (tgetD t.hbm.ctrs k Ctr.reset).maj.toNat ≤ n + 1 := by
    have hk (c : Ctr) (hc : c.maj.toNat ≤ n + 1) (k : Nat) : (tgetD (tset s.hbm.ctrs (a / 4096) c) k Ctr.reset).maj.toNat ≤ n + 1 := by
      by_cases e : k = a / 4096
      · rw [e, tgetD_tset_same]; exact hc
      · rw [tgetD_tset_ne _ _ _ e]; exact Nat.le_succ_of_le (h.2.2 k)
    have h0 := h.2.2 (a / 4096)
    unfold State.minorAdvance
    simp only [h.1, List.any_nil, Bool.or_false, State.modHbm_hbm, h.2.1, tget]
    split
    · rw [if_neg (by
        intro e
        have := congrArg BitVec.toNat (beq_iff_eq.mp e)
        rw [BitVec.toNat_allOnes] at this
        omega)]
      refine ⟨_, rfl, h.1, h.2.1, hk { maj := (tgetD s.hbm.ctrs (a / 4096) Ctr.reset).maj + 1, mins := [] } ?_⟩
      show ((tgetD s.hbm.ctrs (a / 4096) Ctr.reset).maj + 1#64).toNat ≤ n + 1
      rw [BitVec.toNat_add]
      exact Nat.le_trans (Nat.mod_le _ _) (Nat.add_le_add_right h0 1)
    · exact ⟨_, rfl, h.1, h.2.1, hk { tgetD s.hbm.ctrs (a / 4096) Ctr.reset with mins := _ } (Nat.le_succ_of_le h0)⟩
  obtain ⟨t, e, h1, h2, h3⟩ := hm
  have hw : s.homeWrite a bs r = some ((t.modHbm fun h => { h with mem := memWrite h.mem a bs, bad := h.bad.filter (· != blockOf a) }).wake a bs.length) := by
    unfold State.homeWrite
    have hv : s.hbm.verify a bs.length = true := by simp [Hbm.verify, h.1]
    rw [clean_touch h]
    simp [e, hv]
  exact ⟨_, hw, by simp [State.wake, h1], h2, h3⟩

theorem clean_copy (f g : Nat) : ∀ (is : List Nat) (s : State) (n : Nat), Clean s.hbm n → n + is.length < 18446744073709551615 →
    (s.copyBlocks f g is).1 = true
  | [], _, _, _, _ => rfl
  | i :: is, s, n, h, hn => by
    have hr : s.homeRead (65536 * f + 64 * i) 64 = (some (memBytes s.hbm.mem (65536 * f + 64 * i) 64), s) := by
      simp [State.homeRead, clean_touch h, Hbm.verify, h.1]
    rw [List.length_cons] at hn
    obtain ⟨t, e, ht⟩ := clean_write h (by omega) (65536 * g + 64 * i) (memBytes s.hbm.mem (65536 * f + 64 * i) 64) true
    rw [State.copyBlocks, hr]
    simp only [e]
    exact clean_copy f g is t (n + 1) ht (by omega)

/-- `s` with no task, and VD 0 in a freeze that began in slot 0. -/
def freezing (s : State) : State :=
  let s := (s.modFr fun f => { f with tasks := [], sweeps := [Sweep.fresh 0 0 7 desc3 .launch] }).modCore 0 fun k => { k with p0 := Plane.reset }
  { s with vds := tmod s.vds 0 fun d => { d with freeze := some { start := 0, saved := false } } }

/-- What a save of VD 0 writes after its sweeps. -/
def saving (s : State) : State := ((s.tasksOf 0).foldl State.voidOwned (s.freezeReqs 0)).flushStats 0 2 true

/-- The copy of frame 5 to frame 6. -/
def copied (s : State) : Bool × State := (s.modHbm fun h => h.takeCtrs 5 6).copyBlocks 5 6 (List.range 1024)

/-- A migration of frame 5 to frame 6. -/
def migrating (bad : List Nat) : State := base.modHbm fun h => { h with migs := [{ st := .copying, waits := [], vd := 0, page := 4, f := 5, g := 6, held := [] }], bad := bad }

/-- A migration at a step of its invalidation, with an access of core 0 outstanding. -/
def ending (st : MigSt) (waits : List (Nat × Nat × Nat)) : State :=
  (outstanding base [elemAcc .st .ready (some (.hbm 0x50000)) []]).modHbm fun h =>
    { h with migs := [{ st := st, waits := waits, vd := 0, page := 4, f := 5, g := 6, held := [] }] }

theorem copied_clean : (copied (migrating [])).1 = true :=
  clean_copy 5 6 _ _ 0 ⟨rfl, rfl, fun _ => Nat.le_refl 0⟩ (by rw [List.length_range]; decide)

/-- The readings of the 17 sensors, the last one given. -/
def hot (n : Nat) : List Nat := List.replicate 16 20 ++ [n]

/-- `base` in a slot, the sensors read in slot 0. -/
def polledAt (now : Nat) : State := { base with slot := BitVec.ofNat 64 now, fw := { base.fw with polled := some 0 } }

theorem wit_DeviceEvents : (∀ st ∈ [TState.held, .active], ∃ t,
      (withTask fun t => { t with state := st, faults := [{ code := 6, src := 2, tval := 0, origin := 0, bkh := 0, step := 0, state := 0 }] }).taskOf 0 0 = some (0, t) ∧
        t.faults ≠ [] ∧ t.state = st ∧ (withTask fun t => { t with state := st }).planeStopped 0 0 = false ∧
        ((withTask fun t => { t with state := st }).plane 0 0).trap = none) ∧
    (let h : Halt := { reason := 6, fatal := false, stopped := [], tval := 0 }
     let s := withVd (fun d => { d with halt := some h }) base
     (∃ d, s.vd 0 = some d ∧ d.halt = some h ∧ d.steppingOn (.plane 0 0) = false) ∧ (s.unitsOf 0).contains (.plane 0 0) = true ∧
       h.stopped.contains (.plane 0 0) = false ∧ h.fatal = false ∧ s.power = .run) ∧
    ((base.power = .run ∧ (base.fw.polled = none ∧ (hot 105).length = 17 ∧ (hot 104).length = 17) ∧ (∃ x ∈ hot 105, 105 ≤ x) ∧ (∀ x ∈ hot 104, x < 105) ∧
        (∃ t, (polledAt 4095).fw.polled = some t ∧ (polledAt 4095).now < t + 4096) ∧
        (∃ t, (polledAt 4096).fw.polled = some t ∧ t + 4096 ≤ (polledAt 4096).now) ∧ (polledAt 4096).power = .run ∧ State.reset.power ≠ .run) ∧
      ∃ d, base.vd 0 = some d ∧ d.run = true ∧ d.halt = none ∧ d.freeze = none ∧ d.unsave = false) ∧
    (∀ now ∈ [65535, 65536], let s := { withVd (fun d => { d with freeze := some { start := 0, saved := false } }) base with slot := BitVec.ofNat 64 now }
      ∃ t d, s.task 0 = some t ∧ s.vd t.vd = some d ∧ d.freeze = some { start := 0, saved := false } ∧ d.halt = none ∧ t.state = .active ∧ (d.d.flim == 65536) = true ∧
        s.now = now) ∧
    (∀ s ∈ [base, mapped], (∃ d, (freezing s).vd 0 = some d ∧ d.freeze = some { start := 0, saved := false } ∧ d.halt = none) ∧ (freezing s).quiet 0 = true ∧
      (freezing s).power = .run ∧ ((saving (freezing s)).vd 0).map (fun d => d.stats) = some []) ∧
    (∃ w, saveSweeps (saving (freezing base)) ((saving (freezing base)).sweepsOf 0) = (false, w)) ∧
    (∃ w, saveSweeps (saving (freezing mapped)) ((saving (freezing mapped)).sweepsOf 0) = (true, w) ∧
      ∃ x, w.quietWrite 0 0 ((w.banks 0).flatMap wordBytes) = (none, x)) ∧
    (let s := withVd (fun d => { d with run := false }) base
     (∃ d, s.vd 0 = some d ∧ d.run = false ∧ d.halt = none ∧ d.unsave = false ∧ d.freeze = none ∧ ∀ h ∈ d.d.hanks, s.hankFree 0 h = true) ∧ s.power = .run ∧
       s.mayLeave 1 = true ∧ s.vd 1 = none) ∧
    (∃ m, (migrating []).hbm.migs[0]? = some m ∧ m.f = 5 ∧ m.g = 6 ∧ m.st = .copying) ∧ (∃ w, copied (migrating []) = (true, w)) ∧
    (∃ w, copied (migrating [5 * 1024]) = (false, w)) ∧
    (∀ st ∈ [MigSt.first, .last, .undo], ∃ m, (ending st []).hbm.migs[0]? = some m ∧ m.st = st ∧ m.st ≠ .copying ∧ m.waits.all (ending st []).accSettled = true) ∧
    ∃ m, (ending .last [(0, 0, 0)]).hbm.migs[0]? = some m ∧ m.waits.all (ending .last [(0, 0, 0)]).accSettled = false := by
  refine ⟨?_, ⟨⟨_, rfl, rfl, by decide⟩, by decide +kernel, by decide, rfl, by decide⟩,
    ⟨⟨by decide, by decide, by decide, by decide, ⟨_, rfl, by decide⟩, ⟨_, rfl, by decide⟩, by decide, by decide⟩, _, rfl, rfl, rfl, rfl, rfl⟩, ?_, ?_, ⟨_, pair (by decide +kernel)⟩,
    ⟨_, pair (by decide +kernel), _, pair (by decide +kernel)⟩, ⟨⟨_, rfl, by decide⟩, by decide, by decide, by decide⟩, ⟨_, rfl, by decide⟩,
    ⟨_, pair copied_clean⟩, ⟨_, pair (by decide +kernel)⟩, ?_, _, rfl, by decide +kernel⟩
  · intro st hs
    simp only [List.mem_cons, List.not_mem_nil, or_false] at hs
    rcases hs with rfl | rfl <;> exact ⟨_, rfl, by decide, rfl, by decide, by decide⟩
  · intro now hn s
    simp only [List.mem_cons, List.not_mem_nil, or_false] at hn
    rcases hn with rfl | rfl <;> exact ⟨_, _, rfl, rfl, rfl, rfl, rfl, by decide +kernel, by decide +kernel⟩
  · intro s hs
    simp only [List.mem_cons, List.not_mem_nil, or_false] at hs
    rcases hs with rfl | rfl <;> exact ⟨⟨_, rfl, rfl, rfl⟩, by decide +kernel, by decide +kernel, by decide +kernel⟩
  · intro st hs
    simp only [List.mem_cons, List.not_mem_nil, or_false] at hs
    rcases hs with rfl | rfl | rfl <;> exact ⟨_, rfl, rfl, by decide, by decide⟩


/-- A copy of task 0 by the chain at the lease's first line. -/
def cpop (chain : Bool) (loop : Option CpLoop) (st : OpSt) : CpOp :=
  { c := { command base 0 0 0 0 with st := st }, chain := chain, line := if chain then 0x1000000000000 else 0x1000000000040, word := if chain then 1 else 0, tag := some 63, ents := 0,
    bytes := 0, done := 0, loop := loop, buf := none, wait := false, wrote := 0, moved := [], flits := 0, doms := [], en := 0, flags := 0, cur := none }

/-- `base` with that copy in the engine, and the lease holding a line of 15 words from word 1 on. -/
def chained (bs : List (Nat × Byte)) (o : CpOp) : State :=
  (base.modCore 0 fun k => { k with spad := (3, 0x7C) :: bs, cp := [o] }).modPl fun p => { p with oc := { p.oc with cpc := 1 } }

/-- The copy has begun. -/
def begun (u : State) (o : CpOp) : State := u.modCp 0 o.c.id fun o => { o with c := { o.c with st := .running } }

/-- What the engine reads at the copy's place. -/
def entry (bs : List (Nat × Byte)) (o : CpOp) : Except CpRes (Word × Nat × Entry) × State := (chained bs o).entryAt 0 o

/-- A first pass of a body of one entry. -/
def cploop : CpLoop := { line := 0x1000000000000, word := 1, k := 1, left := 1, r := 0, n := 2, sinc := 0, dinc := 0 }

/-- IFC over one entry with the doubleword at lease offset 128 and the value 0, in its two conditions that 0 = 0 tells apart. -/
def ifcAt (cond : Byte) : List (Nat × Byte) := [(6, cond), (7, 0x31), (8, 0x80), (14, 1)]

/-- A copy of 8 bytes from lease offset 128 to 192, its entry at lease offset `a`. -/
def copyAt (a : Nat) : List (Nat × Byte) := [(a + 3, 0x10), (a + 4, 8), (a + 8, 128), (a + 14, 1), (a + 16, 192), (a + 22, 1)]

/-- The result of a piece of a plain copy, where it is the same for a sector and for a block. -/
theorem raw_any {s : State} {c : Nat} {o : CpOp} {rk : Bool} {len : Nat} {src dst : Word} {r : CpRes} (h0 : o.loop = none) (h1 : o.buf = none)
    (h2 : isBobbin dst = false)
    (h : ∀ b, (copyPiece s.bump c o rk false false fun s' o' => s'.rawPiece c (s.grain o dst b) o' false false len src dst 0 0).1 = r) :
    (s.doCopy c o false false rk 0 len src dst).1 = r := by
  unfold State.doCopy
  simpa [h0, h1, h2] using h _

theorem wit_EngineEvents : ((withMx [mxop .mzero]).mxTurn 0 = some (mxop .mzero) ∧ (withMx [mxop .mzero]).mxMay 0 (mxop .mzero) = true ∧
      (mxop .mzero).c.st = .waiting ∧ base.mxTurn 0 = none) ∧
    (let o := { mxop (.mbrd 127 15 1 3 1) with c := { (mxop .mzero).c with st := .running } }
     (withMx [o]).mxTurn 0 = some o ∧ (withMx [o]).mxMay 0 o = true ∧ o.c.st ≠ .waiting ∧
       (withMx [o]).cmdClear 0 o.c (.bobbin 0 (entryOff o.tile 127 (15 * (1024 / tyWidth 1)))) (8 * (1024 / tyWidth 1)) = true ∧
       ((withMx [o]).plane 0 o.c.plane).task = some o.c.task) ∧
    (let o := { mxop .mzero with c := { (mxop .mzero).c with st := .finished } }
     (withMx [o]).mxDone 0 = some o ∧ (withMx [o]).unitRuns o.c.vd (mxUnit 0) = true) ∧
    (let o := cpop true none .finished
     (chained [] o).cpDone 0 = some o ∧ (chained [] o).unitRuns o.c.vd (cpUnit 0) = true ∧ o.c.bk = 0 ∧ o.flags &&& o.en = 0 ∧ o.c.endState ≠ 6 ∧
       ((chained [] o).plane 0 o.c.plane).task = some o.c.task ∧ o.tag = some 63) ∧
    (∀ st ∈ [OpSt.waiting, .running], (chained [] (cpop true none st)).cpTurn 0 = some (cpop true none st) ∧ (chained [] (cpop true none st)).cpMay 0 (cpop true none st) = true) ∧
    ((chained [] (cpop true (some cploop) .running)).cpTurn 0 = some (cpop true (some cploop) .running) ∧ (chained [] (cpop true (some cploop) .running)).cpMay 0 (cpop true (some cploop) .running) = true) ∧
    ((chained (copyAt 64) (cpop false none .waiting)).cpTurn 0 = some (cpop false none .waiting) ∧ (chained (copyAt 64) (cpop false none .waiting)).cpMay 0 (cpop false none .waiting) = true) ∧
    (∃ u, entry [(4, 63), (7, 0x40)] (cpop true none .waiting) = (.ok (0x1000000000000, 2, .tag 63), u)) ∧
    (∃ u, entry [] (cpop true none .waiting) = (.ok (0x1000000000000, 2, .fin), u)) ∧ (cpop true none .waiting).loop = none ∧
    (∃ u, entry [] (cpop true (some cploop) .running) = (.ok (0x1000000000000, 2, .fin), u)) ∧ (cpop true (some cploop) .running).loop ≠ none ∧
    (∃ u, entry [(4, 1), (7, 0x2F)] (cpop true none .waiting) = (.ok (0x1000000000000, 4, .loopc 15 1 0 0), u)) ∧
    ((∃ u, entry (ifcAt 0) (cpop true none .waiting) = (.ok (0x1000000000000, 4, .ifc 1 0 0 0x1000000000080), u) ∧
        ∃ o' x, (begun u (cpop true none .waiting)).cpOp 0 (cpop true none .waiting).c.id = some o' ∧ o'.loop = none ∧
          (begun u (cpop true none .waiting)).gather 0 o' [.read 0x1000000000080 8] = (.ok (List.replicate 8 0), x)) ∧
      (0x1000000000080 : Word) &&& 7#64 = 0#64 ∧ ifcCond 0 (leWord (List.replicate 8 0)) 0 = true) ∧
    (∃ u, entry (ifcAt 0x40) (cpop true none .waiting) = (.ok (0x1000000000000, 4, .ifc 1 1 0 0x1000000000080), u) ∧
      ∃ o' x, (begun u (cpop true none .waiting)).cpOp 0 (cpop true none .waiting).c.id = some o' ∧
        (begun u (cpop true none .waiting)).gather 0 o' [.read 0x1000000000080 8] = (.ok (List.replicate 8 0), x) ∧
        ifcCond 1 (leWord (List.replicate 8 0)) 0 = false ∧ ∃ y, skipGo x 0 o' 0x1000000000000 4 1 = (.ok (0x1000000000000, 5), y)) ∧
    (∃ u, entry (copyAt 4) (cpop true none .waiting) = (.ok (0x1000000000000, 7, .copy false false false 0 8 0x1000000000080 0x10000000000C0), u) ∧
      ∃ o' bs x, (begun u (cpop true none .waiting)).cpOp 0 (cpop true none .waiting).c.id = some o' ∧
        (begun u (cpop true none .waiting)).doCopy 0 o' false false false 0 8 0x1000000000080 0x10000000000C0 = (.ok bs, x)) ∧
    (∃ u, entry (copyAt 64) (cpop false none .waiting) = (.ok (0x1000000000040, 0, .copy false false false 0 8 0x1000000000080 0x10000000000C0), u)) ∧
    (∃ tv u, entry [(7, 0xF0)] (cpop true none .waiting) = (.error (.fault 1 tv), u)) ∧ base.power = .run ∧ State.reset.power ≠ .run := by
  refine ⟨by decide, by decide +kernel, by decide +kernel, by decide +kernel, by decide +kernel, by decide +kernel, by decide +kernel,
    ⟨_, pair (by decide +kernel)⟩, ⟨_, pair (by decide +kernel)⟩, rfl, ⟨_, pair (by decide +kernel)⟩, by decide, ⟨_, pair (by decide +kernel)⟩,
    ⟨⟨_, pair (by decide +kernel), _, _, rfl, rfl, pair (by decide +kernel)⟩, by decide, by decide⟩,
    ⟨_, pair (by decide +kernel), _, _, rfl, pair (by decide +kernel), by decide, _, pair (by decide +kernel)⟩,
    ⟨_, pair (by decide +kernel), _, [], _, rfl, pair (raw_any rfl rfl (by decide) (by decide +kernel))⟩, ⟨_, pair (by decide +kernel)⟩, ⟨_, _, pair rfl⟩, rfl, by decide⟩

/-- A step of a chain record: `dur` slots of the own core's matrix engine. -/
def cstep (dur : Nat) : CStep :=
  { kind := 0, selm := 0, rel := false, rmt := false, sk := 0, dur := dur, gap := 0, node := 0, low := 0, vol := 0, sel := 0, addr := 0, homes := none }

/-- Request 1 of task 0, in a state, for one step of 8 slots. -/
def breq (st : ReqSt) (deadline : Nat) : BReq :=
  { id := 1, die := 0, vd := 0, task := 0, tmpl := false, record := 0x1000000000000,
    chain := { pri := 0, post := true, vdid := 0, rcnt := 0, nstep := 1, deadline := deadline, early := 0, fut := 0, rsvd := false, steps := [cstep 8] },
    s0 := 0, t := 0, rounds := 0, refusals := 0, firstRef := some 0, nextTry := none, pendingH := 0, told := false, back := false, h0 := 0, st := st,
    fit := [], ans := [] }

/-- A hold of 8 slots on calendar 40 for step 0 of request 1. -/
def chold (senior : Option (Nat × Word)) (node : Option Nat) : CHold :=
  { cal := 40, start := 200, len := 8, rate := 1, req := 1, node := node, step := 0, placed := 0, senior := senior, dead := false }

/-- `base` as node 5, VD 0 spanning node 9, in slot `now`, with requests, holds and booking messages; calendar 40 is committed over [100, 108). -/
def booking (now : Nat) (rs : List BReq) (hs : List CHold) (ms : List BMsg) : State :=
  let s := { withVd (fun d => { d with span := [9] }) base with slot := BitVec.ofNat 64 now };
  (s.modFab fun f => { f with node := some 5 }).modBk fun k => { k with
    reqs := rs, holds := hs, msgs := ms, rints := [{ node := 9, vd := 0, handle := 5, step := 0, cal := 40, start := 100, len := 8, rate := 1, dead := false }] }

/-- A message of a TYPE that package 5 takes from node 9 for VD 0, with id 77. -/
theorem comes {s : State} {m : FMsg} {type : Nat} (h : (m.type == type && msgOk m && s.fab.node.isSome && m.dst == s.node && s.power == .run &&
    (s.vd m.vd).any fun d => d.span.contains m.src && d.halt == none) = true) : ∃ d, Comes s m type d := by
  simp only [Bool.and_eq_true, beq_iff_eq] at h
  obtain ⟨⟨⟨⟨⟨h1, h2⟩, h3⟩, h4⟩, h5⟩, h6⟩ := h
  obtain ⟨d, hd, hs⟩ := any_of h6
  simp only [Bool.and_eq_true, beq_iff_eq] at hs
  exact ⟨d, h1, h2, h3, h4, h5, hd, hs.1, .inl hs.2⟩

/-- A PREPARE for a start slot. -/
def prep (start : Nat) : State := booking 50 [breq (.preparing 40) 0] [] [.prepare 1 0 start 8 1 [40] none]

/-- What the booking unit holds against it, by calendar. -/
def idle : Nat → List Ival := (prep 0).bk.ivalsOf 1 0 0x1000000000000

/-- A PREPARE for the slot in which the calendar is free again and for the one before; every answer; a hold that stands and one that is gone; the same
messages from node 9. -/
theorem wit_BookingExchange : ((∀ n ∈ [107, 108], (prep n).bk.msgs[0]? = some (.prepare 1 0 n 8 1 [40] none) ∧ ((prep n).bk.reqs.find? fun r => r.id == 1) = some (breq (.preparing 40) 0) ∧
        ([40].filter (prep n).calUp) = [40]) ∧
      (([40].filter (prep 108).calUp).find? fun cal => fitsIn true (idle cal) (calBudget cal) 108 8 1) = some 40 ∧
      (([40].filter (prep 107).calUp).find? fun cal => fitsIn true (idle cal) (calBudget cal) 107 8 1) = none) ∧
    (let s := booking 50 [breq (.preparing 40) 0] [chold none none] [.grant 1 0 40 108, .refuse 1 0 none, .confirm 1 0, .lost 1 0, .cancel 5 0, .commit 1 0 5, .abort 1 0];
      (s.bk.msgs[0]? = some (.grant 1 0 40 108) ∧ s.bk.msgs[1]? = some (.refuse 1 0 none) ∧ s.bk.msgs[2]? = some (.confirm 1 0) ∧
        s.bk.msgs[3]? = some (.lost 1 0) ∧ s.bk.msgs[4]? = some (.cancel 5 0) ∧ s.bk.msgs[5]? = some (.commit 1 0 5) ∧ s.bk.msgs[6]? = some (.abort 1 0)) ∧
      (s.bk.holds.find? fun x => x.node.isNone && x.senior.isNone && x.req == 1 && x.step == 0 && !x.dead) = some (chold none none) ∧
      (base.bk.holds.find? fun x => x.node.isNone && x.senior.isNone && x.req == 1 && x.step == 0 && !x.dead) = none) ∧
    (∀ type ∈ [16, 17, 18, 19, 20, 21, 22, 23], ∃ d, Comes (booking 50 [] [] []) (mkMsg type 5 9 0 77 0 0 0 0 []) type d) ∧
    ((booking 50 [] [] []).bk.holds.find? fun h => h.node == some 9 && h.req == 0 && !h.dead) = none ∧
    (mkMsg 21 5 9 0 77 0 0 0 0 []).w3.extractLsb' 28 4 = 0#4 := by
  refine ⟨by decide +kernel, by decide +kernel, ?_, by decide +kernel, by decide⟩
  have h : ∀ type ∈ [16, 17, 18, 19, 20, 21, 22, 23], ((mkMsg type 5 9 0 77 0 0 0 0 []).type == type && msgOk (mkMsg type 5 9 0 77 0 0 0 0 []) &&
      (booking 50 [] [] []).fab.node.isSome && (mkMsg type 5 9 0 77 0 0 0 0 []).dst == (booking 50 [] [] []).node && (booking 50 [] [] []).power == .run &&
      ((booking 50 [] [] []).vd (mkMsg type 5 9 0 77 0 0 0 0 []).vd).any fun d => d.span.contains (mkMsg type 5 9 0 77 0 0 0 0 []).src && d.halt == none) = true := by
    decide +kernel
  exact fun type ht => comes (h type ht)

/-- A command of task 0 under the booking of `bookedAt`, or under none, which has run for `ran` slots. -/
def cmdOf (bk ran : Nat) : Cmd := { command base bk 0 0 0 with ran := ran, st := .running }

/-- The limits, each with the slot before it: holds of 32 and 64 slots, answers after 32, 256 postponed slots, a deadline of 9 and of 8 slots, 64 slots of
a booked operation, 4,096 of an unbooked one. -/
theorem wit_BookingClocks : (let s := booking 50 [breq .queued 0] [] []
      s.searching 0 = false ∧ s.power = .run ∧ (∀ x ∈ s.bk.reqs, s.seniorStart x = none) ∧
        (s.bk.reqs.find? fun r => r.die == 0 && r.st == .queued) = some (breq .queued 0)) ∧
    (booking 50 [breq (.preparing 40) 0] [] []).searching 0 = true ∧
    (let r := { breq .postponed 0 with tmpl := true, nextTry := some 50 };
      ((booking 50 [r] [] []).bk.reqs.find? fun r => r.tmpl && r.task == 0 && r.st == .postponed) = some r ∧ (booking 50 [r] [] []).now = 50 ∧
        (booking 49 [r] [] []).now < 50) ∧
    (∀ now ∈ [31, 32, 63, 64], (booking now [] [chold none none, chold (some (0, 0)) none] []).bk.holds[0]? = some (chold none none) ∧
      (booking now [] [chold none none, chold (some (0, 0)) none] []).bk.holds[1]? = some (chold (some (0, 0)) none) ∧
      (booking now [] [chold none none, chold (some (0, 0)) none] []).now = now ∧ (chold none none).placed = 0) ∧
    (∀ now ∈ [32, 33], let s := booking now [breq (.preparing 0) 0, breq (.committing 0) 0] [] []
      s.bk.reqs[0]? = some (breq (.preparing 0) 0) ∧ s.bk.reqs[1]? = some (breq (.committing 0) 0) ∧ s.now = now) ∧
    (∀ now ∈ [255, 256], (booking now [breq .postponed 0] [] []).bk.reqs[0]? = some (breq .postponed 0) ∧ (booking now [breq .postponed 0] [] []).now = now) ∧
    (∀ n ∈ [8, 9], (booking 0 [breq .postponed n] [] []).bk.reqs[0]? = some (breq .postponed n) ∧ 0 < (breq .postponed n).chain.deadline) ∧
    chainEnd (max 0 (0 + 1 + 0)) none [cstep 8] = 9 ∧
    (let s := (bookedAt 101).modCore 0 fun k => { k with cp := [{ cpop true none .running with c := cmdOf 5 65 }] };
      ((s.liveCmds 0 true).find? fun c => (match s.cmdStep c with | some (_, t) => decide (max (4 * t.dur) 64 < c.ran) | none => false)) =
        some (cmdOf 5 65)) ∧
    let s := { ((bookedAt 101).modCore 0 fun k => { k with mx := [{ mxop .mzero with c := cmdOf 0 0 }] }) with slot := 4096 };
    ((s.liveCmds 0 false).find? fun c => !(s.isBooked c) && decide (c.issued + 4096 ≤ s.now)) = some (cmdOf 0 0) := by
  decide +kernel

/-- `base` as node 5, VD 0 spanning node 9, with requests open and responses kept. -/
def fabric (os : List OpenReq) (ks : List (Nat × Nat × FMsg × Nat)) (now : Nat) : State :=
  let s := { withVd (fun d => { d with span := [9] }) base with slot := BitVec.ofNat 64 now }
  s.modFab fun f => { f with node := some 5, opens := os, kept := ks, waits := [(9, mkMsg 8 9 5 0 0 7 0 0 0 [], .gate)],
                             offs := [(9, { o := some 3, validAt := 0, probe := some 40 })] }

/-- A request of 8 bytes of TYPE `type` open toward node 9 under id 77. -/
def opened (type tries : Nat) (stopped : Bool) : OpenReq :=
  { node := 9, tid := 77, msg := mkMsg type 9 5 0 77 0 8 0 0 [], sent := 0, tries := tries, stopped := stopped, who := .gate, port := 3 }

/-- A message of a TYPE from node 9 with the data that it must carry. -/
def incoming (type : Nat) : FMsg :=
  mkMsg type 5 9 0 77 0 (if type = 3 then 8 else 0) 0 0 (if type = 2 ∨ type = 3 then List.replicate 8 1 else if type = 7 then List.replicate 1024 0 else [])

/-- The same with VD 0 at a debug halt. -/
def stopped9 : State :=
  let s := fabric [] [] 50
  { s with vds := tmod s.vds 0 fun d => { d with halt := some { reason := 6, fatal := false, stopped := [], tval := 0 } } }

theorem comes_fabric {s : State} : (∀ type ∈ [1, 2, 3, 4, 5, 6, 7, 8, 9, 10], ((incoming type).type == type && msgOk (incoming type) && s.fab.node.isSome &&
    (incoming type).dst == s.node && s.power == .run && (s.vd (incoming type).vd).any fun d => d.span.contains (incoming type).src && d.halt == none) = true) →
    ∀ type ∈ [1, 2, 3, 4, 5, 6, 7, 8, 9, 10], ∃ d, Comes s (incoming type) type d := fun h type ht => comes (h type ht)

/-- Each TYPE taken, with its response kept or not; an id that is open; the same messages for a VD that is not defined; TIME and its answer with a measured
delay of 4 and of 5 slots; a halted VD; a message for another node. -/
theorem wit_FabricMessages : (∀ type ∈ [1, 2, 3, 4, 5, 6, 7, 8, 9, 10], ∃ d, Comes (fabric [opened 1 0 false] [] 50) (incoming type) type d) ∧
    (((fabric [] [] 50).fab.kept.find? fun k => k.1 == 9 && k.2.1 == 77) = none ∧ (∀ type ∈ [1, 3, 5, 7, 8], (fabric [] [] 50).underWay (incoming type) = false) ∧
      ((fabric [] [(9, 77, incoming 4, 0)] 50).fab.kept.find? fun k => k.1 == 9 && k.2.1 == 77) = some (9, 77, incoming 4, 0)) ∧
    (∀ type ∈ [1, 2, 3, 4, 5, 6, 7, 8, 9, 24, 25], let m := mkMsg type 5 9 255 77 0 (incoming type).w2 0 0 (incoming type).data
      m.type = type ∧ msgOk m = true ∧ m.dst = (fabric [] [] 50).node ∧ ((fabric [] [] 50).vd m.vd).isNone = true) ∧
    (∀ type ∈ [1, 3, 4, 5, 7, 8], (fabric [opened type 0 false] [] 50).openOf 9 77 = some (opened type 0 false) ∧ (opened type 0 false).msg.type = type) ∧
    (incoming 2).data.length = reqSpan (opened 1 0 false).msg ∧
    (∀ now ∈ [44, 45], (let m := mkMsg 25 5 9 0 77 40 0 0 0 []
      m.type = 25 ∧ msgOk m = true ∧ m.dst = (fabric [] [] now).node ∧ (fabric [] [] now).fab.node.isSome = true ∧ (fabric [] [] now).power = .run ∧
        tget (fabric [] [] now).fab.offs m.src = some { o := some 3, validAt := 0, probe := some 40 } ∧ m.w1.toNat = 40 ∧
        ((fabric [] [] now).now : Int) - m.w1.toNat - ((m.w3.toNat : Int) - m.w2.toNat) = now - 40)) ∧
    (let m := mkMsg 24 5 9 0 77 40 0 0 0 []
     (m.type == 24 && msgOk m && (fabric [] [] 50).fab.node.isSome && m.dst == (fabric [] [] 50).node && (fabric [] [] 50).power == .run &&
       ((fabric [] [] 50).vd m.vd).any fun d => d.span.contains m.src && d.halt == none) = true) ∧
    (∀ type ∈ [1, 2, 3, 4, 5, 6, 7, 8, 9, 10], let m := incoming type
      m.type = type ∧ msgOk m = true ∧ stopped9.fab.node.isSome = true ∧ m.dst = stopped9.node ∧ stopped9.power = .run ∧
        (stopped9.vd m.vd).any (fun d => d.span.contains m.src && d.halt == some { reason := 6, fatal := false, stopped := [], tval := 0 }) = true) ∧
    (mkMsg 1 6 9 0 77 0 8 0 0 []).dst ≠ (fabric [] [] 50).node := by
  refine ⟨comes_fabric (by decide +kernel), by decide +kernel, by decide +kernel, by decide +kernel, by decide +kernel, by decide +kernel, by decide +kernel,
    by decide +kernel, by decide +kernel⟩

/-- Node 5 with every port down. -/
def unplugged (n : Nat) : State :=
  (fabric [opened 1 0 false] [] 256).modFab fun f => { f with ports := (List.range 16).map fun p => (p, { up := false, resent := n, xchg := false }) }

/-- `fabric` in slot `now`, its last periodic TIME to node 9 sent in slot 0. -/
def timedAt (now : Nat) : State :=
  (fabric [] [] now).modFab fun f => { f with offs := [(9, { o := some 3, validAt := 0, probe := none, sent := some 0 })] }

/-- The limits, each with the slot before it: 256 slots without an answer on the eighth try and the ninth, 4,096 and 65,536 slots; a waiting request; a
node in a span; the fifteenth frame in a row and the sixteenth; ports all down; a port to train, with a node to ask and with none. -/
theorem wit_FabricTransport : (∀ now ∈ [255, 256], ∀ tries ∈ [7, 8], (fabric [opened 1 tries false] [] now).fab.opens[0]? = some (opened 1 tries false) ∧
      (fabric [opened 1 tries false] [] now).now = now ∧ (opened 1 tries false).stopped = false ∧ (opened 1 tries true).stopped = true ∧
      (fabric [opened 1 tries false] [] now).flitsHeld (opened 1 tries false).msg.vd = false ∧
      (fabric [opened 1 tries false] [] now).otherPorts (opened 1 tries false) ≠ []) ∧
    ((unplugged 0).otherPorts (opened 1 0 false) = [] ∧ stopped9.flitsHeld (opened 1 0 false).msg.vd = true) ∧
    (∀ now ∈ [4095, 4096], (fabric [] [(9, 77, incoming 4, 0)] now).fab.kept[0]? = some (9, 77, incoming 4, 0) ∧
      (fabric [] [(9, 77, incoming 4, 0)] now).now = now) ∧
    (((fabric [opened 1 0 false] [] 0).fab.waits.find? fun w => w.1 == 9 && !((fabric [opened 1 0 false] [] 0).flitsHeld w.2.1.vd)) =
        some (9, mkMsg 8 9 5 0 0 7 0 0 0 [], .gate) ∧
      (fabric [opened 1 0 false] [] 0).freePorts (flitBytes (mkMsg 8 9 5 0 0 7 0 0 0 [])) ≠ [] ∧ ((fabric [opened 1 0 false] [] 0).busyTids 9).length < 2097152) ∧
    (((fabric [] [] 0).spanNodes.contains 9 = true ∧ (fabric [] [] 0).spanNodes.contains 8 = false) ∧ (fabric [] [] 0).timeDue 9 = true ∧
      (timedAt 4095).timeDue 9 = false ∧ (timedAt 4096).timeDue 9 = true ∧ (timedAt 4096).spanNodes.contains 9 = true) ∧
    (∀ now ∈ [65535, 65536], tget (fabric [] [] now).fab.offs 9 = some { o := some 3, validAt := 0, probe := some 40 } ∧ (fabric [] [] now).now = now) ∧
    (∀ n ∈ [14, 15], let s := base.modFab fun f => { f with ports := [(15, { up := true, resent := n, xchg := false })] }
      s.power = .run ∧ tgetD s.fab.ports 15 Port.reset = { up := true, resent := n, xchg := false }) ∧
    ((unplugged 15).power = .run ∧ tgetD (unplugged 15).fab.ports 15 Port.reset = { up := false, resent := 15, xchg := false } ∧ (unplugged 15).spanNodes ≠ []) ∧
    let s := base.modFab fun f => { f with ports := [(15, { up := false, resent := 0, xchg := false })] }
    s.power = .run ∧ tgetD s.fab.ports 15 Port.reset = { up := false, resent := 0, xchg := false } ∧ s.spanNodes = [] := by decide +kernel

/-! ### Queues, the host, firmware, power -/

/-- Queue 0's control block at VPA 0 (ring at 0x1000, 16 entries, completion ring at 0x2000, 16 entries, tail 1), and a command's bytes in the ring. -/
def qcells (cmd : List (Nat × Byte)) : List (Nat × Byte) :=
  [(65537, 0x10), (65544, 0xFF), (65545, 0x0F), (65549, 0x40), (65550, 0xC4), (65552, 1), (65569, 0x20)] ++ cmd.map (fun e => (69632 + e.1, e.2)) ++
    [(77829, 1), (77832, 3), (77834, 1), (77836, 1), (77838, 1), (77840, 1), (77856, 0x40), (77862, 1), (77928, 0x40)]

/-- `mapped` with queue 0 as the front end holds it, that block, a command, and the descriptor of `desc3` at 0x3000. -/
def queued (cmd : List (Nat × Byte)) (k : Queue) : State :=
  let s := ringing (qcells cmd) 0 []
  { s with vds := tmod s.vds 0 fun d => { d with queues := [(0, k)] } }

/-- A queue with one command. -/
def oneCmd : Queue := { Queue.plain with tail := 1, seq := 5 }

/-- VD 0 of `queued`. -/
def qvd (k : Queue) : Vd := { (mapped.vd 0).getD placedVd with queues := [(0, k)] }

/-- A sweep that has completed, with an action. -/
def completed (act : Nat) : Sweep := { Sweep.fresh 0 0 7 (desc3.set 6 (BitVec.ofNat 64 (act * 2 ^ 60))) (.queue 0 9) with st := .completing }

/-- An entry that waits for queue 0's completion ring, whose position is `ct`. -/
def posting (ct : BitVec 32) : State :=
  (queued [] { oneCmd with ctail := ct }).modFr fun f => { f with posts := [{ vd := 0, q := 0, w0 := 0x1000000000000000, swid := 4095 }] }

/-- A migration that holds a write of the host's queue pair `qp`. -/
def heldWrite (qp : Nat) : Mig := { st := .copying, waits := [], vd := 0, page := 4, f := 5, g := 70, held := [.rdmaWrite 0 qp 0x40000 [1]] }

/-- A control block that its host may use. -/
theorem wit_QueueEvents : ((queued [] oneCmd).vd 0 = some (qvd oneCmd) ∧ (queued [] oneCmd).power = .run ∧ (qvd oneCmd).gen = 0 ∧
      ((1 : Word) <<< 48).extractLsb' 48 16 ≠ (qvd oneCmd).gen ∧ (0 : Word).extractLsb' 48 16 = (qvd oneCmd).gen ∧ (queued [] oneCmd).hbm.qpBusy 0 3 = false ∧ (qvd oneCmd).halt = none ∧
      ((queued [] oneCmd).modHbm fun h => { h with migs := [heldWrite 3] }).hbm.qpBusy 0 3 = true) ∧
    (∃ b u, (queued [] oneCmd).readQueue 0 (qvd oneCmd).d 0 = (some b, u) ∧ (b.vdid == 0 && b.pri == ((qvd oneCmd).queue 0).pri &&
      b.maxs == ((qvd oneCmd).queue 0).maxs && b.ok && b.lgn == 4 && b.tgen == 0 && b.tail == 1) = true) ∧
    (((qvd oneCmd).queue 0).polled = none ∧ (∀ n ∈ [63, 64], ((qvd { oneCmd with polled := some 0 }).queue 0).polled = some 0 ∧
      ({ queued [] { oneCmd with polled := some 0 } with slot := BitVec.ofNat 64 n } : State).now = n)) ∧
    (((5 : Word).toNat ≤ oneCmd.seq.toNat ∧ oneCmd.seq.toNat < (6 : Word).toNat) ∧ ((16 : BitVec 32) - oneCmd.head).toNat ≤ 2 ^ 4 ∧
      2 ^ 4 < ((17 : BitVec 32) - oneCmd.head).toNat ∧ ((16 : BitVec 32) - oneCmd.tail).toNat < 2147483648 ∧ 2147483648 ≤ ((0 : BitVec 32) - oneCmd.tail).toNat) ∧
    (∃ c u, (queued [] oneCmd).nextCmd 0 (qvd oneCmd) 0 = (some c, u) ∧ (c.op == 0 && c.ok == true) = true) ∧
    (∃ c u, (queued [(4, 1)] oneCmd).nextCmd 0 (qvd oneCmd) 0 = (some c, u) ∧ (c.op == 0 && c.ok == false) = true) ∧
    (∃ c u, (queued [(7, 0x30)] oneCmd).nextCmd 0 (qvd oneCmd) 0 = (some c, u) ∧ (c.op == 3 && c.ok == false) = true) ∧
    (∃ c u, (queued [(7, 0x10), (16, 1)] oneCmd).nextCmd 0 (qvd oneCmd) 0 = (some c, u) ∧ (c.op == 1 && c.ok == false) = true) ∧
    (∃ c u, (queued [(7, 0x20)] oneCmd).nextCmd 0 (qvd oneCmd) 0 = (some c, u) ∧ (c.op == 2 && c.ok == false) = true) ∧
    (∃ c u, (queued [(7, 0x10), (9, 0x30)] oneCmd).nextCmd 0 (qvd oneCmd) 0 = (some c, u) ∧
      (c.op == 1 && c.ok && ((u.takeCmd 0 (qvd oneCmd) 0).launchFrom 0 (qvd oneCmd).d (c.w1.setWidth 48).toNat 3 (.queue 0 c.tag)).1 == none) = true) ∧
    (∃ c u, (queued [(7, 0x10), (8, 0x20)] oneCmd).nextCmd 0 (qvd oneCmd) 0 = (some c, u) ∧
      (c.op == 1 && c.ok && ((u.takeCmd 0 (qvd oneCmd) 0).launchFrom 0 (qvd oneCmd).d (c.w1.setWidth 48).toNat 3 (.queue 0 c.tag)).1 == some 24) = true) ∧
    (∃ c u, (queued [(7, 0x20), (9, 0x30), (16, 1)] oneCmd).nextCmd 0 (qvd oneCmd) 0 = (some c, u) ∧
      (c.op == 2 && c.ok && (({ u.takeCmd 0 (qvd oneCmd) 0 with nextId := 1 } : State).modQueue 0 0 (fun k => { k with open_ := k.open_ + 1 })
        |>.devRead 0 (c.w1.setWidth 48).toNat 16).1.isSome) = true) ∧
    (∃ u, (queued [] { oneCmd with tail := 0 }).nextCmd 0 (qvd { oneCmd with tail := 0 }) 0 = (none, u)) ∧
    (∀ act ∈ [0, 1, 2, 3, 4], let s := base.modFr fun f => { f with sweeps := [completed act] }
      (s.fr.sweeps.find? fun x => x.turn == 7) = some (completed act) ∧ s.mayAct (completed act) = true ∧ (completed act).act = act) ∧
    (sweeping.fr.sweeps.find? fun x => x.turn == 7) = some (Sweep.fresh 0 0 7 desc3 .launch) ∧ sweeping.mayAct (Sweep.fresh 0 0 7 desc3 .launch) = false ∧
    (∀ n ∈ [15, 16], let ct := BitVec.ofNat 32 n
      ((posting ct).fr.posts.find? fun p => p.vd == 0 && p.q == 0) = some { vd := 0, q := 0, w0 := 0x1000000000000000, swid := 4095 } ∧
      ((0x1000000000000000 : Word).extractLsb' 60 4).toNat ≠ 0 ∧ (qvd oneCmd).halt = none ∧
      ∃ b u, (posting ct).readQueue 0 (qvd oneCmd).d 0 = (some b, u) ∧ (b.ok && b.cfut == 0 && ((ct - b.chead == BitVec.ofNat 32 (2 ^ b.clg)) == (n == 16)) &&
        (u.devWords 0 (b.crb + 16 * (ct.toNat % 2 ^ b.clg)) [0x1000000000000000, BitVec.ofNat 64 (2 ^ 48 * 0 + 4095 % 4096)]).1) = true) := by
  refine ⟨⟨by decide +kernel, by decide +kernel, by decide +kernel, by decide +kernel, by decide +kernel, by decide +kernel, by decide +kernel, by decide +kernel⟩, ans2 (by decide +kernel), by decide +kernel, by decide,
    ans2 (p := fun (c : QCmd) (_ : State) => c.op == 0 && c.ok == true) (by decide +kernel), ans2 (p := fun (c : QCmd) (_ : State) => c.op == 0 && c.ok == false) (by decide +kernel),
    ans2 (p := fun (c : QCmd) (_ : State) => c.op == 3 && c.ok == false) (by decide +kernel), ans2 (p := fun (c : QCmd) (_ : State) => c.op == 1 && c.ok == false) (by decide +kernel),
    ans2 (p := fun (c : QCmd) (_ : State) => c.op == 2 && c.ok == false) (by decide +kernel), ?_, ?_, ?_, ⟨_, pair (by decide +kernel)⟩, by decide +kernel, by decide +kernel,
    by decide +kernel, ?_⟩
  · exact ans2 (p := fun (c : QCmd) (u : State) => c.op == 1 && c.ok && ((u.takeCmd 0 (qvd oneCmd) 0).launchFrom 0 (qvd oneCmd).d (c.w1.setWidth 48).toNat 3 (.queue 0 c.tag)).1 == none)
      (by decide +kernel)
  · exact ans2 (p := fun (c : QCmd) (u : State) => c.op == 1 && c.ok && ((u.takeCmd 0 (qvd oneCmd) 0).launchFrom 0 (qvd oneCmd).d (c.w1.setWidth 48).toNat 3 (.queue 0 c.tag)).1 ==
      some 24) (by decide +kernel)
  · exact ans2 (p := fun (c : QCmd) (u : State) => c.op == 2 && c.ok && (({ u.takeCmd 0 (qvd oneCmd) 0 with nextId := 1 } : State).modQueue 0 0
      (fun k => { k with open_ := k.open_ + 1 }) |>.devRead 0 (c.w1.setWidth 48).toNat 16).1.isSome) (by decide +kernel)
  · intro n hn ct
    have h : ∀ n ∈ [15, 16], has ((posting (BitVec.ofNat 32 n)).readQueue 0 (qvd oneCmd).d 0) (fun (b : QBlock) (u : State) => b.ok && b.cfut == 0 &&
        ((BitVec.ofNat 32 n - b.chead == BitVec.ofNat 32 (2 ^ b.clg)) == (n == 16)) &&
        (u.devWords 0 (b.crb + 16 * ((BitVec.ofNat 32 n).toNat % 2 ^ b.clg)) [0x1000000000000000, BitVec.ofNat 64 (2 ^ 48 * 0 + 4095 % 4096)]).1) = true := by
      decide +kernel
    exact ⟨rfl, by decide, by decide +kernel, ans2 (h n hn)⟩

/-- `mapped` with a migration of the frame of page `p`. -/
def moving (p : Nat) : State := mapped.modHbm fun h => { h with migs := [{ st := .copying, waits := [], vd := 0, page := p, f := p + 1, g := 70, held := [] }] }

/-- The same, where its home agent holds as many operations as it can. -/
def crowded : State := (moving 4).modHbm fun h => { h with migs := h.migs.map fun m => { m with held := List.replicate 4096 (.rdmaWrite 0 9 0x40000 [1]) } }

/-- An access of the host that waits for a response. -/
def asked (stop : Bool) : State × HostOp :=
  let o : HostOp := { id := 3, vd := 0, win := 1, off := 0, who := .gate, wrote := none }
  ((withVd (fun d => { d with halt := if stop then some { reason := 6, fatal := false, stopped := [.hostPort], tval := 0 } else none }) base) |> fun s =>
    { s with io := { s.io with ops := [o] } }, o)

/-- A read, a write and an atomic of the first and last mapped bytes; accesses of nothing; a write to a migrating frame; an unaligned atomic; no VD; a
response while the host port runs and while it is stopped. -/
theorem wit_HostAccesses : (mapped.power = .run ∧ mapped.vd 0 = some ((mapped.vd 0).getD placedVd) ∧ ((mapped.vd 0).getD placedVd).halt = none) ∧
    ((∃ bs u, mapped.rdmaRead 0 0 16 = (.ok bs, u)) ∧ (∃ bs u, mapped.rdmaRead 0 0x1FFFF8 8 = (.ok bs, u)) ∧
      (∃ u, mapped.rdmaRead 0 0x200000 1 = (.err, u)) ∧ ∃ u, mapped.rdmaRead 0 0 0 = (.err, u)) ∧
    ((∃ u, mapped.rdmaWrite 0 0 [1, 2] = (.ok [], u)) ∧ ∃ i u, (moving 4).rdmaWrite 0 0x40000 [1, 2] = (.held i, u)) ∧
    (mapped.hbm.qpBusy 0 3 = false ∧ (moving 4).hbm.qpBusy 0 3 = false ∧ crowded.hbm.qpBusy 0 3 = false ∧ crowded.hbm.qpBusy 0 9 = true ∧
      ∃ u, crowded.rdmaWrite 0 0x40000 [1, 2] = (.later, u)) ∧
    ((0 : Word).toNat + 16 ≤ 16 ∧ (15 : Word).toNat + 1 ≤ 16) ∧
    ((∃ bs u, mapped.rdmaAtomic 0 8 false 1 0 = (.ok bs, u)) ∧ (∃ bs u, mapped.rdmaAtomic 0 8 true 1 2 = (.ok bs, u)) ∧ (4 : Word) &&& 7#64 ≠ 0#64) ∧
    mapped.vd 1 = none ∧
    ((asked false).1.io.ops[0]? = some (asked false).2 ∧ (asked false).1.flitsHeld (asked false).2.vd = false) ∧
    (∃ d h, (asked true).1.vd 0 = some d ∧ d.halt = some h ∧ h.fatal = false) ∧
    (asked true).1.io.ops[0]? = some (asked true).2 ∧ (asked true).1.flitsHeld (asked true).2.vd = true ∧ (asked true).2.who ≠ .load := by
  refine ⟨⟨by decide, by decide, by decide⟩, ⟨⟨List.replicate 16 0, _, pair (by decide +kernel)⟩, ⟨List.replicate 8 0, _, pair (by decide +kernel)⟩, ⟨_, pair (by decide +kernel)⟩,
    ⟨_, pair (by decide +kernel)⟩⟩, ⟨⟨_, pair (by decide +kernel)⟩, 0, _, pair (by decide +kernel)⟩,
    ⟨by decide +kernel, by decide +kernel, by decide +kernel, by decide +kernel, _, pair (by decide +kernel)⟩, by decide, ⟨⟨List.replicate 8 0, _, pair (by decide +kernel)⟩,
    ⟨List.replicate 8 0, _, pair (by decide +kernel)⟩, by decide⟩, by decide, ⟨by decide, by decide⟩, ⟨_, _, rfl, rfl, rfl⟩, by decide, by decide, by decide⟩

/-- A right header of a message of OP `op` over `n` list entries. -/
def hdr (op n : Nat) : MgmtHdr := { op := BitVec.ofNat 8 op, len := BitVec.ofNat 16 (bodyOf op n), seq := 9, w1 := 0 }

theorem hdr_of {op : Nat} (h : op < 256) (n : Nat) : HdrOf (hdr op n) op n := by
  have hb : bodyOf op n < 65536 := by unfold bodyOf; split <;> omega
  refine ⟨?_, rfl, ?_⟩
  · rw [hdr, BitVec.toNat_ofNat]; exact Nat.mod_eq_of_lt h
  · rw [hdr, BitVec.toNat_ofNat]; exact Nat.mod_eq_of_lt hb

/-- A header with a word 1 that is not 0. -/
theorem no_hdr (op n : Nat) : ¬ HdrOf { hdr op n with w1 := 1 } op n := fun h => by simp [HdrOf] at h

/-- A definition that firmware takes: hank 63, no frame and no quota. -/
def goodDef : VdDef :=
  { placedVd.d with hanks := [63], s1root := 0xF000, fcb := 64 }

/-- A request for window 1 of one page with VD `p`, over frame 100. -/
def winReq (p : BitVec 8) (close : Bool) : WindowReq := { peer := p, num := 1, size := 65536, rw := true, vpaPage := 200, frames := [100], close := close }

/-- `mapped` with a second VD, and with what the two have asked for or share. -/
def peers (asked : Bool) (shared : Bool) : State :=
  let s := mapped.modHbm fun h =>
    {
      h with winReqs := if asked then [(1, winReq 0 false)] else [], frames := [(1, { dom := 0, page := 0 })],
             wins := if shared then [(1, {
               a := 1, b := 0, aw := true, bw := true, aPage := 200, bPage := 200, size := 65536, frames := [100], seq := 0, closing := none })] else [] }
  { s with vds := tset mapped.vds 1 (Vd.fresh goodDef false 0) }

/-- VD 0 of `mapped`. -/
def mvd : Vd := (mapped.vd 0).getD placedVd

/-- A definition taken and definitions refused; a VD whose frames no access uses; schedules; host windows at the limit of length; nodes; windows asked for by
one host, by both, and ended; a page to move; no VD. -/
theorem wit_VdMessages : base.power = .run ∧ (peers true true).power = .run ∧
    ((base.vd 5).isNone = true ∧ defAddrsOk goodDef = true ∧ defLimitsOk goodDef = true ∧ (answering base).sharesOk 5 goodDef = true) ∧
    ((base.vd 0).isSome = true ∧ defAddrsOk { goodDef with tvec := 65 } = false ∧ defLimitsOk { goodDef with ceil := 5 } = false ∧
      defLimitsOk { goodDef with nslot := 31 } = false) ∧
    (base.vd 0 = some placedVd ∧ base.fw.load = none ∧ (peers true true).fw.load = none) ∧
    ((∀ e ∈ [((0 : Nat), (1 : Nat))], e.1 ∈ placedVd.d.hanks) ∧ ∃ e ∈ [((1 : Nat), (0 : Nat))], e.1 ∉ placedVd.d.hanks) ∧
    (({ h := 0, len := 1099511627776, key := 0, raddr := 0 } : HostWin).len ≤ 1099511627776 ∧
      1099511627776 < ({ h := 0, len := 1099511627777, key := 0, raddr := 0 } : HostWin).len) ∧
    (∀ x ∈ [0, 4095], x < 4096) ∧
    (∀ o : Bool, (peers o false).vd 0 = some mvd ∧ (winReq 1 false).close = false ∧ (answering (peers o false)).windowOk 0 mvd (winReq 1 false) = true) ∧
    ((peers false false).hbm.winReqs.find? fun x => x.1 == (winReq 1 false).peer.toNat && x.2.num == (winReq 1 false).num && x.2.peer == 0) = none ∧
    ((peers true false).hbm.winReqs.find? fun x => x.1 == (winReq 1 false).peer.toNat && x.2.num == (winReq 1 false).num && x.2.peer == 0) =
      some (1, winReq 0 false) ∧
    ((winReq 0 false).size = (winReq 1 false).size ∧ (winReq 0 false).frames = (winReq 1 false).frames) ∧
    ((winReq 1 true).close = true ∧ ∃ x, tget (peers false true).hbm.wins (winReq 1 true).num.toNat = some x ∧ (x.a = 0 ∨ x.b = 0) ∧ x.closing = none) ∧
    (((peers false false).hbm.mapsOf 1).find? (fun x => x.1 == 0) = some (0, 0) ∧ (∃ fr, tget (peers false false).hbm.frames 1 = some fr) ∧
      tget (peers false false).hbm.frames 13695652 = none ∧ 13695652 < tenantFrames ∧ ∀ m ∈ (peers false false).hbm.migs, m.f ≠ 1 ∧ m.g ≠ 1) ∧
    base.vd 5 = none ∧ (∀ n, ∀ op ∈ [1, 2, 3, 4, 5, 6, 7, 8], HdrOf (hdr op n) op n) ∧ ∀ n, ∀ op ∈ [1, 2, 3, 4, 5, 6, 7, 8], ∃ h, ¬ HdrOf h op n := by
  refine ⟨rfl, rfl, ⟨by decide, by decide, by decide, by decide +kernel⟩, ⟨by decide, by decide, by decide, by decide⟩, ⟨by decide, by decide, by decide⟩,
    ⟨by decide, by decide⟩, ⟨by decide, by decide⟩, by decide, by decide +kernel, by decide, by decide, ⟨by decide, by decide⟩,
    ⟨by decide, _, rfl, by decide, by decide⟩, ⟨by decide +kernel, ⟨_, rfl⟩, by decide, by decide, by decide⟩, by decide, fun n op h => hdr_of ?_ n,
    fun n op _ => ⟨_, no_hdr op n⟩⟩
  simp only [List.mem_cons, List.not_mem_nil, or_false] at h
  omega

/-- `base` with VD 0 debuggable, its plane at a debug halt, and host window 1 of a length. -/
def halted (len : Nat) (fatal : Bool) : State :=
  let h : Halt := { reason := 6, fatal := fatal, stopped := [.plane 0 0], tval := 0 }
  withVd (fun d => { d with d := { d.d with dbg := true }, hostw := [(1, { h := 1, len := len, key := 0, raddr := 0 })], halt := some h }) base

/-- A debugger's messages: VD 0 runs, is at a debug halt and at a fatal one; the halt's plane and its ACTIVE task; the shortest window that a dump and the
shortest block that a load may have; nonces of 0, 1, 64 and 65 bytes; images; no VD. -/
theorem wit_DebugMessages : ((halted 0 false).power = .run ∧ (halted 0 false).fw.load = none ∧ (halted 11008 false).fw.load = none ∧ base.fw.load = none) ∧
    (∀ op ∈ [9, 10, 11, 12, 13, 14, 15, 16], HdrOf (hdr op 0) op 0 ∧ ∃ h, ¬ HdrOf h op 0) ∧
    (∃ h : MgmtHdr, h.op.toNat = 15 ∧ h.w1 = 0 ∧ h.len.toNat = 64) ∧
    (let s : State := { base with fw := { base.fw with load := some (hdr 13 0, 0, 0, 0) } }
     s.fw.load = some (hdr 13 0, 0, 0, (0 : BitVec 1).toNat) ∧ (s.plane 0 0).task = some 0 ∧ (List.replicate 4864 (0 : Byte)).length = 4864 ∧
       ({ id := 3, vd := 0, win := 1, off := 0, who := .load, wrote := none } : HostOp).who = .load) ∧ (∃ d, (withDef fun d => { d with dbg := true }).vd 0 = some d ∧ d.d.dbg = true ∧ d.run = true) ∧
    (∃ d h, (halted 11008 false).vd 0 = some d ∧ d.d.dbg = true ∧ d.halt = some h ∧ h.fatal = false ∧ h.stopped.contains (.plane 0 0) = true ∧
      (∃ key t, (halted 11008 false).taskOf 0 0 = some (key, t) ∧ t.vd = 0 ∧ t.state = .active ∧
        ((answering (halted 11008 false)).planeBytes 0 0 key).length = 11008) ∧
      ∃ hw, tget d.hostw 1 = some hw ∧ hw.len = 11008) ∧
    4864 ≤ (List.replicate 4864 (0 : Byte)).length ∧ placedVd.d.dbg = false ∧ (∃ d h, (halted 0 true).vd 0 = some d ∧ d.halt = some h ∧ h.fatal = true) ∧
    (∃ d, (withVd (fun d => { d with run := false, d := { d.d with dbg := true } }) base).vd 0 = some d ∧ d.run = false) ∧
    ((∀ n ∈ [1, 64], List.replicate n (0 : Byte) ≠ [] ∧ (List.replicate n (0 : Byte)).length ≤ 64) ∧
      List.replicate 0 (0 : Byte) = [] ∧ 64 < (List.replicate 65 (0 : Byte)).length) ∧
    ((∀ v : Bool, (if v then { base with fw := { base.fw with active := 1 } } else base).power = .run) ∧
      (∃ i : FwImage, i.signed = true ∧ i.importsTable = true) ∧ (∃ i : FwImage, i.signed = false) ∧ ∃ i : FwImage, i.importsTable = false) ∧
    base.vd 5 = none := by
  refine ⟨⟨rfl, rfl, rfl, rfl⟩, fun op h => ⟨hdr_of ?_ 0, _, no_hdr op 0⟩, ⟨⟨15, 64, 9, 0⟩, rfl, rfl, rfl⟩, ⟨rfl, rfl, List.length_replicate, rfl⟩,
    ⟨_, rfl, rfl, rfl⟩, ⟨_, _, rfl, rfl, rfl, rfl, by decide, ⟨0, _, rfl, rfl, rfl, by decide +kernel⟩, _, rfl, rfl⟩, by rw [List.length_replicate],
    rfl, ⟨_, _, rfl, rfl, rfl⟩, ⟨_, rfl, rfl⟩, ⟨by decide, by decide, by decide⟩, ⟨by decide, ⟨⟨0, true, true, 0, []⟩, rfl, rfl⟩, ⟨⟨0, false, true, 0, []⟩, rfl⟩,
    ⟨0, true, false, 0, []⟩, rfl⟩, by decide⟩
  simp only [List.mem_cons, List.not_mem_nil, or_false] at h
  omega

/-- The package in BOOT and in RUN; images of which one, both or none are good; an update that waits and none; the active complex silent for 4,096 slots
and for 4,095, the other started and not. -/
theorem wit_PowerEvents : State.reset.power = .boot ∧ base.power = .run ∧ ((true = true ∨ false = true) ∧ (false = false ∧ false = false)) ∧
    ({ base with fw := { base.fw with takeover := true } } : State).fw.takeover = true ∧ base.fw.takeover = false ∧
    (∃ s : State, s.power = .run ∧ (if s.fw.active = 0 then s.fw.ok1 else s.fw.ok0) = true ∧ s.fw.alive + 4096 ≤ s.now) ∧
    (∃ s : State, s.now + 1 = s.fw.alive + 4096) ∧ ∃ s : State, (if s.fw.active = 0 then s.fw.ok1 else s.fw.ok0) = false :=
  ⟨rfl, rfl, by decide, rfl, rfl, ⟨{ base with slot := 4096, fw := { base.fw with ok1 := true } }, by decide, by decide, by decide⟩,
    ⟨{ base with slot := 4095 }, by decide⟩, { base with fw := { base.fw with ok1 := false } }, by decide⟩

/-- A column with H 5, in flight: H itself, and the last point of the window. -/
theorem wit_ColumnUpdate : let c : Col := { h := 5, w := 0, i := 1 }
    (∀ p, ¬ (c.isDone p = true ∧ c.inFlight p = true)) ∧ ∀ q ∈ [5, 37], c.h ≤ q ∧ q ≤ c.h + 32 ∧ c.isDone q = false := by
  refine ⟨fun p => ?_, by decide⟩
  simp only [Col.isDone, Col.inFlight]
  by_cases h : p = 5
  · subst h; decide
  · have h0 : ∀ n, n ≠ 0 → (1#33).getLsbD n = false := by
      intro n hn; simp [hn]
    by_cases h5 : 5 ≤ p
    · simp [h0 (p - 5) (by omega)]
    · simp [h5]

/-- A well-formed instruction with an encoding. -/
theorem wit_RoundTrip : ∃ i : Instr, wellFormed i = true ∧ (encode i).isSome = true := ⟨.ret { g := 2 }, by decide, by decide⟩

/-- A state whose next instruction has these words. -/
def placed (w0 w1 : IWord) : State := State.reset.withWords w0 w1

/-- The same with a load of g7 outstanding, from HBM or from the own scratchpad. -/
def awaiting (own : Bool) : State :=
  (placed 0x0238E400 0).modPl fun p => { p with acc := [if own then elemAcc (.ld 7 false) .ready (some (.spad 0 0)) [] |> fun a =>
    { a with elems := a.elems.map fun e => { e with peer := false } } else doneAcc (.ld 7 false) []] }

/-- An ADD that runs, at once and as a core's turn, and one whose register awaits a load; a word and a pair of a line; an event's turn. -/
theorem wit_StepRunsInstruction :
    (∃ t i, TurnOf (placed 0x0238E400 0) (placed 0x0238E400 0) ∧ MayIssue (placed 0x0238E400 0) t 0x0238E400 0 1 ∧ guardOf 0x0238E400 ≠ 8 ∧
      decode 0x0238E400 0 = .ok i ∧ wellFormed i = true ∧ i.gs.filter (issuing (placed 0x0238E400 0) t).pl.busyG = [] ∧
      i.vs.filter ((issuing (placed 0x0238E400 0) t).pl.busyV ((issuing (placed 0x0238E400 0) t).core (issuing (placed 0x0238E400 0) t).fc)) = []) ∧
    TurnOf { placed 0x0238E400 0 with agenda := [.issue 0], focus := 5 } (placed 0x0238E400 0) ∧
    (∀ own : Bool, ∃ t i, MayIssue (awaiting own) t 0x0238E400 0 1 ∧ decode 0x0238E400 0 = .ok i ∧ wellFormed i = true ∧
      let x := issuing (awaiting own) t
      let gs := i.gs.filter x.pl.busyG
      gs ≠ [] ∧ ((gs.filter fun r => r != 0 && x.pl.acc.any fun a => a.kind.destG == some r && !(a.elems.all Elem.own)) = [] ↔ own = true) ∧
        x.pl.awayV (x.core x.fc) (i.vs.filter (x.pl.busyV (x.core x.fc))) = []) ∧
    (∀ e ∈ [((0x0238E400 : IWord), (0 : IWord), false), (0x3628C050, 0x000000C8, true)], ∃ l, (placed e.1 e.2.1).pl.pc &&& 3#64 = 0#64 ∧
      wordIdx (placed e.1 e.2.1).pl.pc = 1 ∧ lineOf (placed e.1 e.2.1).pl.pc ≠ 0#64 ∧ inHbmWindow (placed e.1 e.2.1).pl.pc = true ∧
      (placed e.1 e.2.1).lineAt (placed e.1 e.2.1).fc (placed e.1 e.2.1).fp = some l ∧ l.wellFormed = true ∧ (placed e.1 e.2.1).pl.loop.inBody = false ∧
      1 ≤ linkCnt (l.word 0) ∧ isPair (l.word 1) = e.2.2 ∧ (e.2.2 = true → 1 < linkCnt (l.word 0))) ∧
    encode .slotBoundary = none ∧ ({ base with agenda := [.event .slotBoundary] } : State).agenda = .event .slotBoundary :: [] := by
  refine ⟨⟨_, .addTri ⟨7, 7, 8, 0, 0⟩, .inl ⟨rfl, rfl⟩, mayIssue ⟨rfl, rfl, by decide, by decide, by decide, by decide, by decide, rfl, rfl⟩, by decide, by decide, by decide,
    by decide, by decide⟩, .inr ⟨0, [], rfl, rfl⟩, ?_, ?_, rfl, rfl⟩
  · intro own
    cases own <;> exact ⟨_, .addTri ⟨7, 7, 8, 0, 0⟩, mayIssue ⟨rfl, rfl, by decide, by decide, by decide, by decide, by decide, rfl, rfl⟩,
      by decide, by decide, by decide, by decide, by decide⟩
  intro e he
  simp only [List.mem_cons, List.not_mem_nil, or_false] at he
  rcases he with rfl | rfl <;>
    exact ⟨_, by decide, by decide, by decide, by decide, rfl, by decide, by decide, by decide, by decide, by decide⟩

/-- A word under guard 8; words of no instruction, and of a CMP whose destinations are one; the reserved opcodes. -/
theorem wit_WordsRefused : (∃ t, TurnOf (placed 0x0238E408 0) (placed 0x0238E408 0) ∧ MayIssue (placed 0x0238E408 0) t 0x0238E408 0 1 ∧ guardOf 0x0238E408 = 8) ∧
    (∃ t, MayIssue (placed 0 0) t 0 0 1 ∧ guardOf 0 ≠ 8 ∧ ∃ e, decode 0 0 = .error e) ∧
    (∃ t w0, MayIssue (placed w0 0) t w0 0 1 ∧ guardOf w0 ≠ 8 ∧ ∃ i, decode w0 0 = .ok i ∧ wellFormed i = false) ∧
    ((0 : IWord).extractLsb' 25 7 = 0#7 ∧ (0xFE000000 : IWord).extractLsb' 25 7 = 127#7) := by
  refine ⟨⟨_, .inl ⟨rfl, rfl⟩, mayIssue ⟨rfl, rfl, by decide, by decide, by decide, by decide, by decide, rfl, rfl⟩, by decide⟩,
    ⟨_, mayIssue ⟨rfl, rfl, by decide, by decide, by decide, by decide, by decide, rfl, rfl⟩, by decide, _, rfl⟩,
    ⟨_, ((encode (.cmpReg ⟨3, 3, 1, 2, 0, 0⟩)).map (·.1)).getD 0, mayIssue ⟨rfl, rfl, by decide, by decide, by decide, by decide, by decide, rfl, rfl⟩, by decide,
      .cmpReg ⟨3, 3, 1, 2, 0, 0⟩, by decide, by decide⟩, by decide, by decide⟩
end Sys2Proof.Tests
end

/-! ## Advances and frames

What passing an instruction keeps, and how an instruction that writes registers ends (spec/05_core.md R103 to R106). -/

namespace Sys2Proof.Machine

/-! ### What an advance keeps -/

@[simp] theorem Plane.pass_regs (x : Plane) (l : Option Line) (n : Nat) : (x.pass l n).regs = x.regs := by rw [Plane.pass_eq]
@[simp] theorem Plane.pass_sr (x : Plane) (l : Option Line) (n : Nat) : (x.pass l n).sr = x.sr := by rw [Plane.pass_eq]
@[simp] theorem Plane.pass_hold (x : Plane) (l : Option Line) (n : Nat) : (x.pass l n).hold = none := by rw [Plane.pass_eq]

@[simp] theorem Plane.pass_rg (x : Plane) (l : Option Line) (n : Nat) (r : BitVec 6) : (x.pass l n).rg r = x.rg r := by
  simp [Plane.rg]
@[simp] theorem Plane.pass_rv (x : Plane) (l : Option Line) (n : Nat) (r : BitVec 5) : (x.pass l n).rv r = x.rv r := by
  simp [Plane.rv]
@[simp] theorem Plane.pass_rp (x : Plane) (l : Option Line) (n : Nat) (r : BitVec 3) : (x.pass l n).rp r = x.rp r := by
  simp [Plane.rp]
@[simp] theorem Plane.pass_rm (x : Plane) (l : Option Line) (n : Nat) (r : BitVec 3) : (x.pass l n).rm r = x.rm r := by
  simp [Plane.rm]

end Sys2Proof.Machine

namespace Sys2Proof.Claims

open Sys2Proof.Machine

/-- A rewrite of a plane that changes no more than its registers. -/
def RegsOnly (f : Plane → Plane) : Prop := ∀ x, ∃ r, f x = { x with regs := r }

theorem onlyPlane_modPl (s : State) (f : Plane → Plane) : OnlyPlane s (s.modPl f) := by
  rw [OnlyPlane, State.pl_modPl, ← State.modPl_const]

theorem sameMemory_modPl (s : State) (f : Plane → Plane) : SameMemory s (s.modPl f) :=
  ⟨fun _ => rfl, fun c _ => by simp⟩

theorem RegsOnly.id : RegsOnly fun x => x := fun x => ⟨x.regs, rfl⟩

theorem RegsOnly.comp {f g : Plane → Plane} (hf : RegsOnly f) (hg : RegsOnly g) : RegsOnly fun x => g (f x) := fun x => by
  obtain ⟨r, hr⟩ := hf x
  obtain ⟨q, hq⟩ := hg (f x)
  exact ⟨q, hq.trans (by rw [hr])⟩

theorem regsOnly_wg (d : BitVec 6) (v : Word) : RegsOnly fun x => x.wg d v := fun x => by
  unfold Plane.wg; split <;> exact ⟨_, rfl⟩

theorem regsOnly_wp (d : BitVec 3) (b : Bool) : RegsOnly fun x => x.wp d b := fun x => by
  unfold Plane.wp; split <;> exact ⟨_, rfl⟩

/-- Passing an instruction after a write of registers. -/
theorem completed_pass (s : State) {f : Plane → Plane} (hf : RegsOnly f) (n : Nat) :
    Completed s (s.modPl fun _ => (f s.pl).pass (s.lineAt s.fc s.fp) n) n := by
  obtain ⟨r, hr⟩ := hf s.pl
  have hpc := Plane.pass_pc_congr (f s.pl) s.pl (s.lineAt s.fc s.fp) n (by rw [hr]) (by rw [hr])
  refine ⟨onlyPlane_modPl s _, sameMemory_modPl s _, ?_, ?_, ?_, ?_⟩ <;> rw [State.pl_modPl]
  · rw [Plane.pass_eq, hr]
    exact ⟨rfl, rfl, rfl, rfl, rfl, rfl, rfl, rfl, rfl⟩
  · exact hpc.1
  · exact hpc.2
  · exact Plane.pass_hold _ _ _

theorem completed_advance (s : State) (n : Nat) : Completed s (s.advance n) n := completed_pass s RegsOnly.id n

/-- A write of registers and an advance, as one rewrite of the executing plane. -/
theorem modPl_advance_eq (s : State) {f : Plane → Plane} (hf : RegsOnly f) (n : Nat) :
    (s.modPl f).advance n = s.modPl fun _ => (f s.pl).pass (s.lineAt s.fc s.fp) n := by
  obtain ⟨r, hr⟩ := hf s.pl
  exact State.modPl_advance s f n (by rw [hr]) (by rw [hr])

theorem unchanged_advance (s : State) (n : Nat) : Unchanged s (s.advance n) n := by
  refine ⟨completed_advance s n, ?_, ?_⟩ <;> rw [State.advance_eq, State.pl_modPl]
  · exact Plane.pass_sr _ _ _
  · exact Plane.pass_regs _ _ _

/-- A write of a g register and an advance. -/
theorem writesG_advance (s : State) (n : Nat) (d : BitVec 6) (x : Word) :
    WritesG s ((s.modPl fun p => p.wg d x).advance n) n d x := by
  rw [modPl_advance_eq s (regsOnly_wg d x)]
  refine ⟨completed_pass s (regsOnly_wg d x) n, ?_⟩
  simp [Plane.rg_wg]

/-- Writes of two predicates and an advance: where both name one, the second write stands. -/
theorem writesP_advance (s : State) (n : Nat) (d e : BitVec 3) (a b : Bool) :
    WritesP s ((s.modPl fun p => (p.wp d a).wp e b).advance n) n fun r => if r = e then b else if r = d then a else s.pl.rp r := by
  have hf := (regsOnly_wp d a).comp (regsOnly_wp e b)
  rw [modPl_advance_eq s hf]
  refine ⟨completed_pass s hf n, by simp, fun r => ?_, by simp, by simp, by simp⟩
  rw [State.pl_modPl, Plane.pass_rp, Plane.rp_wp, Plane.rp_wp]
  split <;> simp [*]

/-- A scalar instruction ends as its result says, written or not. -/
theorem scalarEnds_of_exec {i : Instr} {s : State} {g : BitVec 4} {n : Nat} {d : BitVec 6} {x : Word}
    (h : exec i s = .next (s.scalar g n d x)) : ScalarEnds i s g n d x := by
  refine ⟨_, h, ?_⟩
  rw [State.scalar_eq]
  by_cases hg : s.pl.guard g = true
  · rw [if_pos hg, if_pos hg]
    exact writesG_advance s n d x
  · rw [if_neg hg, if_neg hg]
    exact unchanged_advance s n

/-- So does one whose result is told bit by bit. -/
theorem bitsEnd_of_exec {i : Instr} {s : State} {g : BitVec 4} {n : Nat} {d : BitVec 6} {x : Word} {f : Nat → Bool}
    (h : exec i s = .next (s.scalar g n d x)) (hx : ∀ k < 64, x.getLsbD k = f k) : BitsEnd i s g n d f := by
  obtain ⟨t, ht, hend⟩ := scalarEnds_of_exec h
  refine ⟨t, ht, ?_⟩
  by_cases hg : s.pl.guard g = true
  · rw [if_pos hg] at hend ⊢
    exact ⟨x, hend, hx⟩
  · rw [if_neg hg] at hend ⊢
    exact hend

theorem compareEnds_of_exec {i : Instr} {s : State} {g : BitVec 4} {n : Nat} {pd pq : BitVec 3} {c : Bool}
    (h : exec i s = .next (s.compare g n pd pq c)) : CompareEnds i s g n pd pq c := by
  refine ⟨_, h, ?_⟩
  rw [State.compare]
  by_cases hg : g = 8
  · rw [if_pos hg, if_pos hg]
    exact unchanged_advance s n
  · rw [if_neg hg, if_neg hg]
    exact writesP_advance s n pd pq _ _

end Sys2Proof.Claims

/-! ## The turn of a task

Which instruction a step runs, and the ILLEGAL of an instruction whose fields are not legal (spec/05_core.md R90, R99,
spec/06_encoding.md R116). -/

namespace Sys2Proof.Machine

/-- A rewrite of a core that keeps its planes keeps the executing plane. -/
theorem State.pl_modCore (s : State) (c : Nat) {f : Core → Core} (hact : ∀ k, (f k).act = k.act)
    (hplane : ∀ k p, (f k).plane p = k.plane p) : (s.modCore c f).pl = s.pl := by
  have hcore (d : Nat) : (s.modCore c f).core d = s.core d ∨ (s.modCore c f).core d = f (s.core d) := by
    by_cases h : d = c
    · subst h; exact .inr (State.core_modCore s d f)
    · exact .inl (State.core_modCore_ne s f h)
  have hfp : (s.modCore c f).fp = s.fp := by
    rcases hcore s.fc with h | h
    · exact congrArg Core.act h
    · exact (congrArg Core.act h).trans (hact _)
  change ((s.modCore c f).core s.fc).plane (s.modCore c f).fp = (s.core s.fc).plane s.fp
  rw [hfp]
  rcases hcore s.fc with h | h
  · rw [h]
  · rw [h, hplane]

/-- Asking for a line keeps the planes (R99). -/
theorem State.pl_wantLine (s : State) (c v : Nat) (line : Word) : (s.wantLine c v line).pl = s.pl :=
  s.pl_modCore c (fun k => by unfold Core.ask; split <;> rfl) fun k p => by unfold Core.ask; split <;> rfl

theorem State.pl_useFetched (s : State) : s.useFetched.pl = s.pl := by
  have huse (l : Line) : (s.modCore s.fc fun k => k.useLine l).pl = s.pl := s.pl_modCore _ (fun _ => rfl) fun _ _ => rfl
  unfold State.useFetched
  split
  · rfl
  · rename_i l _
    dsimp only
    split
    · exact huse l
    · rw [State.pl_wantLine, huse]

theorem State.fr_useFetched (s : State) : s.useFetched.fr = s.fr := by
  unfold State.useFetched
  split
  · rfl
  · dsimp only
    split <;> rfl

theorem State.curTask_useFetched (s : State) : s.useFetched.curTask = s.curTask := by
  unfold State.curTask State.task
  rw [State.pl_useFetched, State.fr_useFetched]

end Sys2Proof.Machine

namespace Sys2Proof.Claims

open Sys2Proof.Machine

theorem after_eq_settled (o : Out) : after o = o.settled := by cases o <;> rfl

/-- A core's turn is a step (R90). -/
theorem step_of_turn {s u : State} (h : TurnOf s u) : step s = after (u.issueWith exec) := by
  rw [after_eq_settled]
  rcases h with ⟨hs, rfl⟩ | ⟨c, rest, hs, rfl⟩ <;> rw [step, hs]

/-- A task that may issue runs the words at its pc. -/
theorem issueWith_of_mayIssue {u : State} {t : Task} {w0 w1 : IWord} {n : Nat} (h : MayIssue u t w0 w1 n)
    (run : Instr → State → Out) :
    u.issueWith run = u.useFetched.runWords run (taskKey t.vd t.idx) w0 w1 n := by
  obtain ⟨hpower, htask, hmute, hlane, hatomic, hstall, hfetch, hpark, hfaults⟩ := h
  unfold State.issueWith
  rw [hpower, htask]
  unfold State.issueTask
  simp only [hmute, hlane, hatomic, hstall, hfetch, State.pl_useFetched, hfaults, bne_self_eq_false, Bool.false_eq_true,
    if_false, List.isEmpty_nil, Bool.not_true]

/-- The state in which those words are decoded. -/
theorem issuing_eq {u : State} {t : Task} (h : u.curTask = some t) :
    (u.useFetched.stepUsed u.useFetched.curVd).modTask (taskKey t.vd t.idx) (fun t => { t with st := true }) = issuing u t := by
  rw [State.curVd, State.curTask_useFetched, h]
  rfl

theorem trap_traps (s : State) (tval : Word) : Traps s (s.trap cILLEGAL tval) 1 tval := rfl

/-- An instruction with an illegal field raises ILLEGAL with its word, unless its guard is 0b1000 (R116). -/
theorem step_not_wellFormed {s u : State} {t : Task} {w0 w1 : IWord} {n : Nat} {i : Instr} (hturn : TurnOf s u)
    (hissue : MayIssue u t w0 w1 n) (hguard : guardOf w0 ≠ 8) (hdecode : decode w0 w1 = .ok i) (hi : wellFormed i = false) :
    ∃ x, Traps (issuing u t) x 1 (w0.setWidth 64) ∧ step s = after (.next x) := by
  have ⟨_, htask, _⟩ := hissue
  refine ⟨_, trap_traps (issuing u t) _, ?_⟩
  rw [step_of_turn hturn, issueWith_of_mayIssue hissue, State.runWords, issuing_eq htask, if_neg hguard]
  simp only [hdecode, hi, Bool.not_false, if_true]

end Sys2Proof.Claims

/-! ## Values of the scalar majors

What the scalar majors compute, said of numbers and of bits (spec/17_ref_a_c.md R319, R323, R324, R338,
spec/19_ref_m_r.md R372, R383, spec/20_ref_s_t.md R390, R402, spec/22_ref_vn_x.md R453). -/

namespace Sys2Proof.Claims

open Sys2Proof.Machine

/-! ### Sources and results under W -/

theorem setWidth_zext32 (a : Word) : (zext32 a).setWidth 32 = a.setWidth 32 :=
  BitVec.setWidth_setWidth_of_le _ (by decide)

theorem setWidth_sext32 (a : Word) : (sext32 a).setWidth 32 = a.setWidth 32 := by
  refine BitVec.eq_of_getLsbD_eq fun i hi => ?_
  have hi64 : i < 64 := by omega
  simp only [sext32, BitVec.getLsbD_setWidth, BitVec.getLsbD_signExtend, hi, hi64, decide_true, Bool.true_and, if_true]

theorem toInt_sext32 (a : Word) : (sext32 a).toInt = (a.setWidth 32).toInt :=
  BitVec.toInt_signExtend_of_le (by decide)

theorem toNat_zext32 (a : Word) : (zext32 a).toNat = (a.setWidth 32).toNat :=
  BitVec.toNat_setWidth_of_le (by decide)

/-- The low half of a source, however it was extended. -/
@[simp] theorem setWidth_wz_one (a : Word) : (wz 1#1 a).setWidth 32 = a.setWidth 32 := setWidth_zext32 a
@[simp] theorem setWidth_ws_one (a : Word) : (ws 1#1 a).setWidth 32 = a.setWidth 32 := setWidth_sext32 a

/-- A major is told by its result's low half under W, and by its value otherwise. -/
theorem eq_byWidth {F : BitVec 1 → Word → Word → Word} {x : BitVec 1 → Word → Word → Word}
    {f : BitVec 32 → BitVec 32 → BitVec 32} {g : Word → Word → Word} (hF : ∀ w a b, F w a b = ws w (x w a b))
    (h1 : ∀ a b, (x 1#1 a b).setWidth 32 = f (a.setWidth 32) (b.setWidth 32)) (h0 : ∀ a b, x 0#1 a b = g a b) :
    F = byWidth f g := by
  funext w a b
  rw [hF]
  have hw : w = 0#1 ∨ w = 1#1 := by revert w; decide
  rcases hw with rfl | rfl
  · exact h0 a b
  · exact congrArg (BitVec.signExtend 64) (h1 a b)

/-! ### Sums, products and logic -/

theorem fAdd_eq : fAdd = byWidth (· + ·) (· + ·) :=
  eq_byWidth (fun _ _ _ => rfl) (fun a b => by simp [BitVec.setWidth_add]) fun _ _ => rfl

theorem fSub_eq : fSub = byWidth (· - ·) (· - ·) :=
  eq_byWidth (fun _ _ _ => rfl)
    (fun a b => by simp [BitVec.sub_eq_add_neg, BitVec.setWidth_add, BitVec.neg_eq_not_add]) fun _ _ => rfl

theorem fMul_eq : fMul = byWidth (· * ·) (· * ·) :=
  eq_byWidth (fun _ _ _ => rfl) (fun a b => by simp [BitVec.setWidth_mul]) fun _ _ => rfl

theorem fAnd_eq : fAnd = byWidth (· &&& ·) (· &&& ·) :=
  eq_byWidth (fun _ _ _ => rfl) (fun a b => by simp) fun _ _ => rfl

theorem fOr_eq : fOr = byWidth (· ||| ·) (· ||| ·) :=
  eq_byWidth (fun _ _ _ => rfl) (fun a b => by simp) fun _ _ => rfl

theorem fXor_eq : fXor = byWidth (· ^^^ ·) (· ^^^ ·) :=
  eq_byWidth (fun _ _ _ => rfl) (fun a b => by simp) fun _ _ => rfl

theorem fAndn_eq : fAndn = byWidth (fun a b => a &&& ~~~b) fun a b => a &&& ~~~b :=
  eq_byWidth (fun _ _ _ => rfl) (fun a b => by simp [BitVec.setWidth_not]) fun _ _ => rfl

/-- Bits [127:64] of a 128-bit integer are its quotient by 2^64. -/
theorem extractLsb'_high_ofInt (x : Int) : (BitVec.ofInt 128 x).extractLsb' 64 64 = BitVec.ofInt 64 (x / 18446744073709551616) := by
  apply BitVec.eq_of_toNat_eq
  simp only [BitVec.extractLsb'_toNat, BitVec.toNat_ofInt, Nat.shiftRight_eq_div_pow]
  omega

theorem fMulh_eq : fMulh = fun _ a b => BitVec.ofInt 64 (a.toInt * b.toInt / 18446744073709551616) := by
  funext _ a b
  have product : a.signExtend 128 * b.signExtend 128 = BitVec.ofInt 128 (a.toInt * b.toInt) := (BitVec.ofInt_mul _ _).symm
  rw [fMulh, product, extractLsb'_high_ofInt]

theorem fMulhu_eq : fMulhu = fun _ a b => BitVec.ofNat 64 (a.toNat * b.toNat / 18446744073709551616) := by
  funext _ a b
  have product : a.setWidth 128 * b.setWidth 128 = BitVec.ofInt 128 ((a.toNat * b.toNat : Nat) : Int) := by
    rw [BitVec.ofInt_natCast, BitVec.ofNat_mul, BitVec.ofNat_toNat, BitVec.ofNat_toNat]
  rw [fMulhu, product, extractLsb'_high_ofInt]
  exact BitVec.ofInt_natCast _ _

/-! ### Shifts -/

/-- A count modulo 32 is a matter of the low half. -/
theorem shCount_one (b : Word) : shCount 1#1 b = (b.setWidth 32).toNat % 32 := by
  change b.toNat % 32 = _
  rw [BitVec.toNat_setWidth]
  omega

theorem fShl_eq : fShl = byWidth (fun a b => a <<< (b.toNat % 32)) fun a b => a <<< (b.toNat % 64) :=
  eq_byWidth (fun _ _ _ => rfl)
    (fun a b => by rw [BitVec.setWidth_shiftLeft_of_le (by decide), setWidth_wz_one, shCount_one]) fun _ _ => rfl

theorem setWidth_zext32_shiftRight (a : Word) (n : Nat) : (zext32 a >>> n).setWidth 32 = a.setWidth 32 >>> n := by
  refine BitVec.eq_of_getLsbD_eq fun i hi => ?_
  simp only [zext32, BitVec.getLsbD_setWidth, BitVec.getLsbD_ushiftRight, hi, decide_true, Bool.true_and]
  by_cases h : n + i < 32
  · simp [h, show n + i < 64 by omega]
  · simp [h]

theorem fShr_eq : fShr = byWidth (fun a b => a >>> (b.toNat % 32)) fun a b => a >>> (b.toNat % 64) :=
  eq_byWidth (fun _ _ _ => rfl)
    (fun a b => by rw [← shCount_one]; exact setWidth_zext32_shiftRight a _) fun _ _ => rfl

/-- An arithmetic shift by less than 32 of a sign-extended half keeps the half's own shift in its low bits. -/
theorem setWidth_sext32_sshiftRight (a : Word) {n : Nat} (hn : n < 32) :
    ((sext32 a).sshiftRight n).setWidth 32 = (a.setWidth 32).sshiftRight n := by
  refine BitVec.eq_of_getLsbD_eq fun i hi => ?_
  have hni : n + i < 64 := by omega
  simp only [sext32, BitVec.getLsbD_setWidth, BitVec.getLsbD_sshiftRight, BitVec.getLsbD_signExtend, hi, hni, decide_true,
    Bool.true_and, if_true, show ¬ 64 ≤ i by omega, show ¬ 32 ≤ i by omega, decide_false, Bool.not_false]

theorem fSar_eq : fSar = byWidth (fun a b => a.sshiftRight (b.toNat % 32)) fun a b => a.sshiftRight (b.toNat % 64) :=
  eq_byWidth (fun _ _ _ => rfl)
    (fun a b => by rw [← shCount_one]; exact setWidth_sext32_sshiftRight a (Nat.mod_lt _ (by decide))) fun _ _ => rfl

/-! ### Minima and maxima -/

/-- Choosing by "less" and by "not greater" is the same: equal values are one. -/
theorem ite_slt_eq_ite_toInt_le {w : Nat} (a b : BitVec w) :
    (if a.slt b then a else b) = (if a.toInt ≤ b.toInt then a else b) ∧
      (if a.slt b then b else a) = if a.toInt ≤ b.toInt then b else a := by
  simp only [BitVec.slt_iff_toInt_lt]
  rcases lt_trichotomy a.toInt b.toInt with h | h | h
  · simp [h, h.le]
  · simp [BitVec.toInt_inj.1 h]
  · simp [h.not_gt, h.not_ge]

/-- A choice among W sources by their signed order is one among their low halves. -/
theorem setWidth_ite_slt_ws (a b x y : Word) :
    (if (ws 1#1 a).slt (ws 1#1 b) then ws 1#1 x else ws 1#1 y).setWidth 32 =
      if (a.setWidth 32).slt (b.setWidth 32) then x.setWidth 32 else y.setWidth 32 := by
  have hlt : (ws 1#1 a).slt (ws 1#1 b) = (a.setWidth 32).slt (b.setWidth 32) := by
    rw [BitVec.slt_eq_decide, BitVec.slt_eq_decide, ← toInt_sext32, ← toInt_sext32]
    rfl
  rw [apply_ite (BitVec.setWidth 32), hlt, setWidth_ws_one, setWidth_ws_one]

theorem fMin_eq :
    fMin = byWidth (fun a b => if a.toInt ≤ b.toInt then a else b) fun a b => if a.toInt ≤ b.toInt then a else b :=
  eq_byWidth (fun _ _ _ => rfl) (fun a b => (setWidth_ite_slt_ws a b a b).trans (ite_slt_eq_ite_toInt_le _ _).1)
    fun a b => (ite_slt_eq_ite_toInt_le a b).1

theorem fMax_eq :
    fMax = byWidth (fun a b => if a.toInt ≤ b.toInt then b else a) fun a b => if a.toInt ≤ b.toInt then b else a :=
  eq_byWidth (fun _ _ _ => rfl) (fun a b => (setWidth_ite_slt_ws a b b a).trans (ite_slt_eq_ite_toInt_le _ _).2)
    fun a b => (ite_slt_eq_ite_toInt_le a b).2

theorem ite_ult_eq_ite_toNat_le {w : Nat} (a b : BitVec w) :
    (if a.ult b then a else b) = (if a.toNat ≤ b.toNat then a else b) ∧
      (if a.ult b then b else a) = if a.toNat ≤ b.toNat then b else a := by
  simp only [BitVec.ult_iff_lt, BitVec.lt_def]
  rcases lt_trichotomy a.toNat b.toNat with h | h | h
  · simp [h, h.le]
  · simp [BitVec.toNat_inj.1 h]
  · simp [h.not_gt, h.not_ge]

/-- A choice among W sources by their unsigned order is one among their low halves. -/
theorem setWidth_ite_ult_wz (a b x y : Word) :
    (if (wz 1#1 a).ult (wz 1#1 b) then wz 1#1 x else wz 1#1 y).setWidth 32 =
      if (a.setWidth 32).ult (b.setWidth 32) then x.setWidth 32 else y.setWidth 32 := by
  have hlt : (wz 1#1 a).ult (wz 1#1 b) = (a.setWidth 32).ult (b.setWidth 32) := by
    rw [BitVec.ult_eq_decide, BitVec.ult_eq_decide, ← toNat_zext32, ← toNat_zext32]
    rfl
  rw [apply_ite (BitVec.setWidth 32), hlt, setWidth_wz_one, setWidth_wz_one]

theorem fMinu_eq :
    fMinu = byWidth (fun a b => if a.toNat ≤ b.toNat then a else b) fun a b => if a.toNat ≤ b.toNat then a else b :=
  eq_byWidth (fun _ _ _ => rfl) (fun a b => (setWidth_ite_ult_wz a b a b).trans (ite_ult_eq_ite_toNat_le _ _).1)
    fun a b => (ite_ult_eq_ite_toNat_le a b).1

theorem fMaxu_eq :
    fMaxu = byWidth (fun a b => if a.toNat ≤ b.toNat then b else a) fun a b => if a.toNat ≤ b.toNat then b else a :=
  eq_byWidth (fun _ _ _ => rfl) (fun a b => (setWidth_ite_ult_wz a b b a).trans (ite_ult_eq_ite_toNat_le _ _).2)
    fun a b => (ite_ult_eq_ite_toNat_le a b).2

/-! ### Bit fields -/

theorem getLsbD_lowBits (len k : Nat) : (lowBits len).getLsbD k = (decide (k < 64) && decide (k < len)) := by
  rw [lowBits, BitVec.getLsbD_ofNat, Nat.testBit_two_pow_sub_one]

/-- BFXU: the field's bits, then zeros. -/
theorem getLsbD_fBfxu {pos len : Nat} (a : Word) {k : Nat} (hk : k < 64) :
    (fBfxu pos len a).getLsbD k = (decide (k < len) && a.getLsbD (pos + k)) := by
  simp only [fBfxu, BitVec.getLsbD_and, BitVec.getLsbD_ushiftRight, getLsbD_lowBits, hk, decide_true, Bool.true_and,
    Bool.and_comm]

/-- BFX: the field's bits, then copies of its highest. -/
theorem getLsbD_fBfx {pos len : Nat} (hlen : 0 < len) (hfit : pos + len ≤ 64) (a : Word) {k : Nat} (hk : k < 64) :
    (fBfx pos len a).getLsbD k = a.getLsbD (pos + min k (len - 1)) := by
  have shifted (j : Nat) (hj : j < len) : ((a >>> pos) <<< (64 - len)).getLsbD (64 - len + j) = a.getLsbD (pos + j) := by
    rw [BitVec.getLsbD_shiftLeft, BitVec.getLsbD_ushiftRight]
    simp [show 64 - len + j < 64 by omega]
  rw [fBfx, BitVec.getLsbD_sshiftRight]
  by_cases h : k < len
  · rw [if_pos (by omega), shifted k h, Nat.min_eq_left (by omega)]
    simp [hk]
  · rw [if_neg (by omega), BitVec.msb_eq_getLsbD_last, Nat.min_eq_right (by omega), ← shifted (len - 1) (by omega)]
    simp [hk, show 64 - len + (len - 1) = 63 by omega]

/-- BFI: the field is the low bits of ga, every other bit that of gd. -/
theorem getLsbD_fBfi {pos len : Nat} (hfit : pos + len ≤ 64) (d a : Word) {k : Nat} (hk : k < 64) :
    (fBfi pos len d a).getLsbD k = if pos ≤ k ∧ k < pos + len then a.getLsbD (k - pos) else d.getLsbD k := by
  simp only [fBfi, BitVec.getLsbD_or, BitVec.getLsbD_and, BitVec.getLsbD_not, BitVec.getLsbD_shiftLeft, getLsbD_lowBits, hk,
    decide_true, Bool.true_and]
  by_cases h1 : k < pos
  · simp [h1, show ¬ pos ≤ k by omega]
  · by_cases h2 : k - pos < len
    · simp [h1, h2, show pos ≤ k ∧ k < pos + len by omega, show k - pos < 64 by omega]
    · simp [h1, h2, show ¬ k < pos + len by omega]

/-! ### The condition of CMP -/

theorem cmpCond_eq (cc : BitVec 2) (a b : Word) : cmpCond cc a b = cmpHolds cc a b := by
  have hcc : cc = 0#2 ∨ cc = 1#2 ∨ cc = 2#2 ∨ cc = 3#2 := by revert cc; decide
  rcases hcc with rfl | rfl | rfl | rfl
  · exact Bool.beq_eq_decide_eq a b
  · exact BitVec.slt_eq_decide
  · exact BitVec.ult_eq_decide
  · change ((a &&& b) != 0) = decide (a &&& b ≠ 0)
    rw [bne, Bool.beq_eq_decide_eq, decide_not]

end Sys2Proof.Claims

/-! ## The obligations -/

namespace Sys2Proof.Claims

open Sys2Proof.Machine

/-! ### The sixteen plain majors -/

/-- What the model computes for each of the sixteen majors, in the order of `triOps`. -/
def plainValues : List (BitVec 1 → Word → Word → Word) :=
  [fAdd, fSub, fMul, fMulh, fMulhu, fAnd, fOr, fXor, fAndn, fShl, fShr, fSar, fMin, fMax, fMinu, fMaxu]

theorem triOps_eq : triOps =
    List.zip [.addTri, .subTri, .mulTri, .mulhTri, .mulhuTri, .andTri, .orTri, .xorTri, .andnTri, .shlTri, .shrTri, .sarTri,
      .minTri, .maxTri, .minuTri, .maxuTri] plainValues := by
  rw [plainValues, fAdd_eq, fSub_eq, fMul_eq, fMulh_eq, fMulhu_eq, fAnd_eq, fOr_eq, fXor_eq, fAndn_eq, fShl_eq, fShr_eq,
    fSar_eq, fMin_eq, fMax_eq, fMinu_eq, fMaxu_eq]
  rfl

theorem triOps_values : triOps.map (·.2) = plainValues := by
  rw [triOps_eq]
  rfl

theorem exec_triOps : ∀ e ∈ triOps, ∀ (o : Tri) (s : State), exec (e.1 o) s = .next (s.scalarTri o (e.2 o.w)) := by
  rw [triOps_eq]
  simp only [plainValues, List.zip_cons_cons, List.zip_nil_right, List.forall_mem_cons]
  refine ⟨?_, ?_, ?_, ?_, ?_, ?_, ?_, ?_, ?_, ?_, ?_, ?_, ?_, ?_, ?_, ?_, List.forall_mem_nil _⟩ <;> intros <;> rfl

theorem exec_simOps : ∀ e ∈ simOps, ∀ (o : Sim) (s : State), exec (e.1 o) s = .next (s.scalarSim o (e.2 o.w)) := by
  rw [simOps, triOps_values]
  simp only [plainValues, List.zip_cons_cons, List.zip_nil_right, List.forall_mem_cons]
  refine ⟨?_, ?_, ?_, ?_, ?_, ?_, ?_, ?_, ?_, ?_, ?_, ?_, ?_, ?_, ?_, ?_, List.forall_mem_nil _⟩ <;> intros <;> rfl

theorem exec_limOps : ∀ e ∈ limOps, ∀ (o : Lim) (s : State), exec (e.1 o) s = .next (s.scalarLim o (e.2 o.w)) := by
  rw [limOps, triOps_values]
  simp only [plainValues, List.zip_cons_cons, List.zip_nil_right, List.forall_mem_cons]
  refine ⟨?_, ?_, ?_, ?_, ?_, ?_, ?_, ?_, ?_, ?_, ?_, ?_, ?_, ?_, ?_, ?_, List.forall_mem_nil _⟩ <;> intros <;> rfl

/-- Settles O1: each major is `State.scalar` of its value, and the model's values are those of the rules. -/
theorem scalarForms : Obligations.ScalarForms :=
  ⟨fun e he o s => scalarEnds_of_exec (exec_triOps e he o s),
    fun e he o s => scalarEnds_of_exec (exec_simOps e he o s),
    fun e he o s => scalarEnds_of_exec (exec_limOps e he o s)⟩

/-! ### BFX, BFXU and BFI -/

/-- Settles O4: position and length lie in the word, and each form is `State.scalar` of its field operation. -/
theorem bitFieldBits : Obligations.BitFieldBits := by
  refine ⟨fun o s => ?_, fun o s hfit => ?_⟩
  · have hpos : bfPos (s.pl.rg o.b) < 64 := BitVec.isLt _
    have hlen : 0 < bfLen (s.pl.rg o.b) := by unfold bfLen; omega
    have hfit : bfPos (s.pl.rg o.b) + bfLen (s.pl.rg o.b) ≤ 64 := by unfold bfLen; omega
    exact ⟨bitsEnd_of_exec rfl fun k hk => getLsbD_fBfx hlen hfit _ hk, bitsEnd_of_exec rfl fun k hk => getLsbD_fBfxu _ hk,
      bitsEnd_of_exec rfl fun k hk => getLsbD_fBfi hfit _ _ hk⟩
  · have hlen : 0 < o.len.toNat + 1 := Nat.succ_pos _
    have hfit : o.pos.toNat + (o.len.toNat + 1) ≤ 64 := hfit
    exact ⟨bitsEnd_of_exec rfl fun k hk => getLsbD_fBfx hlen hfit _ hk,
      bitsEnd_of_exec rfl fun k hk => getLsbD_fBfxu _ hk, bitsEnd_of_exec rfl fun k hk => getLsbD_fBfi hfit _ _ hk⟩

/-! ### CMP -/

theorem pairOk_eq (a b : BitVec 3) : WellFormed.pairOk a b = decide (¬ (a = b ∧ a ≠ 0)) := by
  revert a b; decide

/-- Settles O5: both forms are `State.compare` of the rule's condition, and a repeated destination is an illegal field. -/
theorem compareResult : Obligations.CompareResult := by
  refine ⟨fun o s => ?_, fun o s => ?_, fun o => pairOk_eq _ _, fun o => pairOk_eq _ _,
    fun s u t w0 w1 n i hturn hissue hguard hdecode hi => ?_⟩
  · rw [← cmpCond_eq]
    exact compareEnds_of_exec rfl
  · rw [← cmpCond_eq]
    exact compareEnds_of_exec rfl
  · refine step_not_wellFormed hturn hissue hguard hdecode ?_
    rcases hi with ⟨o, rfl, hd⟩ | ⟨o, rfl, hd⟩ <;> exact (pairOk_eq _ _).trans (decide_eq_false (not_not_intro hd))

end Sys2Proof.Claims

/-! ## Encoding

What the encoder lays out decodes to the instruction it stands for (spec/06_encoding.md R114 to R129). -/

namespace Sys2Proof.Laws.RoundTrip

/-- The words of every well-formed instruction decode to it; a device event has no words. -/
theorem decode_encode (i : Instr) : Statement i := by
  cases i with
  | addTri o => exact addTri o
  | addSim o => exact addSim o
  | addLim o => exact addLim o
  | subTri o => exact subTri o
  | subSim o => exact subSim o
  | subLim o => exact subLim o
  | mulTri o => exact mulTri o
  | mulSim o => exact mulSim o
  | mulLim o => exact mulLim o
  | mulhTri o => exact mulhTri o
  | mulhSim o => exact mulhSim o
  | mulhLim o => exact mulhLim o
  | mulhuTri o => exact mulhuTri o
  | mulhuSim o => exact mulhuSim o
  | mulhuLim o => exact mulhuLim o
  | divTri o => exact divTri o
  | divSim o => exact divSim o
  | divLim o => exact divLim o
  | divuTri o => exact divuTri o
  | divuSim o => exact divuSim o
  | divuLim o => exact divuLim o
  | remTri o => exact remTri o
  | remSim o => exact remSim o
  | remLim o => exact remLim o
  | remuTri o => exact remuTri o
  | remuSim o => exact remuSim o
  | remuLim o => exact remuLim o
  | andTri o => exact andTri o
  | andSim o => exact andSim o
  | andLim o => exact andLim o
  | orTri o => exact orTri o
  | orSim o => exact orSim o
  | orLim o => exact orLim o
  | xorTri o => exact xorTri o
  | xorSim o => exact xorSim o
  | xorLim o => exact xorLim o
  | andnTri o => exact andnTri o
  | andnSim o => exact andnSim o
  | andnLim o => exact andnLim o
  | shlTri o => exact shlTri o
  | shlSim o => exact shlSim o
  | shlLim o => exact shlLim o
  | shrTri o => exact shrTri o
  | shrSim o => exact shrSim o
  | shrLim o => exact shrLim o
  | sarTri o => exact sarTri o
  | sarSim o => exact sarSim o
  | sarLim o => exact sarLim o
  | minTri o => exact minTri o
  | minSim o => exact minSim o
  | minLim o => exact minLim o
  | maxTri o => exact maxTri o
  | maxSim o => exact maxSim o
  | maxLim o => exact maxLim o
  | minuTri o => exact minuTri o
  | minuSim o => exact minuSim o
  | minuLim o => exact minuLim o
  | maxuTri o => exact maxuTri o
  | maxuSim o => exact maxuSim o
  | maxuLim o => exact maxuLim o
  | clz o => exact clz o
  | popc o => exact popc o
  | mov o => exact mov o
  | ldiSim o => exact ldiSim o
  | ldiLim o => exact ldiLim o
  | ldih o => exact ldih o
  | bfxReg o => exact bfxReg o
  | bfxImm o => exact bfxImm o
  | bfxuReg o => exact bfxuReg o
  | bfxuImm o => exact bfxuImm o
  | bfiReg o => exact bfiReg o
  | bfiImm o => exact bfiImm o
  | sel o => exact sel o
  | cmpReg o => exact cmpReg o
  | cmpImm o => exact cmpImm o
  | pand o => exact pand o
  | por o => exact por o
  | pxor o => exact pxor o
  | pnot o => exact pnot o
  | mand o => exact mand o
  | mor o => exact mor o
  | mxor o => exact mxor o
  | mnot o => exact mnot o
  | br o => exact br o
  | jmp o => exact jmp o
  | callRel o => exact callRel o
  | callReg o => exact callReg o
  | ret o => exact ret o
  | loop o => exact loop o
  | loopm o => exact loopm o
  | ld o => exact ld o
  | ldOff o => exact ldOff o
  | st o => exact st o
  | stOff o => exact stOff o
  | ldsec o => exact ldsec o
  | stsec o => exact stsec o
  | amo o => exact amo o
  | cas o => exact cas o
  | bput o => exact bput o
  | fence o => exact fence o
  | flushp o => exact flushp o
  | shacq o => exact shacq o
  | shrel o => exact shrel o
  | waitReg o => exact waitReg o
  | waitImm o => exact waitImm o
  | twany o => exact twany o
  | twall o => exact twall o
  | tfirst o => exact tfirst o
  | tclr o => exact tclr o
  | vld o => exact vld o
  | vldOff o => exact vldOff o
  | vst o => exact vst o
  | vstOff o => exact vstOff o
  | vgath o => exact vgath o
  | vscat o => exact vscat o
  | vadd o => exact vadd o
  | vaddX o => exact vaddX o
  | vsub o => exact vsub o
  | vsubX o => exact vsubX o
  | vmul o => exact vmul o
  | vmulX o => exact vmulX o
  | vfma o => exact vfma o
  | vfms o => exact vfms o
  | vfnma o => exact vfnma o
  | vdiv o => exact vdiv o
  | vdivX o => exact vdivX o
  | vsqrt o => exact vsqrt o
  | vsqrtX o => exact vsqrtX o
  | vmin o => exact vmin o
  | vmax o => exact vmax o
  | vabs o => exact vabs o
  | vabsX o => exact vabsX o
  | vneg o => exact vneg o
  | vnegX o => exact vnegX o
  | vcmp o => exact vcmp o
  | vsel o => exact vsel o
  | vand o => exact vand o
  | vandX o => exact vandX o
  | vor o => exact vor o
  | vorX o => exact vorX o
  | vxor o => exact vxor o
  | vxorX o => exact vxorX o
  | vshl o => exact vshl o
  | vshlImm o => exact vshlImm o
  | vshr o => exact vshr o
  | vshrImm o => exact vshrImm o
  | vsar o => exact vsar o
  | vsarImm o => exact vsarImm o
  | vcvt o => exact vcvt o
  | vred o => exact vred o
  | vredX o => exact vredX o
  | vscan o => exact vscan o
  | vscanX o => exact vscanX o
  | vbcastScalar o => exact vbcastScalar o
  | vbcastElement o => exact vbcastElement o
  | vext o => exact vext o
  | vperm o => exact vperm o
  | vslide o => exact vslide o
  | vclass o => exact vclass o
  | vsplit o => exact vsplit o
  | vjoin o => exact vjoin o
  | vpack4 o => exact vpack4 o
  | vunpk4 o => exact vunpk4 o
  | mmt o => exact mmt o
  | mzero o => exact mzero o
  | mdrain o => exact mdrain o
  | mdadd o => exact mdadd o
  | mbrd o => exact mbrd o
  | mstat o => exact mstat o
  | cpy o => exact cpy o
  | cpys o => exact cpys o
  | cpyq o => exact cpyq o
  | book o => exact book o
  | bkq o => exact bkq o
  | bkcan o => exact bkcan o
  | bkrel o => exact bkrel o
  | spawn o => exact spawn o
  | signal o => exact signal o
  | susp o => exact susp o
  | exit o => exact exit o
  | fget o => exact fget o
  | fput o => exact fput o
  | launch o => exact launch o
  | frq o => exact frq o
  | frgate o => exact frgate o
  | svc o => exact svc o
  | trap o => exact trap o
  | brk o => exact brk o
  | rett o => exact rett o
  | csrr o => exact csrr o
  | csrw o => exact csrw o
  | lsinv o => exact lsinv o
  | nop o => exact nop o
  | xinv o => exact xinv o
  | _ => exact fun _ _ h => nomatch h

/-- The encoder lays out no two well-formed instructions alike. -/
theorem eq_of_encode_eq {i j : Instr} (hi : wellFormed i = true) (hj : wellFormed j = true) (h : encode i = encode j)
    (hsome : (encode i).isSome = true) : i = j := by
  obtain ⟨w, hw⟩ := Option.isSome_iff_exists.1 hsome
  have hdi := decode_encode i hi w hw
  have hdj := decode_encode j hj w (h ▸ hw)
  exact Except.ok.inj (hdi.symm.trans hdj)

end Sys2Proof.Laws.RoundTrip

namespace Sys2Proof.Claims

/-- Settles O57, instruction by instruction: each has its law in `Laws.RoundTrip`. -/
theorem roundTrip : Obligations.RoundTrip :=
  ⟨fun i hi w hw => Laws.RoundTrip.decode_encode i hi w hw, fun _ _ hi hj h hsome => Laws.RoundTrip.eq_of_encode_eq hi hj h hsome⟩

end Sys2Proof.Claims

/-! ## Division, counts, constants, predicates and masks

The values of spec/18_ref_d_l.md R346, spec/19_ref_m_r.md R380, R386, spec/17_ref_a_c.md R336, and the logic majors of
spec/19_ref_m_r.md R369, R370. -/

namespace Sys2Proof.Claims

open Sys2Proof.Machine

/-! ### Values of the division majors -/

theorem setWidth_ofInt (x : Int) : (BitVec.ofInt 64 x).setWidth 32 = BitVec.ofInt 32 x := by
  apply BitVec.eq_of_toNat_eq
  simp only [BitVec.toNat_setWidth, BitVec.toNat_ofInt]
  omega

theorem ws_zero (a : Word) : ws 0#1 a = a := if_neg (by decide)
theorem ws_one (a : Word) : ws 1#1 a = sext32 a := if_pos rfl
theorem wz_zero (a : Word) : wz 0#1 a = a := if_neg (by decide)
theorem wz_one (a : Word) : wz 1#1 a = zext32 a := if_pos rfl
theorem byWidth_zero (f : BitVec 32 → BitVec 32 → BitVec 32) (g : Word → Word → Word) (a b : Word) :
    byWidth f g 0#1 a b = g a b := if_neg (by decide)
theorem byWidth_one (f : BitVec 32 → BitVec 32 → BitVec 32) (g : Word → Word → Word) (a b : Word) :
    byWidth f g 1#1 a b = (f (a.setWidth 32) (b.setWidth 32)).signExtend 64 := if_pos rfl

/-- What a signed division computes of its extended sources, from what it computes of two integers. -/
theorem byWidth_signed (h : Int → Int → Int) (w : BitVec 1) (a b : Word) :
    ws w (BitVec.ofInt 64 (h (ws w a).toInt (ws w b).toInt)) =
      byWidth (fun a b => BitVec.ofInt 32 (h a.toInt b.toInt)) (fun a b => BitVec.ofInt 64 (h a.toInt b.toInt)) w a b := by
  have hw : w = 0#1 ∨ w = 1#1 := by revert w; decide
  rcases hw with rfl | rfl
  · rw [byWidth_zero, ws_zero, ws_zero, ws_zero]
  · rw [byWidth_one, ws_one, ws_one, ws_one, toInt_sext32, toInt_sext32, sext32, setWidth_ofInt]

/-- What an unsigned division computes of its extended sources, from what it computes of two numbers. -/
theorem byWidth_unsigned (h : Nat → Nat → Nat) (w : BitVec 1) (a b : Word) :
    ws w (BitVec.ofNat 64 (h (wz w a).toNat (wz w b).toNat)) =
      byWidth (fun a b => BitVec.ofNat 32 (h a.toNat b.toNat)) (fun a b => BitVec.ofNat 64 (h a.toNat b.toNat)) w a b := by
  have hw : w = 0#1 ∨ w = 1#1 := by revert w; decide
  rcases hw with rfl | rfl
  · rw [byWidth_zero, ws_zero, wz_zero, wz_zero]
  · rw [byWidth_one, ws_one, wz_one, wz_one, toNat_zext32, toNat_zext32, sext32, BitVec.setWidth_ofNat_of_le (by decide)]

theorem udiv_eq_ofNat (a b : Word) : a / b = BitVec.ofNat 64 (a.toNat / b.toNat) := by
  rw [← BitVec.toNat_udiv, BitVec.ofNat_toNat, BitVec.setWidth_eq]

theorem umod_eq_ofNat (a b : Word) : a % b = BitVec.ofNat 64 (a.toNat % b.toNat) := by
  rw [← BitVec.toNat_umod, BitVec.ofNat_toNat, BitVec.setWidth_eq]

theorem ws_eq_zero (w : BitVec 1) (b : Word) : ws w b = 0 ↔ zeroDivisor w b := by
  unfold ws zeroDivisor
  split
  · refine ⟨fun h => ?_, fun h => by rw [sext32, h]; rfl⟩
    rw [← setWidth_sext32, h]; rfl
  · rfl

theorem wz_eq_zero (w : BitVec 1) (b : Word) : wz w b = 0 ↔ zeroDivisor w b := by
  unfold wz zeroDivisor
  split
  · refine ⟨fun h => ?_, fun h => by rw [zext32, h]; rfl⟩
    rw [← setWidth_zext32, h]; rfl
  · rfl

/-! ### How a division ends -/

theorem divide_zero (s : State) (g : BitVec 4) (n : Nat) (d : BitVec 6) (a : Word) (f : Word → Word → Word) :
    s.divide g n d a 0 f = if s.pl.guard g then s.trap cDIVZERO a else s.advance n := by
  unfold State.divide
  rw [if_pos rfl]

theorem divide_ne_zero (s : State) (g : BitVec 4) (n : Nat) (d : BitVec 6) (a : Word) {b : Word} (f : Word → Word → Word)
    (hb : b ≠ 0) : s.divide g n d a b f = s.scalar g n d (f a b) := by
  unfold State.divide
  rw [if_neg hb, State.scalar_eq]

/-- A division whose divisor is zero raises DIVZERO with the dividend, unless its guard is false (R346). -/
def DivideTraps (i : Instr) (s : State) (g : BitVec 4) (n : Nat) (a : Word) : Prop :=
  ∃ t, exec i s = .next t ∧ if s.pl.guard g = true then Traps s t 11 a else Unchanged s t n

theorem divideTraps_of_exec {i : Instr} {s : State} {g : BitVec 4} {n : Nat} {d : BitVec 6} {a b : Word}
    {f : Word → Word → Word} (h : exec i s = .next (s.divide g n d a b f)) (hb : b = 0) : DivideTraps i s g n a := by
  subst hb
  rw [divide_zero] at h
  refine ⟨_, h, ?_⟩
  by_cases hg : s.pl.guard g = true
  · rw [if_pos hg, if_pos hg]
    rfl
  · rw [if_neg hg, if_neg hg]
    exact unchanged_advance s n

/-- How the model runs a division major: which extension its sources take under W, and what it computes of them. -/
structure Divides (e : (Tri → Instr) × (Sim → Instr) × (Lim → Instr) × (BitVec 1 → Word → Word → Word) × Bool)
    (ext : BitVec 1 → Word → Word) (f : BitVec 1 → Word → Word → Word) : Prop where
  tri : ∀ (o : Tri) (s : State),
    exec (e.1 o) s = .next (s.divide o.g 1 o.d (ext o.w (s.pl.rg o.a)) (ext o.w (s.pl.rg o.b)) (f o.w))
  sim : ∀ (o : Sim) (s : State),
    exec (e.2.1 o) s = .next (s.divide o.g 1 o.d (ext o.w (s.pl.rg o.d)) (ext o.w (o.imm.signExtend 64)) (f o.w))
  lim : ∀ (o : Lim) (s : State),
    exec (e.2.2.1 o) s = .next (s.divide o.g 2 o.d (ext o.w (s.pl.rg o.a)) (ext o.w (o.imm.signExtend 64)) (f o.w))
  value : ∀ w a b, f w (ext w a) (ext w b) = e.2.2.2.1 w a b
  zero : ∀ w b, ext w b = 0 ↔ zeroDivisor w b
  dividend : ∀ w a, ext w a = shown e.2.2.2.2 w a

theorem divOps_divides : ∀ e ∈ divOps, ∃ ext f, Divides e ext f := by
  simp only [divOps, List.forall_mem_cons]
  refine ⟨⟨ws, fDiv, ?_⟩, ⟨wz, fDivu, ?_⟩, ⟨ws, fRem, ?_⟩, ⟨wz, fRemu, ?_⟩, List.forall_mem_nil _⟩
  · exact ⟨fun _ _ => rfl, fun _ _ => rfl, fun _ _ => rfl, byWidth_signed Int.tdiv, ws_eq_zero, fun _ _ => rfl⟩
  · exact ⟨fun _ _ => rfl, fun _ _ => rfl, fun _ _ => rfl,
      fun w a b => by rw [fDivu, udiv_eq_ofNat]; exact byWidth_unsigned (· / ·) w a b, wz_eq_zero, fun _ _ => rfl⟩
  · exact ⟨fun _ _ => rfl, fun _ _ => rfl, fun _ _ => rfl, byWidth_signed Int.tmod, ws_eq_zero, fun _ _ => rfl⟩
  · exact ⟨fun _ _ => rfl, fun _ _ => rfl, fun _ _ => rfl,
      fun w a b => by rw [fRemu, umod_eq_ofNat]; exact byWidth_unsigned (· % ·) w a b, wz_eq_zero, fun _ _ => rfl⟩

/-- A division of extended sources whose divisor is not zero writes the rule's value. -/
theorem Divides.ends {e ext f} (he : Divides e ext f) {i : Instr} {s : State} {g : BitVec 4} {n : Nat} {d : BitVec 6}
    {w : BitVec 1} {a b : Word} (h : exec i s = .next (s.divide g n d (ext w a) (ext w b) (f w))) (hb : ¬ zeroDivisor w b) :
    ScalarEnds i s g n d (e.2.2.2.1 w a b) := by
  rw [divide_ne_zero _ _ _ _ _ _ (mt (he.zero w b).1 hb), he.value] at h
  exact scalarEnds_of_exec h

theorem Divides.traps {e ext f} (he : Divides e ext f) {i : Instr} {s : State} {g : BitVec 4} {n : Nat} {d : BitVec 6}
    {w : BitVec 1} {a b : Word} (h : exec i s = .next (s.divide g n d (ext w a) (ext w b) (f w))) (hb : zeroDivisor w b) :
    DivideTraps i s g n (shown e.2.2.2.2 w a) := by
  rw [← he.dividend]
  exact divideTraps_of_exec h ((he.zero w b).2 hb)

/-- Settles O2: every form of the four majors is `State.divide` of its extended sources. -/
theorem division : Obligations.Division := by
  refine ⟨fun e he => ?_, fun e he => ?_⟩ <;> obtain ⟨ext, f, hdiv⟩ := divOps_divides e he
  · exact ⟨fun o s => hdiv.ends (hdiv.tri o s), fun o s => hdiv.ends (hdiv.sim o s), fun o s => hdiv.ends (hdiv.lim o s)⟩
  · exact ⟨fun o s => hdiv.traps (hdiv.tri o s), fun o s => hdiv.traps (hdiv.sim o s), fun o s => hdiv.traps (hdiv.lim o s)⟩

/-! ### Counts and moves -/

theorem low_eq_wz (w : BitVec 1) (a : Word) : low w a = wz w a := rfl

/-- A small number is its own W form. -/
theorem ws_ofNat (w : BitVec 1) {n : Nat} (hn : n ≤ 64) : ws w (BitVec.ofNat 64 n) = BitVec.ofNat 64 n := by
  have hsmall : ∀ m < 65, sext32 (BitVec.ofNat 64 m) = BitVec.ofNat 64 m := by decide
  unfold ws
  split
  · exact hsmall n (by omega)
  · rfl

/-- The leading zeros among the low `n` bits of a number below 2^n (R336). -/
theorem clzGo_eq (x : Word) (n : Nat) (hx : x.toNat < 2 ^ n) : clzGo x n = if x = 0 then n else n - 1 - Nat.log2 x.toNat := by
  induction n with
  | zero => rw [if_pos (BitVec.eq_of_toNat_eq (by simpa using hx))]; rfl
  | succ n ih =>
    rw [clzGo]
    by_cases hbit : x.getLsbD n = true
    · have hle : 2 ^ n ≤ x.toNat := Nat.ge_two_pow_of_testBit hbit
      have hne : x.toNat ≠ 0 := by have := Nat.two_pow_pos n; omega
      have hlog : Nat.log2 x.toNat = n := (Nat.log2_eq_iff hne).2 ⟨hle, hx⟩
      have h0 : x ≠ 0 := fun h => hne (by rw [h]; rfl)
      rw [if_pos hbit, if_neg h0, hlog]
      omega
    · have hlt : x.toNat < 2 ^ n := by
        refine Nat.lt_pow_two_of_testBit _ fun i hi => ?_
        rcases Nat.eq_or_lt_of_le hi with rfl | hi
        · exact Bool.eq_false_iff.2 hbit
        · exact Nat.testBit_lt_two_pow (hx.trans_le (Nat.pow_le_pow_right (by decide) hi))
      rw [if_neg hbit, ih hlt]
      by_cases h0 : x = 0
      · rw [if_pos h0, if_pos h0, Nat.add_comm]
      · have hne : x.toNat ≠ 0 := fun h => h0 (BitVec.eq_of_toNat_eq h)
        have hlog : Nat.log2 x.toNat < n := (Nat.log2_lt hne).2 hlt
        rw [if_neg h0, if_neg h0]
        omega

theorem fClz_eq (w : BitVec 1) (a : Word) :
    fClz w a = BitVec.ofNat 64 (if low w a = 0 then 64 else 63 - Nat.log2 (low w a).toNat) := by
  rw [fClz, clzGo_eq _ 64 (BitVec.isLt _), ws_ofNat, low_eq_wz]
  split <;> omega

theorem popGo_eq (x : Word) (n : Nat) : popGo x n = ((List.range n).filter fun i => x.getLsbD i).length := by
  induction n with
  | zero => rfl
  | succ n ih =>
    rw [popGo, ih, List.range_succ, List.filter_append, List.length_append, Nat.add_comm]
    congr 1
    by_cases h : x.getLsbD n = true <;> simp [h]

theorem fPopc_eq (w : BitVec 1) (a : Word) : fPopc w a = BitVec.ofNat 64 (ones (low w a)) := by
  have hle : popGo (wz w a) 64 ≤ 64 := by
    rw [popGo_eq]
    exact (List.length_filter_le _ _).trans_eq List.length_range
  rw [fPopc, ws_ofNat w hle, popGo_eq]
  rfl

theorem fMov_eq (w : BitVec 1) (a : Word) : fMov w a = if w = 1 then (a.setWidth 32).signExtend 64 else a := by
  unfold fMov ws wz
  split
  · rw [sext32, setWidth_zext32]
  · rfl

/-- Settles O3: each of the seven is `State.scalar` of its value. -/
theorem countMoveAndConstant : Obligations.CountMoveAndConstant := by
  refine ⟨fun o s => ?_, fun o s => ?_, fun o s => ?_, fun o s => scalarEnds_of_exec rfl, fun o s => scalarEnds_of_exec rfl,
    fun o s => scalarEnds_of_exec rfl, fun o s => scalarEnds_of_exec rfl⟩
  · rw [← fClz_eq]
    exact scalarEnds_of_exec rfl
  · rw [← fPopc_eq]
    exact scalarEnds_of_exec rfl
  · rw [← fMov_eq]
    exact scalarEnds_of_exec rfl

/-! ### Predicates and masks -/

theorem regsOnly_wm (d : BitVec 3) (x : Plane → BitVec 16) : RegsOnly fun p => p.wm d (x p) := fun p => by
  unfold Plane.wm; split <;> exact ⟨_, rfl⟩

theorem predEnds_of_exec {i : Instr} {s : State} {g : BitVec 4} {d : BitVec 3} {b : Bool}
    (h : exec i s = .next (s.predOp g d b)) : PredEnds i s g d b := by
  refine ⟨_, h, ?_⟩
  rw [State.predOp]
  by_cases hg : s.pl.guard g = true
  · rw [if_pos hg, if_pos hg, modPl_advance_eq s (regsOnly_wp d b)]
    refine ⟨completed_pass s (regsOnly_wp d b) 1, ?_⟩
    simp [Plane.rp_wp]
  · rw [if_neg hg, if_neg hg]
    exact unchanged_advance s 1

theorem maskEnds_of_exec {i : Instr} {s : State} {g : BitVec 4} {d : BitVec 3} {x : BitVec 16}
    (h : exec i s = .next (s.maskOp g d x)) : MaskEnds i s g d x := by
  have hf := regsOnly_wm d fun p => (x &&& s.pl.vguard g) ||| (p.rm d &&& ~~~(s.pl.vguard g))
  refine ⟨_, h, ?_⟩
  rw [State.maskOp, modPl_advance_eq s hf]
  refine ⟨completed_pass s hf 1, ?_⟩
  simp [Plane.rm_wm]

theorem psrc_eq (p : Plane) (r : BitVec 3) (n : BitVec 1) : p.psrc r n = if n = 1 then !(p.rp r) else p.rp r := by
  have hn : n = 0#1 ∨ n = 1#1 := by revert n; decide
  rcases hn with rfl | rfl
  · exact Bool.bne_false _
  · exact Bool.bne_true _

/-- Settles O6: each predicate major is `State.predOp`, each mask major `State.maskOp`, of its sources. -/
theorem booleanLogic : Obligations.BooleanLogic := by
  refine ⟨⟨fun o s => ?_, fun o s => predEnds_of_exec rfl⟩, fun o s => ?_, fun o s => maskEnds_of_exec rfl⟩
  · dsimp only
    rw [← psrc_eq, ← psrc_eq]
    exact ⟨predEnds_of_exec rfl, predEnds_of_exec rfl, predEnds_of_exec rfl⟩
  · exact ⟨maskEnds_of_exec rfl, maskEnds_of_exec rfl, maskEnds_of_exec rfl⟩

end Sys2Proof.Claims

/-! ## Transfers, loops, calls of the supervisor, control and status registers

spec/06_encoding.md R113, spec/17_ref_a_c.md R332 to R334, R343, R344, spec/18_ref_d_l.md R357, R366, R367,
spec/19_ref_m_r.md R385, R387, spec/20_ref_s_t.md R404. -/

namespace Sys2Proof.Claims

open Sys2Proof.Machine

/-! ### Precise traps and guards -/

theorem trapAt_eq (s : State) (code : Nat) (epc tval resume : Word) :
    s.trapAt s.fc s.fp code epc tval resume = s.takeTrap s.fc s.fp (preciseInfo s code epc tval resume) := rfl

theorem traps_trap (s : State) (code : Nat) (tval : Word) : Traps s (s.trap code tval) code tval := rfl

theorem guard_eight (p : Plane) : p.guard 8 = false := by
  simp [Plane.guard, Plane.rp]

theorem guard_ne_eight {p : Plane} {g : BitVec 4} (h : p.guard g = true) : g ≠ 8 := by
  rintro rfl
  rw [guard_eight] at h
  exact Bool.false_ne_true h

/-! ### Rewrites of registers, sr, pc and loop -/

/-- A rewrite of a plane that changes no more than its registers and its sr. -/
def RegsSrOnly (f : Plane → Plane) : Prop := ∀ x, ∃ r q, f x = { x with regs := r, sr := q }

theorem RegsOnly.regsSrOnly {f : Plane → Plane} (hf : RegsOnly f) : RegsSrOnly f := fun x => by
  obtain ⟨r, hr⟩ := hf x
  exact ⟨r, x.sr, hr⟩

theorem modPl_advance_eq_of_regsSrOnly (s : State) {f : Plane → Plane} (hf : RegsSrOnly f) (n : Nat) :
    (s.modPl f).advance n = s.modPl fun _ => (f s.pl).pass (s.lineAt s.fc s.fp) n := by
  obtain ⟨r, q, hr⟩ := hf s.pl
  exact State.modPl_advance s f n (by rw [hr]) (by rw [hr])

theorem completed_advance_of_regsSrOnly (s : State) {f : Plane → Plane} (hf : RegsSrOnly f) (n : Nat) :
    Completed s ((s.modPl f).advance n) n := by
  obtain ⟨r, q, hr⟩ := hf s.pl
  have hpc := Plane.pass_pc_congr (f s.pl) s.pl (s.lineAt s.fc s.fp) n (by rw [hr]) (by rw [hr])
  rw [modPl_advance_eq_of_regsSrOnly s hf]
  refine ⟨onlyPlane_modPl s _, sameMemory_modPl s _, ?_, ?_, ?_, ?_⟩ <;> rw [State.pl_modPl]
  · rw [Plane.pass_eq, hr]
    exact ⟨rfl, rfl, rfl, rfl, rfl, rfl, rfl, rfl, rfl⟩
  · exact hpc.1
  · exact hpc.2
  · exact Plane.pass_hold _ _ _

theorem sameRest_goTo (x : Plane) (pc : Word) (l : Loop) (h : Option Hold) (r : Regs) (q : Sr) :
    SameRest x { x with pc := pc, hold := h, loop := l, regs := r, sr := q } :=
  ⟨rfl, rfl, rfl, rfl, rfl, rfl, rfl, rfl, rfl⟩

/-! ### Transfers -/

theorem badTarget_eq_false (a : Word) : badTarget a = false ↔ GoodTarget a := by
  simp [badTarget, GoodTarget, inHbmWindow, and_assoc]

/-- A transfer to a good target, from a plane whose registers `f` has rewritten before. -/
theorem goTo_of_good {s : State} {a : Word} (ha : GoodTarget a) :
    s.goTo a = s.modPl fun p => { p with pc := a + 4, hold := none, loop := loopLeft p.loop } := by
  rw [State.goTo, (badTarget_eq_false a).2 ha, if_neg Bool.false_ne_true]
  rfl

theorem goesTo_goTo {s : State} {a : Word} (ha : GoodTarget a) : GoesTo s (s.goTo a) a none := by
  rw [goTo_of_good ha]
  refine ⟨onlyPlane_modPl s _, sameMemory_modPl s _, ?_⟩
  rw [State.pl_modPl]
  exact ⟨sameRest_goTo _ _ _ _ _ _, rfl, rfl, rfl, rfl, fun _ => rfl, fun _ => rfl, fun _ => rfl, fun _ => rfl⟩

theorem linkAddr_eq {s : State} {l : Line} (h : s.lineAt s.fc s.fp = some l) : s.linkAddr = linkOf s l := by
  rw [State.linkAddr, h]
  simp only [linkOf, linkNext, lineOf, fld, BitVec.mul_comm]

theorem goesTo_callTo {s : State} {l : Line} {a : Word} (h : s.lineAt s.fc s.fp = some l) (ha : GoodTarget a) :
    GoesTo s (s.callTo a) a (some (linkOf s l)) := by
  rw [State.callTo, (badTarget_eq_false a).2 ha, if_neg Bool.false_ne_true, linkAddr_eq h]
  dsimp only
  obtain ⟨r, hr⟩ : ∃ r, s.pl.wg 62 (linkOf s l) = { s.pl with regs := r } := regsOnly_wg 62 (linkOf s l) s.pl
  have hrg (d : BitVec 6) : (s.pl.wg 62 (linkOf s l)).rg d = if d = 62 then linkOf s l else s.pl.rg d := by
    rw [Plane.rg_wg]
    by_cases hd : d = 0
    · subst hd; rfl
    · rw [if_neg hd]
  rw [goTo_of_good ha, State.modPl_modPl]
  refine ⟨onlyPlane_modPl s _, sameMemory_modPl s _, ?_⟩
  rw [State.pl_modPl]
  refine ⟨?_, rfl, ?_, rfl, ?_, hrg, Plane.wg_rp _ _ _, Plane.wg_rm _ _ _, Plane.wg_rv _ _ _⟩ <;> rw [hr]
  exact sameRest_goTo _ _ _ _ _ _

/-- FETCH at a bad target (R112, R332). -/
theorem fetchAt_eq (s : State) (a : Word) : s.fetchAt a =
    (s.bump.modPl fun p => { p with loop := loopLeft p.loop }).takeTrap s.fc s.fp (preciseInfo s 3 a (Config.freeWord s.freeCtr) a) := by
  rw [State.fetchAt, trapAt_eq, State.fp_modPl]
  rfl

theorem goTo_of_bad {s : State} {a : Word} (ha : ¬ GoodTarget a) : s.goTo a = s.fetchAt a := by
  rw [State.goTo, Bool.of_not_eq_false (mt (badTarget_eq_false a).1 ha), if_pos rfl]

theorem callTo_of_bad {s : State} {a : Word} (ha : ¬ GoodTarget a) : s.callTo a = s.fetchAt a := by
  rw [State.callTo, Bool.of_not_eq_false (mt (badTarget_eq_false a).1 ha), if_pos rfl]

theorem misplaced_eq {s : State} {l : Line} (h : s.lineAt s.fc s.fp = some l) :
    s.misplaced = (wordIdx s.pl.pc != linkCnt (l.word 0)) := by
  rw [State.misplaced, h]

theorem AtLineEnd.misplaced {s : State} {l : Line} (h : AtLineEnd s l) : s.misplaced = false := by
  rw [misplaced_eq h.1, h.2, bne_self_eq_false]

/-- A transfer at its line's end: what it does under a true guard. -/
theorem transfer_taken {s : State} {l : Line} (h : AtLineEnd s l) (i : Instr) {g : BitVec 4} (act : State → State)
    (hg : s.pl.guard g = true) : s.transfer i g act = act s := by
  rw [State.transfer, if_neg (guard_ne_eight hg), h.misplaced, if_neg Bool.false_ne_true, if_pos hg]

theorem exec_taken {s : State} {l : Line} (h : AtLineEnd s l) {i : Instr} {g : BitVec 4} {act : State → State}
    (hi : exec i s = .next (s.transfer i g act)) (hg : s.pl.guard g = true) : exec i s = .next (act s) := by
  rw [hi, transfer_taken h i act hg]

theorem transfer_falls {s : State} {l : Line} (h : AtLineEnd s l) (i : Instr) {g : BitVec 4} (act : State → State)
    (hg : s.pl.guard g = false) : s.transfer i g act = s.advance 1 := by
  rw [State.transfer, h.misplaced, if_neg Bool.false_ne_true, hg, if_neg Bool.false_ne_true, ite_self]

theorem transfer_misplaced {s : State} (h : s.misplaced = true) (i : Instr) {g : BitVec 4} (act : State → State)
    (hg : g ≠ 8) : s.transfer i g act = s.trap cILLEGAL (word0Of i) := by
  rw [State.transfer, if_neg hg, if_pos h]

/-- Settles O7: at a line's end a transfer under a true guard is `State.goTo`, or `State.callTo` with its link. -/
theorem transfersTaken : Obligations.TransfersTaken := by
  intro s l hl
  exact ⟨fun o hg ha => ⟨_, exec_taken hl rfl hg, goesTo_goTo ha⟩, fun o hg ha => ⟨_, exec_taken hl rfl hg, goesTo_goTo ha⟩,
    fun o hg ha => ⟨_, exec_taken hl rfl hg, goesTo_goTo ha⟩, fun o hg ha => ⟨_, exec_taken hl rfl hg, goesTo_callTo hl.1 ha⟩,
    fun o hg ha => ⟨_, exec_taken hl rfl hg, goesTo_callTo hl.1 ha⟩⟩

/-! ### Loops -/

theorem startLoop_falls {s : State} {l : Line} (h : AtLineEnd s l) (hact : s.pl.loop.act = false) (i : Instr) {g : BitVec 4}
    (a : BitVec 6) (mod : Bool) (ns : BitVec 2) (hg : s.pl.guard g = false) : s.startLoop i g a mod ns = s.advance 1 := by
  rw [State.startLoop, h.misplaced, hact, hg, Bool.or_self, if_neg Bool.false_ne_true, if_neg Bool.false_ne_true, ite_self]

/-- Out of place, or inside a running loop, LOOP and LOOPM raise ILLEGAL (R106, R366). -/
theorem startLoop_illegal {s : State} (h : s.misplaced = true ∨ s.pl.loop.act = true) (i : Instr) {g : BitVec 4}
    (a : BitVec 6) (mod : Bool) (ns : BitVec 2) (hg : g ≠ 8) : s.startLoop i g a mod ns = s.trap cILLEGAL (word0Of i) := by
  rw [State.startLoop, if_neg hg, if_pos (Bool.or_eq_true _ _ ▸ h)]

/-- A loop that starts at a line which another follows (R107, R367). -/
theorem startsLoop_of_guard {s : State} {l : Line} (h : AtLineEnd s l) (hact : s.pl.loop.act = false)
    (hend : linkEnd (l.word 0) = false) (i : Instr) {g : BitVec 4} (a : BitVec 6) (mod : Bool) (ns : BitVec 2)
    (hg : s.pl.guard g = true) :
    StartsLoop s (s.startLoop i g a mod ns)
      { act := decide ((s.pl.rg a).setWidth 32 ≠ 0#32), mod := mod, ns := ns, j := 0, n := (s.pl.rg a).setWidth 32,
        first := (s.nextPc 1) &&& ~~~63#64, exit := 0 } := by
  have hact' : ((s.pl.rg a).setWidth 32 != 0#32 && !false) = decide ((s.pl.rg a).setWidth 32 ≠ 0#32) := by
    rw [Bool.not_false, Bool.and_true, bne, Bool.beq_eq_decide_eq, decide_not]
  rw [State.startLoop, if_neg (guard_ne_eight hg), h.misplaced, hact, Bool.or_self, if_neg Bool.false_ne_true, if_pos hg, h.1]
  simp only [hend]
  rw [State.advance_eq, State.modPl_modPl]
  refine ⟨onlyPlane_modPl s _, sameMemory_modPl s _, ?_⟩
  rw [State.pl_modPl]
  refine ⟨?_, rfl, ?_, Plane.pass_hold _ _ _, Plane.pass_sr _ _ _, Plane.pass_regs _ _ _⟩
  · rw [Plane.pass_eq]
    exact sameRest_goTo _ _ _ _ _ _
  · exact congrArg (Loop.mk · _ _ _ _ _ _) hact'

/-- A loop instruction at the end of a line that another follows, with no loop running. -/
theorem loopEnds {s : State} {l : Line} (h : AtLineEnd s l) (hact : s.pl.loop.act = false)
    (hend : linkEnd (l.word 0) = false) {i : Instr} {g : BitVec 4} {a : BitVec 6} {mod : Bool} {ns : BitVec 2}
    (hi : exec i s = .next (s.startLoop i g a mod ns)) :
    ∃ t, exec i s = .next t ∧ if s.pl.guard g = true then StartsLoop s t
        { act := decide ((s.pl.rg a).setWidth 32 ≠ 0#32), mod := mod, ns := ns, j := 0, n := (s.pl.rg a).setWidth 32,
          first := (s.nextPc 1) &&& ~~~63#64, exit := 0 } else Unchanged s t 1 := by
  refine ⟨_, hi, ?_⟩
  by_cases hg : s.pl.guard g = true
  · rw [if_pos hg]
    exact startsLoop_of_guard h hact hend i a mod ns hg
  · rw [if_neg hg, startLoop_falls h hact i a mod ns (Bool.eq_false_iff.2 hg)]
    exact unchanged_advance s 1

/-- The trap value of ILLEGAL and PRIV is the instruction's first word. -/
theorem raises_word0 {s : State} {i : Instr} {code : Nat} (h : exec i s = .next (s.trap code (word0Of i)))
    {w : IWord × Option IWord} (hw : encode i = some w) :
    ∃ t w, exec i s = .next t ∧ encode i = some w ∧ Traps s t code (w.1.setWidth 64) := by
  refine ⟨_, w, h, hw, ?_⟩
  rw [word0Of, hw]
  exact traps_trap s code _

/-- Settles O9: `startsLoop_of_guard` where the loop starts, `startLoop_illegal` inside a running one. -/
theorem loopStart : Obligations.LoopStart := by
  refine fun s l hl => ⟨fun hact hend => ⟨fun o => loopEnds hl hact hend rfl, fun o => loopEnds hl hact hend rfl⟩,
    fun hact => ⟨fun o hg => ?_, fun o hg => ?_⟩⟩
  · exact raises_word0 (congrArg _ (startLoop_illegal (.inr hact) (.loop o) _ _ _ hg)) rfl
  · exact raises_word0 (congrArg _ (startLoop_illegal (.inr hact) (.loopm o) _ _ _ hg)) rfl

/-- Settles O8: under a false guard all seven advance, a bad target is `State.fetchAt`, away from the line's end all seven are
ILLEGAL. -/
theorem transfersNotMade : Obligations.TransfersNotMade := by
  refine ⟨fun s l hl hact => ?_, fun s l hl => ?_, fun s l hl hw => ?_⟩
  · have falls (i : Instr) (h : exec i s = .next (s.advance 1)) : ∃ t, exec i s = .next t ∧ Unchanged s t 1 :=
      ⟨_, h, unchanged_advance s 1⟩
    exact ⟨fun o hg => falls _ (congrArg _ (transfer_falls hl (.br o) _ hg)),
      fun o hg => falls _ (congrArg _ (transfer_falls hl (.jmp o) _ hg)),
      fun o hg => falls _ (congrArg _ (transfer_falls hl (.ret o) _ hg)),
      fun o hg => falls _ (congrArg _ (transfer_falls hl (.callRel o) _ hg)),
      fun o hg => falls _ (congrArg _ (transfer_falls hl (.callReg o) _ hg)),
      fun o hg => falls _ (congrArg _ (startLoop_falls hl hact (.loop o) _ _ _ hg)),
      fun o hg => falls _ (congrArg _ (startLoop_falls hl hact (.loopm o) _ _ _ hg))⟩
  · have bad {i : Instr} {a : Word} {x : State} (hi : exec i s = .next x) (hx : x = s.fetchAt a) : ∃ t v, exec i s = .next t ∧
        t = (s.bump.modPl fun p => { p with loop := loopLeft p.loop }).takeTrap s.fc s.fp (preciseInfo s 3 a v a) :=
      ⟨x, _, hi, hx.trans (fetchAt_eq s a)⟩
    exact ⟨fun o hg ha => bad (exec_taken hl rfl hg) (goTo_of_bad ha), fun o hg ha => bad (exec_taken hl rfl hg) (goTo_of_bad ha),
      fun o hg ha => bad (exec_taken hl rfl hg) (goTo_of_bad ha), fun o hg ha => bad (exec_taken hl rfl hg) (callTo_of_bad ha),
      fun o hg ha => bad (exec_taken hl rfl hg) (callTo_of_bad ha)⟩
  · have hm : s.misplaced = true := (misplaced_eq hl).trans (bne_iff_ne.2 hw)
    exact ⟨fun o hg => raises_word0 (congrArg _ (transfer_misplaced hm (.br o) _ hg)) rfl,
      fun o hg => raises_word0 (congrArg _ (transfer_misplaced hm (.jmp o) _ hg)) rfl,
      fun o hg => raises_word0 (congrArg _ (transfer_misplaced hm (.ret o) _ hg)) rfl,
      fun o hg => raises_word0 (congrArg _ (transfer_misplaced hm (.callRel o) _ hg)) rfl,
      fun o hg => raises_word0 (congrArg _ (transfer_misplaced hm (.callReg o) _ hg)) rfl,
      fun o hg => raises_word0 (congrArg _ (startLoop_illegal (.inl hm) (.loop o) _ _ _ hg)) rfl,
      fun o hg => raises_word0 (congrArg _ (startLoop_illegal (.inl hm) (.loopm o) _ _ _ hg)) rfl⟩

/-! ### NOP, SVC, TRAP and BRK -/

/-- An instruction that traps with the next instruction as RESUME where its guard is true (R404). -/
theorem calls_of_exec {i : Instr} {s : State} {o : Code} {code : Nat}
    (h : exec i s = .next (if s.pl.guard o.g then s.trapNext code (o.code.setWidth 64) else s.advance 1)) :
    ∃ t, exec i s = .next t ∧ if s.pl.guard o.g = true
      then t = s.takeTrap s.fc s.fp (preciseInfo s code s.pl.pc (o.code.setWidth 64) (s.nextPc 1)) else Unchanged s t 1 := by
  refine ⟨_, h, ?_⟩
  by_cases hg : s.pl.guard o.g = true
  · rw [if_pos hg, if_pos hg]
    rfl
  · rw [if_neg hg, if_neg hg]
    exact unchanged_advance s 1

theorem brkHalts_eq_false {s : State} (h : ∀ d, s.vd s.curVd = some d → d.d.brkHalt = false) : s.brkHalts = false := by
  unfold State.brkHalts
  split
  · exact h _ ‹_›
  · rfl

/-- Raising the halt line of a VD that is not halted, for DEBUG: it is not fatal, and no unit has stopped yet (R282, R290). -/
theorem raiseHalt_debug {s : State} {v : Nat} {d : Vd} (tval : Word) (hd : s.vd v = some d) (hh : d.halt = none) :
    ∃ d' h, (s.raiseHalt v 6 tval).vd v = some d' ∧ d'.halt = some h ∧ h.reason = 6 ∧ h.fatal = false ∧ h.stopped = [] := by
  refine ⟨{ d with halt := some { reason := 6, fatal := false, stopped := [], tval := tval } }, _, ?_, rfl, rfl, rfl, rfl⟩
  unfold State.raiseHalt
  rw [hd]
  dsimp only
  rw [hh]
  dsimp only
  split
  · exact (State.vd_modVd_same s v _).trans (by rw [hd]; rfl)
  · exact (State.vd_modVd_same s v _).trans (by rw [hd]; rfl)

/-- Settles O10: each is `State.trapNext` of its cause, or the halt line. -/
theorem callsAndBreaks : Obligations.CallsAndBreaks := by
  refine ⟨fun s => ⟨fun o => ⟨_, rfl, unchanged_advance s 1⟩, fun o => calls_of_exec rfl, fun o => calls_of_exec rfl,
    fun hd o => calls_of_exec ?_⟩, fun s o d hd hb hh hg => ?_⟩
  · change Host.Outcome.next _ = _
    rw [brkHalts_eq_false hd]
    rfl
  · have hb' : s.brkHalts = true := by rw [State.brkHalts, hd]; exact hb
    refine ⟨_, ?_, rfl, raiseHalt_debug _ (s := s.advance 1) hd hh⟩
    change Host.Outcome.next _ = _
    rw [if_pos hg, if_pos hb']

/-! ### CSRR and CSRW -/

theorem csrRead_counter (s : State) {n : Nat} (h1 : 0x100 ≤ n) (h2 : n < 0x200) :
    s.csrRead n = s.counter s.curVd ((n - 0x100) / 32) ((n - 0x100) % 32) := by
  unfold State.csrRead
  split
  case h_20 => rw [if_pos (by simp [h1, h2])]
  all_goals omega

theorem counter_eq {s : State} {v b i : Nat} {d : Vd} (hd : s.vd v = some d) (h2 : ¬ (b = 2 ∧ i = 0)) (h0 : ¬ (b = 0 ∧ i = 20)) :
    s.counter v b i = (tget d.cnt (32 * b + i)).getD 0 := by
  rw [State.counter, hd]
  simp [h2, h0, tgetD]

theorem csrPriv_eq (s : State) (num : BitVec 12) :
    s.csrPriv num = true ↔ 0x010 ≤ num.toNat ∧ num.toNat ≤ 0x012 ∧ s.pl.sr.smode = false := by
  simp [State.csrPriv, csrS, and_assoc]

theorem csrrEnds {o : Csr} {s : State} {x : Word} (hp : s.csrPriv o.num = false) (hx : s.csrRead o.num.toNat = x) :
    ScalarEnds (.csrr o) s o.g 1 o.d x := by
  refine scalarEnds_of_exec ?_
  change Host.Outcome.next _ = _
  by_cases hg : o.g = 8
  · rw [if_pos hg, State.scalar_eq, hg, guard_eight]
    rfl
  · rw [if_neg hg, hp, hx]
    rfl

theorem csrr_priv {o : Csr} {s : State} (hp : s.csrPriv o.num = true) (hg : o.g ≠ 8) :
    ∃ t w, exec (.csrr o) s = .next t ∧ encode (.csrr o) = some w ∧ Traps s t 2 (w.1.setWidth 64) :=
  raises_word0 (code := cPRIV) (by change Host.Outcome.next _ = _; rw [if_neg hg, if_pos hp]) rfl

theorem csrw_priv {o : Csr} {s : State} (hp : s.csrPriv o.num = true) (hg : o.g ≠ 8) :
    ∃ t w, exec (.csrw o) s = .next t ∧ encode (.csrw o) = some w ∧ Traps s t 2 (w.1.setWidth 64) :=
  raises_word0 (code := cPRIV) (by change Host.Outcome.next _ = _; rw [if_neg hg, if_pos hp]) rfl

/-- Each register of R93 reads what the table says. -/
theorem csrRead_table (s : State) : ∀ e ∈ csrTable s, s.csrRead e.1.toNat = e.2 := by
  simp only [csrTable, List.forall_mem_cons]
  refine ⟨rfl, rfl, rfl, rfl, rfl, rfl, rfl, rfl, rfl, rfl, rfl, rfl, rfl, rfl, rfl, rfl, rfl, rfl, List.forall_mem_nil _⟩

theorem fpenWrite_eq (old x : Word) : fpenWrite old x = (x &&& 0x303F#64) |||
    (if x.extractLsb' 8 3 = 0#3 ∨ x.extractLsb' 8 3 = 6#3 ∨ x.extractLsb' 8 3 = 7#3 then old &&& 0x700#64 else x &&& 0x700#64) := by
  have keeps : ∀ r : BitVec 3, (r = 0 || decide (6 ≤ r.toNat)) = decide (r = 0#3 ∨ r = 6#3 ∨ r = 7#3) := by decide
  simp only [fpenWrite, keeps, decide_eq_true_eq]

theorem csrWrite_eq (p : Plane) (num : BitVec 12) (x : Word) : p.csrWrite num.toNat x = { p with sr := srAfter p.sr num x } := by
  have named {k : Nat} (hk : k < 4096) (h : num.toNat = k) : num = BitVec.ofNat 12 k := by
    apply BitVec.eq_of_toNat_eq
    rw [h, BitVec.toNat_ofNat, Nat.mod_eq_of_lt hk]
  unfold Plane.csrWrite
  split
  case h_3 h => rw [named (by decide) h, fpenWrite_eq]; rfl
  case h_8 h1 h2 h3 h4 h5 h6 h7 =>
    have unnamed (m : BitVec 12) (h : num.toNat = m.toNat → False) : num ≠ m := fun e => h (congrArg _ e)
    rw [srAfter, if_neg (unnamed 0x008 h1), if_neg (unnamed 0x00A h2), if_neg (unnamed 0x00B h3), if_neg (unnamed 0x00C h4),
      if_neg (unnamed 0x010 h5), if_neg (unnamed 0x011 h6), if_neg (unnamed 0x012 h7)]
  all_goals
    rename_i h
    rw [named (by decide) h]
    rfl

theorem regsSrOnly_csrWrite (num : BitVec 12) (x : Word) : RegsSrOnly fun p => p.csrWrite num.toNat x :=
  fun p => ⟨p.regs, srAfter p.sr num x, csrWrite_eq p num x⟩

/-- A CSRW that its mode allows. -/
theorem csrwEnds {o : Csr} {s : State} (hp : s.csrPriv o.num = false) :
    ∃ t, exec (.csrw o) s = .next t ∧ Completed s t 1 ∧ t.pl.regs = s.pl.regs ∧
      t.pl.sr = if s.pl.guard o.g = true then srAfter s.pl.sr o.num (s.pl.rg o.d) else s.pl.sr := by
  by_cases hg : s.pl.guard o.g = true
  · have hf := regsSrOnly_csrWrite o.num (s.pl.rg o.d)
    refine ⟨(s.modPl fun p => p.csrWrite o.num.toNat (s.pl.rg o.d)).advance 1, ?_, completed_advance_of_regsSrOnly s hf 1, ?_, ?_⟩
    · change Host.Outcome.next _ = _
      rw [if_neg (guard_ne_eight hg), hp, if_neg Bool.false_ne_true, if_pos hg]
    all_goals rw [modPl_advance_eq_of_regsSrOnly s hf, State.pl_modPl, csrWrite_eq]
    · exact Plane.pass_regs _ _ _
    · rw [if_pos hg]
      exact Plane.pass_sr _ _ _
  · obtain ⟨hdone, hsr, hregs⟩ := unchanged_advance s 1
    refine ⟨s.advance 1, ?_, hdone, hregs, ?_⟩
    · change Host.Outcome.next _ = _
      rw [hp, if_neg Bool.false_ne_true, if_neg hg, ite_self]
    · rw [if_neg hg, hsr]

/-- Settles O11: reads are `csrRead_table` and the counters, writes are `csrWrite_eq`, and the registers marked S are PRIV in T mode. -/
theorem csrAccess : Obligations.CsrAccess := by
  have allowed {s : State} {num : BitVec 12} (h : 0x010 ≤ num.toNat ∧ num.toNat ≤ 0x012 → s.pl.sr.smode = true) :
      s.csrPriv num = false := by
    refine Bool.eq_false_iff.2 fun hp => ?_
    obtain ⟨h1, h2, h3⟩ := (csrPriv_eq s num).1 hp
    rw [h ⟨h1, h2⟩] at h3
    exact Bool.noConfusion h3
  refine ⟨fun o s => ⟨fun h => ⟨fun e he hnum => ?_, fun b i d hd hb hi hnum h2 h0 => ?_⟩, fun h1 h2 hs hg => ?_⟩,
    fun o s => ⟨fun h => csrwEnds (allowed h), fun h1 h2 hs hg => ?_⟩⟩
  · exact csrrEnds (allowed h) (hnum ▸ csrRead_table s e he)
  · refine csrrEnds (allowed h) ?_
    rw [hnum, csrRead_counter s (by omega) (by omega), ← counter_eq hd h2 h0, show (0x100 + 32 * b + i - 0x100) / 32 = b by omega,
      show (0x100 + 32 * b + i - 0x100) % 32 = i by omega]
  · exact csrr_priv ((csrPriv_eq s o.num).2 ⟨h1, h2, hs⟩) hg
  · exact csrw_priv ((csrPriv_eq s o.num).2 ⟨h1, h2, hs⟩) hg

end Sys2Proof.Claims

/-! ## Columns, reset, decoded words, steps

spec/03_frontier.md R42, R47; spec/05_core.md R90, R91, R93; spec/06_encoding.md R110 to R116;
spec/15_virtual_devices.md R307. -/

namespace Sys2Proof.Claims

open Sys2Proof.Machine

/-! ### The column update of EXIT -/

/-- `runUp` stops at most at 33, behind set bits of W, and before a bit that is not set. -/
theorem runUp_spec (w : BitVec 32) (n fuel : Nat) (h1 : 1 ≤ n) (hn : n + fuel = 34) (hset : ∀ b, b + 1 < n → w.getLsbD b = true) :
    n ≤ runUp w n fuel ∧ (∀ b, b + 1 < runUp w n fuel → w.getLsbD b = true) ∧ w.getLsbD (runUp w n fuel - 1) = false := by
  induction fuel generalizing n with
  | zero => exact ⟨le_rfl, hset, BitVec.getLsbD_of_ge _ _ (by rw [runUp]; omega)⟩
  | succ fuel ih =>
    rw [runUp]
    by_cases h : n ≤ 32 ∧ w.getLsbD (n - 1) = true
    · rw [if_pos (by simpa using h)]
      obtain ⟨hle, hbits, hstop⟩ := ih (n + 1) (by omega) (by omega) fun b hb => by
        by_cases hbn : b = n - 1
        · rw [hbn]; exact h.2
        · exact hset b (by omega)
      exact ⟨by omega, hbits, hstop⟩
    · rw [if_neg (by simpa using h)]
      refine ⟨le_rfl, hset, Bool.eq_false_iff.2 fun hbit => h ⟨?_, hbit⟩⟩
      have := BitVec.lt_of_getLsbD hbit
      omega

/-- Where the point at H exits, H moves past it and the done points behind it. -/
theorem exit_at_h (c : Col) : ∃ n, 1 ≤ n ∧ (∀ b, b + 1 < n → c.w.getLsbD b = true) ∧ c.w.getLsbD (n - 1) = false ∧
    c.exit c.h = { h := c.h + n, w := c.w >>> n, i := (c.i &&& ~~~(1#33 <<< 0)) >>> n } := by
  obtain ⟨h1, hset, hstop⟩ := runUp_spec c.w 1 33 le_rfl rfl fun b hb => absurd hb (by omega)
  refine ⟨_, h1, hset, hstop, ?_⟩
  simp only [Col.exit, Nat.sub_self, if_true]

/-- Elsewhere its bit of W is set, and its bit of I cleared. -/
theorem exit_above_h (c : Col) {q : Nat} (hq : c.h < q) :
    c.exit q = { c with w := c.w ||| (1#32 <<< (q - c.h - 1)), i := c.i &&& ~~~(1#33 <<< (q - c.h)) } := by
  rw [Col.exit, if_neg (by omega)]

theorem isDone_iff (c : Col) (p : Nat) :
    c.isDone p = true ↔ p < c.h ∨ c.h < p ∧ c.w.getLsbD (p - c.h - 1) = true := by
  simp only [Col.isDone, Bool.or_eq_true, Bool.and_eq_true, decide_eq_true_eq]
  refine or_congr_right ⟨fun ⟨h, hb⟩ => ⟨h.1, hb⟩, fun ⟨h, hb⟩ => ⟨⟨h, ?_⟩, hb⟩⟩
  have := BitVec.lt_of_getLsbD hb
  omega

theorem inFlight_iff (c : Col) (p : Nat) : c.inFlight p = true ↔ c.h ≤ p ∧ c.i.getLsbD (p - c.h) = true := by
  simp only [Col.inFlight, Bool.and_eq_true, decide_eq_true_eq]
  refine ⟨fun ⟨h, hb⟩ => ⟨h.1, hb⟩, fun ⟨h, hb⟩ => ⟨⟨h, ?_⟩, hb⟩⟩
  have := BitVec.lt_of_getLsbD hb
  omega

theorem getLsbD_one_shiftLeft {w : Nat} (j : Nat) {k : Nat} (hk : k < w) : (1#w <<< j).getLsbD k = decide (k = j) := by
  rw [BitVec.getLsbD_shiftLeft, BitVec.getLsbD_one, Bool.eq_iff_iff]
  simp only [Bool.and_eq_true, Bool.not_eq_true', decide_eq_true_eq, decide_eq_false_iff_not]
  omega

/-- A bit of a word with one bit cleared. -/
theorem getLsbD_clear {w : Nat} (x : BitVec w) (j k : Nat) :
    (x &&& ~~~(1#w <<< j)).getLsbD k = true ↔ x.getLsbD k = true ∧ k ≠ j := by
  by_cases hk : k < w
  · rw [BitVec.getLsbD_and, BitVec.getLsbD_not, getLsbD_one_shiftLeft j hk]
    simp [hk]
  · simp [BitVec.getLsbD_of_ge _ _ (Nat.le_of_not_lt hk)]

theorem getLsbD_set {w : Nat} (x : BitVec w) {j : Nat} (hj : j < w) (k : Nat) :
    (x ||| (1#w <<< j)).getLsbD k = true ↔ x.getLsbD k = true ∨ k = j := by
  by_cases hk : k < w
  · rw [BitVec.getLsbD_or, getLsbD_one_shiftLeft j hk, Bool.or_eq_true, decide_eq_true_eq]
  · simp only [BitVec.getLsbD_of_ge _ _ (Nat.le_of_not_lt hk), Bool.false_eq_true, false_or, false_iff]
    omega

/-- Exactly the point that exits becomes done. -/
theorem exit_isDone (c : Col) {q : Nat} (hq : c.h ≤ q) (hq' : q ≤ c.h + 32) (p : Nat) :
    (c.exit q).isDone p = true ↔ c.isDone p = true ∨ p = q := by
  rcases Nat.eq_or_lt_of_le hq with rfl | hlt
  · obtain ⟨n, hn, hset, hstop, he⟩ := exit_at_h c
    rw [he, isDone_iff, isDone_iff]
    simp only [BitVec.getLsbD_ushiftRight]
    rcases Nat.lt_trichotomy p (c.h + n) with h | rfl | h
    · have := hset (p - c.h - 1)
      by_cases hp : c.h < p
      · simp [h, hp, this (by omega)]
      · simp only [h, true_or, true_iff]; omega
    · rw [show c.h + n - c.h - 1 = n - 1 by omega, hstop]
      simp only [lt_self_iff_false, false_and, Bool.false_eq_true, and_false, or_false, false_iff]
      omega
    · rw [show n + (p - (c.h + n) - 1) = p - c.h - 1 by omega]
      simp only [h, show ¬ p < c.h + n by omega, show ¬ p < c.h by omega, show c.h < p by omega, show p ≠ c.h by omega,
        false_or, true_and, or_false]
  · rw [exit_above_h c hlt, isDone_iff, isDone_iff]
    dsimp only
    rw [getLsbD_set _ (by omega), and_or_left, ← or_assoc]
    refine or_congr_right ⟨fun ⟨h1, h2⟩ => ?_, fun h => ?_⟩ <;> omega

/-- Exactly the point that exits is in flight no more, where the done points are not in flight. -/
theorem exit_inFlight (c : Col) {q : Nat} (hq : c.h ≤ q) (hdis : ∀ p, ¬ (c.isDone p = true ∧ c.inFlight p = true)) (p : Nat) :
    (c.exit q).inFlight p = true ↔ c.inFlight p = true ∧ p ≠ q := by
  rcases Nat.eq_or_lt_of_le hq with rfl | hlt
  · obtain ⟨n, hn, hset, hstop, he⟩ := exit_at_h c
    rw [he, inFlight_iff, inFlight_iff]
    simp only [BitVec.getLsbD_ushiftRight, getLsbD_clear]
    by_cases h : c.h + n ≤ p
    · rw [show n + (p - (c.h + n)) = p - c.h by omega]
      simp only [h, true_and, show c.h ≤ p by omega]
      refine and_congr_right fun _ => ?_
      omega
    · simp only [h, false_and, false_iff, not_and, not_not]
      refine fun hfl => by_contra fun hne => hdis p ⟨(isDone_iff c p).2 (.inr ⟨by omega, hset _ (by omega)⟩), (inFlight_iff c p).2 hfl⟩
  · rw [exit_above_h c hlt, inFlight_iff, inFlight_iff, getLsbD_clear]
    dsimp only
    refine ⟨fun ⟨h1, h2, h3⟩ => ⟨⟨h1, h2⟩, ?_⟩, fun ⟨⟨h1, h2⟩, h3⟩ => ⟨h1, h2, ?_⟩⟩ <;> omega

theorem exit_h (c : Col) {q : Nat} (hq : c.h ≤ q) : c.h ≤ (c.exit q).h := by
  rcases Nat.eq_or_lt_of_le hq with rfl | hlt
  · obtain ⟨n, _, _, _, he⟩ := exit_at_h c
    rw [he]
    exact Nat.le_add_right _ _
  · rw [exit_above_h c hlt]

/-- Settles O54, from what the update does to the done points and to those in flight. -/
theorem columnUpdate : Obligations.ColumnUpdate := by
  intro c q hq hq' hdis _
  have hdone := exit_isDone c hq hq'
  have hfl := exit_inFlight c hq hdis
  refine ⟨fun p => ?_, fun p => ?_, fun p ⟨h1, h2⟩ => ?_, exit_h c hq, ?_⟩
  · rw [Bool.eq_iff_iff, hdone, Bool.or_eq_true, beq_iff_eq]
  · rw [Bool.eq_iff_iff, hfl, Bool.and_eq_true, bne_iff_ne]
  · obtain ⟨h2, hne⟩ := (hfl p).1 h2
    rcases (hdone p).1 h1 with h1 | rfl
    · exact hdis p ⟨h1, h2⟩
    · exact hne rfl
  · exact Bool.eq_false_iff.2 fun h => by simpa using (isDone_iff _ _).1 h

/-! ### Reset -/

theorem core_reset (c : Nat) : State.reset.core c = Core.reset := rfl

theorem plane_reset (c : Nat) (p : BitVec 1) : State.reset.plane c p = Plane.reset := by
  rw [State.plane, core_reset, Core.plane]
  split <;> rfl

/-- Settles O55: every core is the core after BOOT, every plane the empty plane. -/
theorem resetState : Obligations.ResetState := by
  refine ⟨rfl, rfl, rfl, rfl, rfl, rfl, rfl, rfl, fun c a => ⟨rfl, rfl, rfl⟩, fun c p => ?_, fun c k => ?_, rfl, rfl⟩
  · rw [plane_reset]
    exact ⟨rfl, rfl, rfl, rfl, rfl, rfl, rfl, rfl, rfl, rfl⟩
  · rw [core_reset]
    exact Vector.getElem_replicate ..

/-! ### Decoded words -/

/-- Settles O56: each of the thirteen words is decoded. -/
theorem decodedWords : Obligations.DecodedWords := by
  refine ⟨?_, ?_, ?_, ?_, ?_, ?_, ?_, ?_, ?_, ?_, ?_, ?_, ?_⟩ <;> rfl

/-! ### Steps -/

/-- Every instruction and every event answers a next state. -/
theorem exec_next (i : Instr) (s : State) : ∃ t, exec i s = .next t := by
  cases i <;> exact ⟨_, rfl⟩

/-- What runs the words at the pc goes on, where every meaning does. -/
theorem runWords_next {run : Instr → State → Out} (h : ∀ i s, ∃ t, run i s = .next t) (s : State) (key : Nat) (w0 w1 : IWord)
    (n : Nat) : ∃ t, s.runWords run key w0 w1 n = .next t := by
  unfold State.runWords
  dsimp only
  split
  · exact ⟨_, rfl⟩
  · split
    · exact ⟨_, rfl⟩
    · rename_i i _
      obtain ⟨t, ht⟩ := h i ((s.stepUsed s.curVd).modTask key fun t => { t with st := true })
      split
      · exact ⟨_, rfl⟩
      · split
        · rw [ht]
          exact ⟨_, rfl⟩
        · split <;> exact ⟨_, rfl⟩

theorem issueTask_next {run : Instr → State → Out} (h : ∀ i s, ∃ t, run i s = .next t) (s : State) (t : Task) :
    ∃ u, s.issueTask run t = .next u := by
  unfold State.issueTask
  dsimp only
  split
  · exact ⟨_, rfl⟩
  · split
    · exact ⟨_, rfl⟩
    · split
      · exact ⟨_, rfl⟩
      · split
        · exact ⟨_, rfl⟩
        · exact ⟨_, rfl⟩
        · split <;> exact ⟨_, rfl⟩
        · split
          · exact ⟨_, rfl⟩
          · split
            · exact ⟨_, rfl⟩
            · exact runWords_next h _ _ _ _ _

theorem issueWith_next {run : Instr → State → Out} (h : ∀ i s, ∃ t, run i s = .next t) (s : State) :
    ∃ t, s.issueWith run = .next t := by
  unfold State.issueWith
  split
  · exact ⟨_, rfl⟩
  · split
    · exact ⟨_, rfl⟩
    · split
      · exact ⟨_, rfl⟩
      · exact issueTask_next h _ _

theorem eventWith_next {run : Instr → State → Out} (h : ∀ i s, ∃ t, run i s = .next t) (s : State) (e : Instr) :
    ∃ t, s.eventWith run e = .next t := by
  unfold State.eventWith
  split
  · exact ⟨_, rfl⟩
  · exact h e s

theorem settled_next {o : Out} (h : ∃ t, o = .next t) : ∃ t, o.settled = .next t := by
  obtain ⟨t, rfl⟩ := h
  exact ⟨_, rfl⟩

/-- Settles O60: turns and events go on, since every meaning does. -/
theorem everyStepGoesOn : Obligations.EveryStepGoesOn := by
  intro s
  unfold Safe step
  split
  · exact settled_next (issueWith_next exec_next _)
  · exact settled_next (issueWith_next exec_next _)
  · exact settled_next (eventWith_next exec_next _ _)

/-! ### What a turn runs -/

/-- A task that may issue, in terms of the state that its instruction finds. -/
theorem step_runWords {s u : State} {t : Task} {w0 w1 : IWord} {n : Nat} (hturn : TurnOf s u) (hissue : MayIssue u t w0 w1 n) :
    step s = after (u.useFetched.runWords exec (taskKey t.vd t.idx) w0 w1 n) := by
  rw [step_of_turn hturn, issueWith_of_mayIssue hissue]

/-- Under guard 0b1000 the words have no effect (R103). -/
theorem step_never {s u : State} {t : Task} {w0 w1 : IWord} {n : Nat} (hturn : TurnOf s u) (hissue : MayIssue u t w0 w1 n)
    (hguard : guardOf w0 = 8) : step s = after (.next ((issuing u t).advance n)) := by
  have ⟨_, htask, _⟩ := hissue
  rw [step_runWords hturn hissue, State.runWords, issuing_eq htask, if_pos hguard]

/-- Words that no instruction has raise ILLEGAL (R116). -/
theorem step_undecodable {s u : State} {t : Task} {w0 w1 : IWord} {n : Nat} {e : DecErr} (hturn : TurnOf s u)
    (hissue : MayIssue u t w0 w1 n) (hguard : guardOf w0 ≠ 8) (hdecode : decode w0 w1 = .error e) :
    ∃ x, Traps (issuing u t) x 1 (w0.setWidth 64) ∧ step s = after (.next x) := by
  have ⟨_, htask, _⟩ := hissue
  refine ⟨_, trap_traps (issuing u t) _, ?_⟩
  rw [step_runWords hturn hissue, State.runWords, issuing_eq htask, if_neg hguard]
  simp only [hdecode]

/-- The opcodes 0x00 and 0x7F are reserved (R114). -/
theorem decode_reserved (w0 w1 : IWord) (h : w0.extractLsb' 25 7 = 0#7 ∨ w0.extractLsb' 25 7 = 127#7) :
    decode w0 w1 = .error .undefinedOp := by
  have hop : (fld w0 25 7 == 0 || fld w0 25 7 == 127) = true := by
    rw [Bool.or_eq_true, beq_iff_eq, beq_iff_eq]
    exact h
  unfold decode
  rw [if_pos hop]

/-- Settles O59: `step_never`, then ILLEGAL for the undecodable and for the ill-formed. -/
theorem wordsRefused : Obligations.WordsRefused := by
  refine ⟨fun s u t w0 w1 n hturn hissue => ⟨step_never hturn hissue, fun hguard h => ?_⟩,
    fun w0 w1 h => ⟨_, decode_reserved w0 w1 h⟩⟩
  rcases h with ⟨e, he⟩ | ⟨i, hdecode, hi⟩
  · exact step_undecodable hturn hissue hguard he
  · exact step_not_wellFormed hturn hissue hguard hdecode hi

section WellFormed

variable {u : State} {t : Task} {w0 w1 : IWord} {n : Nat} {i : Instr} (htask : u.curTask = some t) (hguard : guardOf w0 ≠ 8)
  (hdecode : decode w0 w1 = .ok i) (hi : wellFormed i = true)

include htask hguard hdecode hi

/-- A well-formed instruction none of whose registers awaits a result runs. -/
theorem runWords_free {y : State} (hg : i.gs.filter (issuing u t).pl.busyG = [])
    (hv : i.vs.filter ((issuing u t).pl.busyV ((issuing u t).core (issuing u t).fc)) = []) (hy : exec i (issuing u t) = .next y) :
    u.useFetched.runWords exec (taskKey t.vd t.idx) w0 w1 n =
      .next (y.replayed (issuing u t).fc (issuing u t).fp (taskKey t.vd t.idx)) := by
  have hfree : ((i.gs.filter u.useFetched.pl.busyG).isEmpty &&
      (i.vs.filter (u.useFetched.pl.busyV (u.useFetched.core u.useFetched.fc))).isEmpty) = true :=
    Bool.and_eq_true_iff.2 ⟨List.isEmpty_iff.2 hg, List.isEmpty_iff.2 hv⟩
  rw [State.runWords, issuing_eq htask, if_neg hguard]
  simp only [hdecode, hi, Bool.not_true, Bool.false_eq_true, if_false, hfree, if_true, hy]
  rfl

/-- One that waits for a register stalls, or holds where the result comes from outside the core's own windows (R91). -/
theorem runWords_busy (hbusy : i.gs.filter (issuing u t).pl.busyG ≠ [] ∨
      i.vs.filter ((issuing u t).pl.busyV ((issuing u t).core (issuing u t).fc)) ≠ []) :
    let ags := (issuing u t).pl.awayG (i.gs.filter (issuing u t).pl.busyG)
    let avs := (issuing u t).pl.awayV ((issuing u t).core (issuing u t).fc)
      (i.vs.filter ((issuing u t).pl.busyV ((issuing u t).core (issuing u t).fc)))
    u.useFetched.runWords exec (taskKey t.vd t.idx) w0 w1 n =
      if ags = [] ∧ avs = [] then .next u.useFetched else .next ((issuing u t).holdOn (.regs ags avs)) := by
  have hbusy' : ((i.gs.filter u.useFetched.pl.busyG).isEmpty &&
      (i.vs.filter (u.useFetched.pl.busyV (u.useFetched.core u.useFetched.fc))).isEmpty) = false := by
    rw [Bool.and_eq_false_iff]
    exact hbusy.imp List.isEmpty_eq_false_iff.2 List.isEmpty_eq_false_iff.2
  rw [State.runWords, issuing_eq htask, if_neg hguard]
  simp only [hdecode, hi, Bool.not_true, Bool.false_eq_true, if_false, hbusy', Bool.and_eq_true, List.isEmpty_iff]
  rfl

end WellFormed

/-- The words that a fetch gives in a well-formed line whose loop lets it execute (R110, R112). -/
theorem fetchWord_wellFormed {x : Plane} {l : Line} (hwf : l.wellFormed = true)
    (hbody : wordIdx x.pc = 1 → x.loop.inBody = false) (hcnt : wordIdx x.pc ≤ linkCnt (l.word 0)) :
    x.fetchWord l =
      if isPair (l.word (wordIdx x.pc)) = true then
        (if wordIdx x.pc = linkCnt (l.word 0) then .trap cFETCH x.pc none
          else .instr (l.word (wordIdx x.pc)) (l.word (wordIdx x.pc + 1)) 2)
      else .instr (l.word (wordIdx x.pc)) 0 1 := by
  have hbody' : ¬ ((decide (wordIdx x.pc = 1) && x.loop.inBody) = true) := by
    simpa using hbody
  have hempty : ¬ ((decide (linkCnt (l.word 0) = 0) && decide (wordIdx x.pc = 1)) = true) := by
    simp; omega
  unfold Plane.fetchWord
  simp only [hbody', hwf, hempty, show ¬ linkCnt (l.word 0) < wordIdx x.pc by omega, Bool.not_true, Bool.false_eq_true, if_false]

theorem fetched_of_line {s : State} {l : Line} (h3 : s.pl.pc &&& 3#64 = 0#64) (h0 : wordIdx s.pl.pc ≠ 0)
    (hline : lineOf s.pl.pc ≠ 0#64) (hwin : inHbmWindow s.pl.pc = true) (hl : s.lineAt s.fc s.fp = some l) :
    s.fetched = s.pl.fetchWord l := by
  have hgood : ¬ ((s.pl.pc &&& 3 != 0 || wordIdx s.pl.pc == 0 || lineOf s.pl.pc == 0 || !(inHbmWindow s.pl.pc)) = true) := by
    simp [h3, h0, hline, hwin]
  unfold State.fetched
  rw [if_neg hgood, hl]

/-- Settles O58: `runWords_wellFormed`, `fetchWord_wellFormed`, and an event runs as itself. -/
theorem stepRunsInstruction : Obligations.StepRunsInstruction := by
  refine ⟨fun s u t w0 w1 n i hturn hissue hguard hdecode hi => ?_, fun s l h3 h0 hline hwin hl hwf hbody hcnt => ?_,
    fun s e rest hagenda he => ?_⟩
  · have ⟨_, htask, _⟩ := hissue
    rw [step_runWords hturn hissue]
    refine ⟨fun hg hv => ?_, fun hbusy haway => ?_, fun hbusy hag hav => ?_⟩
    · obtain ⟨y, hy⟩ := exec_next i (issuing u t)
      rw [runWords_free htask hguard hdecode hi hg hv hy, hy]
    · rw [runWords_busy htask hguard hdecode hi hbusy, if_neg]
      · rfl
      · exact not_and_or.2 haway
    · rw [runWords_busy htask hguard hdecode hi hbusy, if_pos]
      exact ⟨hag, hav⟩
  · rw [fetched_of_line h3 h0 hline hwin hl, fetchWord_wellFormed hwf hbody hcnt]
    refine ⟨fun hp => ?_, fun hp hlt => ?_⟩
    · rw [hp, if_neg Bool.false_ne_true]
    · rw [if_pos hp, if_neg (by omega)]
  · unfold step
    rw [hagenda, after_eq_settled]
    simp only [State.eventWith, he, Option.isSome_none, Bool.false_eq_true, if_false]

end Sys2Proof.Claims

/-! ## Ordering, waits and tags

spec/11_memory_model.md R216, R217, R228 to R230; spec/18_ref_d_l.md R349, R353; spec/20_ref_s_t.md R393, R406 to R408;
spec/22_ref_vn_x.md R451; spec/04_calendars.md R88. -/

namespace Sys2Proof.Machine

/-! ### What holds, clips and covers leave unchanged -/

@[simp] theorem State.cores_setTState (s : State) (k : Nat) (st : TState) : (s.setTState k st).cores = s.cores := rfl
@[simp] theorem State.focus_setTState (s : State) (k : Nat) (st : TState) : (s.setTState k st).focus = s.focus := rfl

/-- The executing plane is a matter of the cores and the focus. -/
theorem State.pl_congr {s t : State} (hc : t.cores = s.cores) (hf : t.focus = s.focus) : t.pl = s.pl := by
  unfold State.pl State.fp State.fc State.plane State.core
  rw [hc, hf]

theorem State.pl_holdOn (s : State) (h : Hold) : (s.holdOn h).pl = { s.pl with hold := some h } := by
  have hx : (s.modPl fun x => { x with hold := some h }).pl = { s.pl with hold := some h } := State.pl_modPl s _
  unfold State.holdOn
  dsimp only
  split
  · exact (State.pl_congr rfl rfl).trans hx
  · exact hx

/-- A run of rewrites of the VD table alone is one. -/
theorem State.foldl_vds {α : Type} {g : State → α → State} (hg : ∀ s a, ∃ ds, g s a = { s with vds := ds }) (xs : List α) (s : State) :
    ∃ ds, xs.foldl g s = { s with vds := ds } := by
  induction xs generalizing s with
  | nil => exact ⟨s.vds, rfl⟩
  | cons a xs ih =>
    obtain ⟨ds, h⟩ := hg s a
    obtain ⟨es, h'⟩ := ih { s with vds := ds }
    exact ⟨es, by rw [List.foldl_cons, h, h']⟩

/-- A covering command counts in its VD, and marks its copies in its task: nothing else (R88). -/
theorem State.cover_of_task {s : State} {key : Nat} (h : s.pl.task = some key) (p : Lead → Bool) :
    ∃ ds, s.cover p = { s with vds := ds }.modTask key fun t => { t with leads := t.leads.filter fun l => !(p l) } := by
  unfold State.cover
  dsimp only
  generalize hx : List.foldl _ s _ = x
  obtain ⟨ds, rfl⟩ : ∃ ds, x = { s with vds := ds } := by rw [← hx]; exact State.foldl_vds (fun _ _ => ⟨_, rfl⟩) _ _
  have htask : { s with vds := ds }.pl.task = some key := h
  rw [htask]
  exact ⟨ds, rfl⟩

theorem State.cover_of_no_task {s : State} (h : s.pl.task = none) (p : Lead → Bool) : ∃ ds, s.cover p = { s with vds := ds } := by
  unfold State.cover
  dsimp only
  generalize hx : List.foldl _ s _ = x
  obtain ⟨ds, rfl⟩ : ∃ ds, x = { s with vds := ds } := by rw [← hx]; exact State.foldl_vds (fun _ _ => ⟨_, rfl⟩) _ _
  have htask : { s with vds := ds }.pl.task = none := h
  rw [htask]
  exact ⟨ds, rfl⟩

theorem State.cover_frame (s : State) (p : Lead → Bool) :
    (s.cover p).cores = s.cores ∧ (s.cover p).hbm = s.hbm ∧ (s.cover p).focus = s.focus := by
  cases h : s.pl.task with
  | none =>
    obtain ⟨ds, h'⟩ := State.cover_of_no_task h p
    rw [h']
    exact ⟨rfl, rfl, rfl⟩
  | some key =>
    obtain ⟨ds, h'⟩ := State.cover_of_task h p
    rw [h']
    exact ⟨rfl, rfl, rfl⟩

theorem State.pl_cover (s : State) (p : Lead → Bool) : (s.cover p).pl = s.pl := by
  obtain ⟨hc, _, hf⟩ := s.cover_frame p
  exact State.pl_congr hc hf

theorem State.leads_of_curTask {s : State} {t : Task} (h : s.curTask = some t) : s.leads = t.leads := by
  rw [State.leads, h]

theorem State.leads_of_no_task {s : State} (h : s.curTask = none) : s.leads = [] := by
  rw [State.leads, h]

end Sys2Proof.Machine

namespace Sys2Proof.Claims

open Sys2Proof.Machine

/-! ### FENCE and FLUSHP -/

/-- A barrier with the scope that the ceiling makes of its own. -/
theorem barrier_eq {s : State} {d : Vd} {scp scp' : BitVec 3} {clipped : Bool} (hd : s.vd s.curVd = some d)
    (hscope : scopeOf d.d scp = .ok (scp', clipped)) (p : Access → Bool) : s.barrier scp p =
      if (s.pl.acc.filter fun a => p a && !(a.doneAt scp')) = [] then (if clipped then s.clip s.curVd else s).advance 1
      else s.holdOn (.accs ((s.pl.acc.filter fun a => p a && !(a.doneAt scp')).map (·.id)) scp') := by
  rw [State.barrier, hd]
  simp only [hscope, List.isEmpty_iff]

theorem scopeOf_inside {d : VdDef} {scp : BitVec 3} (h : scp.toNat ≤ d.ceil.toNat) : scopeOf d scp = .ok (scp, false) := by
  rw [scopeOf, if_neg (by omega)]

theorem scopeOf_above {d : VdDef} {scp : BitVec 3} (h : d.ceil.toNat < scp.toNat) : scopeOf d scp =
    if d.sctrap then .error (BitVec.ofNat 64 (scp.toNat + 8 * d.ceil.toNat)) else .ok (d.ceil, true) := by
  rw [scopeOf, if_pos h]

/-- Inside the ceiling a barrier completes, or holds for the accesses that it names (R216, R217). -/
theorem barrier_inside {s : State} {scp : BitVec 3} (hc : InCeiling s scp) {p : Access → Bool} {i : Instr}
    (hi : exec i s = .next (s.barrier scp p)) :
    let named := s.pl.acc.filter fun a => p a && !(a.doneAt scp)
    ∃ t, exec i s = .next t ∧ (named = [] → Unchanged s t 1) ∧ (named ≠ [] → t = s.holdOn (.accs (named.map (·.id)) scp)) := by
  obtain ⟨d, hd, hle⟩ := hc
  refine ⟨_, hi, fun h => ?_, fun h => ?_⟩ <;> rw [barrier_eq hd (scopeOf_inside hle)]
  · rw [if_pos h, if_neg Bool.false_ne_true]
    exact unchanged_advance s 1
  · rw [if_neg h]

/-- The ordering status word after one more clipped operation (R229). -/
def clipOrd (o : Word) : Word :=
  (if o.extractLsb' 32 32 = BitVec.allOnes 32 then o.extractLsb' 32 32 else o.extractLsb' 32 32 + 1) ++ (1 : BitVec 32)

theorem clip_eq (s : State) (v : Nat) : s.clip v = s.modVd v fun d => { d with ord := clipOrd d.ord } := rfl

theorem getLsbD_clipOrd_zero (o : Word) : (clipOrd o).getLsbD 0 = true := by
  rw [clipOrd, BitVec.getLsbD_append]
  rfl

theorem clipOrd_count {o : Word} (h : o.toNat < 18446744069414584320) :
    (clipOrd o).extractLsb' 32 32 = o.extractLsb' 32 32 + 1 := by
  have hne : o.extractLsb' 32 32 ≠ BitVec.allOnes 32 := fun he => by
    have := congrArg BitVec.toNat he
    rw [BitVec.extractLsb'_toNat, Nat.shiftRight_eq_div_pow, BitVec.toNat_allOnes] at this
    omega
  rw [clipOrd, if_neg hne, BitVec.extractLsb'_append_eq_of_le (Nat.le_refl 32)]
  exact BitVec.extractLsb'_eq_self

theorem barrier_above {s : State} {d : Vd} {scp : BitVec 3} (hd : s.vd s.curVd = some d) (hlt : d.d.ceil.toNat < scp.toNat)
    (hacc : s.pl.acc = []) {p : Access → Bool} {i : Instr} (hi : exec i s = .next (s.barrier scp p)) :
    ∃ t, exec i s = .next t ∧
      (d.d.sctrap = true → Traps s t 14 (BitVec.ofNat 64 (scp.toNat + 8 * d.d.ceil.toNat))) ∧
      (d.d.sctrap = false → t = (s.clip s.curVd).advance 1 ∧
        ∃ d', t.vd s.curVd = some d' ∧ d'.ord.getLsbD 0 = true ∧
          (d.ord.toNat < 18446744069414584320 → d'.ord.extractLsb' 32 32 = d.ord.extractLsb' 32 32 + 1)) := by
  refine ⟨_, hi, fun hs => ?_, fun hs => ?_⟩
  · have hscope := scopeOf_above hlt
    rw [hs, if_pos rfl] at hscope
    have ht : s.barrier scp p = s.trap cSCOPE (BitVec.ofNat 64 (scp.toNat + 8 * d.d.ceil.toNat)) := by
      rw [State.barrier, hd]
      simp only [hscope]
    rw [ht]
    exact traps_trap s cSCOPE _
  · have hscope := scopeOf_above hlt
    rw [hs, if_neg Bool.false_ne_true] at hscope
    have ht : s.barrier scp p = (s.clip s.curVd).advance 1 := by
      rw [barrier_eq hd hscope, hacc]
      rfl
    refine ⟨ht, { d with ord := clipOrd d.ord }, ?_, getLsbD_clipOrd_zero _, clipOrd_count⟩
    rw [ht, clip_eq, State.advance_eq, State.vd_modPl, State.vd_modVd_same, hd]
    rfl

theorem exec_fence {o : Fence} {s : State} (hg : s.pl.guard o.g = true) :
    exec (.fence o) s = .next (s.barrier o.scp fun a => a.kind.classed && o.m.getLsbD a.cls.toNat) :=
  congrArg Host.Outcome.next (if_pos hg)

theorem exec_flushp {o : Flushp} {s : State} (hg : s.pl.guard o.g = true) :
    exec (.flushp o) s = .next (s.barrier o.scp fun a => a.isPosted s.fc) :=
  congrArg Host.Outcome.next (if_pos hg)

/-- Settles O16: FENCE and FLUSHP are `State.barrier` of the accesses they name. -/
theorem fencesAndScopes : Obligations.FencesAndScopes := by
  refine ⟨fun s => ⟨fun o hg hc => barrier_inside hc (exec_fence hg), fun o hg hc => barrier_inside hc (exec_flushp hg)⟩,
    fun s d scp hd hlt hacc => ⟨fun o ho hg => ?_, fun o ho hg => ?_⟩⟩
  · subst ho
    exact barrier_above hd hlt hacc (exec_fence hg)
  · subst ho
    exact barrier_above hd hlt hacc (exec_flushp hg)

/-! ### SHREL and SHACQ -/

/-- What taking up a performed access and its result leaves. -/
theorem shareDone (s : State) (a : Access) (d : BitVec 6) (v : Word) :
    let t := (s.modPl fun x => (x.dropAccess a).wg d v).advance 1
    OnlyPlane s t ∧ SameMemory s t ∧ t.pl.pc = s.nextPc 1 ∧ t.pl.acc = s.pl.acc.filter (fun b => b.id != a.id) ∧
      ∀ r, t.pl.rg r = if r = 0 then 0 else if r = d then v else s.pl.rg r := by
  have hplane := State.pl_modPl_advance s (fun x => (x.dropAccess a).wg d v) 1 (by simp [Plane.dropAccess])
    (by simp [Plane.dropAccess]) (by simp [Plane.dropAccess])
  dsimp only
  refine ⟨?_, ?_, ?_, ?_, fun r => ?_⟩
  · rw [State.modPl_advance s _ 1 (by simp [Plane.dropAccess]) (by simp [Plane.dropAccess])]
    exact onlyPlane_modPl s _
  · rw [State.modPl_advance s _ 1 (by simp [Plane.dropAccess]) (by simp [Plane.dropAccess])]
    exact sameMemory_modPl s _
  · rw [hplane]
  · rw [hplane]
    simp [Plane.dropAccess]
  · rw [hplane]
    exact Plane.rg_wg (s.pl.dropAccess a) r d v

section Share

variable {s : State} {o : DA} (hg : s.pl.guard o.g = true)

include hg

theorem shareAt_performed {a : Access} (hm : s.pl.mine AccKind.isShare = some a) (hp : a.performed = true) (mk : Nat → AccKind)
    (ar : BitVec 2) (wait : List Access) : s.shareAt o mk ar wait =
      (s.modPl fun x => (x.dropAccess a).wg o.d (leWord ((a.elems.head?.map (·.res)).getD []))).advance 1 := by
  rw [State.shareAt, if_pos hg]
  simp only [hm, hp, if_true]

theorem shareAt_outside (hm : s.pl.mine AccKind.isShare = none) (hw : s.windowAt s.curVd (s.pl.rg o.a) = none) (mk : Nat → AccKind)
    (ar : BitVec 2) (wait : List Access) : s.shareAt o mk ar wait = s.trap cPERM (s.pl.rg o.a) := by
  rw [State.shareAt, if_pos hg]
  simp only [hm, hw]

theorem shareAt_window {w : Nat} (hm : s.pl.mine AccKind.isShare = none) (hw : s.windowAt s.curVd (s.pl.rg o.a) = some w)
    (mk : Nat → AccKind) (ar : BitVec 2) :
    s.shareAt o mk ar [] = s.startAccess 1 (mk w) 0 ar 4 [mkElem 0 [0] (s.pl.rg o.a) 1 0 []] := by
  rw [State.shareAt, if_pos hg]
  simp only [hm, hw, List.isEmpty_nil, if_true]

end Share

/-- Settles O17: the three cases of `State.shareAt` under a true guard. -/
theorem shareSequence : Obligations.ShareSequence := by
  intro s o hg
  refine ⟨fun a hm hp => ⟨_, _, congrArg Host.Outcome.next (shareAt_performed hg hm hp _ _ _),
      congrArg Host.Outcome.next (shareAt_performed hg hm hp _ _ _), fun x hx => ?_⟩,
    fun hm hw => ⟨_, _, congrArg Host.Outcome.next (shareAt_outside hg hm hw _ _ _),
      congrArg Host.Outcome.next (shareAt_outside hg hm hw _ _ _), traps_trap s cPERM _, traps_trap s cPERM _⟩,
    fun w hm hw => ⟨congrArg Host.Outcome.next (shareAt_window hg hm hw _ _), fun hacc => ?_⟩⟩
  · obtain rfl := hx.elim id id
    exact shareDone s a o.d _
  · change Host.Outcome.next (s.shareAt o _ _ _) = _
    rw [hacc]
    exact congrArg Host.Outcome.next (shareAt_window hg hm hw _ _)

/-! ### Lead times -/

theorem leadBin_mem (n : Nat) : (leadBin n, true) ∈ [(12, decide (n = 0)), (13, decide (n = 1)), (14, decide (2 ≤ n ∧ n ≤ 3)),
    (15, decide (4 ≤ n ∧ n ≤ 7)), (16, decide (8 ≤ n ∧ n ≤ 15)), (17, decide (16 ≤ n ∧ n ≤ 63)),
    (18, decide (64 ≤ n ∧ n ≤ 255)), (19, decide (256 ≤ n))] := by
  simp only [List.mem_cons, Prod.mk.injEq, List.not_mem_nil, or_false, eq_comm (a := true), decide_eq_true_eq]
  unfold leadBin
  split_ifs <;> omega

/-- The slots since a booked copy completed, 0 where it has not. -/
def leadWait (s : State) (l : Lead) : Nat := match l.done with | some x => s.now - x | none => 0

/-- Covering the one booked copy of a task counts its wait in one bin. -/
theorem cover_single {s : State} {l : Lead} {k : Nat} {t : Task} (hk : s.pl.task = some k) (ht : s.task k = some t)
    (hl : t.leads = [l]) : s.cover (fun _ => true) =
      (s.count t.vd 0 (leadBin (leadWait s l)) 1).modTask k fun t => { t with leads := t.leads.filter fun _ => !true } := by
  have hcur : s.curTask = some t := by rw [State.curTask, hk]; exact ht
  have hv : s.curVd = t.vd := by rw [State.curVd, hcur]
  have htask (i : Nat) : (s.count t.vd 0 i 1).pl.task = some k := hk
  have h12 : leadBin 0 = 12 := rfl
  unfold State.cover
  rw [State.leads_of_curTask hcur, hl, hv]
  unfold leadWait
  cases h : l.done with
  | none => simp only [List.filter_cons_of_pos, List.filter_nil, List.foldl_cons, List.foldl_nil, h, h12, htask]
  | some x => simp only [List.filter_cons_of_pos, List.filter_nil, List.foldl_cons, List.foldl_nil, h, htask]

/-- Settles O19: the bin is `leadBin` of the slots since the copy completed. -/
theorem leadTimeBins : Obligations.LeadTimeBins := by
  intro s l d k t hk ht hl hd waited
  refine ⟨leadBin (leadWait s l), leadBin_mem waited, ?_⟩
  rw [cover_single hk ht hl]
  refine ⟨_, (State.vd_modVd_same s t.vd _).trans (congrArg _ hd), ?_, _, (State.task_modTask_same _ k _).trans (congrArg _ ht), ?_⟩
  · change tgetD (tset d.cnt (32 * 0 + leadBin (leadWait s l)) _) (leadBin (leadWait s l)) 0 = _
    rw [Nat.mul_zero, Nat.zero_add, tgetD_tset_same]
    rfl
  · exact List.filter_eq_nil_iff.2 fun _ _ => Bool.false_ne_true

/-! ### WAIT and the tags -/

/-- A plane whose task has the key 3 and one completed tag. -/
def strayPlane : Plane := { Plane.reset with task := some 3, sr := { Sr.reset with tags := 1 } }.wg 1 1

/-- A task with a booked copy, of tag 0, that nothing has covered. -/
def strayTask : Task := { Task.fresh 0 3 1 0 0 0 0 0 0 with leads := [{ id := 0, tag := some 0, done := none }] }

/-- A state whose task table has falling keys: reading key 3 stops at 5, rewriting it does not. -/
def strayState : State :=
  { State.reset with cores := [(0, { Core.reset with p0 := strayPlane })],
                     fr := { Front.reset with tasks := [(5, Task.fresh 0 5 1 0 0 0 0 0 0), (3, strayTask)] } }

/-- The booked copies not yet covered, over all tasks of a state. -/
def leadCount (s : State) : Nat := (s.fr.tasks.map fun e => e.2.leads.length).sum

/-- Refutes O18: `WaitsAndTags` says that without a booked copy to cover TWANY changes its own plane alone. In `strayState` the task table's
keys do not rise, so that the executing task is not found, and has no booked copy; but the covering TWANY rewrites its entry. -/
theorem not_waits : ¬ Obligations.Waits := by
  rintro ⟨hwaits, -⟩
  obtain ⟨-, -, htwany, -⟩ := hwaits strayState rfl
  obtain ⟨t, ht, hend⟩ := htwany { d := 2, a := 1, g := 0 } (.inl (by decide))
  have hguard : strayState.pl.guard 0 = true := rfl
  rw [if_pos hguard] at hend
  obtain ⟨⟨honly, -⟩, -⟩ := hend
  have hafter : leadCount t = 0 := by
    rw [← Host.Outcome.next.inj ht]
    rfl
  have hbefore : leadCount t = 1 := by
    rw [honly]
    rfl
  omega

end Sys2Proof.Claims

/-! ## The vector unit

spec/08_numbers.md R143, R144, R158, R159, spec/21_ref_va_vm.md R409 to R433, spec/22_ref_vn_x.md R434 to R447. -/

namespace Sys2Proof.Machine

/-! ### Element widths -/

theorem tyWidth_cases (ty : Nat) : tyWidth ty = 8 ∨ tyWidth ty = 16 ∨ tyWidth ty = 32 ∨ tyWidth ty = 64 := by
  unfold tyWidth; split <;> simp

theorem tyWidth_pos (ty : Nat) : 0 < tyWidth ty := by
  rcases tyWidth_cases ty with h | h | h | h <;> rw [h] <;> decide

theorem tyWidth_dvd (ty : Nat) : tyWidth ty ∣ 64 := by
  rcases tyWidth_cases ty with h | h | h | h <;> rw [h] <;> decide

/-- An element lies in its register. -/
theorem elem_end_le {w e : Nat} (he : e < 1024 / w) : w * e + w ≤ 1024 := by
  rw [← Nat.mul_succ, Nat.mul_comm]
  exact Nat.mul_le_of_le_div _ _ _ he

theorem elemLane_lt {w e : Nat} (hw : 0 < w) (he : e < 1024 / w) : w * e / 64 < 16 := by
  have := elem_end_le he
  omega

/-- Every bit of an element lies in the element's lane. -/
theorem elem_bit_lane {w j : Nat} (hw : w ∣ 64) (hj : j < w) (e : Nat) : (w * e + j) / 64 = w * e / 64 := by
  obtain ⟨q, hq⟩ := hw
  have hpos : 0 < w := by omega
  rw [hq, ← Nat.div_div_eq_div_mul, ← Nat.div_div_eq_div_mul, Nat.mul_add_div hpos, Nat.mul_div_cancel_left _ hpos,
    Nat.div_eq_of_lt hj, Nat.add_zero]

/-! ### Elements and lanes of a register -/

theorem elemAt_eq (w : Nat) (v : VReg) (e : Nat) : elemAt w v e = (v.extractLsb' (w * e) w).toNat :=
  (BitVec.extractLsb'_toNat ..).symm

theorem elemAt_lt (w : Nat) (v : VReg) (e : Nat) : elemAt w v e < 2 ^ w := Nat.mod_lt _ (Nat.two_pow_pos w)

@[simp] theorem elemAt_mod (w : Nat) (v : VReg) (e : Nat) : elemAt w v e % 2 ^ w = elemAt w v e := Nat.mod_mod _ _

/-- Elements with the same bits are equal. -/
theorem elemAt_congr {w e : Nat} {u v : VReg} (h : ∀ j < w, u.getLsbD (w * e + j) = v.getLsbD (w * e + j)) :
    elemAt w u e = elemAt w v e := by
  rw [elemAt_eq, elemAt_eq]
  refine congrArg BitVec.toNat (BitVec.eq_of_getLsbD_eq fun j hj => ?_)
  rw [BitVec.getLsbD_extractLsb', BitVec.getLsbD_extractLsb', h j hj]

theorem getLsbD_ofLanes (ls : List Word) {i : Nat} (hi : i < 1024) :
    (ofLanes ls).getLsbD i = (ls.getD (i / 64) 0).getLsbD (i % 64) := by
  induction ls generalizing i with
  | nil => simp [ofLanes]
  | cons x xs ih =>
    have hcons : ofLanes (x :: xs) = ((ofLanes xs) <<< 64) ||| x.setWidth 1024 := rfl
    rw [hcons, BitVec.getLsbD_or, BitVec.getLsbD_shiftLeft, BitVec.getLsbD_setWidth]
    by_cases h : i < 64
    · rw [Nat.div_eq_of_lt h, Nat.mod_eq_of_lt h]
      simp [h, hi]
    · obtain ⟨j, rfl⟩ := Nat.exists_eq_add_of_le (Nat.not_lt.mp h)
      have hx : x.getLsbD (64 + j) = false := BitVec.getLsbD_of_ge x _ (by omega)
      rw [Nat.add_sub_cancel_left, ih (by omega), Nat.add_div_left _ (by decide), Nat.add_mod_left, hx]
      simp [hi]

theorem getLsbD_laneBits (m : BitVec 16) {i : Nat} (hi : i < 1024) : (laneBits m).getLsbD i = m.getLsbD (i / 64) := by
  have h16 : i / 64 < 16 := by omega
  have h64 : i % 64 < 64 := by omega
  rw [laneBits, getLsbD_ofLanes _ hi, List.getD_eq_getElem _ _ (by simpa using h16), List.getElem_map, List.getElem_range]
  cases m.getLsbD (i / 64)
  · exact BitVec.getLsbD_zero
  · exact (BitVec.getLsbD_allOnes ..).trans (decide_eq_true h64)

theorem getLsbD_mergeLanes (m : BitVec 16) (old new : VReg) {i : Nat} (hi : i < 1024) :
    (mergeLanes m old new).getLsbD i = if m.getLsbD (i / 64) then new.getLsbD i else old.getLsbD i := by
  rw [mergeLanes, BitVec.getLsbD_or, BitVec.getLsbD_and, BitVec.getLsbD_and, BitVec.getLsbD_not, getLsbD_laneBits m hi]
  cases m.getLsbD (i / 64) <;> simp [hi]

/-- A write of the active lanes, element by element (R104). -/
theorem elemAt_mergeLanes {w e : Nat} (hw : w ∣ 64) (he : e < 1024 / w) (k : BitVec 16) (old new : VReg) :
    elemAt w (mergeLanes k old new) e = if k.getLsbD (w * e / 64) then elemAt w new e else elemAt w old e := by
  have hend := elem_end_le he
  have hbit : ∀ j < w, (mergeLanes k old new).getLsbD (w * e + j) =
      if k.getLsbD (w * e / 64) then new.getLsbD (w * e + j) else old.getLsbD (w * e + j) := fun j hj => by
    rw [getLsbD_mergeLanes _ _ _ (by omega), elem_bit_lane hw hj]
  split <;> rename_i hk <;> simp only [hk, if_true, if_false, Bool.false_eq_true] at hbit <;> exact elemAt_congr hbit

/-- The elements of a list, laid out from bit 0, one number. -/
def packElems (w : Nat) (xs : List Nat) : Nat := xs.foldr (fun x acc => acc * 2 ^ w + x % 2 ^ w) 0

theorem packElems_elem (w : Nat) (xs : List Nat) (e : Nat) : packElems w xs / 2 ^ (w * e) % 2 ^ w = xs.getD e 0 % 2 ^ w := by
  induction xs generalizing e with
  | nil => simp [packElems]
  | cons x xs ih =>
    have hcons : packElems w (x :: xs) = x % 2 ^ w + 2 ^ w * packElems w xs := by rw [Nat.add_comm, Nat.mul_comm]; rfl
    have hpos := Nat.two_pow_pos w
    cases e with
    | zero => simp [hcons]
    | succ e =>
      rw [hcons, Nat.mul_succ, Nat.add_comm (w * e), Nat.pow_add, ← Nat.div_div_eq_div_mul, Nat.add_mul_div_left _ _ hpos,
        Nat.div_eq_of_lt (Nat.mod_lt _ hpos), Nat.zero_add, ih]
      rfl

/-- Bits below a cut are those of the whole. -/
theorem mod_two_pow_div_mod {a w n : Nat} (h : a + w ≤ n) (x : Nat) : x % 2 ^ n / 2 ^ a % 2 ^ w = x / 2 ^ a % 2 ^ w := by
  obtain ⟨d, rfl⟩ := Nat.exists_eq_add_of_le h
  rw [Nat.add_assoc, Nat.pow_add, Nat.mod_mul_right_div_self, Nat.mod_mod_of_dvd _ (Nat.pow_dvd_pow 2 (Nat.le_add_right w d))]

/-- An element of a register made from a number. -/
theorem elemAt_ofNat {w e : Nat} (he : e < 1024 / w) (x : Nat) : elemAt w (BitVec.ofNat 1024 x) e = x / 2 ^ (w * e) % 2 ^ w := by
  rw [elemAt, BitVec.toNat_ofNat, Nat.shiftRight_eq_div_pow]
  exact mod_two_pow_div_mod (elem_end_le he) x

theorem elemAt_ofElems {w e : Nat} (he : e < 1024 / w) (xs : List Nat) : elemAt w (ofElems w xs) e = xs.getD e 0 % 2 ^ w :=
  (elemAt_ofNat he _).trans (packElems_elem w xs e)

@[simp] theorem elemB_zero (w : Nat) (gs : Word) (b : VReg) : elemB w 0 gs b = elemAt w b := rfl

/-! ### The active elements -/

theorem zipIdx_map_range {α : Type} (n : Nat) (f : Nat → α) : ((List.range n).map f).zipIdx = (List.range n).map fun e => (f e, e) :=
  List.ext_getElem (by simp) (by simp)

theorem filterMap_ite_some {α β : Type} (p : Nat → Bool) (f : Nat → α) (g : Nat → α → β) (xs : List Nat) :
    (xs.filterMap fun e => (if p e then some (f e) else none).map (g e)) = (xs.filter p).map fun e => g e (f e) := by
  induction xs with
  | nil => rfl
  | cons x xs ih =>
    rw [List.filterMap_cons, ih]
    cases h : p x <;> simp [h]

theorem activeElems_elemResults (w n : Nat) (k : BitVec 16) (fmt : Option Fmt) (f : Nat → FRes) :
    activeElems w fmt (elemResults w n k f) = ((List.range n).filter fun e => k.getLsbD (w * e / 64)).map fun e =>
      { lane := w * e / 64, r := f e, fmt := fmt } := by
  rw [activeElems, elemResults, zipIdx_map_range, List.filterMap_map]
  exact filterMap_ite_some (fun e => k.getLsbD (w * e / 64)) f (fun e r => (⟨w * e / 64, r, fmt⟩ : FElem)) _

/-- An active element of a register of results, 0 past the last. -/
theorem elemAt_resultBits {w e : Nat} (he : e < 1024 / w) (n : Nat) {k : BitVec 16} (hk : k.getLsbD (w * e / 64) = true) (f : Nat → FRes) :
    elemAt w (resultBits w (elemResults w n k f)) e = (if e < n then (f e).bits else 0) % 2 ^ w := by
  rw [resultBits, elemAt_ofElems he]
  congr 1
  by_cases hn : e < n
  · rw [List.getD_eq_getElem _ _ (by simpa [elemResults] using hn), if_pos hn]
    simp [elemResults, elemLane, hk]
  · rw [List.getD_eq_default _ _ (by simpa [elemResults] using hn), if_neg hn]

end Sys2Proof.Machine

namespace Sys2Proof.Claims

open Sys2Proof.Machine

/-! ### The end of an instruction on elements (R158, R159) -/

theorem foldl_add_eq (f : FElem → Nat) (es : List FElem) (a : Nat) : es.foldl (fun a e => a + f e) a = a + (es.map f).sum := by
  induction es generalizing a with
  | nil => rfl
  | cons e es ih => rw [List.foldl_cons, ih, List.map_cons, List.sum_cons, Nat.add_assoc]

theorem foldl_or_eq (es : List FElem) (m : BitVec 6) : es.foldl (fun m e => m ||| e.r.fl) m = m ||| flagsOf es := by
  unfold flagsOf
  induction es generalizing m with
  | nil => exact BitVec.or_zero.symm
  | cons e es ih => rw [List.foldl_cons, List.foldl_cons, ih, ih (0 ||| e.r.fl), BitVec.or_assoc]; congr 2; exact BitVec.zero_or.symm

/-- The rewrite of a plane at the end of an instruction on elements `es`. -/
def elementsWrite (es : List FElem) (write : Plane → Plane) (p : Plane) : Plane :=
  { write p with sr := { (write p).sr with fps := (write p).sr.fps ||| flagsOf es } }

theorem regsSrOnly_elementsWrite (es : List FElem) {write : Plane → Plane} (hw : RegsOnly write) : RegsSrOnly (elementsWrite es write) :=
  fun x => by
    obtain ⟨r, hr⟩ := hw x
    exact ⟨r, { x.sr with fps := x.sr.fps ||| flagsOf es }, by rw [elementsWrite, hr]⟩

/-- The tensor statistics that the elements `es` add, where the major counts any. -/
def countElements (s : State) (es : List FElem) (counted : Bool) : State :=
  let sum (f : FElem → Nat) : Nat := (es.map f).sum
  if counted then s.stat s.curVd s.pl.sr.tensor (sum fun e => if e.r.clamp then 1 else 0) (sum fun e => e.r.flush)
    (sum fun e => if e.isNan then 1 else 0) (sum fun e => if e.isInf then 1 else 0) else s

theorem stat_modPl (s : State) (f : Plane → Plane) (v : Nat) (id : BitVec 8) (a b c d : Nat) :
    (s.modPl f).stat v id a b c d = (s.stat v id a b c d).modPl f := by
  unfold State.stat
  split <;> rfl

theorem stat_frame (s : State) (v : Nat) (id : BitVec 8) (a b c d : Nat) : ∃ ds, s.stat v id a b c d = { s with vds := ds } := by
  unfold State.stat
  split
  · exact ⟨s.vds, rfl⟩
  · exact ⟨_, rfl⟩

theorem countElements_frame (s : State) (es : List FElem) (counted : Bool) : ∃ ds, countElements s es counted = { s with vds := ds } := by
  cases counted
  · exact ⟨s.vds, rfl⟩
  · exact stat_frame ..

/-- A quiet instruction on elements: its statistics, then its writes and the next instruction. -/
theorem fpEnd_quiet {s : State} {es : List FElem} (hq : Quiet s es) (n : Nat) (counted : Bool) (write : Plane → Plane) :
    s.fpEnd n es counted write = ((countElements s es counted).modPl (elementsWrite es write)).advance n := by
  obtain ⟨hsn, hfl⟩ := hq
  have h1 : ¬ (s.pl.sr.fpen.getLsbD 5 && es.any fun e => e.r.sn) = true := by
    rw [Bool.and_eq_true, List.any_eq_true]
    rintro ⟨h5, e, he, hse⟩
    rw [hsn h5 e he] at hse
    exact Bool.false_ne_true hse
  have h2 : ¬ (es.any fun e => e.r.fl &&& (s.pl.sr.fpen.setWidth 5).setWidth 6 != 0) = true := by
    rw [List.any_eq_true]
    rintro ⟨e, he, hne⟩
    exact bne_iff_ne.mp hne (hfl e he)
  unfold State.fpEnd
  dsimp only
  rw [if_neg h1, if_neg h2]
  congr 1
  cases counted
  · rfl
  · rw [if_pos rfl, stat_modPl, countElements, if_pos rfl]
    simp only [foldl_add_eq, Nat.zero_add]
    rfl

theorem fpEnd_eq {s : State} {es : List FElem} (hq : Quiet s es) (n : Nat) (counted : Bool) {write : Plane → Plane} (hw : RegsOnly write) :
    s.fpEnd n es counted write =
      (countElements s es counted).modPl fun _ => (elementsWrite es write s.pl).pass (s.lineAt s.fc s.fp) n := by
  rw [fpEnd_quiet hq, modPl_advance_eq_of_regsSrOnly _ (regsSrOnly_elementsWrite es hw)]
  obtain ⟨ds, hds⟩ := countElements_frame s es counted
  rw [hds]
  rfl

/-- An instruction on quiet elements completes, and of the registers it writes what `write` does. -/
theorem elementsDone_fpEnd {s : State} {es : List FElem} (hq : Quiet s es) (n : Nat) (counted : Bool) {write : Plane → Plane}
    (hw : RegsOnly write) :
    ElementsDone s (s.fpEnd n es counted write) n es counted ∧ (s.fpEnd n es counted write).pl.regs = (write s.pl).regs := by
  rw [fpEnd_eq hq n counted hw]
  obtain ⟨r, q, hr⟩ := regsSrOnly_elementsWrite es hw s.pl
  have hpc := Plane.pass_pc_congr (elementsWrite es write s.pl) s.pl (s.lineAt s.fc s.fp) n (by rw [hr]) (by rw [hr])
  have hsr : (elementsWrite es write s.pl).sr = { s.pl.sr with fps := es.foldl (fun m e => m ||| e.r.fl) s.pl.sr.fps } := by
    obtain ⟨r, hr⟩ := hw s.pl
    rw [foldl_or_eq, elementsWrite, hr]
  refine ⟨⟨?_, ?_, ?_, ?_, ?_, ?_, ?_⟩, ?_⟩
  · rw [State.pl_modPl]
    rfl
  · obtain ⟨ds, hds⟩ := countElements_frame s es counted
    rw [hds]
    exact sameMemory_modPl { s with vds := ds } _
  all_goals rw [State.pl_modPl]
  · rw [Plane.pass_eq, hr]
    exact ⟨rfl, rfl, rfl, rfl, rfl, rfl, rfl, rfl, rfl⟩
  · exact hpc.1
  · exact hpc.2
  · exact Plane.pass_hold _ _ _
  · rw [Plane.pass_sr, hsr]
  · rw [Plane.pass_regs]
    rfl

/-! ### The traps of an instruction on elements -/

theorem getLsbD_lanesOf (es : List FElem) (p : FElem → Bool) {i : Nat} (hi : i < 64) :
    (lanesOf es p).getLsbD i = es.any fun e => e.lane == i && p e := by
  have hgen : ∀ m : Word, (es.foldl (fun m e => if p e then m ||| ((1 : Word) <<< e.lane) else m) m).getLsbD i =
      (m.getLsbD i || es.any fun e => e.lane == i && p e) := by
    induction es with
    | nil => simp
    | cons e es ih =>
      intro m
      rw [List.foldl_cons, ih, List.any_cons]
      cases p e
      · simp
      · have h1 : ((1 : Word) <<< e.lane).getLsbD i = decide (i = e.lane) := getLsbD_one_shiftLeft _ hi
        rw [if_pos rfl, BitVec.getLsbD_or, h1, Bool.or_assoc, Bool.and_true, beq_eq_decide, decide_eq_decide.mpr eq_comm]
  rw [lanesOf, hgen]
  simp

theorem lanesOf_eq {es : List FElem} (hes : ∀ e ∈ es, e.lane < 16) (p : FRes → Bool) :
    lanesOf es (fun e => p e.r) = (lanesWith es p).setWidth 64 := by
  refine BitVec.eq_of_getLsbD_eq fun i hi => ?_
  rw [getLsbD_lanesOf _ _ hi, BitVec.getLsbD_setWidth, decide_eq_true hi, Bool.true_and, lanesWith, BitVec.getLsbD_ofFnLE]
  split
  · rfl
  · rename_i h
    refine List.any_eq_false.mpr fun e he hlane => h ?_
    have := hes e he
    simp only [Bool.and_eq_true, beq_iff_eq] at hlane
    omega

/-- The enabled flags above the lanes, as FPE shows them. -/
theorem setWidth_append_lanes (f : BitVec 6) (l : BitVec 16) : (f ++ l).setWidth 64 = l.setWidth 64 ||| (f.setWidth 64 <<< 16) := by
  refine BitVec.eq_of_getLsbD_eq fun i hi => ?_
  rw [BitVec.getLsbD_setWidth, BitVec.getLsbD_append, BitVec.getLsbD_or, BitVec.getLsbD_setWidth, BitVec.getLsbD_shiftLeft,
    BitVec.getLsbD_setWidth]
  by_cases h : i < 16
  · simp [h, hi]
  · have hl : l.getLsbD i = false := BitVec.getLsbD_of_ge l _ (by omega)
    have hi' : i - 16 < 64 := by omega
    simp [h, hi, hi', hl]

theorem elementsTrap_of_exec {i : Instr} {s : State} {n : Nat} {es : List FElem} {counted : Bool} {write : Plane → Plane}
    (hes : ∀ e ∈ es, e.lane < 16) (h : exec i s = .next (s.fpEnd n es counted write)) : ElementsTrap i s es := by
  have hany : (s.pl.sr.fpen.getLsbD 5 && es.any fun e => e.r.sn) = true ↔ s.pl.sr.fpen.getLsbD 5 = true ∧ ∃ e ∈ es, e.r.sn = true := by
    rw [Bool.and_eq_true, List.any_eq_true]
  refine ⟨fun hsn => ⟨_, h, ?_⟩, fun hsn hfl => ⟨_, h, ?_⟩⟩
  · unfold State.fpEnd
    dsimp only
    rw [if_pos (hany.mpr hsn), lanesOf_eq hes fun x => x.sn]
    rfl
  · have hf : (es.any fun e => e.r.fl &&& (s.pl.sr.fpen.setWidth 5).setWidth 6 != 0) = true := by
      obtain ⟨e, he, hne⟩ := hfl
      exact List.any_eq_true.mpr ⟨e, he, bne_iff_ne.mpr hne⟩
    unfold State.fpEnd
    dsimp only
    rw [if_neg (mt hany.mp hsn), if_pos hf, lanesOf_eq hes fun x => x.fl &&& (s.pl.sr.fpen.setWidth 5).setWidth 6 != 0,
      ← setWidth_append_lanes]
    rfl

/-! ### Instructions that write one v register -/

theorem regsOnly_wv (d : BitVec 5) (f : Plane → VReg) : RegsOnly fun x => x.wv d (f x) := fun _ => ⟨_, rfl⟩

theorem rv_of_regs {p q : Plane} (h : p.regs = q.regs) (r : BitVec 5) : p.rv r = q.rv r := by rw [Plane.rv, Plane.rv]; simp only [h]
theorem rg_of_regs {p q : Plane} (h : p.regs = q.regs) (r : BitVec 6) : p.rg r = q.rg r := by rw [Plane.rg, Plane.rg]; simp only [h]
theorem rp_of_regs {p q : Plane} (h : p.regs = q.regs) (r : BitVec 3) : p.rp r = q.rp r := by rw [Plane.rp, Plane.rp]; simp only [h]
theorem rm_of_regs {p q : Plane} (h : p.regs = q.regs) (r : BitVec 3) : p.rm r = q.rm r := by rw [Plane.rm, Plane.rm]; simp only [h]

/-- The registers of `q` are those of `p`, but `vd` holds `x`. -/
def WroteV (p q : Plane) (vd : BitVec 5) (x : VReg) : Prop :=
  q.rv vd = x ∧ (∀ r, r ≠ vd → q.rv r = p.rv r) ∧ (∀ r, q.rg r = p.rg r) ∧ (∀ r, q.rp r = p.rp r) ∧ ∀ r, q.rm r = p.rm r

theorem wroteV_of_regs {p q : Plane} {vd : BitVec 5} {x : VReg} (h : q.regs = (p.wv vd x).regs) : WroteV p q vd x := by
  refine ⟨?_, fun r hr => ?_, fun r => ?_, fun r => ?_, fun r => ?_⟩
  · rw [rv_of_regs h, Plane.rv_wv, if_pos rfl]
  · rw [rv_of_regs h, Plane.rv_wv, if_neg hr]
  · exact rg_of_regs h r
  · exact rp_of_regs h r
  · exact rm_of_regs h r

/-- An instruction on quiet elements that writes `vd`. -/
theorem writesV_fpEnd {s : State} {es : List FElem} (hq : Quiet s es) (n : Nat) (counted : Bool) (vd : BitVec 5) (x : Plane → VReg) :
    ElementsDone s (s.fpEnd n es counted fun p => p.wv vd (x p)) n es counted ∧
      WroteV s.pl (s.fpEnd n es counted fun p => p.wv vd (x p)).pl vd (x s.pl) := by
  obtain ⟨hdone, hregs⟩ := elementsDone_fpEnd hq n counted (regsOnly_wv vd x)
  exact ⟨hdone, wroteV_of_regs hregs⟩

/-- The results of `n` elements, the others 0, written to the active lanes. -/
theorem lanesAre_resultBits (ty n : Nat) (k : BitVec 16) (old : VReg) (f : Nat → FRes) :
    LanesAre (tyWidth ty) k old (mergeLanes k old (resultBits (tyWidth ty) (elemResults (tyWidth ty) n k f)))
      fun e => if e < n then (f e).bits else 0 := by
  intro e he
  rw [elemAt_mergeLanes (tyWidth_dvd ty) he]
  split
  · rename_i hk
    exact elemAt_resultBits he n hk f
  · rfl

/-- The elements of the shared form of R410. -/
def formElems (w : Nat) (k : BitVec 16) (fmt : Option Fmt) (f : Nat → FRes) : List FElem :=
  (actives w k).map fun e => { lane := w * e / 64, r := f e, fmt := fmt }

theorem lane_lt_of_mem_formElems {ty : Nat} {k : BitVec 16} {fmt : Option Fmt} {f : Nat → FRes} :
    ∀ e ∈ formElems (tyWidth ty) k fmt f, e.lane < 16 := by
  intro e he
  obtain ⟨x, hx, rfl⟩ := List.mem_map.mp he
  exact elemLane_lt (tyWidth_pos ty) (List.mem_range.mp (List.mem_filter.mp hx).1)

theorem vecOp_eq (s : State) (n : Nat) (g : BitVec 4) (w : Nat) (fmt : Option Fmt) (vd : BitVec 5) (f : Nat → FRes) :
    s.vecOp n g w fmt vd f = s.fpEnd n (formElems w (s.pl.vguard g) fmt f) true fun x =>
      x.wv vd (mergeLanes (s.pl.vguard g) (x.rv vd) (resultBits w (elemResults w (1024 / w) (s.pl.vguard g) f))) := by
  rw [State.vecOp, activeElems_elemResults]
  rfl

/-- The shared form of R410 ends as its elements say. -/
theorem vectorEnds_of_exec {i : Instr} {s : State} {n : Nat} {g : BitVec 4} {ty : Nat} {fmt : Option Fmt} {vd : BitVec 5} {f : Nat → FRes}
    (h : exec i s = .next (s.vecOp n g (tyWidth ty) fmt vd f)) : VectorEnds i s n g vd (tyWidth ty) fmt f := by
  rw [vecOp_eq] at h
  refine ⟨fun hq => ⟨_, h, ?_⟩, elementsTrap_of_exec lane_lt_of_mem_formElems h⟩
  obtain ⟨hdone, hvd, hrest⟩ := writesV_fpEnd hq n true vd fun x =>
    mergeLanes (s.pl.vguard g) (x.rv vd) (resultBits (tyWidth ty) (elemResults (tyWidth ty) (1024 / tyWidth ty) (s.pl.vguard g) f))
  refine ⟨hdone, fun e he => (congrArg (elemAt (tyWidth ty) · e) hvd).trans ?_, hrest⟩
  rw [lanesAre_resultBits ty _ _ _ f e he]
  simp only [he, if_true]

/-- Settles O20. -/
theorem vectorArithmetic : Obligations.VectorArithmetic := by
  intro s
  refine ⟨?_, ?_, ⟨fun o => ?_, fun o => ?_⟩, ⟨fun o => ?_, fun o => ?_⟩, ?_, ?_⟩
  · simp only [List.forall_mem_cons, List.not_mem_nil, false_imp_iff, implies_true, and_true]
    exact ⟨⟨fun o => vectorEnds_of_exec rfl, fun o => vectorEnds_of_exec rfl⟩,
      ⟨fun o => vectorEnds_of_exec rfl, fun o => vectorEnds_of_exec rfl⟩, fun o => vectorEnds_of_exec rfl, fun o => vectorEnds_of_exec rfl⟩
  · simp only [List.forall_mem_cons, List.not_mem_nil, false_imp_iff, implies_true, and_true]
    exact ⟨fun o => vectorEnds_of_exec rfl, fun o => vectorEnds_of_exec rfl, fun o => vectorEnds_of_exec rfl⟩
  · exact vectorEnds_of_exec rfl
  · exact vectorEnds_of_exec rfl
  · exact vectorEnds_of_exec rfl
  · exact vectorEnds_of_exec rfl
  · simp only [List.forall_mem_cons, List.not_mem_nil, false_imp_iff, implies_true, and_true]
    exact ⟨fun o => vectorEnds_of_exec rfl, fun o => vectorEnds_of_exec rfl⟩
  · simp only [List.forall_mem_cons, List.not_mem_nil, false_imp_iff, implies_true, and_true]
    exact ⟨⟨fun o => vectorEnds_of_exec rfl, fun o => vectorEnds_of_exec rfl⟩, fun o => vectorEnds_of_exec rfl, fun o => vectorEnds_of_exec rfl⟩

/-! ### Integer elements (R144) -/

theorem intOf_eq {signed : Bool} {w : Nat} (hw : 0 < w) (b : Nat) :
    intOf signed w b = if signed then (BitVec.ofNat w b).toInt else ((BitVec.ofNat w b).toNat : Int) := by
  have hpow : 2 ^ w = 2 * 2 ^ (w - 1) := by rw [← Nat.pow_succ']; congr 1; omega
  cases signed
  · simp [intOf]
  · rw [if_pos rfl, BitVec.toInt_eq_toNat_cond, BitVec.toNat_ofNat, intOf, Bool.true_and]
    by_cases h : 2 ^ (w - 1) ≤ b % 2 ^ w
    · rw [if_pos (decide_eq_true h), if_neg (by omega)]
      push_cast
      rfl
    · rw [if_neg (by simpa using h), if_pos (by omega)]
      push_cast
      rfl

theorem ofNat_wrapInt (w : Nat) (x : Int) : BitVec.ofNat w (wrapInt w x) = BitVec.ofInt w x := by
  have hx : ((wrapInt w x : Nat) : Int) = x % 2 ^ w := Int.toNat_of_nonneg (Int.emod_nonneg _ (by positivity))
  rw [← BitVec.ofInt_natCast, hx]
  apply BitVec.eq_of_toInt_eq
  rw [BitVec.toInt_ofInt, BitVec.toInt_ofInt]
  exact Int.emod_bmod ..

/-- What an exact result comes to in an integer type (R144): wrapped, or clamped with SV. -/
def IntegerEnds (signed : Bool) (w : Nat) (sat : Bool) (r : FRes) (x : Int) : Prop :=
  r.sn = false ∧ r.flush = 0 ∧ r.clamp = (sat && decide (x < intLo signed w ∨ intHi signed w < x)) ∧
    r.fl = (if r.clamp = true then 32#6 else 0#6) ∧
    BitVec.ofNat w r.bits = BitVec.ofInt w (if sat then max (intLo signed w) (min (intHi signed w) x) else x)

theorem intLo_le_intHi (signed : Bool) (w : Nat) : intLo signed w ≤ intHi signed w := by
  have h1 : (0 : Int) < 2 ^ (w - 1) := by positivity
  have h2 : (0 : Int) < 2 ^ w := by positivity
  cases signed <;> simp only [intLo, intHi, if_true, if_false, Bool.false_eq_true] <;> omega

theorem integerEnds_intInto (signed : Bool) (w : Nat) (sat : Bool) (x : Int) : IntegerEnds signed w sat (intInto signed w sat x) x := by
  have hle := intLo_le_intHi signed w
  unfold intInto IntegerEnds
  cases sat with
  | false => simp [FRes.ok, ofNat_wrapInt]
  | true =>
    by_cases hlo : x < intLo signed w
    · simp [hlo, FRes.ok, ofNat_wrapInt, fSV, min_eq_right (by omega : x ≤ intHi signed w), max_eq_left hlo.le]
    · by_cases hhi : intHi signed w < x
      · simp [hlo, hhi, FRes.ok, ofNat_wrapInt, fSV, min_eq_left hhi.le, max_eq_right hle]
      · simp [hlo, hhi, FRes.ok, ofNat_wrapInt, min_eq_right (not_lt.mp hhi), max_eq_right (not_lt.mp hlo)]

/-- Settles O21. -/
theorem integerElements : Obligations.IntegerElements := by
  intro ty k sat a b h6 h13
  have hfp : tyFp ty = false := by simp [tyFp]; omega
  have hsig : tySigned ty = decide (ty ≤ 9) := by simp [tySigned, h6]
  have hpos := tyWidth_pos ty
  have hval (x : Nat) := intOf_eq (signed := decide (ty ≤ 9)) hpos x
  have harith (o : Arith) : o.elem ty k sat a b = intInto (tySigned ty) (tyWidth ty) sat
      (o.int (intOf (tySigned ty) (tyWidth ty) a) (intOf (tySigned ty) (tyWidth ty) b)) := by
    rw [Arith.elem, if_neg (by rw [hfp]; decide)]
  have hminmax (isMax : Bool) : minMaxElem ty k isMax false a b = FRes.ok (
      if isMax then (if intOf (tySigned ty) (tyWidth ty) a < intOf (tySigned ty) (tyWidth ty) b then b else a)
      else if intOf (tySigned ty) (tyWidth ty) a < intOf (tySigned ty) (tyWidth ty) b then a else b) := by
    rw [minMaxElem, if_neg (by rw [hfp]; decide)]
    simp only [decide_eq_true_eq]
  have hsign (h9 : ty ≤ 9) (neg : Bool) : signElem ty neg sat a = intInto true (tyWidth ty) sat
      (if neg || decide (intOf true (tyWidth ty) a < 0) then -intOf true (tyWidth ty) a else intOf true (tyWidth ty) a) := by
    rw [signElem, if_neg (by rw [hfp]; decide)]
  simp only [hsig, hval] at harith hminmax
  refine ⟨?_, ?_, ?_, fun h9 => ?_, hminmax false, hminmax true⟩
  · rw [harith]; exact integerEnds_intInto ..
  · rw [harith]; exact integerEnds_intInto ..
  · rw [harith]; exact integerEnds_intInto ..
  · rw [decide_eq_true h9] at hval
    rw [decide_eq_true h9, hsign h9, hsign h9, hval, Bool.true_or, if_pos rfl, Bool.false_or]
    refine ⟨integerEnds_intInto .., ?_⟩
    have hmax (x : Int) : (if decide (x < 0) = true then -x else x) = max x (-x) := by
      split <;> rename_i h <;> simp only [decide_eq_true_eq] at h <;> omega
    rw [hmax]
    exact integerEnds_intInto ..

/-! ### Moves of bits -/

/-- Elements that move bits: no flag, no sNaN, nothing to count. -/
def Still (es : List FElem) : Prop := ∀ e ∈ es, e.fmt = none ∧ ∃ b, e.r = FRes.ok b

theorem Still.quiet {es : List FElem} (h : Still es) (s : State) : Quiet s es := by
  refine ⟨fun _ e he => ?_, fun e he => ?_⟩ <;> obtain ⟨_, b, hb⟩ := h e he <;> rw [hb]
  · rfl
  · exact BitVec.zero_and

theorem Still.flags {es : List FElem} (h : Still es) (m : BitVec 6) : es.foldl (fun m e => m ||| e.r.fl) m = m := by
  induction es generalizing m with
  | nil => rfl
  | cons e es ih =>
    obtain ⟨_, b, hb⟩ := h e List.mem_cons_self
    rw [List.foldl_cons, ih fun x hx => h x (List.mem_cons_of_mem e hx), hb]
    exact BitVec.or_zero

theorem Still.count {es : List FElem} (h : Still es) (s : State) (counted : Bool) : countElements s es counted = s := by
  have hsum (f : FElem → Nat) (hf : ∀ e ∈ es, f e = 0) : (es.map f).sum = 0 :=
    List.sum_eq_zero fun x hx => by
      obtain ⟨e, he, rfl⟩ := List.mem_map.mp hx
      exact hf e he
  cases counted
  · rfl
  · rw [countElements, if_pos rfl, State.stat, if_pos]
    simp only [Bool.and_eq_true, decide_eq_true_eq]
    refine ⟨⟨⟨hsum _ ?_, hsum _ ?_⟩, hsum _ ?_⟩, hsum _ ?_⟩
    all_goals
      intro e he
      obtain ⟨hfmt, b, hb⟩ := h e he
      simp [FElem.isInf, FElem.isNan, hfmt, hb, FRes.ok]

theorem Still.completed {s t : State} {n : Nat} {es : List FElem} {counted : Bool} (h : Still es) (hdone : ElementsDone s t n es counted) :
    Completed s t n ∧ t.pl.sr = s.pl.sr := by
  obtain ⟨ht, hmem, hrest, hpc, hloop, hhold, hsr⟩ := hdone
  refine ⟨⟨ht.trans ?_, hmem, hrest, hpc, hloop, hhold⟩, ?_⟩
  · exact congrArg (fun u : State => u.modPl fun _ => t.pl) (h.count s counted)
  · rw [hsr, h.flags]

theorem still_moved (w : Nat) (k : BitVec 16) (f : Nat → Nat) : Still (formElems w k none fun e => FRes.ok (f e)) := by
  intro e he
  obtain ⟨x, _, rfl⟩ := List.mem_map.mp he
  exact ⟨rfl, _, rfl⟩

/-- The shared form of R410 on elements that move bits. -/
theorem moves_of_exec {i : Instr} {s : State} {n : Nat} {g : BitVec 4} {ty : Nat} {vd : BitVec 5} {f f' : Nat → Nat}
    (h : exec i s = .next (s.vecMove n g (tyWidth ty) vd f')) (hf : ∀ e, f' e % 2 ^ tyWidth ty = f e % 2 ^ tyWidth ty) :
    Moves i s n g vd (tyWidth ty) f := by
  have hstill := still_moved (tyWidth ty) (s.pl.vguard g) f'
  obtain ⟨t, ht, hdone, hlanes, hrest⟩ := (vectorEnds_of_exec h).1 (hstill.quiet s)
  obtain ⟨hcomp, hsr⟩ := hstill.completed hdone
  refine ⟨t, ht, hcomp, hsr, fun e he => ?_, hrest⟩
  rw [hlanes e he, ← hf e]
  rfl

theorem toNat_extractLsb'_eq (v : VReg) (l : Nat) : (v.extractLsb' (64 * l) 64).toNat = elemAt 64 v l := (elemAt_eq 64 v l).symm

/-- The second source of the logic majors. -/
theorem elemB_word (sc : BitVec 1) (gs : Word) (v : VReg) (l : Nat) :
    elemB 64 sc gs v l = (if sc = 1 then gs else v.extractLsb' (64 * l) 64).toNat := by
  unfold elemB
  split
  · exact Nat.mod_eq_of_lt gs.isLt
  · exact elemAt_eq 64 v l

/-- A logic major of two words (R415). -/
theorem movesLogic {i : Instr} {s : State} {n : Nat} {f : Nat → Nat → Nat} {f' : Word → Word → Word} {g : BitVec 4} {vd va vb : BitVec 5}
    {sc : BitVec 1} {gs : BitVec 6} (h : exec i s = .next (s.vlog n f g vd va vb sc gs)) (hf : ∀ a b, f a.toNat b.toNat = (f' a b).toNat) :
    Moves i s n g vd 64 fun l => (f' ((s.pl.rv va).extractLsb' (64 * l) 64) (if sc = 1 then s.pl.rg gs else (s.pl.rv vb).extractLsb' (64 * l) 64)).toNat :=
  moves_of_exec (ty := 0) h fun l => by
    rw [elemB_word, elemAt_eq, hf]

theorem shl_eq (w a c : Nat) : Shift.shl.elem w a c % 2 ^ w = (BitVec.ofNat w a <<< c).toNat % 2 ^ w := by
  rw [BitVec.toNat_shiftLeft, BitVec.toNat_ofNat, Nat.shiftLeft_eq, Shift.elem, Nat.mod_mod, Nat.mod_mod, Nat.mod_mul_mod]

theorem shr_eq {w a : Nat} (ha : a < 2 ^ w) (c : Nat) : Shift.shr.elem w a c % 2 ^ w = (BitVec.ofNat w a >>> c).toNat % 2 ^ w := by
  rw [BitVec.toNat_ushiftRight, BitVec.toNat_ofNat, Nat.mod_eq_of_lt ha, Nat.shiftRight_eq_div_pow]
  rfl

theorem sar_eq {w : Nat} (hw : 0 < w) (a c : Nat) : Shift.sar.elem w a c % 2 ^ w = ((BitVec.ofNat w a).sshiftRight c).toNat % 2 ^ w := by
  have hx : (BitVec.ofNat w a).sshiftRight c = BitVec.ofNat w (Shift.sar.elem w a c) := by
    rw [Shift.elem, ofNat_wrapInt, intOf_eq hw, if_pos rfl, BitVec.sshiftRight, Int.shiftRight_eq_div_pow]
    push_cast
    rfl
  rw [hx, BitVec.toNat_ofNat, Nat.mod_mod]

/-- VEXT (R423). -/
theorem vext_ends (s : State) (o : Vext) : ∃ t, exec (.vext o) s = .next t ∧
    if (s.pl.vguard o.g).getLsbD (tyWidth o.ty.toNat * o.el.toNat / 64) = true
    then WritesG s t 2 o.gs (BitVec.ofInt 64 (intOf (tySigned o.ty.toNat) (tyWidth o.ty.toNat) (elemAt (tyWidth o.ty.toNat) (s.pl.rv o.va) o.el.toNat)))
    else Unchanged s t 2 := by
  refine ⟨_, rfl, ?_⟩
  rw [elemLane]
  by_cases h : (s.pl.vguard o.g).getLsbD (tyWidth o.ty.toNat * o.el.toNat / 64) = true
  · rw [if_pos h, if_pos h]
    exact writesG_advance ..
  · rw [if_neg h, if_neg h]
    exact unchanged_advance ..

/-- Settles O22. -/
theorem vectorMoves : Obligations.VectorMoves := by
  intro s
  refine ⟨?_, ?_, fun o => ?_, fun o => ?_, fun o => ?_, fun o => ?_, fun o => ?_, fun o => ?_, fun o => ?_⟩
  · simp only [List.forall_mem_cons, List.not_mem_nil, false_imp_iff, implies_true, and_true]
    exact ⟨⟨fun o => movesLogic (sc := 0) (gs := 0) rfl fun _ _ => (BitVec.toNat_and ..).symm,
      fun o => movesLogic rfl fun _ _ => (BitVec.toNat_and ..).symm⟩,
      ⟨fun o => movesLogic (sc := 0) (gs := 0) rfl fun _ _ => (BitVec.toNat_or ..).symm, fun o => movesLogic rfl fun _ _ => (BitVec.toNat_or ..).symm⟩,
      fun o => movesLogic (sc := 0) (gs := 0) rfl fun _ _ => (BitVec.toNat_xor ..).symm, fun o => movesLogic rfl fun _ _ => (BitVec.toNat_xor ..).symm⟩
  · simp only [List.forall_mem_cons, List.not_mem_nil, false_imp_iff, implies_true, and_true]
    exact ⟨⟨fun o => moves_of_exec rfl fun _ => shl_eq .., fun o => moves_of_exec rfl fun _ => shl_eq ..⟩,
      ⟨fun o => moves_of_exec rfl fun _ => shr_eq (elemAt_lt ..) _, fun o => moves_of_exec rfl fun _ => shr_eq (elemAt_lt ..) _⟩,
      fun o => moves_of_exec rfl fun _ => sar_eq (tyWidth_pos _) .., fun o => moves_of_exec rfl fun _ => sar_eq (tyWidth_pos _) ..⟩
  · refine moves_of_exec (ty := 0) rfl fun l => ?_
    dsimp only
    rw [toNat_extractLsb'_eq, toNat_extractLsb'_eq]
  · exact moves_of_exec rfl fun _ => Nat.mod_mod _ _
  · exact moves_of_exec rfl fun _ => rfl
  · obtain ⟨t, ht, hend⟩ := vext_ends s o
    refine ⟨t, ht, ?_⟩
    rw [intOf_eq (tyWidth_pos _)] at hend
    simpa only [tySigned, decide_eq_true_eq] using hend
  · exact moves_of_exec rfl fun _ => rfl
  · exact moves_of_exec rfl fun _ => rfl
  · exact moves_of_exec rfl fun _ => rfl

/-! ### Comparisons (R419) -/

/-- Bits set one by one where `p` holds. -/
theorem getLsbD_foldl_set (p : Nat → Bool) (n : Nat) {l : Nat} (hl : l < 16) :
    ((List.range n).foldl (fun m i => if p i then m ||| (1#16 <<< i) else m) 0#16).getLsbD l = (decide (l < n) && p l) := by
  induction n with
  | zero => simp
  | succ n ih =>
    rw [List.range_succ, List.foldl_append, List.foldl_cons, List.foldl_nil]
    by_cases hln : l = n
    · subst hln
      cases hp : p l
      · rw [if_neg Bool.false_ne_true, ih]
        simp [hp]
      · rw [if_pos rfl, BitVec.getLsbD_or, getLsbD_one_shiftLeft _ hl]
        simp
    · have hlt : decide (l < n + 1) = decide (l < n) := decide_eq_decide.mpr (by omega)
      rw [hlt, ← ih]
      split
      · rw [BitVec.getLsbD_or, getLsbD_one_shiftLeft _ hl, decide_eq_false hln, Bool.or_false]
      · rfl

theorem getLsbD_allTrue (k : BitVec 16) (cs : List (Nat × Bool)) {l : Nat} (hl : l < 16) :
    (allTrue k cs).getLsbD l = (k.getLsbD l && cs.all fun c => c.1 != l || c.2) := by
  rw [allTrue]
  exact (getLsbD_foldl_set (fun i => k.getLsbD i && cs.all fun c => c.1 != i || c.2) 16 hl).trans (by simp [hl])

/-- One element of VCMP: whether the relation holds, and the flags. -/
def vcmpRel (s : State) (o : Vcmp) (e : Nat) : Bool × FRes :=
  cmpElem o.ty.toNat (s.pl.fctl 0) o.cond.toNat (elemAt (tyWidth o.ty.toNat) (s.pl.rv o.va) e)
    (elemB (tyWidth o.ty.toNat) o.sc (s.pl.rg o.gs) (s.pl.rv o.vb) e)

/-- The lanes whose active elements all satisfy the relation. -/
def vcmpYes (s : State) (o : Vcmp) : BitVec 16 :=
  allTrue (s.pl.vguard o.g) ((actives (tyWidth o.ty.toNat) (s.pl.vguard o.g)).map fun e => (tyWidth o.ty.toNat * e / 64, (vcmpRel s o e).1))

theorem exec_vcmp {s : State} {o : Vcmp} (hg : o.g ≠ 8) : exec (.vcmp o) s =
    .next (s.fpEnd 2 (formElems (tyWidth o.ty.toNat) (s.pl.vguard o.g) none fun e => (vcmpRel s o e).2) false fun x =>
      (x.wm o.md (vcmpYes s o)).wm o.mq (s.pl.vguard o.g &&& ~~~(vcmpYes s o))) := by
  change execVcmp o s = _
  unfold execVcmp
  dsimp only
  rw [if_neg hg, List.map_map, List.map_map]
  rfl

theorem exec_vcmp_never {s : State} {o : Vcmp} (hg : o.g = 8) : exec (.vcmp o) s = .next (s.advance 2) := by
  change execVcmp o s = _
  unfold execVcmp
  rw [if_pos hg]

theorem getLsbD_vcmpYes (s : State) (o : Vcmp) {l : Nat} (hl : l < 16) : (vcmpYes s o).getLsbD l = ((s.pl.vguard o.g).getLsbD l &&
    (actives (tyWidth o.ty.toNat) (s.pl.vguard o.g)).all fun e => tyWidth o.ty.toNat * e / 64 != l || (vcmpRel s o e).1) := by
  rw [vcmpYes, getLsbD_allTrue _ _ hl, List.all_map]
  rfl

/-- Settles O23. -/
theorem vectorCompare : Obligations.VectorCompare := by
  intro s o
  refine ⟨fun hg => ⟨_, exec_vcmp_never hg, unchanged_advance s 2⟩, fun hg hq => ⟨_, exec_vcmp hg, ?_⟩⟩
  obtain ⟨hdone, hregs⟩ := elementsDone_fpEnd hq 2 false
    ((regsOnly_wm o.md fun _ => vcmpYes s o).comp (regsOnly_wm o.mq fun _ => s.pl.vguard o.g &&& ~~~(vcmpYes s o)))
  have hrm (r : BitVec 3) := (rm_of_regs hregs r).trans (Plane.rm_wm ..)
  refine ⟨hdone, fun l hl hmq => ?_, fun l hl hmd hne => ?_, hrm 0, fun r hd hq => ?_, fun r => ?_, fun r => ?_, fun r => ?_⟩
  · refine (congrArg (BitVec.getLsbD · l) (hrm o.mq)).trans ?_
    dsimp only
    rw [if_neg hmq, if_pos rfl, BitVec.getLsbD_and, BitVec.getLsbD_not, getLsbD_vcmpYes s o hl, decide_eq_true hl, Bool.true_and,
      List.all_eq_not_any_not]
    cases (s.pl.vguard o.g).getLsbD l
    · rfl
    · simp only [Bool.true_and, Bool.not_not, Bool.not_or, bne, vcmpRel]
      rfl
  · refine (congrArg (BitVec.getLsbD · l) (hrm o.md)).trans ?_
    dsimp only
    rw [if_neg hmd, if_neg hne, Plane.rm_wm, if_neg hmd, if_pos rfl]
    exact getLsbD_vcmpYes s o hl
  · refine (hrm r).trans ?_
    rw [if_neg hq, Plane.rm_wm, if_neg hd]
    by_cases h0 : r = 0
    · rw [if_pos h0, h0]
      rfl
    · rw [if_neg h0, if_neg h0]
  · exact (rv_of_regs hregs r).trans (by simp)
  · exact (rg_of_regs hregs r).trans (by simp)
  · exact (rp_of_regs hregs r).trans (by simp)

/-! ### Folds (R439) -/

theorem map_fst_foldl_cons {step : List (Nat × FRes) → Nat → List (Nat × FRes)}
    (hstep : ∀ acc e, (step acc e).map (·.1) = e :: acc.map (·.1)) (es : List Nat) (acc : List (Nat × FRes)) :
    (es.foldl step acc).map (·.1) = es.reverse ++ acc.map (·.1) := by
  induction es generalizing acc with
  | nil => rfl
  | cons e es ih => rw [List.foldl_cons, ih, hstep, List.reverse_cons, List.append_assoc, List.singleton_append]

/-- The steps go over the active elements, each once and in order. -/
theorem map_fst_redSteps (ty : Nat) (k : FCtl) (op : Nat) (v : VReg) (es : List Nat) : (redSteps ty k op v es).map (·.1) = es := by
  rw [redSteps, List.map_reverse, map_fst_foldl_cons]
  · simp
  · intro acc e
    cases acc <;> rfl

/-- The steps of VRED and VSCAN over the active elements of a state. -/
def foldSteps (s : State) (g : BitVec 4) (va : BitVec 5) (ty : BitVec 4) (op : Nat) : List (Nat × FRes) :=
  redSteps ty.toNat (s.pl.fctl 0) op (s.pl.rv va) (actives (tyWidth ty.toNat) (s.pl.vguard g))

/-- What VRED comes to. -/
def foldTotal (ty op : Nat) (rs : List (Nat × FRes)) : Nat :=
  match rs.getLast? with | some r => r.2.bits | none => redIdentity ty op

theorem reduce_eq (s : State) (n : Nat) (g : BitVec 4) (vd va : BitVec 5) (ty : BitVec 4) (op : Nat) :
    s.reduce n g vd va ty op = s.fpEnd n
      ((foldSteps s g va ty op).map (fun r => { lane := tyWidth ty.toNat * r.1 / 64, r := r.2, fmt := none }) ++
        [{ lane := 0, r := FRes.ok (foldTotal ty.toNat op (foldSteps s g va ty op)), fmt := tyFmt ty.toNat }]) true
      fun x => x.wv vd (ofElems (tyWidth ty.toNat) (foldTotal ty.toNat op (foldSteps s g va ty op) ::
        (List.range (1024 / tyWidth ty.toNat - 1)).map fun e => elemAt (tyWidth ty.toNat) (x.rv vd) (e + 1))) := rfl

/-- What VSCAN writes to an element. -/
def scanBits (rs : List (Nat × FRes)) (e : Nat) : Nat := match rs.find? fun r => r.1 == e with | some r => r.2.bits | none => 0

theorem scan_eq (s : State) (n : Nat) (g : BitVec 4) (vd va : BitVec 5) (ty : BitVec 4) (op : Nat) :
    s.scan n g vd va ty op = s.fpEnd n
      ((foldSteps s g va ty op).map fun r => { lane := tyWidth ty.toNat * r.1 / 64, r := r.2, fmt := tyFmt ty.toNat }) true
      fun x => x.wv vd (mergeLanes (s.pl.vguard g) (x.rv vd)
        (ofElems (tyWidth ty.toNat) ((List.range (1024 / tyWidth ty.toNat)).map (scanBits (foldSteps s g va ty op))))) := rfl

/-- Element 0 replaced. -/
theorem elemAt_replaceFirst {w e : Nat} (he : e < 1024 / w) (x : Nat) (old : VReg) :
    elemAt w (ofElems w (x :: (List.range (1024 / w - 1)).map fun e => elemAt w old (e + 1))) e =
      if e = 0 then x % 2 ^ w else elemAt w old e := by
  rw [elemAt_ofElems he]
  cases e with
  | zero => rfl
  | succ e =>
    have hlt : e < 1024 / w - 1 := by omega
    rw [List.getD_cons_succ, List.getD_eq_getElem _ _ (by simpa using hlt), if_neg (Nat.succ_ne_zero e)]
    simp

/-- An active element has a step, an inactive one has none. -/
theorem find?_foldSteps_isSome (s : State) (g : BitVec 4) (va : BitVec 5) (ty : BitVec 4) (op : Nat) {e : Nat} (he : e < 1024 / tyWidth ty.toNat) :
    ((foldSteps s g va ty op).find? fun r => r.1 == e).isSome = (s.pl.vguard g).getLsbD (tyWidth ty.toNat * e / 64) := by
  have hmem : e ∈ (foldSteps s g va ty op).map (·.1) ↔ (s.pl.vguard g).getLsbD (tyWidth ty.toNat * e / 64) = true := by
    rw [foldSteps, map_fst_redSteps, actives, List.mem_filter, List.mem_range]
    exact and_iff_right he
  rw [Bool.eq_iff_iff, ← hmem, List.find?_isSome, List.mem_map]
  simp only [beq_iff_eq]

theorem reduce_ends {s : State} {i : Instr} {n : Nat} {g : BitVec 4} {vd va : BitVec 5} {ty : BitVec 4} {op : Nat}
    (h : exec i s = .next (s.reduce n g vd va ty op)) : 
    let rs := foldSteps s g va ty op
    let es : List FElem := rs.map (fun r => { lane := tyWidth ty.toNat * r.1 / 64, r := r.2, fmt := none }) ++
      [{ lane := 0, r := FRes.ok (foldTotal ty.toNat op rs), fmt := tyFmt ty.toNat }]
    Quiet s es → ∃ t, exec i s = .next t ∧ ElementsDone s t n es true ∧
      (∀ e < 1024 / tyWidth ty.toNat, elemAt (tyWidth ty.toNat) (t.pl.rv vd) e =
        if e = 0 then foldTotal ty.toNat op rs % 2 ^ tyWidth ty.toNat else elemAt (tyWidth ty.toNat) (s.pl.rv vd) e) ∧
      (∀ r, r ≠ vd → t.pl.rv r = s.pl.rv r) ∧ (∀ r, t.pl.rg r = s.pl.rg r) ∧ (∀ r, t.pl.rp r = s.pl.rp r) ∧ ∀ r, t.pl.rm r = s.pl.rm r := by
  intro rs es hq
  rw [reduce_eq] at h
  obtain ⟨hdone, hvd, hrest⟩ := writesV_fpEnd hq n true vd fun x => ofElems (tyWidth ty.toNat) (foldTotal ty.toNat op rs ::
    (List.range (1024 / tyWidth ty.toNat - 1)).map fun e => elemAt (tyWidth ty.toNat) (x.rv vd) (e + 1))
  exact ⟨_, h, hdone, fun e he => (congrArg (elemAt (tyWidth ty.toNat) · e) hvd).trans (elemAt_replaceFirst he ..), hrest⟩

theorem scan_ends {s : State} {i : Instr} {n : Nat} {g : BitVec 4} {vd va : BitVec 5} {ty : BitVec 4} {op : Nat}
    (h : exec i s = .next (s.scan n g vd va ty op)) : 
    let rs := foldSteps s g va ty op
    let es : List FElem := rs.map fun r => { lane := tyWidth ty.toNat * r.1 / 64, r := r.2, fmt := tyFmt ty.toNat }
    Quiet s es → ∃ t, exec i s = .next t ∧ ElementsDone s t n es true ∧
      (∀ e < 1024 / tyWidth ty.toNat, elemAt (tyWidth ty.toNat) (t.pl.rv vd) e =
        ((rs.find? fun r => r.1 == e).map fun r => r.2.bits % 2 ^ tyWidth ty.toNat).getD (elemAt (tyWidth ty.toNat) (s.pl.rv vd) e)) ∧
      (∀ r, r ≠ vd → t.pl.rv r = s.pl.rv r) ∧ (∀ r, t.pl.rg r = s.pl.rg r) ∧ (∀ r, t.pl.rp r = s.pl.rp r) ∧ ∀ r, t.pl.rm r = s.pl.rm r := by
  intro rs es hq
  rw [scan_eq] at h
  obtain ⟨hdone, hvd, hrest⟩ := writesV_fpEnd hq n true vd fun x => mergeLanes (s.pl.vguard g) (x.rv vd)
        (ofElems (tyWidth ty.toNat) ((List.range (1024 / tyWidth ty.toNat)).map (scanBits rs)))
  refine ⟨_, h, hdone, fun e he => (congrArg (elemAt (tyWidth ty.toNat) · e) hvd).trans ?_, hrest⟩
  have hsome := find?_foldSteps_isSome s g va ty op he
  rw [elemAt_mergeLanes (tyWidth_dvd _) he, elemAt_ofElems he, ← hsome, List.getD_eq_getElem _ _ (by simpa using he), List.getElem_map,
    List.getElem_range, scanBits]
  cases rs.find? fun r => r.1 == e with
  | none => rfl
  | some r => rfl

/-- Settles O24. -/
theorem vectorFolds : Obligations.VectorFolds := by
  intro s
  refine ⟨fun o => ⟨reduce_ends rfl, fun hq => ?_⟩, fun o => ⟨reduce_ends rfl, fun hq => ?_⟩⟩
  · obtain ⟨t, ht, hdone, hvd, hrest⟩ := scan_ends (i := .vscan o) rfl hq
    refine ⟨t, ht, hdone, fun e he => (hvd e he).trans ?_, hrest⟩
    unfold foldSteps
    rw [if_neg Bool.false_ne_true]
    cases (redSteps _ _ _ _ _).find? fun r => r.1 == e <;> rfl
  · obtain ⟨t, ht, hdone, hvd, hrest⟩ := scan_ends (i := .vscanX o) rfl hq
    refine ⟨t, ht, hdone, fun e he => (hvd e he).trans ?_, hrest⟩
    unfold foldSteps
    rw [if_neg Bool.false_ne_true]
    cases (redSteps _ _ _ _ _).find? fun r => r.1 == e <;> rfl

/-! ### Conversions (R421, R429, R446) and 4-bit blocks (R435, R436) -/

theorem filter_range_le {n m : Nat} (h : n ≤ m) (p : Nat → Bool) :
    (List.range m).filter (fun e => p e && decide (e < n)) = (List.range n).filter p := by
  induction m, h using Nat.le_induction with
  | base => exact List.filter_congr fun e he => by simp [List.mem_range.mp he]
  | succ m hm ih => rw [List.range_succ, List.filter_append, ih]; simp [Nat.not_lt.mpr hm]

/-- The active elements among the first `n`. -/
theorem filter_actives (ty n : Nat) (k : BitVec 16) : (actives (tyWidth ty) k).filter (fun e => decide (e < n)) =
    (List.range n).filter fun e => k.getLsbD (tyWidth ty * e / 64) := by
  have hout : ∀ e, k.getLsbD (tyWidth ty * e / 64) = true → e < 1024 / tyWidth ty := fun e he => by
    have hlt : tyWidth ty * e / 64 < 16 := Nat.lt_of_not_le fun hge => by
      rw [BitVec.getLsbD_of_ge k _ hge] at he
      exact Bool.false_ne_true he
    rcases tyWidth_cases ty with h | h | h | h <;> rw [h] at hlt ⊢ <;> omega
  rw [actives, List.filter_filter, ← filter_range_le (Nat.le_max_left n (1024 / tyWidth ty)),
    ← filter_range_le (Nat.le_max_right n (1024 / tyWidth ty))]
  refine List.filter_congr fun e _ => ?_
  rw [Bool.eq_iff_iff]
  simp only [Bool.and_eq_true, decide_eq_true_eq]
  exact ⟨fun ⟨⟨hn, hk⟩, _⟩ => ⟨hk, hn⟩, fun ⟨hk, hn⟩ => ⟨⟨hn, hk⟩, hout e hk⟩⟩

/-- A major that makes the first `n` elements of its register, the others 0. -/
theorem convertEnds {s : State} {i : Instr} {ty n : Nat} {fmt : Option Fmt} {k : BitVec 16} {vd : BitVec 5} {f : Nat → FRes}
    (h : exec i s = .next (s.fpEnd 2 (activeElems (tyWidth ty) fmt (elemResults (tyWidth ty) n k f)) true fun x =>
      x.wv vd (mergeLanes k (x.rv vd) (resultBits (tyWidth ty) (elemResults (tyWidth ty) n k f))))) :
    let es : List FElem := ((actives (tyWidth ty) k).filter fun e => decide (e < n)).map fun e =>
      { lane := tyWidth ty * e / 64, r := f e, fmt := fmt }
    Quiet s es → ∃ t, exec i s = .next t ∧ ElementsDone s t 2 es true ∧
      LanesAre (tyWidth ty) k (s.pl.rv vd) (t.pl.rv vd) (fun e => if e < n then (f e).bits else 0) ∧
      (∀ x, x ≠ vd → t.pl.rv x = s.pl.rv x) ∧ ∀ x, t.pl.rg x = s.pl.rg x := by
  intro es hq
  rw [activeElems_elemResults, ← filter_actives] at h
  obtain ⟨hdone, hvd, hrv, hrg, _⟩ := writesV_fpEnd hq 2 true vd fun x =>
    mergeLanes k (x.rv vd) (resultBits (tyWidth ty) (elemResults (tyWidth ty) n k f))
  exact ⟨_, h, hdone, fun e he => (congrArg (elemAt (tyWidth ty) · e) hvd).trans (lanesAre_resultBits ty n k _ f e he), hrv, hrg⟩

/-- One lane of VSPLIT in a state. -/
def splitAt (s : State) (o : Vsplit) (l : Nat) : FRes × Nat :=
  splitLane (s.pl.fctl 0) (s.pl.rg o.gs).toInt o.t.toNat (elemAt 64 (s.pl.rv o.va) l)

/-- What VSPLIT writes. -/
def splitWrite (s : State) (o : Vsplit) (x : Plane) : Plane :=
  (x.wv o.vd (mergeLanes (s.pl.vguard o.g) (x.rv o.vd) (ofElems 64 ((List.range 16).map fun l => (splitAt s o l).1.bits)))).wv o.vb
    (mergeLanes (s.pl.vguard o.g) (x.rv o.vb) (ofElems 64 ((List.range 16).map fun l => (splitAt s o l).2)))

theorem regsOnly_splitWrite (s : State) (o : Vsplit) : RegsOnly (splitWrite s o) := fun _ => ⟨_, rfl⟩

theorem exec_vsplit (s : State) (o : Vsplit) : exec (.vsplit o) s =
    .next (s.fpEnd 2 ((actives 64 (s.pl.vguard o.g)).map fun l => { lane := l, r := (splitAt s o l).1, fmt := none }) true (splitWrite s o)) := by
  change execVsplit o s = _
  unfold execVsplit
  dsimp only
  have hact : actives 64 (s.pl.vguard o.g) = (List.range 16).filter fun l => (s.pl.vguard o.g).getLsbD l :=
    List.filter_congr fun e _ => by rw [Nat.mul_div_cancel_left _ (by decide)]
  rw [zipIdx_map_range, List.filter_map, List.map_map, List.map_map, List.map_map, hact]
  rfl

/-- The active lanes of a register made of sixteen lanes. -/
theorem lanesAre_ofElems (k : BitVec 16) (old : VReg) (f : Nat → Nat) :
    LanesAre 64 k old (mergeLanes k old (ofElems 64 ((List.range 16).map f))) f := by
  intro e he
  rw [elemAt_mergeLanes (Nat.dvd_refl 64) he, elemAt_ofElems he, List.getD_eq_getElem _ _ (by simpa using he), List.getElem_map,
    List.getElem_range]

theorem vsplitEnds (s : State) (o : Vsplit) :
    let k := s.pl.vguard o.g
    let es : List FElem := (actives 64 k).map fun l => { lane := l, r := (splitAt s o l).1, fmt := none }
    Quiet s es → ∃ t, exec (.vsplit o) s = .next t ∧ ElementsDone s t 2 es true ∧
      LanesAre 64 k (s.pl.rv o.vb) (t.pl.rv o.vb) (fun l => (splitAt s o l).2) ∧
      (o.vd ≠ o.vb → LanesAre 64 k (s.pl.rv o.vd) (t.pl.rv o.vd) fun l => (splitAt s o l).1.bits) ∧
      (∀ x, x ≠ o.vd → x ≠ o.vb → t.pl.rv x = s.pl.rv x) ∧ ∀ x, t.pl.rg x = s.pl.rg x := by
  intro k es hq
  obtain ⟨hdone, hregs⟩ := elementsDone_fpEnd hq 2 true (regsOnly_splitWrite s o)
  have hrv (r : BitVec 5) := rv_of_regs hregs r
  simp only [splitWrite, Plane.rv_wv] at hrv
  refine ⟨_, exec_vsplit s o, hdone, fun e he => ?_, fun hne e he => ?_, fun x hd hb => ?_, fun x => ?_⟩
  · refine (congrArg (elemAt 64 · e) (hrv o.vb)).trans ?_
    rw [if_pos rfl]
    exact lanesAre_ofElems k _ _ e he
  · refine (congrArg (elemAt 64 · e) (hrv o.vd)).trans ?_
    rw [if_neg hne, if_pos rfl]
    exact lanesAre_ofElems k _ _ e he
  · refine (hrv x).trans ?_
    rw [if_neg hb, if_neg hd]
  · exact (rg_of_regs hregs x).trans rfl

theorem vjoinEnds (s : State) (o : Vjoin) : VectorEnds (.vjoin o) s 2 o.g o.vd 64 (some (fmtOf 0)) fun l =>
    let z := (fmtOf 0).input (s.pl.fctl 0) (elemAt 64 (s.pl.rv o.vc) l)
    let x := ((s.pl.rv o.va).extractLsb' (64 * l) 64).toInt
    let e := joinExp (((s.pl.rv o.vb).extractLsb' (64 * l) 64).toInt - 7 * (o.lv.toNat + 2))
    ((fmtOf 0).add { s.pl.fctl 0 with mode := 1 } z.1 (.fin (decide (x < 0)) x.natAbs (if x = 0 then 0 else e))).flushed z.2 := by
  have hint (v : VReg) (l : Nat) : (v.extractLsb' (64 * l) 64).toInt = intOf true 64 (elemAt 64 v l) := by
    rw [intOf_eq (by decide), if_pos rfl, elemAt_eq, BitVec.ofNat_toNat, BitVec.setWidth_eq]
  simp only [hint]
  exact vectorEnds_of_exec (ty := 0) rfl

theorem blockExp_le (ty m : Nat) (e : Int) (n x : Nat) : blockExp ty m e n x ≤ x + n := by
  induction n generalizing x with
  | zero => exact Nat.le_refl x
  | succ n ih =>
    rw [blockExp]
    split
    · omega
    · have := ih (x + 1)
      omega

/-- The scale of a block takes six bits. -/
theorem blockScale_le (ty : Nat) (vs : List FVal) : blockScale ty vs ≤ 63 := by
  unfold blockScale
  refine List.foldlRecOn vs _ (motive := fun x => x ≤ 63) (by decide) fun x hx v _ => ?_
  cases v with
  | fin n m e =>
    have := blockExp_le ty m e 63 0
    dsimp only
    split <;> omega
  | inf n => exact hx
  | nan a b c => exact hx

theorem blockSet_lt (ty : Nat) (neg : Bool) : ∀ v ∈ blockSet ty neg, v.2 < 16 := by
  intro v hv
  unfold blockSet at hv
  split at hv
  · cases neg <;> simp at hv
    · obtain ⟨a, ha, rfl⟩ := hv
      exact Nat.lt_trans ha (by decide)
    · rcases hv with rfl | ⟨a, ha, rfl⟩ <;> dsimp only <;> omega
  · obtain ⟨a, ha, rfl⟩ := List.mem_map.mp hv
    have := List.mem_range.mp ha
    dsimp only
    split <;> try split
    all_goals omega

theorem getLastD_lt {l : List (Nat × Nat)} (hl : ∀ v ∈ l, v.2 < 16) {d : Nat × Nat} (hd : d.2 < 16) : (l.getLastD d).2 < 16 := by
  induction l generalizing d with
  | nil => exact hd
  | cons a l ih =>
    rw [List.getLastD_cons]
    exact ih (fun v hv => hl v (List.mem_cons_of_mem a hv)) (hl a List.mem_cons_self)

theorem blockExt_lt (ty : Nat) (neg : Bool) : (blockExt ty neg).2 < 16 := by
  unfold blockExt
  split <;> cases neg <;> decide

theorem roundSet_lt {ty mode : Nat} {neg : Bool} {m : Nat} {e : Int} {r : Nat × Nat} (h : roundSet ty mode neg m e = some r) : r.2 < 16 := by
  have hlo : (((blockSet ty neg).filter fun v => !(leDy m e v.1 0)).getLastD (0, 0)).2 < 16 :=
    getLastD_lt (fun v hv => blockSet_lt ty neg v (List.mem_filter.mp hv).1) (by decide)
  have hext := blockExt_lt ty neg
  unfold roundSet at h
  dsimp only at h
  split at h
  · obtain ⟨_, hr⟩ := Option.ite_none_left_eq_some.mp h
    cases hr
    exact hext
  · rename_i x hfind
    have hx := blockSet_lt ty neg x (List.mem_of_find?_eq_some hfind)
    repeat' split at h
    all_goals cases h; assumption

theorem blockCode_lt (ty mode e : Nat) (sat : Bool) (v : FVal) : (blockCode ty mode e sat v).1 < 16 := by
  unfold blockCode
  split
  · decide
  · exact blockExt_lt ..
  · split
    · decide
    · dsimp only
      split
      · exact blockExt_lt ..
      · rename_i r hr
        exact roundSet_lt hr

theorem packElems_append (w : Nat) (xs ys : List Nat) : packElems w (xs ++ ys) = packElems w xs + 2 ^ (w * xs.length) * packElems w ys := by
  induction xs with
  | nil => simp [packElems]
  | cons x xs ih =>
    have hcons (zs : List Nat) : packElems w (x :: zs) = packElems w zs * 2 ^ w + x % 2 ^ w := rfl
    rw [List.cons_append, hcons, hcons, ih, List.length_cons, Nat.mul_succ, Nat.pow_add]
    ring

/-- The source elements of VPACK4, with the flushes of their inputs. -/
def packIn (s : State) (o : Pack) (e : Nat) : FVal × Nat :=
  (fmtOf o.ty.toNat).input (s.pl.fctl o.rm) (elemAt (tyWidth o.ty.toNat) (s.pl.rv o.va) e)

/-- The scale of the block that VPACK4 makes. -/
def packScale (s : State) (o : Pack) : Nat := blockScale o.bt.toNat ((List.range 32).map fun e => (packIn s o e).1)

/-- One code of the block, its flags and its clamp. -/
def packCode (s : State) (o : Pack) (e : Nat) : Nat × BitVec 6 × Bool :=
  blockCode o.bt.toNat (s.pl.fctl o.rm).mode (packScale s o) (o.sat == 1) (packIn s o e).1

/-- What one element of VPACK4 comes to. -/
def packRes (s : State) (o : Pack) (e : Nat) : FRes :=
  ⟨(packCode s o e).1, (packCode s o e).2.1, (packIn s o e).1.isSn, (packIn s o e).2, (packCode s o e).2.2⟩

/-- The elements of VPACK4. -/
def packEvents (s : State) (o : Pack) : List FElem := (List.range 32).map fun e => { lane := 0, r := packRes s o e, fmt := none }

/-- The 34 groups of four bits of the block: its codes, then its scale and type. -/
def packGroups (s : State) (o : Pack) : List Nat :=
  ((List.range 32).map fun e => (packCode s o e).1) ++ [packScale s o % 16, 4 * o.bt.toNat + packScale s o / 16]

theorem packed_eq (s : State) (o : Pack) :
    ((List.range 32).map (packCode s o)).foldr (fun z acc => acc * 16 + z.1) 0 + (64 * o.bt.toNat + packScale s o) * 2 ^ 128 =
      packElems 4 (packGroups s o) := by
  have hcodes : ((List.range 32).map (packCode s o)).foldr (fun z acc => acc * 16 + z.1) 0 =
      packElems 4 ((List.range 32).map fun e => (packCode s o e).1) := by
    rw [packElems, List.foldr_map, List.foldr_map]
    congr 1
    funext e acc
    rw [Nat.mod_eq_of_lt (show (packCode s o e).1 < 2 ^ 4 from blockCode_lt ..)]
    rfl
  have hscale : packElems 4 [packScale s o % 16, 4 * o.bt.toNat + packScale s o / 16] = 64 * o.bt.toNat + packScale s o := by
    have h63 : packScale s o ≤ 63 := blockScale_le ..
    have hbt := o.bt.isLt
    simp only [packElems, List.foldr_cons, List.foldr_nil]
    omega
  rw [hcodes, packGroups, packElems_append, hscale, List.length_map, List.length_range, Nat.mul_comm (2 ^ _)]

theorem exec_vpack4_on {s : State} {o : Pack} (hk : (s.pl.vguard o.g).getLsbD 0 = true) : exec (.vpack4 o) s =
    .next (s.fpEnd 2 (packEvents s o) true fun x =>
      x.wv o.vd (mergeLanes (s.pl.vguard o.g ||| 7) (x.rv o.vd) (ofElems 4 (packGroups s o)))) := by
  have hr : ofElems 4 (packGroups s o) = BitVec.ofNat 1024 (((List.range 32).map (packCode s o)).foldr (fun z acc => acc * 16 + z.1) 0 +
      (64 * o.bt.toNat + packScale s o) * 2 ^ 128) := congrArg (BitVec.ofNat 1024) (packed_eq s o).symm
  change execVpack4 o s = _
  unfold execVpack4
  dsimp only
  rw [if_pos hk, hr, List.map_map, List.map_map, List.zip_map', List.map_map]
  rfl

theorem exec_vpack4_off {s : State} {o : Pack} (hk : (s.pl.vguard o.g).getLsbD 0 = false) : exec (.vpack4 o) s = .next (s.advance 2) := by
  change execVpack4 o s = _
  unfold execVpack4
  dsimp only
  rw [hk, if_neg Bool.false_ne_true]

theorem elemAt_packGroups (s : State) (o : Pack) {e : Nat} (he : e < 1024 / 4) : elemAt 4 (ofElems 4 (packGroups s o)) e =
    (if e < 32 then (packCode s o e).1 else if e = 32 then packScale s o % 16
      else if e = 33 then 4 * o.bt.toNat + packScale s o / 16 else 0) % 2 ^ 4 := by
  rw [elemAt_ofElems he]
  congr 1
  by_cases h32 : e < 32
  · rw [if_pos h32, packGroups, List.getD_append _ _ _ _ (by simpa using h32), List.getD_eq_getElem _ _ (by simpa using h32),
      List.getElem_map, List.getElem_range]
  · obtain ⟨d, rfl⟩ := Nat.exists_eq_add_of_le (Nat.not_lt.mp h32)
    rw [if_neg h32, packGroups, List.getD_append_right _ _ _ _ (by simp), List.length_map, List.length_range, Nat.add_sub_cancel_left]
    match d with
    | 0 => rfl
    | 1 => rfl
    | d + 2 => rw [if_neg (by omega), if_neg (by omega)]; rfl

theorem vpack4Ends {s : State} {o : Pack} (hk : (s.pl.vguard o.g).getLsbD 0 = true) (hq : Quiet s (packEvents s o)) :
    ∃ t, exec (.vpack4 o) s = .next t ∧ ElementsDone s t 2 (packEvents s o) true ∧
      LanesAre 4 (s.pl.vguard o.g ||| 7#16) (s.pl.rv o.vd) (t.pl.rv o.vd)
        (fun e => if e < 32 then (packCode s o e).1 else if e = 32 then packScale s o % 16
          else if e = 33 then 4 * o.bt.toNat + packScale s o / 16 else 0) ∧
      (∀ r, r ≠ o.vd → t.pl.rv r = s.pl.rv r) ∧ ∀ r, t.pl.rg r = s.pl.rg r := by
  obtain ⟨hdone, hvd, hrv, hrg, _⟩ := writesV_fpEnd hq 2 true o.vd fun x =>
    mergeLanes (s.pl.vguard o.g ||| 7) (x.rv o.vd) (ofElems 4 (packGroups s o))
  refine ⟨_, exec_vpack4_on hk, hdone, fun e he => (congrArg (elemAt 4 · e) hvd).trans ?_, hrv, hrg⟩
  rw [elemAt_mergeLanes (by decide) he, elemAt_packGroups s o he]
  rfl

/-- Settles O25. -/
theorem vectorConversions : Obligations.VectorConversions := fun s =>
  ⟨fun _ => convertEnds rfl, fun o => vsplitEnds s o, fun o => vjoinEnds s o, fun _ hk => ⟨_, exec_vpack4_off hk, unchanged_advance s 2⟩,
    fun _ hk => vpack4Ends hk, fun _ => convertEnds rfl⟩

end Sys2Proof.Claims

/-! ## Memory instructions: their checks and their accesses

spec/05_core.md R97, R102, spec/10_memory_streams.md R188, R201 to R206, spec/11_memory_model.md R210 to R218, R228. -/

namespace Sys2Proof.Machine

open Sys2Proof.Claims

/-! ### From the checks to the access -/

/-- A memory instruction whose windows are no exception, whose elements have their places, lie in the lease and in the scope ceiling, and whose
count is not full. -/
theorem State.doAccess_eq {s : State} {d : Vd} {k : AccKind} {ar : BitVec 2} {scp : BitVec 3} {span : Option (Word × Nat)}
    {place : Vd → List Elem → Option (Nat × Word)} {es es' : List Elem} (n : Nat) (cl : BitVec 4) (hd : s.vd s.curVd = some d)
    (hspan : ∀ va len cause, span = some (va, len) → s.target d s.fc va len ≠ .bad cause) (hes : s.placeAll d s.fc es = .ok es')
    (hplace : place d es' = none) (hlease : ∀ e ∈ es', s.pl.outOfLease e = false) (hscope : ar = 0 ∨ scp.toNat ≤ d.d.ceil.toNat)
    (hcount : s.pl.countFull k = false) : s.doAccess n k cl ar scp span place es = s.startAccess n k cl ar scp es' := by
  have hsc : (if ar = 0 then .ok (scp, false) else scopeOf d.d scp : Except Word (BitVec 3 × Bool)) = .ok (scp, false) := by
    by_cases h0 : ar = 0
    · rw [if_pos h0]
    · rw [if_neg h0, scopeOf, if_neg (by have := hscope.resolve_left h0; omega)]
  have hfind : es'.find? s.pl.outOfLease = none := List.find?_eq_none.mpr fun e he => by rw [hlease e he]; exact Bool.false_ne_true
  unfold State.doAccess
  rw [hd]
  dsimp only
  rw [hes, hsc]
  dsimp only
  rw [hplace]
  dsimp only
  rw [hfind, hcount]
  cases hs : span with
  | none => rfl
  | some x =>
    dsimp only
    cases ht : s.target d s.fc x.1 x.2 with
    | bad cause => exact absurd ht (hspan x.1 x.2 cause hs)
    | home l peer => rfl
    | xlate => rfl

/-- The access that an instruction makes. -/
def State.newAccess (s : State) (n : Nat) (k : AccKind) (cl : BitVec 4) (ar : BitVec 2) (scp : BitVec 3) (es : List Elem) : Access :=
  { id := s.pl.nextId, pc := s.pl.pc, w0 := (s.wordsAt n).1, w1 := (s.wordsAt n).2, kind := k, cls := cl, acq := ar.getLsbD 0,
    rel := ar.getLsbD 1, scp := scp, tensor := s.pl.sr.tensor, elems := es }

/-- The plane with one more access. -/
def Plane.issue (x : Plane) (a : Access) : Plane :=
  { x with acc := x.acc ++ [a], nextId := x.nextId + 1,
           oc := if a.kind.isStore then { x.oc with stc := x.oc.stc + 1 } else if a.kind.inLdc then { x.oc with ldc := x.oc.ldc + 1 } else x.oc }

/-- An instruction whose access gives its result itself, resolved in what the pump leaves, or ended by it: it completes. -/
theorem State.startAccess_eq {s t : State} {n : Nat} {k : AccKind} {cl : BitVec 4} {ar : BitVec 2} {scp : BitVec 3} {es : List Elem}
    (hk : k.byInstr = false)
    (hpump : ((s.modPl fun x => x.issue (s.newAccess n k cl ar scp es)).lookAll s.fc s.fp (s.newAccess n k cl ar scp es)).pump s.fc s.fp = t)
    (hres : ∀ b, t.pl.access s.pl.nextId = some b → t.unresolved b = false) : s.startAccess n k cl ar scp es = t.advance n := by
  have hfc (f : Plane → Plane) : (s.modPl f).fc = s.fc := rfl
  have hfp (f : Plane → Plane) : (s.modPl f).fp = s.fp := State.fp_modPl s f
  unfold State.startAccess
  dsimp only
  rw [hk, if_neg Bool.false_ne_true, hfc, hfp]
  generalize hx : State.pump _ s.fc s.fp = x
  obtain rfl : x = t := hx.symm.trans hpump
  cases hb : x.pl.access s.pl.nextId with
  | none => rfl
  | some b =>
    dsimp only
    rw [hres b hb]
    rfl

/-- No element of a ready access is looked up. -/
theorem State.lookAll_of_ready {s : State} {c : Nat} {p : BitVec 1} {a : Access} (h : ∀ e ∈ a.elems, e.st = .ready) : s.lookAll c p a = s := by
  unfold State.lookAll
  refine List.foldlRecOn (motive := fun x => x = s) _ _ rfl fun x hx ei hei => ?_
  have hst := h ei.1 (by
    obtain ⟨i, hi, rfl⟩ := List.mem_iff_getElem.mp hei
    simp)
  rw [hst]
  exact hx

theorem Plane.access_singleton {x : Plane} {a : Access} (h : x.acc = [a]) : x.access a.id = some a := by
  rw [Plane.access, h]
  simp

/-- An element homed at another core of the die waits for its home. -/
theorem State.pumpElem_peer {s : State} {c : Nat} {e : Elem} (h : AtPeer c e) (p : BitVec 1) (a : Access) (i : Nat) : s.pumpElem c p a i e = s := by
  obtain ⟨hpeer, -, k, o, hloc, hdie⟩ := h
  have hown : e.own = false := by rw [Elem.own, hpeer]; rfl
  rcases hloc with hloc | hloc | hloc <;> unfold State.pumpElem <;> rw [hloc] <;> dsimp only <;>
    rw [hown, if_neg Bool.false_ne_true, Loc.offDie, hdie, bne_self_eq_false, if_neg Bool.false_ne_true]

/-- The pump leaves an access whose elements wait for their homes. -/
theorem State.pump_of_peer {s : State} {c : Nat} {p : BitVec 1} {a : Access} (hacc : (s.plane c p).acc = [a]) (hne : a.elems ≠ [])
    (hes : ∀ e ∈ a.elems, AtPeer c e) : s.pump c p = s := by
  have hstep : ∀ i e, a.elems[i]? = some e → s.pumpElem c p a i e = s := fun i e he => pumpElem_peer (hes e (List.mem_of_getElem? he)) p a i
  have hnot : a.endsAtOnce c = false := by
    obtain ⟨e, rest, hcons⟩ := List.exists_cons_of_ne_nil hne
    have hst : e.st = .ready := (hes e (by rw [hcons]; exact List.mem_cons_self)).2.1
    have hperf : a.performed = false := by rw [Access.performed, hcons, List.all_cons, hst]; rfl
    rw [Access.endsAtOnce, hperf]
    rfl
  unfold State.pump
  rw [hacc, List.foldl_cons, List.foldl_nil]
  dsimp only
  rw [List.foldl_fixed' (a := s), hacc, List.filter_cons, hnot, if_neg Bool.false_ne_true]
  · rfl
  · intro ei
    rw [Plane.access_singleton hacc, Option.bind_some]
    cases he : a.elems[ei.2]? with
    | none => rfl
    | some e =>
      rw [Option.map_some]
      dsimp only
      rw [hstep ei.2 e he, ite_self]

/-- Nothing of an access at ready elements off HBM is unresolved. -/
theorem State.resolved_of_peer {s : State} {c : Nat} {a : Access} (hes : ∀ e ∈ a.elems, AtPeer c e) : s.unresolved a = false := by
  refine List.any_eq_false.mpr fun e he => ?_
  obtain ⟨-, hst, k, o, hloc, -⟩ := hes e he
  rw [hst, State.preciseWait]
  rcases hloc with hloc | hloc | hloc <;> rw [hloc] <;> simp

end Sys2Proof.Machine

namespace Sys2Proof.Claims

open Sys2Proof.Machine

/-- An access with every element at another core of the die is outstanding when its instruction has completed. -/
theorem issued_of_peer {s : State} {n : Nat} {k : AccKind} {cl : BitVec 4} {ar : BitVec 2} {scp : BitVec 3} {es : List Elem}
    (hk : k.byInstr = false) (hldc : k.isStore = false → k.inLdc = true) (hne : es ≠ []) (hes : ∀ e ∈ es, AtPeer s.fc e) (hacc : s.pl.acc = []) :
    Issued s (s.startAccess n k cl ar scp es) n k cl ar scp es := by
  have hpl : (s.modPl fun x => x.issue (s.newAccess n k cl ar scp es)).plane s.fc s.fp = s.pl.issue (s.newAccess n k cl ar scp es) :=
    State.plane_modPlane ..
  have hone : (s.pl.issue (s.newAccess n k cl ar scp es)).acc = [s.newAccess n k cl ar scp es] := by rw [Plane.issue, hacc]; rfl
  have hstart := State.startAccess_eq (t := s.modPl fun x => x.issue (s.newAccess n k cl ar scp es)) hk
    (by rw [State.lookAll_of_ready fun e he => (hes e he).2.1]; exact State.pump_of_peer (hpl ▸ hone) hne hes)
    fun b hb => by
      rw [State.pl_modPl, Plane.access, hone] at hb
      obtain rfl := List.mem_singleton.mp (List.mem_of_find?_eq_some hb)
      exact State.resolved_of_peer hes
  rw [hstart]
  have hpl' := State.pl_modPl_advance s (fun x => x.issue (s.newAccess n k cl ar scp es)) n rfl rfl rfl
  refine ⟨?_, ?_, ?_, ?_, ?_, ?_, ?_, ?_⟩
  · rw [State.modPl_advance s _ n rfl rfl]
    exact onlyPlane_modPl s _
  · rw [State.modPl_advance s _ n rfl rfl]
    exact sameMemory_modPl s _
  all_goals rw [hpl']
  · exact ⟨_, hone, rfl, rfl, rfl, rfl, rfl, rfl, rfl, rfl, rfl⟩
  · change (if k.isStore then _ else if k.inLdc then _ else _) = counted s.pl.oc k
    unfold counted
    split
    · rfl
    · rename_i hst
      rw [if_pos (hldc (Bool.eq_false_iff.mpr hst))]
  · rfl
  · rfl

/-- A memory instruction that makes its checks and starts its access. -/
theorem issues_of_exec {i : Instr} {s : State} {n : Nat} {k : AccKind} {cl : BitVec 4} {ar : BitVec 2} {scp : BitVec 3}
    {span : Option (Word × Nat)} {place : Vd → List Elem → Option (Nat × Word)} {es : List Elem}
    (h : exec i s = .next (s.doAccess n k cl ar scp span place es)) (hk : k.byInstr = false) (hldc : k.isStore = false → k.inLdc = true) :
    Issues i s n k cl ar scp span place es := by
  intro d es'
  have hpass (hp : Passes s d k ar scp span place es es') : exec i s = .next (s.startAccess n k cl ar scp es') := by
    obtain ⟨hd, hspan, hplaced, hplace, hlease, hscope, hcount⟩ := hp
    rw [h, State.doAccess_eq n cl hd hspan hplaced hplace hlease hscope hcount]
  refine ⟨hpass, fun ha => ?_⟩
  obtain ⟨hp, hne, hes, hacc⟩ := ha
  exact ⟨_, hpass hp, issued_of_peer hk hldc hne hes hacc⟩

/-! ### Which access each instruction makes -/

theorem loadAt_eq {s : State} {g : BitVec 4} {va : Word} {sz : BitVec 2} (hg : s.pl.guard g = true) (hal : va.toNat % 2 ^ sz.toNat = 0)
    (n : Nat) (d : BitVec 6) (sx : BitVec 1) (cl : BitVec 4) (ar : BitVec 2) (scp : BitVec 3) :
    s.loadAt g n d va sz sx cl ar scp = s.doAccess n (.ld d (sx == 1)) cl ar scp none anyPlace (oneElem va (2 ^ sz.toNat) []) := by
  rw [State.loadAt, if_pos hg]
  dsimp only
  rw [if_neg (not_not.mpr hal)]

theorem storeAt_eq {s : State} {g : BitVec 4} {va : Word} {sz : BitVec 2} (hg : s.pl.guard g = true) (hal : va.toNat % 2 ^ sz.toNat = 0)
    (n : Nat) (d : BitVec 6) (cl : BitVec 4) (ar : BitVec 2) (scp : BitVec 3) : s.storeAt g n d va sz cl ar scp =
      s.doAccess n .st cl ar scp none bobbinStore (oneElem va (2 ^ sz.toNat) ((leBytes (s.pl.rg d).toNat 8).take (2 ^ sz.toNat))) := by
  rw [State.storeAt, if_pos hg]
  dsimp only
  rw [if_neg (not_not.mpr hal)]
  rfl

theorem atomicAt_eq {s : State} {g : BitVec 4} {a : BitVec 6} {off : BitVec 11} (hg : s.pl.guard g = true) (hal : at' s a off &&& 7#64 = 0)
    (k : AccKind) (cl : BitVec 4) (ar : BitVec 2) (scp : BitVec 3) (place : Vd → List Elem → Option (Nat × Word)) (data : List Byte) :
    s.atomicAt g a off k cl ar scp place data = s.doAccess 2 k cl ar scp none place (oneElem (at' s a off) 8 data) := by
  rw [State.atomicAt, if_pos hg]
  dsimp only
  rw [if_neg (not_not.mpr (show s.pl.rg a + off.signExtend 64 &&& 7 = 0 from hal))]
  rfl

theorem secMask_ne_zero {s : State} {mr : BitVec 6} (h : (s.pl.rg mr).setWidth 32 ≠ 0#32) : s.secMask mr ≠ 0 := by
  intro h0
  refine h ?_
  have := congrArg (BitVec.setWidth 32) h0
  rwa [State.secMask, BitVec.setWidth_setWidth_of_le _ (by decide), BitVec.setWidth_eq] at this

theorem exec_ldsec {s : State} {o : Sec} (hg : s.pl.guard o.g = true) (hal : at' s o.a o.off &&& 31#64 = 0)
    (hm : (s.pl.rg o.mr).setWidth 32 ≠ 0#32) : exec (.ldsec o) s = .next (s.doAccess 2 (.ldsec o.v) o.cl o.ar o.scp none anyPlace
      (secElems (isHost (at' s o.a o.off)) (at' s o.a o.off) (s.secMask o.mr) (List.replicate 32 0))) := by
  change execLdsec o s = _
  unfold execLdsec
  rw [if_pos hg]
  dsimp only
  rw [if_neg (not_not.mpr (show s.pl.rg o.a + o.off.signExtend 64 &&& 31 = 0 from hal)), if_neg (secMask_ne_zero hm)]
  rfl

theorem exec_stsec {s : State} {o : Sec} (hg : s.pl.guard o.g = true) (hal : at' s o.a o.off &&& 31#64 = 0)
    (hm : (s.pl.rg o.mr).setWidth 32 ≠ 0#32) : exec (.stsec o) s = .next (s.doAccess 2 .st o.cl o.ar o.scp none bobbinStore
      (secElems (isHost (at' s o.a o.off)) (at' s o.a o.off) (s.secMask o.mr) (leBytes ((s.pl.rv o.v).setWidth 256).toNat 32))) := by
  change execStsec o s = _
  unfold execStsec
  rw [if_pos hg]
  dsimp only
  rw [if_neg (not_not.mpr (show s.pl.rg o.a + o.off.signExtend 64 &&& 31 = 0 from hal)), if_neg (secMask_ne_zero hm)]
  rfl

theorem scalarMemoryIssue : ScalarMemoryIssue := fun s => by
  refine ⟨fun o hg hal => ?_, fun o hg hal => ?_, fun o hg hal => ?_, fun o hg hal => ?_⟩
  · exact issues_of_exec (congrArg Host.Outcome.next (loadAt_eq hg hal ..)) rfl fun _ => rfl
  · exact issues_of_exec (congrArg Host.Outcome.next (loadAt_eq hg hal ..)) rfl fun _ => rfl
  · exact issues_of_exec (congrArg Host.Outcome.next (storeAt_eq hg hal ..)) rfl fun h => nomatch h
  · exact issues_of_exec (congrArg Host.Outcome.next (storeAt_eq hg hal ..)) rfl fun h => nomatch h

/-- A sector access with nothing selected. -/
theorem ldsecNothing {s : State} {o : Sec} (hg : s.pl.guard o.g = true) (hal : at' s o.a o.off &&& 31#64 = 0)
    (hm : (s.pl.rg o.mr).setWidth 32 = 0#32) (hfull : s.pl.oc.ldc ≠ 63) : exec (.ldsec o) s =
      .next ((s.modPl fun p => p.wv o.v (p.rv o.v &&& ~~~((BitVec.allOnes 256).setWidth 1024))).advance 2) := by
  have hm0 : s.secMask o.mr = 0 := by rw [State.secMask, hm]; rfl
  have hc : s.pl.countFull (.ldsec o.v) = false := beq_eq_false_iff_ne.mpr hfull
  change execLdsec o s = _
  unfold execLdsec
  rw [if_pos hg]
  dsimp only
  rw [if_neg (not_not.mpr (show s.pl.rg o.a + o.off.signExtend 64 &&& 31 = 0 from hal)), if_pos hm0, hc, if_neg Bool.false_ne_true]

theorem stsecNothing {s : State} {o : Sec} (hg : s.pl.guard o.g = true) (hal : at' s o.a o.off &&& 31#64 = 0)
    (hm : (s.pl.rg o.mr).setWidth 32 = 0#32) (hfull : s.pl.oc.stc ≠ 63) : exec (.stsec o) s = .next (s.advance 2) := by
  have hm0 : s.secMask o.mr = 0 := by rw [State.secMask, hm]; rfl
  have hc : s.pl.countFull .st = false := beq_eq_false_iff_ne.mpr hfull
  change execStsec o s = _
  unfold execStsec
  rw [if_pos hg]
  dsimp only
  rw [if_neg (not_not.mpr (show s.pl.rg o.a + o.off.signExtend 64 &&& 31 = 0 from hal)), if_pos hm0, hc, if_neg Bool.false_ne_true]

/-- The bits that a cleared low half keeps. -/
theorem getLsbD_clearLow (v : VReg) {k : Nat} (hk : k < 1024) :
    (v &&& ~~~((BitVec.allOnes 256).setWidth 1024)).getLsbD k = (decide (256 ≤ k) && v.getLsbD k) := by
  rw [BitVec.getLsbD_and, BitVec.getLsbD_not, BitVec.getLsbD_setWidth, BitVec.getLsbD_allOnes]
  by_cases h : k < 256
  · simp [h, hk]
  · simp [h, hk, Nat.not_lt.mp h]

theorem ldsecNothing_ends (s : State) (o : Sec) :
    let t := (s.modPl fun p => p.wv o.v (p.rv o.v &&& ~~~((BitVec.allOnes 256).setWidth 1024))).advance 2
    Completed s t 2 ∧ t.pl.sr = s.pl.sr ∧ (∀ r, t.pl.rg r = s.pl.rg r) ∧
      (∀ r, t.pl.rp r = s.pl.rp r) ∧ (∀ r, t.pl.rm r = s.pl.rm r) ∧ (∀ r, r ≠ o.v → t.pl.rv r = s.pl.rv r) ∧
      ∀ k < 1024, (t.pl.rv o.v).getLsbD k = (decide (256 ≤ k) && (s.pl.rv o.v).getLsbD k) := by
  intro t
  have hf := regsOnly_wv o.v fun p => p.rv o.v &&& ~~~((BitVec.allOnes 256).setWidth 1024)
  have ht : t = s.modPl fun _ => (s.pl.wv o.v (s.pl.rv o.v &&& ~~~((BitVec.allOnes 256).setWidth 1024))).pass (s.lineAt s.fc s.fp) 2 :=
    modPl_advance_eq s hf 2
  have hregs : t.pl.regs = (s.pl.wv o.v (s.pl.rv o.v &&& ~~~((BitVec.allOnes 256).setWidth 1024))).regs := by
    rw [ht, State.pl_modPl, Plane.pass_regs]
  obtain ⟨hv, hrv, hrg, hrp, hrm⟩ := wroteV_of_regs hregs
  refine ⟨completed_advance_of_regsSrOnly s hf.regsSrOnly 2, ?_, hrg, hrp, hrm, hrv, fun k hk => ?_⟩
  · rw [ht, State.pl_modPl, Plane.pass_sr]
    rfl
  · rw [hv, getLsbD_clearLow _ hk]

theorem sectorAndAtomicIssue : SectorAndAtomicIssue := fun s => by
  refine ⟨fun o hg hal hm hh => ⟨?_, ?_⟩, fun o hg hal hm hh => ⟨?_, ?_⟩, fun o hg hal hm => ⟨fun hl => ?_, fun hl => ?_⟩,
    fun o hg hal => ?_, fun o hg hal => ?_, fun o hg hal => ?_⟩
  · have h := exec_ldsec hg hal hm
    rw [hh] at h
    exact issues_of_exec h rfl fun _ => rfl
  · have h := exec_stsec hg hal hm
    rw [hh] at h
    exact issues_of_exec h rfl fun h => nomatch h
  · have h := exec_ldsec hg hal hm
    rw [hh] at h
    exact issues_of_exec h rfl fun _ => rfl
  · have h := exec_stsec hg hal hm
    rw [hh] at h
    exact issues_of_exec h rfl fun h => nomatch h
  · exact ⟨_, ldsecNothing hg hal hm hl, ldsecNothing_ends s o⟩
  · exact ⟨_, stsecNothing hg hal hm hl, unchanged_advance s 2⟩
  · exact issues_of_exec (congrArg Host.Outcome.next (atomicAt_eq hg hal ..)) rfl fun _ => rfl
  · exact issues_of_exec (congrArg Host.Outcome.next (atomicAt_eq hg hal ..)) rfl fun _ => rfl
  · exact issues_of_exec (congrArg Host.Outcome.next (atomicAt_eq hg hal ..)) rfl fun h => nomatch h

end Sys2Proof.Claims

/-! ## Accesses of the core's own memories

spec/05_core.md R97, R102, spec/10_memory_streams.md R188, R204, spec/17_ref_a_c.md R331. -/

namespace Sys2Proof.Machine

open Sys2Proof.Claims

/-! ### An element that performs at once -/

/-- A rewrite of a core that changes no more than its scratchpad, its bobbin and its tiles. -/
def MemOnly (g : Core → Core) : Prop := ∀ k, ∃ sp bo ti, g k = { k with spad := sp, bobbin := bo, tiles := ti }

/-- The state after an access has performed in a core's own memories: VD counters, and the core's memories by `g`. -/
def State.worked (s : State) (ds : List (Nat × Vd)) (g : Core → Core) : State := ({ s with vds := ds }).modCore s.fc g

theorem MemOnly.plane {g : Core → Core} (hg : MemOnly g) (k : Core) (p : BitVec 1) : (g k).plane p = k.plane p := by
  obtain ⟨sp, bo, ti, h⟩ := hg k
  rw [h]
  rfl

theorem MemOnly.act {g : Core → Core} (hg : MemOnly g) (k : Core) : (g k).act = k.act := by
  obtain ⟨sp, bo, ti, h⟩ := hg k
  rw [h]

theorem MemOnly.lines {g : Core → Core} (hg : MemOnly g) (k : Core) : (g k).lines = k.lines := by
  obtain ⟨sp, bo, ti, h⟩ := hg k
  rw [h]

theorem MemOnly.creel {g : Core → Core} (hg : MemOnly g) (k : Core) : (g k).creel = k.creel := by
  obtain ⟨sp, bo, ti, h⟩ := hg k
  rw [h]

@[simp] theorem State.fc_worked (s : State) (ds : List (Nat × Vd)) (g : Core → Core) : (s.worked ds g).fc = s.fc := rfl
@[simp] theorem State.hbm_worked (s : State) (ds : List (Nat × Vd)) (g : Core → Core) : (s.worked ds g).hbm = s.hbm := rfl

@[simp] theorem State.core_worked (s : State) (ds : List (Nat × Vd)) (g : Core → Core) : (s.worked ds g).core s.fc = g (s.core s.fc) :=
  State.core_modCore ..

theorem State.core_worked_ne (s : State) (ds : List (Nat × Vd)) (g : Core → Core) {c : Nat} (h : c ≠ s.fc) : (s.worked ds g).core c = s.core c :=
  State.core_modCore_ne _ g h

theorem State.plane_worked (s : State) (ds : List (Nat × Vd)) {g : Core → Core} (hg : MemOnly g) (p : BitVec 1) :
    (s.worked ds g).plane s.fc p = s.plane s.fc p := by
  rw [State.plane, State.core_worked, hg.plane]
  rfl

theorem State.fp_worked (s : State) (ds : List (Nat × Vd)) {g : Core → Core} (hg : MemOnly g) : (s.worked ds g).fp = s.fp := by
  rw [State.fp, State.fc_worked, State.core_worked, hg.act]
  rfl

theorem State.pl_worked (s : State) (ds : List (Nat × Vd)) {g : Core → Core} (hg : MemOnly g) : (s.worked ds g).pl = s.pl := by
  rw [State.pl, State.fc_worked, State.fp_worked s ds hg, State.plane_worked s ds hg]
  rfl

theorem State.lineAt_worked (s : State) (ds : List (Nat × Vd)) {g : Core → Core} (hg : MemOnly g) :
    (s.worked ds g).lineAt s.fc s.fp = s.lineAt s.fc s.fp := by
  unfold State.lineAt State.vdOf Core.findLine
  rw [State.plane_worked s ds hg, State.core_worked, hg.lines]
  rfl

theorem State.modPlane_congr {s : State} {c : Nat} {p : BitVec 1} {f g : Plane → Plane} (h : f (s.plane c p) = g (s.plane c p)) :
    s.modPlane c p f = s.modPlane c p g := by
  have hf : f ((s.core c).plane p) = g ((s.core c).plane p) := h
  rw [State.modPlane, State.modPlane, State.modCore, State.modCore, hf]

/-- An element in its turn: the only one of the only access of the plane. -/
theorem State.pump_one {s : State} {c : Nat} {p : BitVec 1} {a : Access} {e : Elem} (hacc : (s.plane c p).acc = [a]) (hel : a.elems = [e])
    (hst : e.st = .ready) (hturn : a.inTurn 0 = true) : s.pump c p =
      (((s.pumpElem c p a 0 e).plane c p).acc.filter fun a => a.endsAtOnce c).foldl (fun s a => s.finishAcc c p a) (s.pumpElem c p a 0 e) := by
  have hlets : (s.plane c p).lets a 0 e = true := by
    rw [Plane.lets, hst, mayPerform, hacc, hturn]
    simp
  have hbind : (((s.plane c p).access a.id).bind fun b => b.elems[0]?.map fun e => (b, e)) = some (a, e) := by
    rw [Plane.access_singleton hacc, Option.bind_some, hel]
    rfl
  unfold State.pump
  rw [hacc, List.foldl_cons, List.foldl_nil, hel, List.zipIdx_singleton, List.foldl_cons, List.foldl_nil]
  dsimp only
  rw [hbind]
  dsimp only
  rw [hlets, if_pos rfl]

/-- The access with its element performed. -/
def Access.done (a : Access) (e : Elem) (res : List Byte) : Access := { a with elems := [{ e with st := .performed, res := res }] }

/-- The plane after its only access has performed and ended. -/
def Plane.ended (x : Plane) (a : Access) (e : Elem) (res : List Byte) : Plane :=
  ({ x with acc := [a.done e res] }.putResult (a.done e res)).dropAccess (a.done e res)

theorem State.pumpElem_own {s : State} {c : Nat} {e : Elem} {l : Loc} (hown : e.own = true) (hloc : e.loc = some l) (p : BitVec 1) (a : Access)
    (i : Nat) : s.pumpElem c p a i e =
      (s.perfCore (s.vdOf c p) a.tensor a.kind l e).2.elemDone c p a.id i (.done (s.perfCore (s.vdOf c p) a.tensor a.kind l e).1) := by
  have hl : (∃ k o, l = .spad k o) ∨ (∃ k o, l = .bobbin k o) ∨ ∃ k o, l = .creel k o := by
    rw [Elem.own, hloc, Bool.and_eq_true] at hown
    cases l with
    | spad k o => exact .inl ⟨k, o, rfl⟩
    | bobbin k o => exact .inr (.inl ⟨k, o, rfl⟩)
    | creel k o => exact .inr (.inr ⟨k, o, rfl⟩)
    | hbm a => exact absurd hown.2 Bool.false_ne_true
    | host h o => exact absurd hown.2 Bool.false_ne_true
    | rhbm n a => exact absurd hown.2 Bool.false_ne_true
    | rcore n w => exact absurd hown.2 Bool.false_ne_true
  rcases hl with ⟨k, o, rfl⟩ | ⟨k, o, rfl⟩ | ⟨k, o, rfl⟩ <;> unfold State.pumpElem <;> rw [hloc] <;> dsimp only <;> rw [hown, if_pos rfl]

theorem Access.endsAtOnce_done {c : Nat} {a : Access} {e : Elem} {l : Loc} (hown : e.own = true) (hloc : e.loc = some l)
    (hdie : l.offDie c = false) (hk : a.kind.byInstr = false) (res : List Byte) : (a.done e res).endsAtOnce c = true := by
  have hperf : (a.done e res).performed = true := rfl
  have hpost : (a.done e res).posted c = false := by
    rw [Access.posted]
    simp [Access.done, hloc, hdie]
  have hall : (a.done e res).elems.all Elem.own = true := by
    change (Elem.own e && true) = true
    rw [hown]
    rfl
  have hkind : (a.done e res).kind.byInstr = false := hk
  rw [Access.endsAtOnce, hperf, hpost, hall, hkind]
  simp

/-- The only access of the plane performs at its own core and ends. -/
theorem State.pump_own {s : State} {a : Access} {e : Elem} {l : Loc} {ds : List (Nat × Vd)} {g : Core → Core} {res : List Byte}
    (hacc : s.pl.acc = [a]) (hel : a.elems = [e]) (hst : e.st = .ready) (hown : e.own = true) (hloc : e.loc = some l)
    (hdie : l.offDie s.fc = false) (hk : a.kind.byInstr = false) (hg : MemOnly g)
    (hperf : s.perfCore (s.vdOf s.fc s.fp) a.tensor a.kind l e = (res, s.worked ds g)) :
    s.pump s.fc s.fp = (s.worked ds g).modPl fun _ => s.pl.ended a e res := by
  have hturn : a.inTurn 0 = true := by
    rw [Access.inTurn, hel]
    split <;> rfl
  have hpl : (s.worked ds g).plane s.fc s.fp = s.pl := s.plane_worked ds hg s.fp
  have hmap : (s.pl.acc.map fun b => if b.id = a.id then { b with elems := modAt b.elems 0 fun e => { e with st := .performed, res := res } } else b) =
      [a.done e res] := by
    rw [hacc, List.map_singleton, if_pos rfl, hel]
    rfl
  have hmod : (s.worked ds g).modPl (fun _ => s.pl.ended a e res) = (s.worked ds g).modPlane s.fc s.fp fun _ => s.pl.ended a e res := by
    rw [State.modPl, State.fp_worked s ds hg, State.fc_worked]
  rw [State.pump_one hacc hel hst hturn, State.pumpElem_own hown hloc, hperf, hmod]
  dsimp only [State.elemDone, State.modElem]
  rw [State.plane_modPlane, hpl, hmap, List.filter_cons, Access.endsAtOnce_done hown hloc hdie hk, if_pos rfl, List.filter_nil, List.foldl_cons,
    List.foldl_nil, State.finishAcc, State.modPlane_modPlane]
  refine State.modPlane_congr ?_
  rw [hpl, hmap]
  rfl

end Sys2Proof.Machine

namespace Sys2Proof.Claims

open Sys2Proof.Machine

theorem regsOnly_putResult (a : Access) : RegsOnly fun x => x.putResult a := fun x => by
  have hsame : ∃ r, x = { x with regs := r } := ⟨x.regs, rfl⟩
  unfold Plane.putResult
  dsimp only
  split
  case h_1 | h_2 | h_3 =>
    split
    · exact regsOnly_wg _ _ x
    · exact hsame
  case h_4 | h_5 =>
    split
    · exact regsOnly_wv _ (fun _ => _) x
    · exact hsame
  case h_6 => exact regsOnly_wv _ (fun _ => _) x
  case h_7 => exact hsame

/-- The registers that an access leaves whose only element has performed. -/
def resultRegs (x : Plane) (a : Access) (e : Elem) (res : List Byte) : Regs := ({ x with acc := [a.done e res] }.putResult (a.done e res)).regs

theorem ended_eq (x : Plane) (a : Access) (e : Elem) (res : List Byte) : x.ended a e res = { x with
    acc := []
    regs := resultRegs x a e res
    oc := if a.kind.isStore then { x.oc with stc := x.oc.stc - 1 } else if a.kind.inLdc then { x.oc with ldc := x.oc.ldc - 1 } else x.oc } := by
  obtain ⟨r, hr⟩ := regsOnly_putResult (a.done e res) { x with acc := [a.done e res] }
  replace hr : Plane.putResult _ _ = _ := hr
  rw [Plane.ended, resultRegs, hr]
  have hid : ((a.done e res).id != (a.done e res).id) = false := bne_self_eq_false _
  rw [Plane.dropAccess, List.filter_cons, hid, if_neg Bool.false_ne_true]
  rfl

/-- An access that came and went leaves the counts as they were. -/
theorem ended_issue_oc {x : Plane} {a : Access} (e : Elem) (res : List Byte) : ((x.issue a).ended a e res).oc = x.oc := by
  rw [ended_eq]
  dsimp only [Plane.issue]
  cases a.kind.isStore
  · cases a.kind.inLdc
    · rfl
    · simp
  · simp

/-- What an access of the own memories leaves: the planes' registers `r`, the core's memories by `g`, and nothing else. -/
structure OwnEnd (s t : State) (n : Nat) (g : Core → Core) (r : Regs) : Prop where
  acc : t.pl.acc = []
  oc : t.pl.oc = s.pl.oc
  sr : t.pl.sr = s.pl.sr
  regs : t.pl.regs = r
  pc : t.pl.pc = s.nextPc n
  hold : t.pl.hold = none
  hbm : t.hbm = s.hbm
  others : ∀ c, c ≠ s.fc → t.core c = s.core c
  own : ∃ p x y, t.core s.fc = (g ((s.core s.fc).setPlane p x)).setPlane p y

/-- An access with one element in the own memories performs, ends, and its instruction completes. -/
theorem startAccess_own {s : State} {n : Nat} {k : AccKind} {cl : BitVec 4} {ar : BitVec 2} {scp : BitVec 3} {e : Elem} {l : Loc}
    {ds : List (Nat × Vd)} {g : Core → Core} {res : List Byte} (hacc : s.pl.acc = []) (hk : k.byInstr = false) (hst : e.st = .ready)
    (hown : e.own = true) (hloc : e.loc = some l) (hdie : l.offDie s.fc = false) (hg : MemOnly g)
    (hperf : let s1 := s.modPl fun x => x.issue (s.newAccess n k cl ar scp [e])
      s1.perfCore (s1.vdOf s1.fc s1.fp) s.pl.sr.tensor k l e = (res, s1.worked ds g)) :
    OwnEnd s (s.startAccess n k cl ar scp [e]) n g
      (resultRegs (s.pl.issue (s.newAccess n k cl ar scp [e])) (s.newAccess n k cl ar scp [e]) e res) := by
  generalize hs1 : (s.modPl fun x => x.issue (s.newAccess n k cl ar scp [e])) = s1 at hperf
  generalize ha : s.newAccess n k cl ar scp [e] = a at hs1 ⊢
  have hpl1 : s1.pl = s.pl.issue a := by rw [← hs1, State.pl_modPl]
  have hfp : s1.fp = s.fp := by rw [← hs1, State.fp_modPl]
  have hfc : s1.fc = s.fc := by rw [← hs1]; rfl
  have hone : (s.pl.issue a).acc = [a] := by rw [Plane.issue, hacc]; rfl
  have hel : a.elems = [e] := by rw [← ha]; rfl
  have hpump := State.pump_own (s := s1) (a := a) (hpl1 ▸ hone) hel hst hown hloc (hfc ▸ hdie) (by rw [← ha]; exact hk) hg
    (by rw [← ha]; exact hperf)
  have hnone : ((s.pl.issue a).ended a e res).acc = [] := by rw [ended_eq]
  rw [hpl1] at hpump
  have hready : ∀ e' ∈ a.elems, e'.st = .ready := fun e' he => by
    rw [hel] at he
    rw [List.mem_singleton.mp he, hst]
  have hstart := State.startAccess_eq (s := s) (n := n) (cl := cl) (ar := ar) (scp := scp) (es := [e])
    (t := (s1.worked ds g).modPl fun _ => (s.pl.issue a).ended a e res) hk
    (by rw [ha, hs1, State.lookAll_of_ready hready, ← hfc, ← hfp]; exact hpump)
    fun b hb => by
      rw [State.pl_modPl, Plane.access, hnone] at hb
      cases hb
  have hline : (s1.worked ds g).lineAt (s1.worked ds g).fc (s1.worked ds g).fp = s.lineAt s.fc s.fp := by
    rw [State.fc_worked, State.fp_worked s1 ds hg, State.lineAt_worked s1 ds hg, ← hs1]
    exact State.lineAt_modPl s _ rfl rfl
  have hplw : (s1.worked ds g).pl = s.pl.issue a := by rw [State.pl_worked s1 ds hg, hpl1]
  have hnext : (s1.worked ds g).nextPc n = s.nextPc n := by
    rw [State.nextPc, State.nextPc, hline, hplw]
    exact (Plane.pass_pc_congr (s.pl.issue a) s.pl _ n rfl rfl).1
  have hpl := State.pl_modPl_advance (s1.worked ds g) (fun _ => (s.pl.issue a).ended a e res) n (by rw [hplw, ended_eq])
    (by rw [hplw, ended_eq]) (by rw [hplw, ended_eq])
  rw [hstart]
  refine ⟨?_, ?_, ?_, ?_, ?_, ?_, ?_, fun c hc => ?_,
    s.fp, s.pl.issue a, ((s.pl.issue a).ended a e res).pass ((s1.worked ds g).lineAt (s1.worked ds g).fc (s1.worked ds g).fp) n, ?_⟩
  · rw [hpl, ended_eq]
  · rw [hpl]
    exact ended_issue_oc e res
  · rw [hpl, ended_eq]
    rfl
  · rw [hpl, ended_eq]
  · rw [hpl, hnext]
  · rw [hpl]
  · rw [State.modPl_advance _ _ n (by rw [hplw, ended_eq]) (by rw [hplw, ended_eq])]
    rw [← hs1]
    rfl
  · rw [State.modPl_advance _ _ n (by rw [hplw, ended_eq]) (by rw [hplw, ended_eq])]
    have hu : c ≠ (s1.worked ds g).fc := by rwa [State.fc_worked, hfc]
    refine (State.core_modCore_ne _ _ hu).trans ?_
    rw [State.core_worked_ne s1 ds g hu, ← hs1]
    exact State.core_modCore_ne s _ hc
  · rw [State.modPl_advance _ _ n (by rw [hplw, ended_eq]) (by rw [hplw, ended_eq])]
    have hcore1 : s1.core s1.fc = (s.core s.fc).setPlane s.fp (s.pl.issue a) := by
      rw [hfc, ← hs1]
      exact State.core_modCore s s.fc _
    have hu : (s1.worked ds g).core s.fc = g ((s.core s.fc).setPlane s.fp (s.pl.issue a)) := by rw [← hfc, State.core_worked, hcore1, hfc]
    have hfpu : (s1.worked ds g).fp = s.fp := by rw [State.fp_worked s1 ds hg, hfp]
    rw [State.modPl, State.fc_worked, hfpu, hfc, State.modPlane, State.core_modCore, hu]

end Sys2Proof.Claims

/-! ## Loads, stores, sectors and atomics of the own scratchpad

spec/05_core.md R97, spec/17_ref_a_c.md R321, R331, R335, spec/18_ref_d_l.md R362, R365, spec/20_ref_s_t.md R398, R401. -/

namespace Sys2Proof.Machine

open Sys2Proof.Claims

/-! ### Bytes of numbers -/

theorem leNat_eq_packElems (bs : List Byte) : leNat bs = packElems 8 (bs.map BitVec.toNat) := by
  induction bs with
  | nil => rfl
  | cons b bs ih =>
    have hcons : packElems 8 ((b :: bs).map BitVec.toNat) = packElems 8 (bs.map BitVec.toNat) * 2 ^ 8 + b.toNat % 2 ^ 8 := rfl
    rw [hcons, ← ih, Nat.mod_eq_of_lt b.isLt, leNat]
    omega

theorem leNat_lt (bs : List Byte) : leNat bs < 2 ^ (8 * bs.length) := by
  induction bs with
  | nil => exact Nat.one_pos
  | cons b bs ih =>
    have hb := b.isLt
    rw [leNat, List.length_cons, Nat.mul_succ, Nat.pow_add]
    omega

/-- Byte `j` of the value of a run of bytes. -/
theorem leNat_byte (bs : List Byte) (j : Nat) : BitVec.ofNat 8 (leNat bs / 2 ^ (8 * j)) = bs.getD j 0 := by
  have h := packElems_elem 8 (bs.map BitVec.toNat) j
  rw [← leNat_eq_packElems] at h
  refine BitVec.eq_of_toNat_eq ?_
  rw [BitVec.toNat_ofNat, h]
  by_cases hj : j < bs.length
  · rw [List.getD_eq_getElem _ _ (by simpa using hj), List.getElem_map, List.getD_eq_getElem _ _ hj]
    exact Nat.mod_eq_of_lt (BitVec.isLt _)
  · rw [List.getD_eq_default _ _ (by simpa using hj), List.getD_eq_default _ _ (by simpa using hj)]
    rfl

@[simp] theorem leBytes_length (v n : Nat) : (leBytes v n).length = n := by
  induction n generalizing v with
  | zero => rfl
  | succ n ih => rw [leBytes, List.length_cons, ih]

theorem leBytes_getElem (v n j : Nat) (hj : j < (leBytes v n).length) : (leBytes v n)[j] = BitVec.ofNat 8 (v / 2 ^ (8 * j)) := by
  induction n generalizing v j with
  | zero => exact absurd hj (Nat.not_lt_zero j)
  | succ n ih =>
    cases j with
    | zero => simp [leBytes]
    | succ j =>
      have hdiv : v / 256 / 2 ^ (8 * j) = v / 2 ^ (8 * (j + 1)) := by
        rw [Nat.div_div_eq_div_mul, Nat.mul_succ, Nat.add_comm, Nat.pow_add]
      exact (ih (v / 256) j (by simpa using hj)).trans (congrArg (BitVec.ofNat 8) hdiv)

theorem leBytes_leNat (bs : List Byte) : leBytes (leNat bs) bs.length = bs := by
  refine List.ext_getElem (by simp) fun j h1 h2 => ?_
  rw [leBytes_getElem, leNat_byte, List.getD_eq_getElem _ _ h2]

theorem leNat_leBytes (v n : Nat) : leNat (leBytes v n) = v % 2 ^ (8 * n) := by
  induction n generalizing v with
  | zero => simp [leBytes, leNat, Nat.mod_one]
  | succ n ih =>
    rw [leBytes, leNat, ih, BitVec.toNat_ofNat, Nat.mul_succ, Nat.add_comm (8 * n), Nat.pow_add, Nat.mod_mul]

/-- Byte `k` of a doubleword. -/
theorem ofNat_div_eq_shift {w : Nat} (x : BitVec w) (k : Nat) : BitVec.ofNat 8 (x.toNat / 2 ^ (8 * k)) = (x >>> (8 * k)).setWidth 8 := by
  refine BitVec.eq_of_toNat_eq ?_
  rw [BitVec.toNat_ofNat, BitVec.toNat_setWidth, BitVec.toNat_ushiftRight, Nat.shiftRight_eq_div_pow]

theorem wordBytes_getElem (x : Word) (k : Nat) (hk : k < (wordBytes x).length) : (wordBytes x)[k] = (x >>> (8 * k)).setWidth 8 := by
  rw [← ofNat_div_eq_shift]
  exact leBytes_getElem ..

@[simp] theorem leWord_wordBytes (x : Word) : leWord (wordBytes x) = x := by
  rw [leWord, wordBytes, leNat_leBytes, Nat.mod_eq_of_lt x.isLt, BitVec.ofNat_toNat, BitVec.setWidth_eq]

theorem wordBytes_leWord {bs : List Byte} (h : bs.length = 8) : wordBytes (leWord bs) = bs := by
  have hlt := leNat_lt bs
  rw [h] at hlt
  rw [wordBytes, leWord, BitVec.toNat_ofNat, Nat.mod_eq_of_lt hlt, ← h, leBytes_leNat]

/-- A masked write of the bytes that the mask selects. -/
theorem mergeBytes_getElem (mask : BitVec 64) (old new : List Byte) (k : Nat) (hk : k < (mergeBytes mask old new).length) :
    (mergeBytes mask old new)[k] = if mask.getLsbD k then new.getD k 0 else old.getD k 0 := by
  simp [mergeBytes]

@[simp] theorem mergeBytes_length (mask : BitVec 64) (old new : List Byte) : (mergeBytes mask old new).length = new.length := by
  simp [mergeBytes]

/-- The mask of a whole access of at most 8 bytes. -/
theorem getLsbD_lowMask {n k : Nat} (hk : k < n) (hn : n ≤ 64) : (lowMask n).getLsbD k = true := by
  rw [lowMask, BitVec.getLsbD_ofNat, decide_eq_true (by omega), Bool.true_and, Nat.testBit_two_pow_sub_one]
  exact decide_eq_true hk

/-! ### The own scratchpad (R97, R188) -/

theorem winOf_spad {va : Word} {off : Nat} (h : va.toNat = 0x1000000000000 + off) (hoff : off < 0xC0000) : winOf va = .spad off := by
  have hw : coreWin (0x1000000000000 + off - 0x1000000000000) = some (0, off) := by
    rw [Nat.add_sub_cancel_left, coreWin, if_pos hoff]
  unfold winOf
  rw [h]
  dsimp only
  rw [if_neg (by omega), if_pos (by omega), hw]
  rfl

theorem winOf_bobbin {va : Word} {off : Nat} (h : va.toNat = 0x1000000100000 + off) (hoff : off < 0x100000) : winOf va = .bobbin off := by
  have hsub : 0x1000000100000 + off - 0x1000000000000 = 0x100000 + off := by omega
  have hin : (0x100000 ≤ 0x100000 + off && 0x100000 + off < 0x200000 : Bool) = true := by
    rw [Bool.and_eq_true, decide_eq_true_eq, decide_eq_true_eq]
    omega
  have hw : coreWin (0x1000000100000 + off - 0x1000000000000) = some (1, off) := by
    rw [hsub, coreWin, if_neg (by omega), if_pos hin, Nat.add_sub_cancel_left]
  unfold winOf
  rw [h]
  dsimp only
  rw [if_neg (by omega), if_pos (by omega), hw]
  rfl

theorem toNat_add_ofNat {va : Word} {n : Nat} (h : va.toNat + n < 2 ^ 64) : (va + BitVec.ofNat 64 n).toNat = va.toNat + n := by
  rw [BitVec.toNat_add, BitVec.toNat_ofNat, Nat.add_mod_mod, Nat.mod_eq_of_lt h]

theorem target_spad (s : State) (d : Vd) (c : Nat) {va : Word} {off len : Nat} (h : va.toNat = 0x1000000000000 + off) (hlen : 0 < len)
    (hend : off + len ≤ 0xC0000) : s.target d c va len = .home (.spad c off) false := by
  have h2 : winOf (va + BitVec.ofNat 64 (len - 1)) = .spad (off + (len - 1)) :=
    winOf_spad (by rw [toNat_add_ofNat (by omega), h, Nat.add_assoc]) (by omega)
  unfold State.target
  rw [winOf_spad h (by omega), h2]
  rfl

theorem target_bobbin (s : State) (d : Vd) (c : Nat) {va : Word} {off len : Nat} (h : va.toNat = 0x1000000100000 + off) (hlen : 0 < len)
    (hend : off + len ≤ 0x100000) : s.target d c va len = .home (.bobbin c off) false := by
  have h2 : winOf (va + BitVec.ofNat 64 (len - 1)) = .bobbin (off + (len - 1)) :=
    winOf_bobbin (by rw [toNat_add_ofNat (by omega), h, Nat.add_assoc]) (by omega)
  unfold State.target
  rw [winOf_bobbin h (by omega), h2]
  rfl

theorem and_not_of_and_eq_zero {w : Nat} {a m : BitVec w} (h : a &&& m = 0#w) : a &&& ~~~m = a := by
  refine BitVec.eq_of_getLsbD_eq fun i hi => ?_
  have hb := congrArg (BitVec.getLsbD · i) h
  simp only [BitVec.getLsbD_and, BitVec.getLsbD_zero] at hb
  rw [BitVec.getLsbD_and, BitVec.getLsbD_not, decide_eq_true hi, Bool.true_and]
  revert hb
  cases a.getLsbD i <;> cases m.getLsbD i <;> decide

theorem and_lowMask_eq_zero {va : Word} {k : Nat} (hk : k ≤ 64) (h : va.toNat % 2 ^ k = 0) : va &&& BitVec.ofNat 64 (2 ^ k - 1) = 0 := by
  have hlt : 2 ^ k - 1 < 2 ^ 64 := by
    have := Nat.pow_le_pow_right (show 0 < 2 by decide) hk
    have := Nat.two_pow_pos k
    omega
  refine BitVec.eq_of_toNat_eq ?_
  rw [BitVec.toNat_and, BitVec.toNat_ofNat, Nat.mod_eq_of_lt hlt, Nat.and_two_pow_sub_one_eq_mod, h]
  rfl

/-- An aligned element of at most 32 bytes starts at its address. -/
theorem start_of_aligned {e : Elem} (hlen : e.len ≤ 32) (h : e.va.toNat % e.len = 0) : e.start = e.va := by
  unfold Elem.start
  rw [if_neg (by omega)]
  by_cases h32 : 32 ≤ e.len
  · rw [if_pos h32]
    have hl : e.len = 2 ^ 5 := by omega
    rw [hl] at h
    exact and_not_of_and_eq_zero (and_lowMask_eq_zero (k := 5) (by decide) h)
  · rw [if_neg h32]

/-- An element at its place in a core's own memories. -/
def ownElem (l : Loc) (va : Word) (len : Nat) (mask : BitVec 64) (data : List Byte) : Elem :=
  { mkElem 0 [0] va len mask data with loc := some l, peer := false, st := .ready }

theorem placeAll_home {s : State} {d : Vd} {c : Nat} {va : Word} {len : Nat} {l : Loc} {peer : Bool} (mask : BitVec 64) (data : List Byte)
    (hlen : len ≤ 32) (hal : va.toNat % len = 0) (ht : s.target d c va len = .home l peer) :
    s.placeAll d c [mkElem 0 [0] va len mask data] = .ok [{ ownElem l va len mask data with peer := peer }] := by
  have hp : s.placeElem d c (mkElem 0 [0] va len mask data) = .ok { ownElem l va len mask data with peer := peer } := by
    unfold State.placeElem
    rw [start_of_aligned (e := mkElem 0 [0] va len mask data) hlen hal]
    rw [show (mkElem 0 [0] va len mask data).va = va from rfl, show (mkElem 0 [0] va len mask data).len = len from rfl, ht]
    rfl
  unfold State.placeAll
  rw [hp]
  rfl

/-- The scratchpad after an access that writes `nb` at `off`, or nothing. -/
def spadAfter (m : Memory) (off : Nat) (nb : Option (List Byte)) : Memory := nb.elim m (memWrite m off)

/-- The core after such an access. -/
def spadWrite (off : Nat) (nb : Option (List Byte)) (k : Core) : Core := { k with spad := spadAfter k.spad off nb }

theorem memOnly_spadWrite (off : Nat) (nb : Option (List Byte)) : MemOnly (spadWrite off nb) := fun _ => ⟨_, _, _, rfl⟩

theorem spadWrite_none (off : Nat) (k : Core) : spadWrite off none k = k := rfl

/-- A read of the scratchpad counts nothing where no booked copy wrote (R88). -/
theorem State.readSect_of_nil {s : State} {c : Nat} (h : (s.core c).sect = []) (v o n : Nat) : s.readSect v c o n = s := by
  unfold State.readSect
  rw [h]
  rfl

theorem State.worked_spadWrite_none (s : State) (f : Plane → Plane) (off : Nat) :
    (s.modPl f).worked (s.modPl f).vds (spadWrite off none) = s.modPl f :=
  calc (s.modPl f).worked (s.modPl f).vds (spadWrite off none)
    _ = (s.modPl f).setCore s.fc ((s.modPl f).core s.fc) := rfl
    _ = s.setCore s.fc ((s.modPl f).core s.fc) := State.setCore_setCore ..
    _ = s.modPl f := by rw [State.modPl, State.modPlane, State.core_modCore]; rfl

/-- An access of the own scratchpad performs: it takes the bytes that stood there, and writes what its kind makes of them. -/
theorem State.perfCore_spad (s : State) (f : Plane → Plane) (v : Nat) (tensor : BitVec 8) (k : AccKind) (off : Nat) (e : Elem)
    (hsect : (s.core s.fc).sect = []) : (s.modPl f).perfCore v tensor k (.spad s.fc off) e =
      (if k.reads then memBytes (s.core s.fc).spad off e.len else [],
        (s.modPl f).worked (s.modPl f).vds (spadWrite off (k.newBytes e (memBytes (s.core s.fc).spad off e.len)))) := by
  have hform (u : State) (c : Nat) : u.perfCore v tensor k (.spad c off) e = (if k.reads then u.coreBytes (.spad c off) e.len else [],
      if k.reads then ((k.newBytes e (u.coreBytes (.spad c off) e.len)).elim u (u.coreWrite (.spad c off))).readSect v c off e.len
      else (k.newBytes e (u.coreBytes (.spad c off) e.len)).elim u (u.coreWrite (.spad c off))) := by
    cases k <;> unfold State.perfCore <;> dsimp only [Loc.spadOf] <;> cases AccKind.newBytes _ _ _ <;> rfl
  have hbytes : (s.modPl f).coreBytes (.spad s.fc off) e.len = memBytes (s.core s.fc).spad off e.len := by
    rw [State.coreBytes, State.core_modPl_spad]
  have hsect1 : ((s.modPl f).core s.fc).sect = [] := by
    rw [State.modPl, State.modPlane, State.core_modCore, Core.setPlane_sect, hsect]
  have hwrite : (k.newBytes e (memBytes (s.core s.fc).spad off e.len)).elim (s.modPl f) ((s.modPl f).coreWrite (.spad s.fc off)) =
      (s.modPl f).worked (s.modPl f).vds (spadWrite off (k.newBytes e (memBytes (s.core s.fc).spad off e.len))) := by
    cases k.newBytes e (memBytes (s.core s.fc).spad off e.len) with
    | none => exact (State.worked_spadWrite_none s f off).symm
    | some bs => rfl
  have hkeep : (((s.modPl f).worked (s.modPl f).vds (spadWrite off (k.newBytes e (memBytes (s.core s.fc).spad off e.len)))).core s.fc).sect = [] := by
    have hcore := (s.modPl f).core_worked (s.modPl f).vds (spadWrite off (k.newBytes e (memBytes (s.core s.fc).spad off e.len)))
    exact (congrArg Core.sect hcore).trans hsect1
  rw [hform, hbytes, hwrite, State.readSect_of_nil hkeep, ite_self]

end Sys2Proof.Machine

namespace Sys2Proof.Claims

open Sys2Proof.Machine

/-- The registers after an access with the one element `e`, which took `res`. -/
def regsAfter (s : State) (n : Nat) (k : AccKind) (cl : BitVec 4) (ar : BitVec 2) (scp : BitVec 3) (e : Elem) (res : List Byte) : Regs :=
  resultRegs (s.pl.issue (s.newAccess n k cl ar scp [e])) (s.newAccess n k cl ar scp [e]) e res

theorem ownDone_of_end {s t : State} {n off : Nat} {nb : Option (List Byte)} {r : Regs} (h : OwnEnd s t n (spadWrite off nb) r) :
    OwnDone s t n ∧ (t.core s.fc).spad = spadAfter (s.core s.fc).spad off nb ∧ t.pl.regs = r := by
  obtain ⟨p, x, y, hown⟩ := h.own
  refine ⟨⟨h.acc, h.oc, h.sr, h.pc, h.hold, fun a => by rw [h.hbm], fun c a => ?_, fun c hc a => by rw [h.others c hc]⟩, ?_, h.regs⟩
  · by_cases hc : c = s.fc
    · subst hc
      rw [hown]
      simp [spadWrite]
    · rw [h.others c hc]
      exact ⟨rfl, rfl⟩
  · rw [hown]
    simp [spadWrite]

/-- An instruction with one element in the own scratchpad and inside the lease: it completes at once. -/
theorem ownAccess_ends {i : Instr} {s : State} {d : Vd} {va : Word} {off len n : Nat} {k : AccKind} {cl : BitVec 4} {ar : BitVec 2}
    {scp : BitVec 3} {place : Vd → List Elem → Option (Nat × Word)} {mask : BitVec 64} {data : List Byte} (ha : OwnAccess s d va off len ar scp)
    (hpos : 0 < len) (hlen : len ≤ 32) (hk : k.byInstr = false) (hldc : k.isStore = false → k.inLdc = true)
    (hplace : place d [ownElem (.spad s.fc off) va len mask data] = none)
    (h : exec i s = .next (s.doAccess n k cl ar scp none place [mkElem 0 [0] va len mask data])) :
    ∃ t, exec i s = .next t ∧ OwnDone s t n ∧
      (t.core s.fc).spad = spadAfter (s.core s.fc).spad off
        (k.newBytes (ownElem (.spad s.fc off) va len mask data) (memBytes (s.core s.fc).spad off len)) ∧
      t.pl.regs = regsAfter s n k cl ar scp (ownElem (.spad s.fc off) va len mask data)
        (if k.reads then memBytes (s.core s.fc).spad off len else []) := by
  obtain ⟨hd, hva, hal, hend, hlo, hhi, hscope, hacc, hldc63, hstc63, hsect, hwf⟩ := ha
  have hlease : ∀ e ∈ [ownElem (.spad s.fc off) va len mask data], s.pl.outOfLease e = false := fun e he => by
    rw [List.mem_singleton.mp he]
    have hin : s.pl.inLease off len mask = true := by
      refine List.all_eq_true.mpr fun i hi => ?_
      have := List.mem_range.mp hi
      rw [Bool.or_eq_true, decide_eq_true_eq, Plane.leaseBase, Plane.leaseSize]
      exact .inr ⟨by omega, by omega⟩
    change (!false && !(s.pl.inLease off len mask)) = false
    rw [hin]
    rfl
  have hcount : s.pl.countFull k = false := by
    unfold Plane.countFull
    split
    · exact beq_eq_false_iff_ne.mpr hstc63
    · rw [beq_eq_false_iff_ne.mpr hldc63, Bool.and_false]
  have hplaced := placeAll_home mask data hlen hal (target_spad s d s.fc hva hpos hend)
  have hpass : Passes s d k ar scp none place [mkElem 0 [0] va len mask data] [ownElem (.spad s.fc off) va len mask data] :=
    ⟨hd, fun _ _ _ hs => (Option.some_ne_none _ hs.symm).elim, hplaced, hplace, hlease, hscope, hcount⟩
  have hstart := ((issues_of_exec h hk hldc) d _).1 hpass
  exact ⟨_, hstart, ownDone_of_end (startAccess_own (l := .spad s.fc off) hacc hk rfl rfl rfl (bne_self_eq_false _) (memOnly_spadWrite off _)
    (State.perfCore_spad s _ _ _ k off _ hsect))⟩

/-! ### Loads and stores inside the lease -/

/-- The bytes that stand at an offset. -/
theorem memBytes_getD {m : Memory} (hm : m.wf = true) (off n j : Nat) (hj : j < n) : (memBytes m off n).getD j 0 = memRead m (off + j) := by
  rw [memBytes_eq hm, List.getD_eq_getElem _ _ (by simpa using hj)]
  simp

theorem memBytes_length {m : Memory} (hm : m.wf = true) (off n : Nat) : (memBytes m off n).length = n := by
  rw [memBytes_eq hm]
  simp

/-- What a load extends its bytes to (R362). -/
theorem loaded_eq {bs : List Byte} {len : Nat} (hlen : bs.length = len) (sx : BitVec 1) :
    (if (sx == 1) = true then BitVec.ofInt 64 (intOf true (8 * len) (leNat bs)) else leWord bs) =
      if sx = 1 ∧ 2 ^ (8 * len - 1) ≤ leNat bs then BitVec.ofInt 64 ((leNat bs : Int) - 2 ^ (8 * len)) else BitVec.ofNat 64 (leNat bs) := by
  have hlt : leNat bs < 2 ^ (8 * len) := hlen ▸ leNat_lt bs
  have hmod : (leNat bs : Int) % 2 ^ (8 * len) = leNat bs := by exact_mod_cast Nat.mod_eq_of_lt hlt
  by_cases hsx : sx = 1
  · subst hsx
    rw [if_pos (beq_self_eq_true _), intOf, Bool.true_and, Nat.mod_eq_of_lt hlt, hmod]
    by_cases hge : 2 ^ (8 * len - 1) ≤ leNat bs
    · rw [if_pos (decide_eq_true hge), if_pos ⟨rfl, hge⟩]
    · rw [if_neg (by simpa using hge), if_neg (fun h => hge h.2)]
      exact BitVec.ofInt_natCast ..
  · rw [if_neg (by simpa using hsx), if_neg (fun h => hsx h.1)]
    rfl

theorem wg_regs_congr {x y : Plane} (h : x.regs = y.regs) (d : BitVec 6) (w : Word) : (x.wg d w).regs = (y.wg d w).regs := by
  unfold Plane.wg
  split <;> simp [h]

theorem wv_regs_congr {x y : Plane} (h : x.regs = y.regs) (v : BitVec 5) (w : VReg) : (x.wv v w).regs = (y.wv v w).regs := by
  rw [Plane.wv, Plane.wv]
  simp [h]

/-- A store gives no register a result. -/
theorem regsAfter_st (s : State) (n : Nat) (cl : BitVec 4) (ar : BitVec 2) (scp : BitVec 3) (e : Elem) (res : List Byte) :
    regsAfter s n .st cl ar scp e res = s.pl.regs := rfl

theorem regsAfter_ld (s : State) (n : Nat) (d : BitVec 6) (sx : Bool) (cl : BitVec 4) (ar : BitVec 2) (scp : BitVec 3) (e : Elem) (res : List Byte) :
    regsAfter s n (.ld d sx) cl ar scp e res =
      (s.pl.wg d (if sx then BitVec.ofInt 64 (intOf true (8 * e.len) (leNat res)) else leWord res)).regs :=
  by refine wg_regs_congr (y := s.pl) ?_ _ _; rfl

theorem regsAfter_amo (s : State) (n : Nat) (d : BitVec 6) (aop : BitVec 4) (cl : BitVec 4) (ar : BitVec 2) (scp : BitVec 3) (e : Elem)
    (res : List Byte) : regsAfter s n (.amo d aop) cl ar scp e res = (s.pl.wg d (leWord res)).regs :=
  by refine wg_regs_congr (y := s.pl) ?_ _ _; rfl

theorem regsAfter_cas (s : State) (n : Nat) (d : BitVec 6) (cl : BitVec 4) (ar : BitVec 2) (scp : BitVec 3) (e : Elem) (res : List Byte) :
    regsAfter s n (.cas d) cl ar scp e res = (s.pl.wg d (leWord res)).regs :=
  by refine wg_regs_congr (y := s.pl) ?_ _ _; rfl

/-- The registers of `q` are those of `p`, but g register `d` holds `x`. -/
def WroteG (p q : Plane) (d : BitVec 6) (x : Word) : Prop :=
  (∀ r, q.rg r = if r = 0 then 0 else if r = d then x else p.rg r) ∧ (∀ r, q.rp r = p.rp r) ∧ (∀ r, q.rm r = p.rm r) ∧ ∀ r, q.rv r = p.rv r

theorem wroteG_of_regs {p q : Plane} {d : BitVec 6} {x : Word} (h : q.regs = (p.wg d x).regs) : WroteG p q d x :=
  ⟨fun r => (rg_of_regs h r).trans (Plane.rg_wg ..), fun r => (rp_of_regs h r).trans (by simp), fun r => (rm_of_regs h r).trans (by simp),
    fun r => (rv_of_regs h r).trans (by simp)⟩

theorem OwnAccess.wf {s : State} {d : Vd} {va : Word} {off len : Nat} {ar : BitVec 2} {scp : BitVec 3} (h : OwnAccess s d va off len ar scp) :
    (s.core s.fc).spad.wf = true := by
  obtain ⟨-, -, -, -, -, -, -, -, -, -, -, hwf⟩ := h
  exact hwf

theorem OwnAccess.aligned {s : State} {d : Vd} {va : Word} {off len : Nat} {ar : BitVec 2} {scp : BitVec 3} (h : OwnAccess s d va off len ar scp) :
    va.toNat % len = 0 := by
  obtain ⟨-, -, hal, -⟩ := h
  exact hal

theorem two_pow_sz_le (sz : BitVec 2) : 2 ^ sz.toNat ≤ 8 :=
  show 2 ^ sz.toNat ≤ 2 ^ 3 from Nat.pow_le_pow_right (by decide) (by have := sz.isLt; omega)

theorem loadsInLease {i : Instr} {s : State} {d : Vd} {off n : Nat} {g : BitVec 4} {dst : BitVec 6} {va : Word} {sz : BitVec 2} {sx : BitVec 1}
    {cl : BitVec 4} {ar : BitVec 2} {scp : BitVec 3} (h : exec i s = .next (s.loadAt g n dst va sz sx cl ar scp)) (hg : s.pl.guard g = true)
    (ha : OwnAccess s d va off (2 ^ sz.toNat) ar scp) : ∃ t, exec i s = .next t ∧ OwnDone s t n ∧
      (∀ a, memRead (t.core s.fc).spad a = memRead (s.core s.fc).spad a) ∧
      WroteG s.pl t.pl dst (let x := leNat ((List.range (2 ^ sz.toNat)).map fun i => memRead (s.core s.fc).spad (off + i))
        if sx = 1 ∧ 2 ^ (8 * 2 ^ sz.toNat - 1) ≤ x then BitVec.ofInt 64 ((x : Int) - 2 ^ (8 * 2 ^ sz.toNat)) else BitVec.ofNat 64 x) := by
  rw [loadAt_eq hg ha.aligned] at h
  obtain ⟨t, ht, hdone, hspad, hregs⟩ := ownAccess_ends (k := .ld dst (sx == 1)) (place := anyPlace) ha (Nat.two_pow_pos _)
    (Nat.le_trans (two_pow_sz_le sz) (by decide)) rfl (fun _ => rfl) rfl h
  refine ⟨t, ht, hdone, fun a => by rw [hspad]; rfl, wroteG_of_regs ?_⟩
  rw [hregs, regsAfter_ld]
  dsimp only
  rw [← loaded_eq (by simp), ← memBytes_eq ha.wf]
  rfl

/-- A store writes the bytes of its value and no other. -/
theorem storesInLease {i : Instr} {s : State} {d : Vd} {off n : Nat} {g : BitVec 4} {src : BitVec 6} {va : Word} {sz : BitVec 2}
    {cl : BitVec 4} {ar : BitVec 2} {scp : BitVec 3} (h : exec i s = .next (s.storeAt g n src va sz cl ar scp)) (hg : s.pl.guard g = true)
    (ha : OwnAccess s d va off (2 ^ sz.toNat) ar scp) : ∃ t, exec i s = .next t ∧ OwnDone s t n ∧ t.pl.regs = s.pl.regs ∧
      (∀ k, k < 2 ^ sz.toNat → memRead (t.core s.fc).spad (off + k) = ((s.pl.rg src) >>> (8 * k)).setWidth 8) ∧
      ∀ a, (a < off ∨ off + 2 ^ sz.toNat ≤ a) → memRead (t.core s.fc).spad a = memRead (s.core s.fc).spad a := by
  rw [storeAt_eq hg ha.aligned] at h
  have hsz := two_pow_sz_le sz
  obtain ⟨t, ht, hdone, hspad, hregs⟩ := ownAccess_ends (k := .st) (place := bobbinStore) ha (Nat.two_pow_pos _)
    (Nat.le_trans hsz (by decide)) rfl (fun h => nomatch h) rfl h
  have hlen : (mergeBytes (lowMask (2 ^ sz.toNat)) (memBytes (s.core s.fc).spad off (2 ^ sz.toNat))
      ((leBytes (s.pl.rg src).toNat 8).take (2 ^ sz.toNat))).length = 2 ^ sz.toNat := by simp [hsz]
  replace hspad : (t.core s.fc).spad = memWrite (s.core s.fc).spad off (mergeBytes (lowMask (2 ^ sz.toNat))
    (memBytes (s.core s.fc).spad off (2 ^ sz.toNat)) ((leBytes (s.pl.rg src).toNat 8).take (2 ^ sz.toNat))) := hspad
  refine ⟨t, ht, hdone, hregs, fun k hk => ?_, fun a hout => ?_⟩
  · rw [hspad]
    refine (memRead_memWrite_in ha.wf off _ k (by rw [hlen]; exact hk)).trans ?_
    rw [mergeBytes_getElem, getLsbD_lowMask hk (by omega), if_pos rfl, List.getD_eq_getElem _ _ (by simp [hsz]; omega), List.getElem_take]
    exact wordBytes_getElem ..
  · rw [hspad]
    exact memRead_memWrite_out ha.wf off _ a (by rw [hlen]; exact hout)

/-- Settles O14. -/
theorem ownLease : Obligations.OwnLease :=
  ⟨fun _ _ _ => ⟨fun _ hg ha => loadsInLease rfl hg ha, fun _ hg ha => loadsInLease rfl hg ha⟩,
    fun _ _ _ => ⟨fun _ hg ha => storesInLease rfl hg ha, fun _ hg ha => storesInLease rfl hg ha⟩⟩

/-! ### Sectors of the own scratchpad -/

theorem at_and_31 {s : State} {d : Vd} {va : Word} {off : Nat} {ar : BitVec 2} {scp : BitVec 3} (h : OwnAccess s d va off 32 ar scp) :
    va &&& 31#64 = 0 := and_lowMask_eq_zero (k := 5) (by decide) h.aligned

theorem at_and_7 {s : State} {d : Vd} {va : Word} {off : Nat} {ar : BitVec 2} {scp : BitVec 3} (h : OwnAccess s d va off 8 ar scp) :
    va &&& 7#64 = 0 := and_lowMask_eq_zero (k := 3) (by decide) h.aligned

theorem OwnAccess.isHost {s : State} {d : Vd} {va : Word} {off len : Nat} {ar : BitVec 2} {scp : BitVec 3} (h : OwnAccess s d va off len ar scp)
    (hpos : 0 < len) : isHost va = false := by
  obtain ⟨-, hva, -, hend, -⟩ := h
  rw [Machine.isHost, winOf_spad hva (by omega)]

/-- The bytes of a v register's lanes 0 to 3. -/
theorem lowLanes_getElem (v : VReg) {j : Nat} (hj : j < (leBytes (v.setWidth 256).toNat 32).length) :
    (leBytes (v.setWidth 256).toNat 32)[j] = v.extractLsb' (8 * j) 8 := by
  rw [leBytes_length] at hj
  rw [leBytes_getElem, ofNat_div_eq_shift]
  refine BitVec.eq_of_getLsbD_eq fun i hi => ?_
  rw [BitVec.getLsbD_setWidth, BitVec.getLsbD_ushiftRight, BitVec.getLsbD_setWidth, BitVec.getLsbD_extractLsb',
    decide_eq_true (show 8 * j + i < 256 by omega), Bool.true_and]

/-- A register with the bytes `bs` in its low lanes. -/
theorem lowBytes_extract (v : VReg) {bs : List Byte} {j : Nat} (hj : j < 32) :
    ((v &&& ~~~((BitVec.allOnes 256).setWidth 1024)) ||| BitVec.ofNat 1024 (leNat bs)).extractLsb' (8 * j) 8 = bs.getD j 0 := by
  have hbyte : (BitVec.ofNat 1024 (leNat bs)).extractLsb' (8 * j) 8 = bs.getD j 0 := by
    rw [← leNat_byte]
    refine BitVec.eq_of_toNat_eq ?_
    rw [← elemAt_eq, elemAt_ofNat (by omega), BitVec.toNat_ofNat]
  rw [← hbyte]
  refine BitVec.eq_of_getLsbD_eq fun i hi => ?_
  rw [BitVec.getLsbD_extractLsb', BitVec.getLsbD_extractLsb', BitVec.getLsbD_or, getLsbD_clearLow v (by omega),
    decide_eq_false (show ¬ 256 ≤ 8 * j + i by omega), Bool.false_and, Bool.false_or]

theorem lowBytes_high (v : VReg) {bs : List Byte} (hbs : bs.length = 32) {k : Nat} (hk : k < 1024) (hge : 256 ≤ k) :
    ((v &&& ~~~((BitVec.allOnes 256).setWidth 1024)) ||| BitVec.ofNat 1024 (leNat bs)).getLsbD k = v.getLsbD k := by
  have hlt := leNat_lt bs
  rw [hbs] at hlt
  have hzero : (leNat bs).testBit k = false :=
    Nat.testBit_lt_two_pow (Nat.lt_of_lt_of_le hlt (Nat.pow_le_pow_right (by decide) hge))
  rw [BitVec.getLsbD_or, getLsbD_clearLow v hk, BitVec.getLsbD_ofNat, hzero, decide_eq_true hge, Bool.true_and, Bool.and_false, Bool.or_false]

theorem secBytes_singleton {e : Elem} (hstart : e.start.toNat % 32 = 0) (hlen : e.len = 32) {j : Nat} (hj : j < 32) :
    (secBytes [e]).getD j 0 = if e.mask.getLsbD j then e.res.getD j 0 else 0 := by
  rw [secBytes, List.getD_eq_getElem _ _ (by simpa using hj), List.getElem_map, List.getElem_range, List.find?_cons, hstart, hlen]
  cases e.mask.getLsbD j <;> simp [hstart, hj]

theorem secBytes_length (es : List Elem) : (secBytes es).length = 32 := by simp [secBytes]

theorem regsAfter_ldsec (s : State) (n : Nat) (v : BitVec 5) (cl : BitVec 4) (ar : BitVec 2) (scp : BitVec 3) (e : Elem) (res : List Byte) :
    regsAfter s n (.ldsec v) cl ar scp e res = (s.pl.wv v ((s.pl.rv v &&& ~~~((BitVec.allOnes 256).setWidth 1024)) |||
      BitVec.ofNat 1024 (leNat (secBytes [{ e with st := .performed, res := res }])))).regs :=
  by refine wv_regs_congr (y := s.pl) ?_ _ _; rfl

theorem sectorsInLease : SectorsInLease := by
  intro s d off o m hg hm ha
  have hal := at_and_31 ha
  have hmask (j : Nat) (hj : j < 32) : (s.secMask o.mr).getLsbD j = m.getLsbD j := by
    rw [State.secMask, BitVec.getLsbD_setWidth, decide_eq_true (by omega), Bool.true_and]
  have hld := exec_ldsec hg hal hm
  have hst := exec_stsec hg hal hm
  rw [ha.isHost (by decide)] at hld hst
  constructor
  · obtain ⟨t, ht, hdone, hspad, hregs⟩ := ownAccess_ends (place := anyPlace) ha (by decide) (by decide) rfl (fun _ => rfl) rfl hld
    rw [regsAfter_ldsec] at hregs
    obtain ⟨hv, hrv, hrg, hrp, hrm⟩ := wroteV_of_regs hregs
    have hstart : (ownElem (.spad s.fc off) (at' s o.a o.off) 32 (s.secMask o.mr) (List.replicate 32 0)).start.toNat % 32 = 0 := by
      rw [start_of_aligned (by exact Nat.le_refl 32) (by exact ha.aligned)]
      exact ha.aligned
    refine ⟨t, ht, hdone, fun a => by rw [hspad]; rfl, fun j hj => ?_, fun k hk hge => ?_, hrv, hrg, hrp, hrm⟩
    · rw [hv, lowBytes_extract _ hj, secBytes_singleton (by exact hstart) rfl hj, ← hmask j hj]
      change (if (s.secMask o.mr).getLsbD j = true then (memBytes (s.core s.fc).spad off 32).getD j 0 else 0) = _
      rw [memBytes_getD ha.wf _ _ _ hj]
    · rw [hv, lowBytes_high _ (secBytes_length _) hk hge]
  · obtain ⟨t, ht, hdone, hspad, hregs⟩ := ownAccess_ends (k := .st) (place := bobbinStore) ha (by decide) (by decide) rfl (fun h => nomatch h) rfl hst
    replace hspad : (t.core s.fc).spad = memWrite (s.core s.fc).spad off (mergeBytes (s.secMask o.mr)
      (memBytes (s.core s.fc).spad off 32) (leBytes ((s.pl.rv o.v).setWidth 256).toNat 32)) := hspad
    refine ⟨t, ht, hdone, hregs, fun j hj => ?_, fun a hout => ?_⟩
    · rw [hspad]
      refine (memRead_memWrite_in ha.wf off _ j (by simpa using hj)).trans ?_
      rw [mergeBytes_getElem, hmask j hj, List.getD_eq_getElem _ _ (by simpa using hj), lowLanes_getElem, memBytes_getD ha.wf _ _ _ hj]
    · rw [hspad]
      exact memRead_memWrite_out ha.wf off _ a (by simpa using hout)

/-! ### Atomics of the own scratchpad -/

/-- The doubleword at an offset. -/
def wordAt (m : Memory) (off : Nat) : Word := leWord (memBytes m off 8)

theorem amoNew_eq {aop : BitVec 4} {old b new : Word} (h : [b, old + b, old &&& b, old ||| b, old ^^^ b, if old.toInt < b.toInt then old else b,
    if old.toInt < b.toInt then b else old, if old.toNat < b.toNat then old else b, if old.toNat < b.toNat then b else old][aop.toNat]? = some new) :
    amoNew aop old b = new := by
  have hslt : old.slt b = true ↔ old.toInt < b.toInt := BitVec.slt_iff_toInt_lt
  have hult : old.ult b = true ↔ old.toNat < b.toNat := BitVec.ult_iff_toNat_lt
  unfold amoNew
  match aop.toNat, h with
  | 0, h => exact Option.some.inj h
  | 1, h => exact Option.some.inj h
  | 2, h => exact Option.some.inj h
  | 3, h => exact Option.some.inj h
  | 4, h => exact Option.some.inj h
  | 5, h => exact (if_congr hslt rfl rfl).trans (Option.some.inj h)
  | 6, h => exact (if_congr hslt rfl rfl).trans (Option.some.inj h)
  | 7, h => exact (if_congr hult rfl rfl).trans (Option.some.inj h)
  | 8, h => exact (if_congr hult rfl rfl).trans (Option.some.inj h)
  | n + 9, h => simp at h

/-- An atomic that leaves `new` where `old` stood. -/
theorem atomicEnds {i : Instr} {s : State} {d : Vd} {off : Nat} {va : Word} {k : AccKind} {cl : BitVec 4} {ar : BitVec 2} {scp : BitVec 3}
    {place : Vd → List Elem → Option (Nat × Word)} {data : List Byte} {dst : BitVec 6} {new : Word} (ha : OwnAccess s d va off 8 ar scp)
    (hk : k = .cas dst ∨ ∃ aop, k = .amo dst aop) (hplace : place d [ownElem (.spad s.fc off) va 8 (lowMask 8) data] = none)
    (h : exec i s = .next (s.doAccess 2 k cl ar scp none place (oneElem va 8 data)))
    (hnew : spadAfter (s.core s.fc).spad off (k.newBytes (ownElem (.spad s.fc off) va 8 (lowMask 8) data) (memBytes (s.core s.fc).spad off 8)) =
        memWrite (s.core s.fc).spad off (wordBytes new) ∨
      (new = wordAt (s.core s.fc).spad off ∧ spadAfter (s.core s.fc).spad off
        (k.newBytes (ownElem (.spad s.fc off) va 8 (lowMask 8) data) (memBytes (s.core s.fc).spad off 8)) = (s.core s.fc).spad)) :
    ∃ t, exec i s = .next t ∧ OwnDone s t 2 ∧ (∀ k < 8, memRead (t.core s.fc).spad (off + k) = (new >>> (8 * k)).setWidth 8) ∧
      (∀ a, (a < off ∨ off + 8 ≤ a) → memRead (t.core s.fc).spad a = memRead (s.core s.fc).spad a) ∧
      WroteG s.pl t.pl dst (wordAt (s.core s.fc).spad off) := by
  have hattr : k.byInstr = false ∧ k.inLdc = true ∧ k.reads = true ∧
      ∀ e res, regsAfter s 2 k cl ar scp e res = (s.pl.wg dst (leWord res)).regs := by
    rcases hk with rfl | ⟨aop, rfl⟩
    · exact ⟨rfl, rfl, rfl, regsAfter_cas s 2 dst cl ar scp⟩
    · exact ⟨rfl, rfl, rfl, regsAfter_amo s 2 dst aop cl ar scp⟩
  obtain ⟨hby, hldc, hreads, hreg⟩ := hattr
  obtain ⟨t, ht, hdone, hspad, hregs⟩ := ownAccess_ends ha (by decide) (by decide) hby (fun _ => hldc) hplace h
  rw [hreg, hreads, if_pos rfl] at hregs
  have hlen := memBytes_length ha.wf off 8
  refine ⟨t, ht, hdone, fun j hj => ?_, fun a hout => ?_, wroteG_of_regs hregs⟩
  · rcases hnew with hnew | ⟨rfl, hnew⟩
    · rw [hspad, hnew, memRead_memWrite_in ha.wf off _ j (by simpa [wordBytes] using hj)]
      exact wordBytes_getElem ..
    · have hb := wordBytes_getElem (wordAt (s.core s.fc).spad off) j (by simpa [wordBytes] using hj)
      rw [hspad, hnew, ← hb]
      simp only [wordAt, wordBytes_leWord hlen]
      rw [← memBytes_getD ha.wf _ _ _ hj, List.getD_eq_getElem _ _ (by rw [hlen]; exact hj)]
  · rcases hnew with hnew | ⟨-, hnew⟩
    · rw [hspad, hnew]
      exact memRead_memWrite_out ha.wf off _ a (by simpa [wordBytes] using hout)
    · rw [hspad, hnew]

theorem atomicsInLease : AtomicsInLease := by
  intro s d off
  refine ⟨fun o hg ha => ?_, fun o hg ha => ?_⟩
  · intro b new hnew
    have hold : leNat ((List.range 8).map fun i => memRead (s.core s.fc).spad (off + i)) = leNat (memBytes (s.core s.fc).spad off 8) := by
      rw [memBytes_eq ha.wf]
    rw [hold] at hnew ⊢
    refine atomicEnds (k := .amo o.d o.aop) (place := atomicPlace (o.aop == 1)) ha (.inr ⟨o.aop, rfl⟩) rfl
      (congrArg Host.Outcome.next (atomicAt_eq hg (at_and_7 ha) ..)) (.inl ?_)
    have hb : leWord (leBytes (s.pl.rg o.b).toNat 8) = b := leWord_wordBytes _
    have hamo := amoNew_eq hnew
    change memWrite (s.core s.fc).spad off (wordBytes (amoNew o.aop (leWord (memBytes (s.core s.fc).spad off 8))
      (leWord (leBytes (s.pl.rg o.b).toNat 8)))) = _
    rw [hb, ← hamo]
    rfl
  · have hold : leNat ((List.range 8).map fun i => memRead (s.core s.fc).spad (off + i)) = leNat (memBytes (s.core s.fc).spad off 8) := by
      rw [memBytes_eq ha.wf]
    rw [hold]
    refine atomicEnds (k := .cas o.d) (place := atomicPlace true) ha (.inl rfl) rfl
      (congrArg Host.Outcome.next (atomicAt_eq hg (at_and_7 ha) ..)) ?_
    have htake : (wordBytes (s.pl.rg o.b) ++ wordBytes (s.pl.rg o.c)).take 8 = wordBytes (s.pl.rg o.b) :=
      List.take_left' (by simp [wordBytes])
    have hdrop : (wordBytes (s.pl.rg o.b) ++ wordBytes (s.pl.rg o.c)).drop 8 = wordBytes (s.pl.rg o.c) :=
      List.drop_left' (by simp [wordBytes])
    have hnb : (AccKind.cas o.d).newBytes (ownElem (.spad s.fc off) (at' s o.a o.off) 8 (lowMask 8)
        (wordBytes (s.pl.rg o.b) ++ wordBytes (s.pl.rg o.c))) (memBytes (s.core s.fc).spad off 8) =
        if memBytes (s.core s.fc).spad off 8 == wordBytes (s.pl.rg o.b) then some (wordBytes (s.pl.rg o.c)) else none := by
      rw [← htake, ← hdrop]
      rfl
    have hiff : memBytes (s.core s.fc).spad off 8 = wordBytes (s.pl.rg o.b) ↔ wordAt (s.core s.fc).spad off = s.pl.rg o.b :=
      ⟨fun h => by rw [wordAt, h, leWord_wordBytes], fun h => by rw [← h, wordAt, wordBytes_leWord (memBytes_length ha.wf off 8)]⟩
    by_cases heq : wordAt (s.core s.fc).spad off = s.pl.rg o.b
    · refine .inl ?_
      rw [if_pos (by exact heq)]
      refine (congrArg (spadAfter (s.core s.fc).spad off) (hnb.trans (if_pos (beq_iff_eq.mpr (hiff.mpr heq))))).trans rfl
    · refine .inr ⟨if_neg (by exact heq), ?_⟩
      refine (congrArg (spadAfter (s.core s.fc).spad off) (hnb.trans (if_neg fun h => heq (hiff.mp (beq_iff_eq.mp h))))).trans rfl

end Sys2Proof.Claims

namespace Sys2Proof.Machine

open Sys2Proof.Claims

/-! ### Bobbin entries (R331) -/

theorem modTile_setPlane (k : Core) (p : BitVec 1) (x : Plane) (i : BitVec 3) (f : Tile → Tile) :
    (k.setPlane p x).modTile i f = (k.modTile i f).setPlane p x := by
  unfold Core.setPlane
  split <;> rfl

theorem setEntry_setPlane (k : Core) (p : BitVec 1) (x : Plane) (o v : Nat) : (k.setPlane p x).setEntry o v = (k.setEntry o v).setPlane p x := by
  unfold Core.setPlane
  split <;> rfl

theorem entry_setPlane (k : Core) (p : BitVec 1) (x : Plane) (o : Nat) : (k.setPlane p x).entry o = k.entry o := by
  rw [Core.entry, Core.setPlane_bobbin, Core.entry]

theorem portInt_setPlane (k : Core) (p : BitVec 1) (x : Plane) (o : Nat) (i : Int) :
    (k.setPlane p x).portInt o i = (k.portInt o i).setPlane p x := by
  unfold Core.portInt
  dsimp only
  rw [modTile_setPlane, entry_setPlane, setEntry_setPlane]
  split
  · rw [modTile_setPlane]
  · rfl

theorem portFp_setPlane (k : Core) (p : BitVec 1) (x : Plane) (o : Nat) (wide euf : Bool) (v : FVal) :
    (k.setPlane p x).portFp o wide euf v = ((k.portFp o wide euf v).1.setPlane p x, (k.portFp o wide euf v).2) := by
  have htile (k : Core) (i : BitVec 3) : (k.setPlane p x).tile i = k.tile i := by unfold Core.tile; simp
  unfold Core.portFp
  dsimp only
  rw [modTile_setPlane, entry_setPlane, htile, setEntry_setPlane, modTile_setPlane]

theorem portUpdate_setPlane (k : Core) (p : BitVec 1) (x : Plane) (o : Nat) (f : BitVec 2) (v : Nat) :
    (k.setPlane p x).portUpdate o f v = ((k.portUpdate o f v).1.setPlane p x, (k.portUpdate o f v).2) := by
  unfold Core.portUpdate Core.portBits
  dsimp only
  split
  · rw [portInt_setPlane]
  · rw [portFp_setPlane]

/-- An update of an entry and a rewrite of a plane do not meet. -/
theorem bput_setPlane (k : Core) (p : BitVec 1) (x : Plane) (o : Nat) (bop : BitVec 4) (b : Word) :
    (k.setPlane p x).bput o bop b = ((k.bput o bop b).1.setPlane p x, (k.bput o bop b).2) := by
  unfold Core.bput
  split
  · rw [setEntry_setPlane]
  · exact portUpdate_setPlane ..
  · exact portUpdate_setPlane ..
  · exact portUpdate_setPlane ..

theorem memOnly_portUpdate (o : Nat) (f : BitVec 2) (v : Nat) : MemOnly fun k => (k.portUpdate o f v).1 := fun k => by
  unfold Core.portUpdate Core.portBits
  dsimp only
  split
  · unfold Core.portInt
    dsimp only
    split <;> exact ⟨_, _, _, rfl⟩
  · exact ⟨_, _, _, rfl⟩

theorem memOnly_bput (o : Nat) (bop : BitVec 4) (b : Word) : MemOnly fun k => (k.bput o bop b).1 := fun k => by
  unfold Core.bput
  split
  · exact ⟨_, _, _, rfl⟩
  · exact memOnly_portUpdate _ _ _ k
  · exact memOnly_portUpdate _ _ _ k
  · exact memOnly_portUpdate _ _ _ k

theorem bput_spad (k : Core) (o : Nat) (bop : BitVec 4) (b : Word) : (k.bput o bop b).1.spad = k.spad := by
  unfold Core.bput Core.portUpdate Core.portBits Core.portInt
  dsimp only
  repeat' split
  all_goals rfl

/-- A BPUT performs at its bobbin; its events are counted. -/
theorem State.perfCore_bput (s : State) (v : Nat) (tensor : BitVec 8) (bop : BitVec 4) (off : Nat) (e : Elem) :
    ∃ ds, s.perfCore v tensor (.bput bop) (.bobbin s.fc off) e = ([], s.worked ds fun k => (k.bput off bop (leWord e.data)).1) := by
  obtain ⟨ds, hds⟩ := stat_frame (s.setCore s.fc ((s.core s.fc).bput off bop (leWord e.data)).1) v tensor
    ((s.core s.fc).bput off bop (leWord e.data)).2.sat ((s.core s.fc).bput off bop (leWord e.data)).2.flush
    ((s.core s.fc).bput off bop (leWord e.data)).2.nan ((s.core s.fc).bput off bop (leWord e.data)).2.inf
  refine ⟨ds, congrArg (Prod.mk []) ?_⟩
  rw [State.statAdd, hds]
  rfl

end Sys2Proof.Machine

namespace Sys2Proof.Claims

open Sys2Proof.Machine

theorem putInBobbin : PutInBobbin := by
  intro s d off o hg hd hacc hstc hva hal hoff hscope
  have hva8 : (at' s o.a o.off).toNat % 8 = 0 := by rw [hva]; omega
  have hland : at' s o.a o.off &&& 7#64 = 0 := and_lowMask_eq_zero (k := 3) (by decide) hva8
  have hend : off + 8 ≤ 0x100000 := by omega
  have hplaced := placeAll_home (lowMask 8) (leBytes (s.pl.rg o.b).toNat 8) (by decide) hva8 (target_bobbin s d s.fc hva (by decide) hend)
  have hpass : Passes s d (.bput o.aop) o.ar o.scp none bputPlace (oneElem (at' s o.a o.off) 8 (leBytes (s.pl.rg o.b).toNat 8))
      [ownElem (.bobbin s.fc off) (at' s o.a o.off) 8 (lowMask 8) (leBytes (s.pl.rg o.b).toNat 8)] :=
    ⟨hd, fun _ _ _ hs => (Option.some_ne_none _ hs.symm).elim, hplaced, rfl,
      fun e he => by rw [List.mem_singleton.mp he]; rfl, hscope, beq_eq_false_iff_ne.mpr hstc⟩
  have hexec : exec (.bput o) s = .next (s.doAccess 2 (.bput o.aop) o.cl o.ar o.scp none bputPlace
    (oneElem (at' s o.a o.off) 8 (leBytes (s.pl.rg o.b).toNat 8))) := congrArg Host.Outcome.next (atomicAt_eq hg hland ..)
  have hstart := ((issues_of_exec hexec rfl fun h => nomatch h) d _).1 hpass
  have hb : leWord (leBytes (s.pl.rg o.b).toNat 8) = s.pl.rg o.b := leWord_wordBytes _
  obtain ⟨ds, hperf⟩ := State.perfCore_bput (s.modPl fun x => x.issue (s.newAccess 2 (.bput o.aop) o.cl o.ar o.scp
      [ownElem (.bobbin s.fc off) (at' s o.a o.off) 8 (lowMask 8) (leBytes (s.pl.rg o.b).toNat 8)]))
    ((s.modPl fun x => x.issue (s.newAccess 2 (.bput o.aop) o.cl o.ar o.scp
      [ownElem (.bobbin s.fc off) (at' s o.a o.off) 8 (lowMask 8) (leBytes (s.pl.rg o.b).toNat 8)])).vdOf _ _) s.pl.sr.tensor o.aop off
    (ownElem (.bobbin s.fc off) (at' s o.a o.off) 8 (lowMask 8) (leBytes (s.pl.rg o.b).toNat 8))
  have hown := startAccess_own (n := 2) (cl := o.cl) (ar := o.ar) (scp := o.scp) (l := .bobbin s.fc off) hacc rfl rfl rfl rfl
    (bne_self_eq_false _) (memOnly_bput off o.aop _) hperf
  have hcore : ∃ p y, ((s.startAccess 2 (.bput o.aop) o.cl o.ar o.scp
      [ownElem (.bobbin s.fc off) (at' s o.a o.off) 8 (lowMask 8) (leBytes (s.pl.rg o.b).toNat 8)]).core s.fc) =
      ((s.core s.fc).bput off o.aop (s.pl.rg o.b)).1.setPlane p y := by
    obtain ⟨p, x, y, h⟩ := hown.own
    refine ⟨p, y, h.trans ?_⟩
    change (((s.core s.fc).setPlane p x).bput off o.aop (leWord (leBytes (s.pl.rg o.b).toNat 8))).1.setPlane p y = _
    rw [hb, bput_setPlane, Core.setPlane_setPlane]
  obtain ⟨p, y, hcore⟩ := hcore
  refine ⟨_, hstart, hown.acc, hown.oc, hown.sr, hown.regs, hown.pc, hown.hold, fun a => by rw [hown.hbm], fun c a => ?_,
    fun c hc a => by rw [hown.others c hc], ⟨?_, fun i => ?_⟩, fun haop hwf => ⟨fun i => ?_, fun j hj => ?_, fun a hout => ?_⟩⟩
  · by_cases hc : c = s.fc
    · subst hc
      rw [hcore, Core.setPlane_spad, Core.setPlane_creel, bput_spad, (memOnly_bput off o.aop (s.pl.rg o.b)).creel]
      exact ⟨rfl, rfl⟩
    · rw [hown.others c hc]
      exact ⟨rfl, rfl⟩
  · rw [hcore, Core.setPlane_bobbin]
  · rw [hcore, Core.tile, Core.tile]
    simp
  · rw [hcore, haop, Core.tile, Core.tile]
    simp [Core.bput, Core.setEntry]
  · rw [hcore, haop, Core.setPlane_bobbin]
    exact (memRead_memWrite_in hwf off _ j (by simpa using hj)).trans (wordBytes_getElem (s.pl.rg o.b) j _)
  · rw [hcore, haop, Core.setPlane_bobbin]
    exact memRead_memWrite_out hwf off _ a (by simpa using hout)

/-- Settles O12. -/
theorem memoryIssue : Obligations.MemoryIssue :=
  ⟨scalarMemoryIssue, sectorAndAtomicIssue, sectorsInLease, atomicsInLease, putInBobbin⟩

end Sys2Proof.Claims

/-! ## Vector memory instructions, and what memory instructions raise

spec/10_memory_streams.md R201, spec/21_ref_va_vm.md R427, R431, spec/22_ref_vn_x.md R442, R449. -/

namespace Sys2Proof.Claims

open Sys2Proof.Machine

/-! ### Lanes -/

theorem replayLanes_of_no_park {s : State} (h : s.pl.park = none) : s.replayLanes = none := by
  unfold State.replayLanes
  rw [h]

theorem memLanes_of_no_park {s : State} (h : s.pl.park = none) (g : BitVec 4) : s.memLanes g = s.pl.vguard g := by
  unfold State.memLanes
  rw [replayLanes_of_no_park h]

theorem Lanes.memLanes {s : State} {g : BitVec 4} {k : BitVec 16} (h : Lanes s g k) : s.memLanes g = k :=
  (memLanes_of_no_park h.1 g).trans h.2.1.symm

theorem vstAt_eq {s : State} {g : BitVec 4} {k : BitVec 16} {va : Word} (hk : Lanes s g k) (hal : va &&& 31#64 = 0) (n : Nat) (v : BitVec 5)
    (cl : BitVec 4) (ar : BitVec 2) (scp : BitVec 3) : s.vstAt g n v va cl ar scp =
      s.doAccess n .st cl ar scp (laneSpan va k) bobbinStore (vecElems (isHost va) true va k (lane (s.pl.rv v))) := by
  unfold State.vstAt
  rw [hk.memLanes]
  dsimp only
  rw [if_neg hk.2.2, if_neg (not_not.mpr (show va &&& 31 = 0 from hal))]

theorem vldAt_eq {s : State} {g : BitVec 4} {k : BitVec 16} {va : Word} {lay : BitVec 3} (hk : Lanes s g k) (hlay : lay = 0)
    (hal : va &&& 31#64 = 0) (n : Nat) (v : BitVec 5) (cl : BitVec 4) (ar : BitVec 2) (scp : BitVec 3) : s.vldAt g n v va lay cl ar scp =
      s.doAccess n (.vld v 0 0) cl ar scp (laneSpan va k) anyPlace (vecElems (isHost va) false va k fun _ => 0) := by
  unfold State.vldAt
  rw [if_pos hlay, hk.memLanes]
  dsimp only
  rw [if_neg hk.2.2, if_neg (not_not.mpr (show va &&& 31 = 0 from hal))]

theorem vstAt_idle {s : State} {g : BitVec 4} (hp : s.pl.park = none) (hg : s.pl.vguard g = 0) (n : Nat) (v : BitVec 5) (va : Word)
    (cl : BitVec 4) (ar : BitVec 2) (scp : BitVec 3) : s.vstAt g n v va cl ar scp = s.advance n := by
  unfold State.vstAt
  rw [memLanes_of_no_park hp]
  exact if_pos hg

theorem vldAt_idle {s : State} {g : BitVec 4} (hp : s.pl.park = none) (hg : s.pl.vguard g = 0) (n : Nat) (v : BitVec 5) (va : Word) (lay : BitVec 3)
    (cl : BitVec 4) (ar : BitVec 2) (scp : BitVec 3) : s.vldAt g n v va lay cl ar scp = s.advance n := by
  unfold State.vldAt
  split
  · rw [memLanes_of_no_park hp]
    exact if_pos hg
  · unfold State.decAt
    exact if_pos hg

theorem vstAt_align {s : State} {g : BitVec 4} {k : BitVec 16} {va : Word} (hk : Lanes s g k) (hal : va &&& 31#64 ≠ 0) (n : Nat) (v : BitVec 5)
    (cl : BitVec 4) (ar : BitVec 2) (scp : BitVec 3) : s.vstAt g n v va cl ar scp = s.trap cALIGN va := by
  unfold State.vstAt
  rw [hk.memLanes]
  dsimp only
  rw [if_neg hk.2.2, if_pos (show va &&& 31 ≠ 0 from hal)]

theorem vldAt_align {s : State} {g : BitVec 4} {k : BitVec 16} {va : Word} {lay : BitVec 3} (hk : Lanes s g k) (hlay : lay = 0)
    (hal : va &&& 31#64 ≠ 0) (n : Nat) (v : BitVec 5) (cl : BitVec 4) (ar : BitVec 2) (scp : BitVec 3) :
    s.vldAt g n v va lay cl ar scp = s.trap cALIGN va := by
  unfold State.vldAt
  rw [if_pos hlay, hk.memLanes]
  dsimp only
  rw [if_neg hk.2.2, if_pos (show va &&& 31 ≠ 0 from hal)]

/-! ### Gathers and scatters -/

theorem gatherMask_eq_zero {s : State} {o : Vgs} {k : BitVec 16} {p : Word → Bool}
    (h : ∀ l < 16, k.getLsbD l = true → p (s.gatherVa o l) = false) : s.gatherMask o k p = 0 := by
  unfold State.gatherMask
  refine List.foldlRecOn (motive := fun m => m = 0) _ _ rfl fun m hm i hi => ?_
  have hno : ¬ (k.getLsbD i && p (s.gatherVa o i)) = true := fun hand => by
    obtain ⟨hk, hp⟩ := Bool.and_eq_true_iff.mp hand
    rw [h i (List.mem_range.mp hi) hk] at hp
    exact Bool.false_ne_true hp
  rw [if_neg hno, hm]

/-- A gather or scatter whose lanes are aligned, and whose stores meet no part of a bobbin entry. -/
theorem gatherAt_eq {s : State} {o : Vgs} {k : BitVec 16} (hk : Lanes s o.g k) (kind : AccKind)
    (hal : s.gatherMask o k (fun a => a.toNat % 2 ^ o.esz.toNat ≠ 0) = 0)
    (hbob : kind ≠ .st ∨ o.esz = 3 ∨ ∀ l < 16, k.getLsbD l = true → ∃ c x, winOf (s.gatherVa o l) = .peer c x ∧ x < 0xC0000) :
    s.gatherAt o kind = s.doAccess 2 kind o.cl o.ar o.scp none anyPlace (s.gatherElems o k (s.pl.rv o.v)) := by
  unfold State.gatherAt
  rw [hk.memLanes]
  dsimp only
  rw [if_neg hk.2.2, if_neg (not_not.mpr hal), if_neg (not_not.mpr (gatherMask_eq_zero ?_))]
  intro l hl hkl
  rcases hbob with hne | h3 | hpeer
  · rw [beq_eq_false_iff_ne.mpr hne]
    rfl
  · rw [h3, bne_self_eq_false, Bool.and_false]
    rfl
  · obtain ⟨c, x, hwin, hx⟩ := hpeer l hl hkl
    rw [hwin]
    dsimp only
    rw [coreWin, if_pos hx]
    exact Bool.and_false _

/-- Settles O13. -/
theorem vectorMemoryIssue : Obligations.VectorMemoryIssue := by
  intro s k
  refine ⟨fun o hk hlay hal => ?_, fun o hk hlay hal => ?_, fun o hk hal => ?_, fun o hk hal => ?_, fun o hp hg => ?_, fun o hp hg => ?_,
    fun o hp hg => ?_, fun o hp hg => ?_, fun o hk => ?_⟩
  · exact issues_of_exec (congrArg Host.Outcome.next (vldAt_eq hk hlay hal ..)) rfl fun _ => rfl
  · exact issues_of_exec (congrArg Host.Outcome.next (vldAt_eq hk hlay hal ..)) rfl fun _ => rfl
  · exact issues_of_exec (congrArg Host.Outcome.next (vstAt_eq hk hal ..)) rfl fun h => nomatch h
  · exact issues_of_exec (congrArg Host.Outcome.next (vstAt_eq hk hal ..)) rfl fun h => nomatch h
  · exact ⟨_, congrArg Host.Outcome.next (vldAt_idle hp hg ..), unchanged_advance s 1⟩
  · exact ⟨_, congrArg Host.Outcome.next (vldAt_idle hp hg ..), unchanged_advance s 2⟩
  · exact ⟨_, congrArg Host.Outcome.next (vstAt_idle hp hg ..), unchanged_advance s 1⟩
  · exact ⟨_, congrArg Host.Outcome.next (vstAt_idle hp hg ..), unchanged_advance s 2⟩
  · intro va es hal
    exact ⟨issues_of_exec (congrArg Host.Outcome.next (gatherAt_eq hk _ hal (.inl fun h => nomatch h))) rfl fun _ => rfl,
      fun hb => issues_of_exec (congrArg Host.Outcome.next (gatherAt_eq hk .st hal (.inr hb))) rfl fun h => nomatch h⟩

/-! ### Misaligned addresses (R201) -/

/-- A memory instruction under a guard that traps where its address is `bad`, and else does as `act` says. -/
theorem alignChecks {i : Instr} {s act : State} {n : Nat} {g : BitVec 4} {va : Word} {bad : Prop} [Decidable bad]
    (h : exec i s = .next (if s.pl.guard g then (if bad then s.trap cALIGN va else act) else s.advance n)) :
    ∃ t, exec i s = .next t ∧ (s.pl.guard g = true → bad → Traps s t 7 va) ∧ (s.pl.guard g = false → Unchanged s t n) := by
  refine ⟨_, h, fun hg hb => ?_, fun hg => ?_⟩
  · rw [if_pos hg, if_pos hb]
    exact traps_trap ..
  · rw [hg, if_neg Bool.false_ne_true]
    exact unchanged_advance s n

theorem gatherAt_idle {s : State} {o : Vgs} (hp : s.pl.park = none) (hg : s.pl.vguard o.g = 0) (kind : AccKind) :
    s.gatherAt o kind = s.advance 2 := by
  unfold State.gatherAt
  rw [memLanes_of_no_park hp]
  exact if_pos hg

/-- Settles O15. -/
theorem misalignedAccess : Obligations.MisalignedAccess := by
  intro s
  refine ⟨fun o => alignChecks rfl, fun o => alignChecks rfl, fun o => alignChecks rfl, fun o => alignChecks rfl, fun o => alignChecks rfl,
    fun o => alignChecks rfl, fun o => alignChecks rfl, fun o => alignChecks rfl, fun o => alignChecks rfl, fun o k hk hal => ?_,
    fun o k hk hal => ?_, fun o k hk hlay hal => ?_, fun o k hk hlay hal => ?_, fun o hp hg => ?_⟩
  · exact ⟨_, congrArg Host.Outcome.next (vstAt_align hk hal ..), traps_trap ..⟩
  · exact ⟨_, congrArg Host.Outcome.next (vstAt_align hk hal ..), traps_trap ..⟩
  · exact ⟨_, congrArg Host.Outcome.next (vldAt_align hk hlay hal ..), traps_trap ..⟩
  · exact ⟨_, congrArg Host.Outcome.next (vldAt_align hk hlay hal ..), traps_trap ..⟩
  · exact ⟨_, _, congrArg Host.Outcome.next (gatherAt_idle hp hg _), congrArg Host.Outcome.next (gatherAt_idle hp hg _), unchanged_advance s 2,
      unchanged_advance s 2⟩

end Sys2Proof.Claims

/-! ## Decoding loads (spec/10_memory_streams.md R191, spec/21_ref_va_vm.md R431) -/

namespace Sys2Proof.Claims

open Sys2Proof.Machine

/-- The elements that a decoding load delivers to the lanes of `k`. -/
def decEvents (a : Access) (d : DecSrc) (va : Word) (lay : BitVec 3) (k : BitVec 16) : List FElem :=
  ((List.range 16).filter fun i => k.getLsbD i).flatMap fun i => (List.range (decPerLane lay)).map fun j =>
    { lane := i, r := decElement a d va (decPerLane lay * i + j), fmt := some (fmtOf d.dst) }

/-- The register that a decoding load leaves. -/
def decReg (a : Access) (d : DecSrc) (va : Word) (lay : BitVec 3) (k : BitVec 16) (old : VReg) : VReg :=
  ((List.range 16).filter fun i => k.getLsbD i).foldl (fun r i => setLane r i (BitVec.ofNat 64
    ((List.range (decPerLane lay)).foldr (fun j acc => acc * 2 ^ (64 / decPerLane lay) + (decElement a d va (decPerLane lay * i + j)).bits) 0))) old

/-- What a decoding load does when its access has performed. -/
def decEnd (s : State) (n : Nat) (v : BitVec 5) (a : Access) (d : DecSrc) (va : Word) (lay : BitVec 3) (k : BitVec 16) : State :=
  (s.modPl fun x => x.dropAccess a).fpEnd n (decEvents a d va lay k) true fun x => x.wv v (decReg a d va lay k (x.rv v))

theorem vldAt_performed {s : State} {g : BitVec 4} {v : BitVec 5} {lay : BitVec 3} {va : Word} {a : Access} {fmt : BitVec 6} {d : DecSrc}
    (hk : s.pl.vguard g ≠ 0) (hlay : lay ≠ 0) (ha : s.pl.mine AccKind.isDec = some a) (hperf : a.performed = true)
    (hkind : a.kind = .vld v lay fmt) (hd : decSrc lay fmt = some d) (n : Nat) (cl : BitVec 4) (ar : BitVec 2) (scp : BitVec 3) :
    s.vldAt g n v va lay cl ar scp = decEnd s n v a d va lay (s.pl.vguard g) := by
  unfold State.vldAt
  rw [if_neg hlay]
  unfold State.decAt
  dsimp only
  rw [if_neg hk, ha]
  dsimp only
  rw [hperf, if_pos rfl, hkind]
  dsimp only
  unfold State.decFinish
  rw [hd]
  rfl

/-- Its access leaves, LDC falls, and its register alone is written. -/
theorem decEnd_quiet {s : State} {n : Nat} {v : BitVec 5} {a : Access} {d : DecSrc} {va : Word} {lay : BitVec 3} {k : BitVec 16}
    {fmt : BitVec 6} (hkind : a.kind = .vld v lay fmt) (hq : Quiet s (decEvents a d va lay k)) :
    let t := decEnd s n v a d va lay k
    t.pl.pc = s.nextPc n ∧ t.pl.acc = s.pl.acc.filter (fun b => b.id != a.id) ∧ t.pl.oc.ldc = s.pl.oc.ldc - 1 ∧
      (∀ r, t.pl.rg r = s.pl.rg r) ∧ ∀ r, r ≠ v → t.pl.rv r = s.pl.rv r := by
  intro t
  have hpl : (s.modPl fun x => x.dropAccess a).pl = s.pl.dropAccess a := State.pl_modPl ..
  have hq' : Quiet (s.modPl fun x => x.dropAccess a) (decEvents a d va lay k) := by
    unfold Quiet
    rw [hpl]
    exact hq
  obtain ⟨hdone, hwrote⟩ := writesV_fpEnd hq' n true v fun x => decReg a d va lay k (x.rv v)
  rw [hpl] at hwrote
  obtain ⟨-, hrv, hrg, -, -⟩ := hwrote
  obtain ⟨-, -, hrest, hpc, -, -, -⟩ := hdone
  obtain ⟨-, hoc, hacc, -⟩ := hrest
  refine ⟨hpc.trans ?_, hacc.trans (by rw [hpl]; rfl), ?_, hrg, hrv⟩
  · rw [State.nextPc, State.nextPc, State.lineAt_modPl s _ rfl rfl, hpl]
    exact (Plane.pass_pc_congr (s.pl.dropAccess a) s.pl _ n rfl rfl).1
  · have hoc' : t.pl.oc = (s.pl.dropAccess a).oc := hoc.trans (by rw [hpl])
    rw [hoc', Plane.dropAccess, hkind]
    rfl

/-- Settles O27. -/
theorem decodingLoad : Obligations.DecodingLoad := by
  intro s g v lay va a fmt d k m es loads hk hlay ha hperf hkind hd
  have hloads (i : Instr) (n : Nat) (h : exec i s = .next (decEnd s n v a d va lay k)) : loads i n := ⟨_, h, rfl, decEnd_quiet hkind⟩
  refine ⟨fun o hv hl hg hva => ?_, fun o hv hl hg hva => ?_⟩
  · subst hv hl hg hva
    exact hloads _ _ (congrArg Host.Outcome.next (vldAt_performed hk hlay ha hperf hkind hd ..))
  · subst hv hl hg hva
    exact hloads _ _ (congrArg Host.Outcome.next (vldAt_performed hk hlay ha hperf hkind hd ..))

end Sys2Proof.Claims

/-! ## The advance of a state whose plane stands where it stood -/

namespace Sys2Proof.Machine

/-- The line that a plane's pc names is a matter of the core's lines, the pc and the task's VD. -/
theorem State.lineAt_congr {s t : State} {c : Nat} {p : BitVec 1} (hl : (t.core c).lines = (s.core c).lines)
    (hpc : (t.plane c p).pc = (s.plane c p).pc) (hvd : t.vdOf c p = s.vdOf c p) : t.lineAt c p = s.lineAt c p := by
  unfold State.lineAt Core.findLine
  rw [hl, hpc, hvd]

theorem State.vdOf_congr {s t : State} {c : Nat} {p : BitVec 1} (hk : (t.plane c p).task = (s.plane c p).task)
    (ht : ∀ k, (t.task k).map Task.vd = (s.task k).map Task.vd) : t.vdOf c p = s.vdOf c p := by
  unfold State.vdOf
  rw [hk]
  cases hs : (s.plane c p).task with
  | none => rfl
  | some k =>
    have hk := ht k
    rw [Option.bind_some, Option.bind_some]
    cases htask : t.task k with
    | none =>
      rw [htask] at hk
      rw [Option.map_eq_none_iff.mp hk.symm]
    | some x =>
      rw [htask] at hk
      obtain ⟨y, hy, hvd⟩ := Option.map_eq_some_iff.mp hk.symm
      rw [hy]
      exact hvd.symm

/-- A state whose executing plane stands at the same pc, in the same loop and line, goes on to the same place. -/
theorem State.pl_advance_of {s t : State} (n : Nat) (hf : t.focus = s.focus) (hact : t.fp = s.fp)
    (hl : (t.core s.fc).lines = (s.core s.fc).lines) (hpc : t.pl.pc = s.pl.pc) (hloop : t.pl.loop = s.pl.loop)
    (hk : t.pl.task = s.pl.task) (ht : ∀ k, (t.task k).map Task.vd = (s.task k).map Task.vd) :
    (t.advance n).pl = { t.pl with pc := s.nextPc n, loop := (s.pl.pass (s.lineAt s.fc s.fp) n).loop, hold := none } := by
  have hfc : t.fc = s.fc := congrArg BitVec.toNat hf
  have hplane : t.plane s.fc s.fp = t.pl := by rw [State.pl, hfc, hact]
  have hline : t.lineAt t.fc t.fp = s.lineAt s.fc s.fp := by
    rw [hfc, hact]
    exact State.lineAt_congr hl (by rw [hplane]; exact hpc) (State.vdOf_congr (by rw [hplane]; exact hk) ht)
  rw [State.advance_eq, State.pl_modPl, hline, Plane.pass_eq]
  obtain ⟨h1, h2⟩ := Plane.pass_pc_congr t.pl s.pl (s.lineAt s.fc s.fp) n hpc hloop
  rw [h1, h2]
  rfl

theorem State.setCore_self (s : State) (c : Nat) (k : Core) : (s.setCore c k).setCore c ((s.setCore c k).core c) = s.setCore c k := by
  rw [State.core_setCore, State.setCore_setCore]

end Sys2Proof.Machine

/-! ## Unbooked engine work (spec/19_ref_m_r.md R368) -/

namespace Sys2Proof.Claims

open Sys2Proof.Machine

theorem engineIssue_unbooked {s : State} {copy : Bool} {bk : BitVec 6} {ar : BitVec 2} {scp : BitVec 3} (h : Unbooked s copy bk ar scp)
    (step : BitVec 3) (mk : Cmd → EngOp) (enter : Nat → BitVec 1 → EngOp → State → State) :
    s.engineIssue copy bk step ar scp mk enter =
      (enter s.fc s.fp (mk (command s 0 step.toNat ar scp)) { s with nextId := s.nextId + 1 }).advance 2 := by
  obtain ⟨d, hd, hscope, hbk, hfull⟩ := h
  have hsc : (if ar = 0 then .ok (scp, false) else scopeOf d.d scp) = .ok (scp, false) := by
    rcases hscope with h | h
    · rw [if_pos h]
    · rw [scopeOf_inside h, ite_self]
  have hh : (if bk = 0 then 0 else ((s.pl.rg bk).setWidth 24).toNat) = 0 := by
    rcases hbk with h | h
    · rw [if_pos h]
    · rw [h]
      exact ite_self 0
  have hf : s.pl.engFull copy = false := by
    cases copy
    · exact beq_eq_false_iff_ne.mpr hfull
    · exact beq_eq_false_iff_ne.mpr hfull
  have huse : ∀ task, s.stepUse s.curVd task 0 step.toNat copy = .unbooked := fun _ => if_pos rfl
  unfold State.engineIssue
  simp only [hd, hsc, hh, huse, hf, ite_self]
  rfl

theorem mxIssue_unbooked {s : State} {bk : BitVec 6} {ar : BitVec 2} {scp : BitVec 3} (h : Unbooked s false bk ar scp) (step : BitVec 3)
    (tile : BitVec 3) (kind : MxKind) : ∃ o : MxOp,
      o = { c := command s 0 step.toNat ar scp, kind := kind, tile := tile, en := s.pl.sr.fpen.setWidth 6 &&& 0x3D#6,
            tensor := s.pl.sr.tensor, ftz := s.pl.sr.fpen.getLsbD 12, prog := 0, acks := 0, flags := 0, srcNx := false,
            stat := Stat.reset, sf := 0, tested := false } ∧
      s.mxIssue bk step ar scp tile kind = (((enteredMx s o).testStream s.fc o).beginMx s.fc).advance 2 :=
  ⟨_, rfl, (engineIssue_unbooked h step _ _).trans rfl⟩

/-! ### What the beginning of a matrix operation may change -/

/-- Core `k'` is core `k` but for its matrix operations' progress, its tiles' status and the bytes of tile `tile`. -/
structure TileWork (tile : BitVec 3) (k k' : Core) : Prop where
  rest : ∃ bo ti mx, k' = { k with bobbin := bo, tiles := ti, mx := mx }
  ids : k'.mx.map (fun x => x.c.id) = k.mx.map fun x => x.c.id
  wf : k.bobbin.wf = true → k'.bobbin.wf = true
  outside : k.bobbin.wf = true → ∀ a, (a < 131072 * tile.toNat ∨ 131072 * tile.toNat + 131072 ≤ a) → memRead k'.bobbin a = memRead k.bobbin a

theorem TileWork.refl (tile : BitVec 3) (k : Core) : TileWork tile k k := ⟨⟨_, _, _, rfl⟩, rfl, fun h => h, fun _ _ _ => rfl⟩

theorem TileWork.trans {tile : BitVec 3} {k l m : Core} (h1 : TileWork tile k l) (h2 : TileWork tile l m) : TileWork tile k m := by
  obtain ⟨⟨bo, ti, mx, rfl⟩, hids, hwf, hout⟩ := h1
  obtain ⟨⟨bo', ti', mx', rfl⟩, hids', hwf', hout'⟩ := h2
  exact ⟨⟨_, _, _, rfl⟩, hids'.trans hids, fun h => hwf' (hwf h), fun h a ha => (hout' (hwf h) a ha).trans (hout h a ha)⟩

theorem tileWork_modTile (tile : BitVec 3) (k : Core) (i : BitVec 3) (f : Tile → Tile) : TileWork tile k (k.modTile i f) :=
  ⟨⟨_, _, _, rfl⟩, rfl, fun h => h, fun _ _ _ => rfl⟩

theorem tileWork_mapMx (tile : BitVec 3) (k : Core) {f : MxOp → MxOp} (hf : ∀ o, (f o).c.id = o.c.id) :
    TileWork tile k { k with mx := k.mx.map f } :=
  ⟨⟨_, _, _, rfl⟩, by simp [Function.comp_def, hf], fun h => h, fun _ _ _ => rfl⟩

theorem tileWork_memClear {tile : BitVec 3} (k : Core) {o n : Nat} (ho : 131072 * tile.toNat ≤ o) (hn : o + n ≤ 131072 * tile.toNat + 131072) :
    TileWork tile k { k with bobbin := memClear k.bobbin o n } := by
  refine ⟨⟨_, _, _, rfl⟩, rfl, fun h => memClear_wf h o n, fun h a ha => ?_⟩
  exact (memRead_memClear h o n a).trans (if_neg (by omega))

theorem tileWork_clearTile {tile : BitVec 3} (k : Core) {m n : Nat} (hm : m ≤ 128) (hn : n ≤ 128) : TileWork tile k (k.clearTile tile m n) := by
  unfold Core.clearTile
  refine List.foldlRecOn (motive := TileWork tile k) _ _ (TileWork.refl tile k) fun l hl i hi => hl.trans ?_
  have hi : i < m := List.mem_range.mp hi
  refine tileWork_memClear l ?_ ?_ <;> unfold entryOff <;> omega

/-- `t` is `s` but for what `TileWork` names at core `c`. -/
def CoreWork (tile : BitVec 3) (c : Nat) (s t : State) : Prop := ∃ k, t = s.setCore c k ∧ TileWork tile (s.core c) k

theorem CoreWork.trans {tile : BitVec 3} {c : Nat} {s t u : State} (h1 : CoreWork tile c s t) (h2 : CoreWork tile c t u) :
    CoreWork tile c s u := by
  obtain ⟨k, rfl, hk⟩ := h1
  obtain ⟨l, rfl, hl⟩ := h2
  rw [State.core_setCore] at hl
  exact ⟨l, State.setCore_setCore .., hk.trans hl⟩

theorem coreWork_refl (tile : BitVec 3) (c : Nat) (s : State) (k : Core) : CoreWork tile c (s.setCore c k) (s.setCore c k) :=
  ⟨_, (State.setCore_self s c k).symm, TileWork.refl ..⟩

theorem coreWork_modCore {tile : BitVec 3} (c : Nat) (s : State) {f : Core → Core} (hf : ∀ k, TileWork tile k (f k)) :
    CoreWork tile c s (s.modCore c f) := ⟨_, rfl, hf _⟩

/-- The progress of one operation. -/
theorem coreWork_modMx (tile : BitVec 3) (c : Nat) (s : State) (id : Nat) {f : MxOp → MxOp} (hf : ∀ o, (f o).c.id = o.c.id) :
    CoreWork tile c s (s.modMx c id f) :=
  coreWork_modCore c s fun k => tileWork_mapMx tile k fun o => by
    by_cases h : o.c.id = id
    · rw [if_pos h, hf]
    · rw [if_neg h]

/-- The operation is no MMT with dimensions past its tile. -/
def FitsTile (k : MxKind) : Prop :=
  match k with
  | .mmt _ m n _ _ _ _ _ => m ≤ 128 ∧ n ≤ 128
  | _ => True

/-- An operation that is not still to be tested begins inside its tile, or not at all. -/
theorem coreWork_beginMx {s : State} {c : Nat} {k : Core} {o : MxOp} (hturn : (s.setCore c k).mxTurn c = some o) (ht : o.untested = false)
    (hfit : FitsTile o.kind) : CoreWork o.tile c (s.setCore c k) ((s.setCore c k).beginMx c) := by
  unfold State.beginMx
  rw [hturn]
  simp only [ht, Bool.false_eq_true, if_false]
  split
  · exact coreWork_refl ..
  · cases hk : o.kind with
    | mzero =>
      refine (coreWork_modCore c _ fun l => ?_).trans (coreWork_modMx _ c _ _ fun _ => rfl)
      exact (tileWork_memClear l (by unfold entryOff; omega) (by unfold entryOff; omega)).trans (tileWork_modTile ..)
    | mmt a m n kd cb ty st zf =>
      rw [hk] at hfit
      obtain ⟨hm, hn⟩ := hfit
      dsimp only
      split
      · exact coreWork_modMx _ c _ _ fun _ => rfl
      · refine (coreWork_modCore c _ fun l => ?_).trans (coreWork_modMx _ c _ _ fun _ => rfl)
        cases zf with
        | true =>
          rw [if_pos rfl]
          exact (tileWork_modTile _ l _ _).trans ((tileWork_clearTile _ hm hn).trans (tileWork_modTile ..))
        | false =>
          rw [if_neg Bool.false_ne_true]
          exact tileWork_modTile _ l _ _
    | mdrain => exact coreWork_modMx _ c _ _ fun _ => rfl
    | mdadd => exact coreWork_modMx _ c _ _ fun _ => rfl
    | mbrd => exact coreWork_modMx _ c _ _ fun _ => rfl

/-- The only operation of an engine has its turn while it waits. -/
theorem mxTurn_only {s : State} {c : Nat} {o : MxOp} (hmx : (s.core c).mx = [o]) (hst : o.c.st = .waiting) : s.mxTurn c = some o := by
  have hover : o.isOver = false := by rw [MxOp.isOver, hst]; rfl
  have hturn : s.turnOf [(o.c, o.kind.consults)] = some o.c := by
    rw [State.turnOf]
    split
    · cases hb : s.isBooked o.c <;> simp [List.find?, hb]
    · rfl
  unfold State.mxTurn
  simp [hmx, hover, hturn, hst]

/-- The core with a matrix operation entered. -/
def Core.entered (k : Core) (o : MxOp) (st : BitVec 4) : Core :=
  (({ k with mx := k.mx ++ [o] } : Core).modTile o.tile fun t => { t with st := st }).setPlane k.act
    { k.plane k.act with oc := { (k.plane k.act).oc with mxc := (k.plane k.act).oc.mxc + 1 } }

theorem enteredMx_eq (s : State) (o : MxOp) : ∃ st, enteredMx s o =
    ({ s with nextId := s.nextId + 1 } : State).setCore s.fc (Core.entered (s.core s.fc) o st) := by
  refine ⟨if s.unitHalted s.curVd (mxUnit s.fc) then 3 else 2, ?_⟩
  unfold enteredMx State.modPlane
  rw [State.modCore_modCore]
  rfl

/-- A matrix operation that enters an empty engine, with no stream record, begins in its tile. -/
theorem entered_coreWork {s : State} {o : MxOp} (hempty : (s.core s.fc).mx = []) (hst : o.c.st = .waiting) (ht : o.untested = false)
    (hkind : ∀ a m n kd cb ty zf, o.kind ≠ .mmt a m n kd cb ty true zf) (hfit : FitsTile o.kind) :
    ∃ st, CoreWork o.tile s.fc (({ s with nextId := s.nextId + 1 } : State).setCore s.fc (Core.entered (s.core s.fc) o st))
      (((enteredMx s o).testStream s.fc o).beginMx s.fc) := by
  obtain ⟨st, hent⟩ := enteredMx_eq s o
  have htest : (enteredMx s o).testStream s.fc o = enteredMx s o := by
    unfold State.testStream
    split
    next hk => exact absurd hk (hkind _ _ _ _ _ _ _)
    next => rfl
  refine ⟨st, ?_⟩
  rw [htest, hent]
  refine coreWork_beginMx (mxTurn_only ?_ hst) ht hfit
  rw [State.core_setCore]
  simp [Core.entered, Core.modTile, hempty]

/-- An entered operation leaves its plane but for MXC. -/
theorem Core.entered_plane (k : Core) (o : MxOp) (st : BitVec 4) : (Core.entered k o st).plane k.act =
    { k.plane k.act with oc := { (k.plane k.act).oc with mxc := (k.plane k.act).oc.mxc + 1 } } := Core.plane_setPlane ..

/-- The matrix major that enters an operation in an empty engine: what the rest of the state sees (R368). -/
theorem entered_ends {s u : State} {o : MxOp} {st : BitVec 4} (hwf : (s.core s.fc).bobbin.wf = true) (hempty : (s.core s.fc).mx = [])
    (h : CoreWork o.tile s.fc (({ s with nextId := s.nextId + 1 } : State).setCore s.fc (Core.entered (s.core s.fc) o st)) u) :
    let t := u.advance 2
    (t.core s.fc).mx.map (fun x => x.c.id) = [o.c.id] ∧ t.pl.oc = { s.pl.oc with mxc := s.pl.oc.mxc + 1 } ∧ t.pl.regs = s.pl.regs ∧
      t.pl.sr = s.pl.sr ∧ t.pl.pc = s.nextPc 2 ∧ t.pl.hold = none ∧ (∀ a, memRead t.hbm.mem a = memRead s.hbm.mem a) ∧
      (∀ c a, memRead (t.core c).spad a = memRead (s.core c).spad a ∧ memRead (t.core c).creel a = memRead (s.core c).creel a) ∧
      (∀ c, c ≠ s.fc → ∀ a, memRead (t.core c).bobbin a = memRead (s.core c).bobbin a) ∧
      ∀ a, (a < 131072 * o.tile.toNat ∨ 131072 * o.tile.toNat + 131072 ≤ a) →
        memRead (t.core s.fc).bobbin a = memRead (s.core s.fc).bobbin a := by
  obtain ⟨k, rfl, hwork⟩ := h
  rw [State.setCore_setCore]
  rw [State.core_setCore] at hwork
  obtain ⟨⟨bo, ti, mx, hk⟩, hids, -, hout⟩ := hwork
  have hact : k.act = (s.core s.fc).act := by rw [hk]; exact Core.setPlane_act ..
  have hplane : k.plane s.fp = { s.pl with oc := { s.pl.oc with mxc := s.pl.oc.mxc + 1 } } := by
    rw [hk]
    exact Core.entered_plane (s.core s.fc) o st
  generalize hv : ({ s with nextId := s.nextId + 1 } : State).setCore s.fc k = v
  have hvc : v.core s.fc = k := by rw [← hv]; exact State.core_setCore ..
  have hne : ∀ c, c ≠ s.fc → v.core c = s.core c := fun c hc => by rw [← hv]; exact State.core_setCore_ne _ _ hc
  have hfocus : v.focus = s.focus := by rw [← hv]; rfl
  have hfp : v.fp = s.fp := by
    rw [State.fp, show v.fc = s.fc from congrArg BitVec.toNat hfocus, hvc, hact]
    rfl
  have hpl : v.pl = { s.pl with oc := { s.pl.oc with mxc := s.pl.oc.mxc + 1 } } := by
    rw [State.pl, hfp, show v.fc = s.fc from congrArg BitVec.toNat hfocus, State.plane, hvc, hplane]
  have hlines : (v.core s.fc).lines = (s.core s.fc).lines := by rw [hvc, hk]; exact Core.setPlane_lines ..
  have htask : ∀ j, (v.task j).map Task.vd = (s.task j).map Task.vd := fun j => by rw [← hv]; rfl
  have hadv := State.pl_advance_of (s := s) (t := v) 2 hfocus hfp hlines (by rw [hpl]) (by rw [hpl]) (by rw [hpl]) htask
  have hbob : ∀ a, (a < 131072 * o.tile.toNat ∨ 131072 * o.tile.toNat + 131072 ≤ a) →
      memRead k.bobbin a = memRead (s.core s.fc).bobbin a := fun a ha => by
    have he : (Core.entered (s.core s.fc) o st).bobbin = (s.core s.fc).bobbin := Core.setPlane_bobbin ..
    rw [hout (by rw [he]; exact hwf) a ha, he]
  refine ⟨?_, by rw [hadv, hpl], by rw [hadv, hpl], by rw [hadv, hpl], by rw [hadv], by rw [hadv],
    fun a => by rw [← hv]; rfl, fun c a => ?_, fun c hc a => ?_, fun a ha => ?_⟩ <;> rw [State.advance_eq]
  · rw [State.core_modPl_mx, hvc, hids, Core.entered, Core.setPlane_mx]
    simp [Core.modTile, hempty]
  · rw [State.core_modPl_spad, State.core_modPl_creel]
    by_cases hc : c = s.fc
    · rw [hc, hvc, hk, show (Core.entered (s.core s.fc) o st).spad = (s.core s.fc).spad from Core.setPlane_spad ..,
        show (Core.entered (s.core s.fc) o st).creel = (s.core s.fc).creel from Core.setPlane_creel ..]
      exact ⟨rfl, rfl⟩
    · rw [hne c hc]
      exact ⟨rfl, rfl⟩
  · rw [State.core_modPl_bobbin, hne c hc]
  · rw [State.core_modPl_bobbin, hvc, hbob a ha]

/-- Unbooked work of a matrix major enters the engine. -/
theorem entersMx_of_exec {i : Instr} {s : State} {bk : BitVec 6} {step : BitVec 3} {ar : BitVec 2} {scp : BitVec 3} {tile : BitVec 3}
    {kind : MxKind} (hun : Unbooked s false bk ar scp)
    (hfit : FitsTile kind)
    (h : exec i s = .next (s.mxIssue bk step ar scp tile kind)) : EntersMx i s step.toNat ar scp tile kind := by
  obtain ⟨o, ho, hissue⟩ := mxIssue_unbooked hun step tile kind
  unfold EntersMx
  dsimp only
  rw [← ho]
  refine ⟨h.trans (congrArg _ hissue), fun hempty hkind hwf => ?_⟩
  have hu : o.untested = false := by
    unfold MxOp.untested
    split
    next hk =>
      rw [ho] at hk
      exact absurd hk (hkind _ _ _ _ _ _ _)
    next => rfl
  obtain ⟨st, hwork⟩ := entered_coreWork (s := s) hempty (by rw [ho]; rfl) hu (by rw [ho]; exact hkind) (by rw [ho]; exact hfit)
  have hends := entered_ends hwf hempty hwork
  have htile : o.tile = tile := by rw [ho]
  have hid : o.c.id = s.nextId := by rw [ho]; rfl
  rw [htile, hid] at hends
  exact hends

theorem exec_mmt {s : State} {o : Mmt} (hg : s.pl.guard o.g = true) (h1 : ¬ (128 < ((s.pl.rg o.b).extractLsb' 0 8).toNat ∨
    128 < ((s.pl.rg o.b).extractLsb' 8 8).toNat ∨ (s.pl.rg o.b).extractLsb' 46 18 ≠ 0))
    (h2 : ¬ (((s.pl.rg o.b).extractLsb' 32 14).toNat % 32 ≠ 0 ∨ s.pl.rg o.a &&& 31 ≠ 0))
    (h3 : s.pl.leased (s.pl.rg o.a) (if (o.st == 1) = true then 64 else
      ((s.pl.rg o.b).extractLsb' 0 8).toNat * mmtPitch o.ty.toNat ((s.pl.rg o.b).extractLsb' 16 16).toNat) = true) :
    exec (.mmt o) s = .next (s.mxIssue o.bk o.step o.ar o.scp o.tile (.mmt (s.pl.rg o.a) ((s.pl.rg o.b).extractLsb' 0 8).toNat
      ((s.pl.rg o.b).extractLsb' 8 8).toNat ((s.pl.rg o.b).extractLsb' 16 16).toNat ((s.pl.rg o.b).extractLsb' 32 14).toNat o.ty
      (o.st == 1) (o.f == 1))) := by
  change execMmt o s = _
  unfold execMmt
  dsimp only
  rw [if_pos hg, if_neg h1, if_neg h2, if_neg (by rw [h3]; exact Bool.false_ne_true)]

theorem exec_mzero {s : State} {o : Mzero} (hg : s.pl.guard o.g = true) : exec (.mzero o) s = .next (s.mxIssue 0 0 0 0 o.tile .mzero) :=
  congrArg Host.Outcome.next (if_pos hg)

theorem exec_mdrain {s : State} {o : Mdrain} (hg : s.pl.guard o.g = true) (h1 : ¬ s.pl.rg o.a &&& 31 ≠ 0)
    (h2 : s.pl.leased (s.pl.rg o.a) (16384 * (tyWidth o.ty.toNat / 8)) = true) : exec (.mdrain o) s =
      .next (s.mxIssue o.bk o.step o.ar o.scp o.tile (.mdrain (s.pl.rg o.a) o.ty (BitVec.ofNat 3 (s.pl.mode o.rm)) (o.sat == 1))) := by
  change execMdrain o s = _
  unfold execMdrain
  dsimp only
  rw [if_pos hg, if_neg h1, if_neg (by rw [h2]; exact Bool.false_ne_true)]

theorem exec_mdadd {s : State} {o : Mdadd} {d : Vd} (hg : s.pl.guard o.g = true) (hd : s.vd s.curVd = some d)
    (hbad : s.mdaddBad d (s.pl.rg o.a) = none) :
    exec (.mdadd o) s = .next (s.mxIssue o.bk o.step o.ar o.scp o.tile (.mdadd (s.pl.rg o.a) (o.f == 1))) := by
  change execMdadd o s = _
  unfold execMdadd
  dsimp only
  rw [if_pos hg]
  simp only [hd, hbad]

theorem exec_mbrd {s : State} {o : Mbrd} (hg : s.pl.guard o.g = true) (h : ¬ ((s.pl.rg o.a).extractLsb' 11 53 ≠ 0 ∨
    128 ≤ ((s.pl.rg o.a).extractLsb' 7 4).toNat * (1024 / tyWidth o.ty.toNat))) : exec (.mbrd o) s =
      .next (s.mxIssue 0 0 0 0 o.tile (.mbrd ((s.pl.rg o.a).extractLsb' 0 7).toNat ((s.pl.rg o.a).extractLsb' 7 4).toNat o.ty o.v
        (BitVec.ofNat 3 (s.pl.mode 0)))) := by
  change execMbrd o s = _
  unfold execMbrd
  dsimp only
  rw [if_pos hg, if_neg h]

/-- The rounding mode that an operation captures (R148). -/
theorem ofNat_mode (x : Plane) (rm : BitVec 3) : BitVec.ofNat 3 (x.mode rm) = if rm = 0 then x.sr.fpen.extractLsb' 8 3 else rm := by
  unfold Plane.mode
  split <;> exact BitVec.eq_of_toNat_eq (by rw [BitVec.toNat_ofNat]; exact Nat.mod_eq_of_lt (BitVec.isLt _))

theorem mmt_enters {s : State} {o : Mmt} (hg : s.pl.guard o.g = true) (hun : Unbooked s false o.bk o.ar o.scp)
    (hm : ((s.pl.rg o.b).extractLsb' 0 8).toNat ≤ 128) (hn : ((s.pl.rg o.b).extractLsb' 8 8).toNat ≤ 128)
    (hz : (s.pl.rg o.b).extractLsb' 46 18 = 0#18) (hcb : ((s.pl.rg o.b).extractLsb' 32 14).toNat % 32 = 0)
    (ha : s.pl.rg o.a &&& 31#64 = 0#64) (hl : s.pl.leased (s.pl.rg o.a) (if o.st = 1 then 64 else
      ((s.pl.rg o.b).extractLsb' 0 8).toNat * mmtPitch o.ty.toNat ((s.pl.rg o.b).extractLsb' 16 16).toNat) = true) :
    EntersMx (.mmt o) s o.step.toNat o.ar o.scp o.tile (.mmt (s.pl.rg o.a) ((s.pl.rg o.b).extractLsb' 0 8).toNat
      ((s.pl.rg o.b).extractLsb' 8 8).toNat ((s.pl.rg o.b).extractLsb' 16 16).toNat ((s.pl.rg o.b).extractLsb' 32 14).toNat o.ty
      (o.st == 1) (o.f == 1)) := by
  refine entersMx_of_exec hun ⟨hm, hn⟩ (exec_mmt hg ?_ ?_ ?_)
  · rintro (h | h | h)
    · exact absurd hm (by omega)
    · exact absurd hn (by omega)
    · exact h hz
  · rintro (h | h)
    · exact h hcb
    · exact h ha
  · exact (congrArg (s.pl.leased _) (if_congr beq_iff_eq rfl rfl)).trans hl

theorem matrixWorkEnters : MatrixWorkEnters := fun s => by
  refine ⟨?_, ?_, ?_, ?_, ?_⟩
  · intro o hg hun a b m n kd hm hn hz hcb ha hl
    exact mmt_enters hg hun hm hn hz hcb ha hl
  · intro o hg hun
    exact entersMx_of_exec (step := 0) hun trivial (exec_mzero hg)
  · intro o hg hun ha hl
    rw [← ofNat_mode]
    exact entersMx_of_exec hun trivial (exec_mdrain hg (fun h => h ha) hl)
  · intro o d hg hun hd hbad
    exact entersMx_of_exec hun trivial (exec_mdadd hg hd hbad)
  · intro o hg hun a q hz hq
    have h := exec_mbrd (o := o) hg (fun h => h.elim (fun h => h hz) fun h => absurd hq (Nat.not_lt.mpr h))
    rw [ofNat_mode, if_pos rfl] at h
    exact entersMx_of_exec (step := 0) hun trivial h

/-- The copy of CPY or CPYS, by its command. -/
def copyOp (s : State) (o : Cpy) (chain : Bool) (c : Cmd) : CpOp :=
  { c := c, chain := chain, line := s.pl.rg o.a, word := if chain then 1 else 0, tag := if o.tg = 1 then some o.tag else none,
    ents := 0, bytes := 0, done := 0, loop := none, buf := none, wait := false, wrote := 0, moved := [], flits := 0, doms := [],
    en := s.pl.sr.fpen.setWidth 6, flags := 0, cur := none }

theorem copyIssue_eq {s : State} {o : Cpy} {chain : Bool} (hg : s.pl.guard o.g = true)
    (hbad : s.cpyBad (s.pl.rg o.a) (if chain then 64 else 8) (if chain then 64 else 24) = none) :
    s.copyIssue o chain = s.engineIssue true o.bk o.step o.ar o.scp (fun c => .cp (copyOp s o chain c)) fun c p e s => s.enterOp c p e := by
  unfold State.copyIssue
  rw [if_pos hg]
  simp only [hbad]
  rfl

theorem copyIssue_bad {s : State} {o : Cpy} {chain : Bool} {code : Nat} (hg : s.pl.guard o.g = true)
    (hbad : s.cpyBad (s.pl.rg o.a) (if chain then 64 else 8) (if chain then 64 else 24) = some code) :
    s.copyIssue o chain = s.trap code (s.pl.rg o.a) := by
  unfold State.copyIssue
  rw [if_pos hg]
  simp only [hbad]

end Sys2Proof.Claims

namespace Sys2Proof.Machine

/-! ### Changes of tasks that leave the planes -/

@[simp] theorem State.noteCopy_cores (s : State) (o : CpOp) (st : Nat) : (s.noteCopy o st).cores = s.cores := by
  unfold State.noteCopy
  split <;> rfl

@[simp] theorem State.noteCopy_focus (s : State) (o : CpOp) (st : Nat) : (s.noteCopy o st).focus = s.focus := by
  unfold State.noteCopy
  split <;> rfl

@[simp] theorem State.noteCopy_vds (s : State) (o : CpOp) (st : Nat) : (s.noteCopy o st).vds = s.vds := by
  unfold State.noteCopy
  split <;> rfl

@[simp] theorem State.noteCopy_bk (s : State) (o : CpOp) (st : Nat) : (s.noteCopy o st).bk = s.bk := by
  unfold State.noteCopy
  split <;> rfl

@[simp] theorem State.noteCopy_hbm (s : State) (o : CpOp) (st : Nat) : (s.noteCopy o st).hbm = s.hbm := by
  unfold State.noteCopy
  split <;> rfl

@[simp] theorem State.noteCopy_nextId (s : State) (o : CpOp) (st : Nat) : (s.noteCopy o st).nextId = s.nextId := by
  unfold State.noteCopy
  split <;> rfl

/-- A change of a task that keeps its VD keeps every task's. -/
theorem State.task_vd_modTask (s : State) (k j : Nat) {f : Task → Task} (hf : ∀ t, (f t).vd = t.vd) :
    ((s.modTask k f).task j).map Task.vd = (s.task j).map Task.vd := by
  by_cases h : j = k
  · rw [h, State.task_modTask_same, Option.map_map]
    exact congrArg (Option.map · _) (funext hf)
  · rw [State.task_modTask_ne s f h]

theorem State.task_vd_noteCopy (s : State) (o : CpOp) (st j : Nat) : ((s.noteCopy o st).task j).map Task.vd = (s.task j).map Task.vd := by
  unfold State.noteCopy
  split
  · exact State.task_vd_modTask s _ j fun _ => rfl
  · rfl

end Sys2Proof.Machine

namespace Sys2Proof.Claims

open Sys2Proof.Machine

/-- The core with a copy entered. -/
def Core.copying (k : Core) (o : CpOp) : Core :=
  ({ k with cp := k.cp ++ [o] } : Core).setPlane k.act
    { k.plane k.act with oc := { (k.plane k.act).oc with cpc := (k.plane k.act).oc.cpc + 1 } }

/-- `t` is `s` with a copy entered at the executing plane, but for the other cores, tasks, and what is not in the cores. -/
structure CopyEntered (s t : State) (o : CpOp) : Prop where
  focus : t.focus = s.focus
  own : t.core s.fc = Core.copying (s.core s.fc) o
  others : ∀ c, c ≠ s.fc → t.core c = s.core c
  tasks : ∀ k, (t.task k).map Task.vd = (s.task k).map Task.vd

theorem CopyEntered.fp {s t : State} {o : CpOp} (h : CopyEntered s t o) : t.fp = s.fp := by
  rw [State.fp, show t.fc = s.fc from congrArg BitVec.toNat h.focus, h.own]
  exact Core.setPlane_act ..

theorem CopyEntered.pl {s t : State} {o : CpOp} (h : CopyEntered s t o) :
    t.pl = { s.pl with oc := { s.pl.oc with cpc := s.pl.oc.cpc + 1 } } := by
  rw [State.pl, h.fp, show t.fc = s.fc from congrArg BitVec.toNat h.focus, State.plane, h.own]
  exact Core.plane_setPlane ..

theorem CopyEntered.pl_advance {s t : State} {o : CpOp} (h : CopyEntered s t o) (n : Nat) : (t.advance n).pl =
    { s.pl with oc := { s.pl.oc with cpc := s.pl.oc.cpc + 1 }, pc := s.nextPc n,
                loop := (s.pl.pass (s.lineAt s.fc s.fp) n).loop, hold := none } := by
  rw [State.pl_advance_of (s := s) n h.focus h.fp (by rw [h.own]; exact Core.setPlane_lines ..) (by rw [h.pl]) (by rw [h.pl])
    (by rw [h.pl]) h.tasks, h.pl]

theorem CopyEntered.cp_advance {s t : State} {o : CpOp} (h : CopyEntered s t o) (n : Nat) :
    ((t.advance n).core s.fc).cp = (s.core s.fc).cp ++ [o] := by
  rw [State.advance_eq, State.core_modPl_cp, h.own]
  exact Core.setPlane_cp ..

theorem CopyEntered.sameMemory_advance {s t : State} {o : CpOp} (h : CopyEntered s t o) (hhbm : t.hbm = s.hbm) (n : Nat) :
    SameMemory s (t.advance n) := by
  refine ⟨fun a => ?_, fun c a => ?_⟩
  · rw [State.advance_eq, State.modPl_hbm, hhbm]
  · rw [State.advance_eq, State.core_modPl_spad, State.core_modPl_bobbin, State.core_modPl_creel]
    by_cases hc : c = s.fc
    · rw [hc, h.own, Core.copying, Core.setPlane_spad, Core.setPlane_bobbin, Core.setPlane_creel]
      exact ⟨rfl, rfl, rfl⟩
    · rw [h.others c hc]
      exact ⟨rfl, rfl, rfl⟩

/-- An unbooked copy entered into its engine, before the plane goes on. -/
def copyEntered (s : State) (o : CpOp) : State :=
  ((({ s with nextId := s.nextId + 1 } : State).modCore s.fc fun k => { k with cp := k.cp ++ [o] }).noteCopy o 1).modPlane
    s.fc s.fp fun x => { x with oc := { x.oc with cpc := x.oc.cpc + 1 } }

theorem copyEntered_entered (s : State) (o : CpOp) : CopyEntered s (copyEntered s o) o := by
  unfold copyEntered
  generalize hu : (({ s with nextId := s.nextId + 1 } : State).modCore s.fc fun k => { k with cp := k.cp ++ [o] }).noteCopy o 1 = u
  have hcores : u.cores = tset s.cores s.fc { s.core s.fc with cp := (s.core s.fc).cp ++ [o] } := by
    rw [← hu, State.noteCopy_cores]
    rfl
  have hown : u.core s.fc = { s.core s.fc with cp := (s.core s.fc).cp ++ [o] } := by
    rw [State.core, hcores, tgetD_tset_same]
  refine ⟨?_, ?_, fun c hc => ?_, fun k => ?_⟩
  · rw [State.modPlane_focus, ← hu, State.noteCopy_focus]
    rfl
  · rw [State.modPlane, State.core_modCore, hown]
    rfl
  · rw [State.modPlane, State.core_modCore_ne _ _ hc, State.core, hcores, tgetD_tset_ne _ _ _ hc]
    rfl
  · change (u.task k).map Task.vd = _
    rw [← hu, State.task_vd_noteCopy]
    rfl

theorem exec_copy_unbooked {s : State} {o : Cpy} {chain : Bool} (hg : s.pl.guard o.g = true)
    (hbad : s.cpyBad (s.pl.rg o.a) (if chain then 64 else 8) (if chain then 64 else 24) = none) (hun : Unbooked s true o.bk o.ar o.scp) :
    s.copyIssue o chain = (copyEntered s (copyOp s o chain (command s 0 o.step.toNat o.ar o.scp))).advance 2 := by
  rw [copyIssue_eq hg hbad, engineIssue_unbooked hun]
  rfl

/-- The tag's latest copy, where the task of the copy's tag is found. -/
theorem cpq_copyEntered {s : State} {o : Cpy} {chain : Bool} {c : Cmd} {key : Nat} {x : Task} (hk : s.pl.task = some key) (hx : s.task key = some x)
    (htg : o.tg = 1) (hc : c.task = s.pl.task.getD 0) : ((copyEntered s (copyOp s o chain c)).task key).bind (fun y => tget y.cpq o.tag.toNat) =
      some { id := c.id, state := 1, ents := 0, bytes := 0 } := by
  have htag : (copyOp s o chain c).tag = some o.tag := if_pos htg
  have hkey : (copyOp s o chain c).c.task = key := by
    change c.task = key
    rw [hc, hk]
    rfl
  unfold copyEntered State.noteCopy
  simp only [htag, hkey]
  change ((State.modTask _ key _).task key).bind _ = _
  rw [State.task_modTask_same]
  change ((s.task key).map _).bind _ = _
  rw [hx]
  exact tget_tset_same _ _ _

theorem copyWorkEnters : CopyWorkEnters := by
  intro s o hg hun a op enters
  have hent : ∀ (i : Instr) (chain : Bool), exec i s = .next (s.copyIssue o chain) →
      s.cpyBad (s.pl.rg o.a) (if chain then 64 else 8) (if chain then 64 else 24) = none → enters i chain := by
    intro i chain hi hbad
    have h := copyEntered_entered s (copyOp s o chain (command s 0 o.step.toNat o.ar o.scp))
    refine ⟨_, hi.trans (congrArg _ (exec_copy_unbooked hg hbad hun)), h.cp_advance 2, by rw [h.pl_advance], by rw [h.pl_advance],
      by rw [h.pl_advance], by rw [h.pl_advance], by rw [h.pl_advance], ?_, h.sameMemory_advance ?_ 2, ?_, ?_, ?_⟩
    · rw [State.advance_eq, State.modPl_nextId, copyEntered, State.modPlane_nextId, State.noteCopy_nextId]
      rfl
    · rw [copyEntered, State.modPlane_hbm, State.noteCopy_hbm]
      rfl
    · rw [State.advance_eq, State.modPl_vds, copyEntered, State.modPlane_vds, State.noteCopy_vds]
      rfl
    · rw [State.advance_eq, State.modPl_bk, copyEntered, State.modPlane_bk, State.noteCopy_bk]
      rfl
    · intro key x hk hx htg
      exact cpq_copyEntered hk hx htg rfl
  exact ⟨fun _ hbad => hent _ true rfl hbad, fun hbad => hent _ false rfl hbad⟩

/-- Settles O28: with the checks passed the issue is `engineIssue_unbooked`, and what begins in an empty engine stays in its tile. -/
theorem engineWorkEnters : Obligations.EngineWorkEnters := ⟨matrixWorkEnters, copyWorkEnters⟩

/-! ## Booked engine work (spec/04_calendars.md R75, R76, R88) -/

theorem counter_congr {s t : State} {v b i : Nat} (hvd : t.vds = s.vds) (h2 : ¬ (b = 2 ∧ i = 0)) (h0 : ¬ (b = 0 ∧ i = 20)) :
    t.counter v b i = s.counter v b i := by
  unfold State.counter State.vd
  rw [hvd]
  cases tget s.vds v <;> simp [h2, h0]

theorem counter_count {s : State} {v b i : Nat} {d : Vd} (hd : s.vd v = some d) (h2 : ¬ (b = 2 ∧ i = 0)) (h0 : ¬ (b = 0 ∧ i = 20)) (n : Nat) :
    (s.count v b i n).counter v b i = s.counter v b i + BitVec.ofNat 64 n := by
  have hd' := (State.vd_modVd_same s v fun d => { d with cnt := tset d.cnt (32 * b + i) (tgetD d.cnt (32 * b + i) 0 + BitVec.ofNat 64 n) }).trans
    (congrArg _ hd)
  rw [counter_eq hd h2 h0, counter_eq (s := s.count v b i n) hd' h2 h0]
  simp [tgetD]

theorem counter_count_ne {s : State} {v w b c i j : Nat} {d : Vd} (hd : s.vd v = some d) (h2 : ¬ (b = 2 ∧ i = 0)) (h0 : ¬ (b = 0 ∧ i = 20))
    (hne : 32 * b + i ≠ 32 * c + j) (n : Nat) : (s.count w c j n).counter v b i = s.counter v b i := by
  by_cases hv : v = w
  · subst hv
    have hd' := (State.vd_modVd_same s v fun d => { d with cnt := tset d.cnt (32 * c + j) (tgetD d.cnt (32 * c + j) 0 + BitVec.ofNat 64 n) }).trans
      (congrArg _ hd)
    rw [counter_eq hd h2 h0, counter_eq (s := s.count v c j n) hd' h2 h0]
    dsimp only
    rw [tget_tset_ne _ _ hne]
  · have hd' : (s.count w c j n).vd v = some d := (State.vd_modVd_ne s _ hv).trans hd
    rw [counter_eq hd h2 h0, counter_eq hd' h2 h0]

end Sys2Proof.Claims

namespace Sys2Proof.Machine

/-- A command that starts its step changes the booking units' state, and counts used slots. -/
theorem State.useStep_frame (s : State) (c : Cmd) :
    ∃ u bk, s.useStep c = { u with bk := bk } ∧ (u = s ∨ ∃ n, u = s.count c.vd 0 5 n) := by
  have hfold : ∀ (u : State) (js : List Nat) (f : BStep → BStep),
      ∃ bk, js.foldl (fun s j => s.modStep (keyOfHandle c.bk) j f) u = { u with bk := bk } := fun u js f =>
    List.foldlRecOn (motive := fun x => ∃ bk, x = { u with bk := bk }) js _ ⟨u.bk, rfl⟩ fun x hx _ _ => by
      obtain ⟨bk, rfl⟩ := hx
      exact ⟨_, rfl⟩
  unfold State.useStep
  split
  · exact ⟨s, s.bk, rfl, .inl rfl⟩
  · split
    · exact ⟨s, s.bk, rfl, .inl rfl⟩
    · dsimp only
      split
      · obtain ⟨bk, h⟩ := hfold (s.count c.vd 0 5 (groupOf _ c.step).length) (groupOf _ c.step) _
        exact ⟨_, bk, h, .inr ⟨_, rfl⟩⟩
      · obtain ⟨bk, h⟩ := hfold s (groupOf _ c.step) _
        exact ⟨s, bk, h, .inl rfl⟩

theorem State.useStep_rest (s : State) (c : Cmd) : (s.useStep c).cores = s.cores ∧ (s.useStep c).focus = s.focus ∧
    (s.useStep c).fr = s.fr ∧ (s.useStep c).hbm = s.hbm := by
  obtain ⟨u, bk, h, rfl | ⟨n, rfl⟩⟩ := s.useStep_frame c <;> rw [h] <;> exact ⟨rfl, rfl, rfl, rfl⟩

end Sys2Proof.Machine

namespace Sys2Proof.Claims

open Sys2Proof.Machine

theorem counter_useStep {s : State} {v : Nat} {d : Vd} (hd : s.vd v = some d) (c : Cmd) :
    (s.useStep c).counter v 0 9 = s.counter v 0 9 := by
  obtain ⟨u, bk, h, rfl | ⟨n, rfl⟩⟩ := s.useStep_frame c <;> rw [h]
  · exact counter_congr rfl (by decide) (by decide)
  · exact (counter_congr rfl (by decide) (by decide)).trans (counter_count_ne hd (by decide) (by decide) (by decide) n)

/-- What a copy that enters notes of itself in its task: the tag's latest copy and, where it is booked, that it awaits covering (R88). -/
def noted (booked : Bool) (o : CpOp) (s : State) : State :=
  if booked then (s.noteCopy o 1).modTask o.c.task fun k => { k with leads := k.leads ++ [{ id := o.c.id, tag := o.tag, done := none }] }
  else s.noteCopy o 1

theorem noted_rest (booked : Bool) (o : CpOp) (s : State) : (noted booked o s).cores = s.cores ∧ (noted booked o s).focus = s.focus ∧
    (noted booked o s).vds = s.vds ∧ ∀ k, ((noted booked o s).task k).map Task.vd = (s.task k).map Task.vd := by
  unfold noted
  split
  · refine ⟨State.noteCopy_cores .., State.noteCopy_focus .., State.noteCopy_vds .., fun k => ?_⟩
    refine (State.task_vd_modTask (s.noteCopy o 1) _ k ?_).trans (State.task_vd_noteCopy s o 1 k)
    exact fun _ => rfl
  · exact ⟨State.noteCopy_cores .., State.noteCopy_focus .., State.noteCopy_vds .., fun k => State.task_vd_noteCopy ..⟩

theorem enterOp_cp (u : State) (c : Nat) (p : BitVec 1) (o : CpOp) : u.enterOp c p (.cp o) =
    (noted (u.isBooked o.c) o ((u.useStep o.c).modCore c fun k => { k with cp := k.cp ++ [o] })).modPlane c p fun x =>
      { x with oc := { x.oc with cpc := x.oc.cpc + 1 } } := rfl

/-- A copy, booked or not, enters its engine. -/
theorem enterOp_entered {s u : State} (o : CpOp) (hc : u.cores = s.cores) (hf : u.focus = s.focus) (hfr : u.fr = s.fr) :
    CopyEntered s (u.enterOp s.fc s.fp (.cp o)) o ∧ (u.enterOp s.fc s.fp (.cp o)).vds = (u.useStep o.c).vds := by
  obtain ⟨hcores, hfocus, hfront, -⟩ := u.useStep_rest o.c
  rw [enterOp_cp]
  generalize hw : (u.useStep o.c).modCore s.fc (fun k => { k with cp := k.cp ++ [o] }) = w
  have hwc : w.cores = tset s.cores s.fc { s.core s.fc with cp := (s.core s.fc).cp ++ [o] } := by
    rw [← hw, State.modCore_cores, hcores, hc, State.core, hcores, hc]
    rfl
  have hwf : w.focus = s.focus := by rw [← hw, State.modCore_focus, hfocus, hf]
  have hwt : ∀ k, w.task k = s.task k := fun k => by
    rw [State.task, ← hw, State.modCore_fr, hfront, hfr]
    rfl
  obtain ⟨hxc, hxf, hxv, hxt⟩ := noted_rest (u.isBooked o.c) o w
  generalize noted (u.isBooked o.c) o w = x at hxc hxf hxv hxt ⊢
  rw [hwc] at hxc
  have hown : x.core s.fc = { s.core s.fc with cp := (s.core s.fc).cp ++ [o] } := by rw [State.core, hxc, tgetD_tset_same]
  refine ⟨⟨hxf.trans hwf, ?_, fun c hc => ?_, fun k => ?_⟩, ?_⟩
  · rw [State.modPlane, State.core_modCore, hown]
    rfl
  · rw [State.modPlane, State.core_modCore_ne _ _ hc, State.core, hxc, tgetD_tset_ne _ _ _ hc]
    rfl
  · change (x.task k).map Task.vd = _
    rw [hxt, hwt]
  · rw [State.modPlane_vds, hxv, ← hw]
    rfl

/-- The state in which counter `i` of the executing VD's booking bank, and the next command id, are one more. -/
def countedStep (s : State) (i : Nat) : State := { s.count s.curVd 0 i 1 with nextId := s.nextId + 1 }

/-- The issue of an engine instruction whose step is booked and whose count is not full. -/
theorem engineIssue_booked {s : State} {copy : Bool} {bk : BitVec 6} {step : BitVec 3} {ar : BitVec 2} {scp : BitVec 3} {d : Vd} {key : Nat}
    {t : BStep} (hd : s.vd s.curVd = some d) (hscope : ar = 0 ∨ scp.toNat ≤ d.d.ceil.toNat) (hbk : bk ≠ 0) (hfull : s.pl.engFull copy = false)
    (huse : s.stepUse s.curVd (s.pl.task.getD 0) ((s.pl.rg bk).setWidth 24).toNat step.toNat copy = .booked key t) (hlate : s.now < t.start + t.len)
    (mk : Cmd → EngOp) (enter : Nat → BitVec 1 → EngOp → State → State) : s.engineIssue copy bk step ar scp mk enter =
      if s.now < t.start then
        (countedStep s 8).holdStart t.start (mk ((s.count s.curVd 0 8 1).newCmd ((s.pl.rg bk).setWidth 24).toNat step.toNat ar scp))
      else (enter s.fc s.fp (mk ((s.count s.curVd 0 9 1).newCmd ((s.pl.rg bk).setWidth 24).toNat step.toNat ar scp)) (countedStep s 9)).advance 2 := by
  have hsc : (if ar = 0 then .ok (scp, false) else scopeOf d.d scp) = .ok (scp, false) := by
    rcases hscope with h | h
    · rw [if_pos h]
    · rw [scopeOf_inside h, ite_self]
  unfold State.engineIssue
  simp only [hd, hsc, if_neg hbk, huse, hfull, Bool.false_eq_true, if_false]
  by_cases hs : s.now < t.start
  · simp only [if_pos hs]
    rfl
  · simp only [if_neg hs, if_pos hlate]
    rfl

theorem counter_countedStep {s : State} {d : Vd} {i : Nat} (hd : s.vd s.curVd = some d) (hi : i ≠ 20) :
    (countedStep s i).counter s.curVd 0 i = s.counter s.curVd 0 i + 1 :=
  (counter_congr (s := s.count s.curVd 0 i 1) rfl (by omega) (by omega)).trans (counter_count hd (by omega) (by omega) 1)

theorem core_holdOn_cp (s : State) (h : Hold) (c : Nat) : ((s.holdOn h).core c).cp = (s.core c).cp := by
  unfold State.holdOn
  dsimp only
  split
  · exact State.core_modPl_cp s (fun x => { x with hold := some h }) c
  · exact State.core_modPl_cp s (fun x => { x with hold := some h }) c

theorem vds_holdOn (s : State) (h : Hold) : (s.holdOn h).vds = s.vds := by
  unfold State.holdOn
  dsimp only
  split <;> rfl

/-- Settles O29: before its start a booked copy holds, in its slots it enters; each counts in its own counter. -/
theorem bookedWorkStarts : Obligations.BookedWorkStarts := by
  intro s o d key t h hg hbad hd hscope hbk hfull huse
  have hfull' : s.pl.engFull true = false := beq_eq_false_iff_ne.mpr hfull
  have hissue : s.now < t.start + t.len → exec (.cpy o) s = .next _ := fun hlate => congrArg Host.Outcome.next
    ((copyIssue_eq (chain := true) hg hbad).trans
      (engineIssue_booked hd hscope hbk hfull' huse hlate (fun c => .cp (copyOp s o true c)) fun c p e s => s.enterOp c p e))
  refine ⟨fun hlt => ?_, fun hge hlate => ?_⟩
  · have hi := hissue (by omega)
    rw [if_pos hlt] at hi
    have hpl : ∀ op : CpOp, ((countedStep s 8).holdStart t.start (.cp op)).pl = { s.pl with hold := some (.startCp t.start op) } := fun op => by
      have hc : (countedStep s 8).pl = s.pl := State.pl_congr rfl rfl
      rw [← hc]
      exact State.pl_holdOn ..
    refine ⟨_, _, hi, congrArg Plane.hold (hpl _), rfl, rfl, rfl, by rw [hpl], by rw [hpl],
      core_holdOn_cp (countedStep s 8) _ s.fc, ?_⟩
    exact (counter_congr (vds_holdOn _ _) (by decide) (by decide)).trans (counter_countedStep hd (by decide))
  · have hi := hissue hlate
    rw [if_neg (by omega)] at hi
    obtain ⟨hent, hvds⟩ := enterOp_entered (s := s) (u := countedStep s 9)
      (copyOp s o true ((s.count s.curVd 0 9 1).newCmd h o.step.toNat o.ar o.scp)) rfl rfl rfl
    refine ⟨_, _, hi, hent.cp_advance 2, rfl, rfl, rfl, by rw [hent.pl_advance], by rw [hent.pl_advance], ?_⟩
    have hd9 : ∃ d', (countedStep s 9).vd s.curVd = some d' := ⟨_, (State.vd_modVd_same s s.curVd _).trans (congrArg (Option.map _) hd)⟩
    obtain ⟨d', hd'⟩ := hd9
    exact (counter_congr hvds (by decide) (by decide)).trans ((counter_useStep hd' _).trans (counter_countedStep hd (by decide)))

/-! ## Status words and operand checks (spec/19_ref_m_r.md R381, spec/17_ref_a_c.md R342, R327, spec/18_ref_d_l.md R356) -/

theorem cpyq_ended {s : State} {o : Cpyq} {k : Task} {q : CopyStat} (hk : s.curTask = some k) (hq : tget k.cpq o.tag.toNat = some q)
    (hcp : ((s.core s.fc).cp.all fun x => x.c.id != q.id) = true) :
    exec (.cpyq o) s = .next (s.scalar o.g 1 o.d (cpyqWord q.state q.ents q.bytes)) := by
  have hfind : ((s.core s.fc).cp.find? fun x => x.c.id == q.id) = none := by
    rw [List.find?_eq_none]
    intro x hx
    have := List.all_eq_true.mp hcp x hx
    simpa using this
  have hbind : (s.curTask.bind fun t => tget t.cpq o.tag.toNat) = some q := by rw [hk]; exact hq
  change execCpyq o s = _
  unfold execCpyq
  simp only [hbind, hfind]

theorem bkq_step {s : State} {v h j : Nat} {b : Booking} {t : BStep} (hb : s.booking v h = some b) (ht : b.steps[j]? = some t) :
    s.bkq v h j = bkqWord t.st.code t.cal t.len t.start := by
  unfold State.bkq
  simp only [hb, ht]

theorem bkq_none {s : State} {v h : Nat} (hb : s.booking v h = none) (hr : s.pendingReq v h = none) (j : Nat) :
    s.bkq v h j = bkqWord 15 0 0 0 := by
  unfold State.bkq
  simp only [hb, hr]

theorem frqValue_none {s : State} {v : Nat} {id : BitVec 12} (h : s.sweep v id = none) (sel : Nat) (idx : Word) :
    s.frqValue v id sel idx = 0 := by
  unfold State.frqValue
  simp only [h]

theorem frqValue_status {s : State} {v : Nat} {id : BitVec 12} {x : Sweep} (h : s.sweep v id = some x) (idx : Word) :
    s.frqValue v id 0 idx = BitVec.ofNat 64 (4294967296 * x.done + x.st.code) := by
  unfold State.frqValue
  simp only [h, if_true]

/-- Settles O30, a status word after the other. -/
theorem statusReads : Obligations.StatusReads := by
  intro s
  refine ⟨fun o => scalarEnds_of_exec rfl, fun o k q hk hq hcp => ?_, fun o b t hb ht => ?_, fun o hb hr => ?_, fun o hx => ?_, fun o x hx hsel => ?_⟩
  · exact scalarEnds_of_exec (cpyq_ended hk hq hcp)
  · exact scalarEnds_of_exec (congrArg (fun w => Host.Outcome.next (s.scalar o.g 1 o.d w)) (bkq_step hb ht))
  · exact scalarEnds_of_exec (congrArg (fun w => Host.Outcome.next (s.scalar o.g 1 o.d w)) (bkq_none hb hr o.step.toNat))
  · exact scalarEnds_of_exec (congrArg (fun w => Host.Outcome.next (s.scalar o.g 2 o.d w)) (frqValue_none hx o.sel.toNat (s.pl.rg o.b)))
  · have hsel' : o.sel.toNat = 0 := by rw [hsel]; rfl
    refine scalarEnds_of_exec (congrArg (fun w => Host.Outcome.next (s.scalar o.g 2 o.d w)) ?_)
    rw [hsel']
    exact frqValue_status hx _

theorem trapsAt {i : Instr} {s : State} {code : Nat} {v : Word} (h : exec i s = .next (s.trap code v)) :
    ∃ t, exec i s = .next t ∧ Traps s t code v := ⟨_, h, traps_trap s code v⟩

theorem mmt_illegal {s : State} {o : Mmt} (hg : s.pl.guard o.g = true) (h : 128 < ((s.pl.rg o.b).extractLsb' 0 8).toNat ∨
    128 < ((s.pl.rg o.b).extractLsb' 8 8).toNat ∨ (s.pl.rg o.b).extractLsb' 46 18 ≠ 0) : exec (.mmt o) s = .next (s.trap cILLEGAL (s.pl.rg o.b)) := by
  change execMmt o s = _
  unfold execMmt
  dsimp only
  rw [if_pos hg, if_pos h]

theorem mmt_align {s : State} {o : Mmt} (hg : s.pl.guard o.g = true) (h1 : ¬ (128 < ((s.pl.rg o.b).extractLsb' 0 8).toNat ∨
    128 < ((s.pl.rg o.b).extractLsb' 8 8).toNat ∨ (s.pl.rg o.b).extractLsb' 46 18 ≠ 0))
    (h2 : ((s.pl.rg o.b).extractLsb' 32 14).toNat % 32 ≠ 0 ∨ s.pl.rg o.a &&& 31 ≠ 0) :
    exec (.mmt o) s = .next (s.trap cALIGN (s.pl.rg o.a)) := by
  change execMmt o s = _
  unfold execMmt
  dsimp only
  rw [if_pos hg, if_neg h1, if_pos h2]

theorem mdrain_align {s : State} {o : Mdrain} (hg : s.pl.guard o.g = true) (h : s.pl.rg o.a &&& 31 ≠ 0) :
    exec (.mdrain o) s = .next (s.trap cALIGN (s.pl.rg o.a)) := by
  change execMdrain o s = _
  unfold execMdrain
  dsimp only
  rw [if_pos hg, if_pos h]

theorem mdrain_lease {s : State} {o : Mdrain} (hg : s.pl.guard o.g = true) (h1 : ¬ s.pl.rg o.a &&& 31 ≠ 0)
    (h2 : s.pl.leased (s.pl.rg o.a) (16384 * (tyWidth o.ty.toNat / 8)) = false) :
    exec (.mdrain o) s = .next (s.trap cLEASE (s.pl.rg o.a)) := by
  change execMdrain o s = _
  unfold execMdrain
  dsimp only
  rw [if_pos hg, if_neg h1, if_pos (by rw [h2]; rfl)]

theorem mbrd_illegal {s : State} {o : Mbrd} (hg : s.pl.guard o.g = true) (h : (s.pl.rg o.a).extractLsb' 11 53 ≠ 0) :
    exec (.mbrd o) s = .next (s.trap cILLEGAL (s.pl.rg o.a)) := by
  change execMbrd o s = _
  unfold execMbrd
  dsimp only
  rw [if_pos hg, if_pos (.inl h)]

theorem cpyBad_align {s : State} {a : Word} {align : Nat} (h : a.toNat % align ≠ 0) (size : Nat) : s.cpyBad a align size = some cALIGN := by
  rw [State.cpyBad, if_pos h]

theorem engineIssue_scope {s : State} {ar : BitVec 2} {scp : BitVec 3} {d : Vd} (hd : s.vd s.curVd = some d) (hsc : d.d.sctrap = true)
    (har : ar ≠ 0) (habove : d.d.ceil.toNat < scp.toNat) (copy : Bool) (bk : BitVec 6) (step : BitVec 3) (mk : Cmd → EngOp)
    (enter : Nat → BitVec 1 → EngOp → State → State) : s.engineIssue copy bk step ar scp mk enter =
      s.trap cSCOPE (BitVec.ofNat 64 (scp.toNat + 8 * d.d.ceil.toNat)) := by
  unfold State.engineIssue
  simp only [hd, if_neg har, scopeOf_above habove, hsc, if_true]

/-- Settles O31, a check after the other. -/
theorem engineOperandTraps : Obligations.EngineOperandTraps := by
  intro s
  refine ⟨fun o hg => ⟨fun h => trapsAt (mmt_illegal hg h), fun hm hn hz h => trapsAt (mmt_align hg ?_ h)⟩,
    fun o hg => ⟨fun h => trapsAt (mdrain_align hg h), fun h1 h2 => trapsAt (mdrain_lease hg (fun h => h h1) h2)⟩,
    fun o hg h => trapsAt (mbrd_illegal hg h),
    fun o hg => ⟨fun h => trapsAt (congrArg _ (copyIssue_bad (chain := true) hg (cpyBad_align h 64))),
      fun h => trapsAt (congrArg _ (copyIssue_bad (chain := false) hg (cpyBad_align h 24)))⟩,
    fun o d hg hbad hd hsc har habove => trapsAt (congrArg _ ((copyIssue_eq (chain := true) hg hbad).trans (engineIssue_scope hd hsc har habove ..)))⟩
  rintro (h | h | h)
  · omega
  · omega
  · exact h hz

/-- The change that MZERO makes in its core (R178). -/
def Core.zeroed (k : Core) (o : MxOp) : Core :=
  ({ k with bobbin := memClear k.bobbin (entryOff o.tile 0 0) 131072 } : Core).modTile o.tile fun t =>
    { t with kst := 0, fmt := 0, mix := false, iov := false, fl := 0, fz := o.ftz }

theorem beginMx_mzero {s : State} {c : Nat} {o : MxOp} (hturn : s.mxTurn c = some o) (hkind : o.kind = .mzero) (hst : o.c.st = .waiting)
    (hacq : o.c.acq = false) (hrel : o.c.rel = false) (hruns : s.unitRuns o.c.vd (mxUnit c) = true)
    (hclear : s.cmdClear c o.c (.bobbin c (entryOff o.tile 0 0)) 131072 = true) : ∃ f : MxOp → BitVec 2, s.beginMx c = s.modCore c fun k =>
      { Core.zeroed k o with mx := k.mx.map fun x => if x.c.id = o.c.id then { x with c := { x.c with st := .finished }, sf := f x } else x } := by
  have hun : o.untested = false := by rw [MxOp.untested, hkind]
  have hmay : s.cmdMay c o.c = true := by
    unfold State.cmdMay
    rw [hacq, hrel]
    simp
  have hmx : s.mxMay c o = true := by
    unfold State.mxMay
    rw [hkind, hruns]
    rfl
  have hcl : s.clearMay c o = true := by
    unfold State.clearMay
    rw [hkind]
    exact hclear
  have hgo : ¬ ((o.c.st != .waiting || !(s.cmdMay c o.c) || !(s.mxMay c o) || !(s.clearMay c o)) = true) := by
    rw [hst, hmay, hmx, hcl]
    decide
  refine ⟨fun x => (((s.modCore c fun k => Core.zeroed k o).core c).tile x.tile).fmt, ?_⟩
  unfold State.beginMx
  rw [hturn]
  dsimp only
  rw [if_neg (by rw [hun]; exact Bool.false_ne_true), if_neg hgo, hkind]
  change (s.modCore c fun k => Core.zeroed k o).modCore c _ = _
  rw [State.modCore_modCore]
  rfl

/-- Settles O32: the bytes from `memRead_memClear`, the status from the tile that was written. -/
theorem zeroedTile : Obligations.ZeroedTile := by
  intro s c o hturn hkind hst hacq hrel hruns hclear hwf
  obtain ⟨f, h⟩ := beginMx_mzero hturn hkind hst hacq hrel hruns hclear
  rw [h]
  dsimp only
  rw [State.core_modCore]
  refine ⟨fun a => ?_, ?_, fun k hk => ?_, rfl, rfl, fun x hx hid => ?_⟩
  · exact memRead_memClear hwf _ _ a
  · simp [Core.zeroed, Core.tile, Core.modTile]
  · have hne : ¬ (o.tile.toNat = k.toNat) := fun h => hk (BitVec.eq_of_toNat_eq h).symm
    simp [Core.zeroed, Core.tile, Core.modTile, Vector.getElem_set_ne, hne]
  · obtain ⟨y, -, rfl⟩ := List.mem_map.mp hx
    by_cases hy : y.c.id = o.c.id
    · rw [if_pos hy]
    · rw [if_neg hy] at hid
      exact absurd hid hy

end Sys2Proof.Claims

/-! ## Changes of the engines' operations and of the booking units -/

namespace Sys2Proof.Machine

theorem getElem?_modAt {α : Type} (xs : List α) (j i : Nat) (f : α → α) : (modAt xs j f)[i]? = if i = j then (xs[i]?).map f else xs[i]? := by
  induction xs generalizing i j with
  | nil => cases j <;> simp [modAt]
  | cons x xs ih => cases j with
    | zero => cases i <;> simp [modAt]
    | succ j => cases i with
      | zero => simp [modAt]
      | succ i => simp [modAt, ih]

@[simp] theorem length_modAt {α : Type} (xs : List α) (j : Nat) (f : α → α) : (modAt xs j f).length = xs.length := by
  induction xs generalizing j with
  | nil => cases j <;> rfl
  | cons x xs ih => cases j <;> simp [modAt, ih]

theorem modAt_congr {α : Type} {xs : List α} {j : Nat} {f g : α → α} (h : ∀ y, xs[j]? = some y → f y = g y) : modAt xs j f = modAt xs j g := by
  refine List.ext_getElem? fun i => ?_
  rw [getElem?_modAt, getElem?_modAt]
  by_cases hi : i = j
  · subst hi
    rw [if_pos rfl, if_pos rfl]
    cases hx : xs[i]? with
    | none => rfl
    | some y => exact congrArg some (h y hx)
  · rw [if_neg hi, if_neg hi]

theorem modAt_id {α : Type} {xs : List α} {j : Nat} {f : α → α} (h : ∀ y, xs[j]? = some y → f y = y) : modAt xs j f = xs := by
  rw [modAt_congr (g := fun y => y) h]
  refine List.ext_getElem? fun i => ?_
  rw [getElem?_modAt, Option.map_id', ite_self]

/-- A change that is done once where it is named, however often. -/
theorem getElem?_foldl_modAt {α : Type} {e : α → α} (he : ∀ y, e (e y) = e y) (js : List Nat) (xs : List α) (i : Nat) :
    (js.foldl (fun st j => modAt st j e) xs)[i]? = if i ∈ js then (xs[i]?).map e else xs[i]? := by
  induction js generalizing xs with
  | nil => simp
  | cons j js ih =>
    rw [List.foldl_cons, ih, getElem?_modAt]
    by_cases hi : i = j
    · subst hi
      simp [Function.comp_def, he]
    · simp [hi]

/-- `t` is `s` but for the operations of the engines, and for what is neither core, task nor HBM. -/
structure EngFrame (s t : State) : Prop where
  focus : t.focus = s.focus
  fr : t.fr = s.fr
  hbm : t.hbm = s.hbm
  core : ∀ c, ∃ mx cp, t.core c = { s.core c with mx := mx, cp := cp }

theorem EngFrame.refl (s : State) : EngFrame s s := ⟨rfl, rfl, rfl, fun _ => ⟨_, _, rfl⟩⟩

theorem EngFrame.trans {s t u : State} (h1 : EngFrame s t) (h2 : EngFrame t u) : EngFrame s u := by
  refine ⟨h2.focus.trans h1.focus, h2.fr.trans h1.fr, h2.hbm.trans h1.hbm, fun c => ?_⟩
  obtain ⟨mx, cp, h⟩ := h1.core c
  obtain ⟨mx', cp', h'⟩ := h2.core c
  exact ⟨mx', cp', by rw [h', h]⟩

theorem EngFrame.of_cores {s t : State} (hc : t.cores = s.cores) (hf : t.focus = s.focus) (hfr : t.fr = s.fr) (hh : t.hbm = s.hbm) :
    EngFrame s t := ⟨hf, hfr, hh, fun c => ⟨_, _, by rw [State.core, hc]; rfl⟩⟩

theorem EngFrame.foldl {α : Type} {g : State → α → State} (hg : ∀ s a, EngFrame s (g s a)) (xs : List α) (s : State) :
    EngFrame s (xs.foldl g s) :=
  List.foldlRecOn (motive := EngFrame s) xs g (.refl s) fun t ht a _ => ht.trans (hg t a)

theorem EngFrame.fc {s t : State} (h : EngFrame s t) : t.fc = s.fc := congrArg BitVec.toNat h.focus

theorem EngFrame.fp {s t : State} (h : EngFrame s t) : t.fp = s.fp := by
  obtain ⟨mx, cp, hc⟩ := h.core s.fc
  rw [State.fp, h.fc, hc]
  rfl

theorem EngFrame.plane {s t : State} (h : EngFrame s t) (c : Nat) (p : BitVec 1) : t.plane c p = s.plane c p := by
  obtain ⟨mx, cp, hc⟩ := h.core c
  rw [State.plane, hc]
  rfl

theorem EngFrame.pl {s t : State} (h : EngFrame s t) : t.pl = s.pl := by
  rw [State.pl, h.fc, h.fp, h.plane]
  rfl

theorem EngFrame.task {s t : State} (h : EngFrame s t) (k : Nat) : t.task k = s.task k := by
  rw [State.task, h.fr]
  rfl

theorem EngFrame.pl_advance {s t : State} (h : EngFrame s t) (n : Nat) : (t.advance n).pl =
    { s.pl with pc := s.nextPc n, loop := (s.pl.pass (s.lineAt s.fc s.fp) n).loop, hold := none } := by
  have hl : (t.core s.fc).lines = (s.core s.fc).lines := by
    obtain ⟨mx, cp, hc⟩ := h.core s.fc
    rw [hc]
  rw [State.pl_advance_of (s := s) n h.focus h.fp hl (by rw [h.pl]) (by rw [h.pl]) (by rw [h.pl]) fun k => by rw [h.task], h.pl]

theorem EngFrame.modCore {s : State} {c : Nat} {f : Core → Core} (hf : ∀ k, ∃ mx cp, f k = { k with mx := mx, cp := cp }) :
    EngFrame s (s.modCore c f) := by
  refine ⟨rfl, rfl, rfl, fun d => ?_⟩
  by_cases hd : d = c
  · subst hd
    rw [State.core_modCore]
    exact hf _
  · rw [State.core_modCore_ne s f hd]
    exact ⟨_, _, rfl⟩

theorem engFrame_stopCmd (s : State) (c h j code : Nat) : EngFrame s (s.stopCmd c h j code) := EngFrame.modCore fun _ => ⟨_, _, rfl⟩

theorem engFrame_endStep (s : State) (key j : Nat) (st : StepSt) (code : Nat) : EngFrame s (s.endStep key j st code) := by
  unfold State.endStep
  split
  · exact .refl s
  · split
    · exact .refl s
    · split
      · exact .refl s
      · dsimp only
        split
        · refine EngFrame.trans ?_ (engFrame_stopCmd _ _ _ _ _)
          exact .of_cores rfl rfl rfl rfl
        · exact .of_cores rfl rfl rfl rfl

theorem engFrame_endBooking (s : State) (key : Nat) (st : StepSt) (code : Nat) : EngFrame s (s.endBooking key st code) := by
  unfold State.endBooking
  split
  · exact .refl s
  · exact .foldl (fun s j => engFrame_endStep s key j st code) _ s

theorem engFrame_cancelBooking (s : State) (key : Nat) : EngFrame s (s.cancelBooking key) := by
  unfold State.cancelBooking
  split
  · exact .refl s
  · split
    · exact .refl s
    · exact (engFrame_endBooking s key .cancelled 5).trans (.of_cores rfl rfl rfl rfl)

theorem engFrame_releaseOne (s : State) (key j : Nat) : EngFrame s (s.releaseOne key j) := by
  unfold State.releaseOne
  dsimp only
  split
  · split
    · split <;> exact .of_cores rfl rfl rfl rfl
    · exact .of_cores rfl rfl rfl rfl
  · exact .of_cores rfl rfl rfl rfl

theorem engFrame_releaseStep (s : State) (key j : Nat) : EngFrame s (s.releaseStep key j) := by
  unfold State.releaseStep
  split
  · exact .refl s
  · split
    · exact .refl s
    · split
      · exact .refl s
      · exact .foldl (fun s i => engFrame_releaseOne s key i) _ s

/-! ### The steps of a booking -/

/-- A step that is ended, where it was not over. -/
def BStep.ended (st : StepSt) (t : BStep) : BStep := if t.over then t else { t with st := st }

/-- A step that is released, where it was not over. -/
def BStep.released (t : BStep) : BStep :=
  match t.st with
  | .booked => { t with st := .released }
  | .running => { t with st := .released }
  | _ => t

theorem BStep.over_iff (t : BStep) : t.over = true ↔ ¬ (t.st = .booked ∨ t.st = .running) := by
  unfold BStep.over
  cases t.st <;> decide

theorem tget_modStep {s : State} {key : Nat} {b : Booking} (h : tget s.bk.bookings key = some b) (j : Nat) (f : BStep → BStep) :
    tget (s.modStep key j f).bk.bookings key = some { b with steps := modAt b.steps j f } :=
  (tget_tmod_same _ _ _).trans (congrArg _ h)

theorem tget_endStep {s : State} {key : Nat} {b : Booking} (h : tget s.bk.bookings key = some b) (j : Nat) (st : StepSt) (code : Nat) :
    tget (s.endStep key j st code).bk.bookings key = some { b with steps := modAt b.steps j (BStep.ended st) } := by
  unfold State.endStep
  simp only [h]
  split
  · rename_i hj
    rw [h, modAt_id fun y hy => absurd (hj.symm.trans hy) (Option.some_ne_none y).symm]
  · rename_i t hj
    split
    · rename_i hover
      rw [h, modAt_id]
      intro y hy
      cases hj.symm.trans hy
      exact if_pos hover
    · rename_i hover
      have hm : tget (s.modStep key j fun t => { t with st := st }).bk.bookings key =
          some { b with steps := modAt b.steps j (BStep.ended st) } := by
        rw [tget_modStep h, modAt_congr]
        intro y hy
        cases hj.symm.trans hy
        exact (if_neg hover).symm
      split
      · exact hm
      · exact hm

theorem tget_releaseOne {s : State} {key : Nat} {b : Booking} (h : tget s.bk.bookings key = some b) (j : Nat) :
    tget (s.releaseOne key j).bk.bookings key = some { b with steps := modAt b.steps j BStep.released } := by
  have hgen : ∀ u : State, u.bk.bookings = s.bk.bookings →
      tget (u.modStep key j BStep.released).bk.bookings key = some { b with steps := modAt b.steps j BStep.released } := fun u hu =>
    tget_modStep (by rw [hu]; exact h) j _
  unfold State.releaseOne
  dsimp only
  split
  · split
    · split <;> exact hgen _ rfl
    · exact hgen _ rfl
  · exact hgen _ rfl

/-- Steps that are changed one after the other. -/
theorem tget_foldl_steps {g : State → Nat → State} {key : Nat} {e : BStep → BStep}
    (hg : ∀ (s : State) (b : Booking) (j : Nat), tget s.bk.bookings key = some b →
      tget (g s j).bk.bookings key = some { b with steps := modAt b.steps j e })
    (js : List Nat) {s : State} {b : Booking} (h : tget s.bk.bookings key = some b) :
    tget (js.foldl g s).bk.bookings key = some { b with steps := js.foldl (fun st j => modAt st j e) b.steps } := by
  induction js generalizing s b with
  | nil => exact h
  | cons j js ih => exact ih (hg s b j h)

theorem BStep.ended_ended (t : BStep) : (t.ended .cancelled).ended .cancelled = t.ended .cancelled := by
  unfold BStep.ended
  by_cases h : t.over
  · rw [if_pos h, if_pos h]
  · rw [if_neg h]
    rfl

theorem BStep.released_released (t : BStep) : t.released.released = t.released := by
  unfold BStep.released
  cases h : t.st <;> simp [h]

/-- A booking that is cancelled: every step that was not over. -/
theorem tget_cancelBooking {s : State} {key : Nat} {b : Booking} (h : tget s.bk.bookings key = some b) :
    tget (s.cancelBooking key).bk.bookings key = some { b with steps := b.steps.map (BStep.ended .cancelled) } := by
  unfold State.cancelBooking
  simp only [h]
  split
  · rename_i hall
    have hid : b.steps.map (BStep.ended .cancelled) = b.steps :=
      (List.map_congr_left fun y hy => if_pos (List.all_eq_true.mp hall y hy)).trans (List.map_id' _)
    rw [h, hid]
  · change tget (s.endBooking key .cancelled 5).bk.bookings key = _
    unfold State.endBooking
    simp only [h]
    rw [tget_foldl_steps (fun s b j h => tget_endStep h j .cancelled 5) _ h]
    congr 2
    refine List.ext_getElem? fun i => ?_
    rw [getElem?_foldl_modAt BStep.ended_ended, List.getElem?_map]
    split
    · rfl
    · rename_i hi
      rw [List.getElem?_eq_none (by simpa using hi)]
      rfl

end Sys2Proof.Machine

/-! ## BOOK, BKCAN and BKREL (spec/17_ref_a_c.md R325 to R329) -/

namespace Sys2Proof.Claims

open Sys2Proof.Machine

theorem sameMemory_of_engFrame {s t : State} (h : EngFrame s t) : SameMemory s t := by
  refine ⟨fun a => by rw [h.hbm], fun c a => ?_⟩
  obtain ⟨mx, cp, hc⟩ := h.core c
  rw [hc]
  exact ⟨rfl, rfl, rfl⟩

theorem SameMemory.advance {s t : State} (h : SameMemory s t) (n : Nat) : SameMemory s (t.advance n) := by
  obtain ⟨hh, hc⟩ := h
  refine ⟨fun a => hh a, fun c a => ?_⟩
  rw [State.advance_eq, State.core_modPl_spad, State.core_modPl_bobbin, State.core_modPl_creel]
  exact hc c a

theorem booking_some {s : State} {v h : Nat} {b : Booking} (hb : s.booking v h = some b) : tget s.bk.bookings (keyOfHandle h) = some b := by
  unfold State.booking at hb
  split at hb
  · exact absurd hb.symm (Option.some_ne_none b)
  · split at hb
    · rename_i c hc
      split at hb
      · exact hc.trans hb
      · exact absurd hb.symm (Option.some_ne_none b)
    · exact absurd hb.symm (Option.some_ne_none b)

theorem exec_bkcan {s : State} {o : A1} {b : Booking} (hg : s.pl.guard o.g = true)
    (hb : s.booking s.curVd ((s.pl.rg o.a).setWidth 24).toNat = some b) :
    exec (.bkcan o) s = .next ((s.cancelBooking (keyOfHandle ((s.pl.rg o.a).setWidth 24).toNat)).advance 1) := by
  change execBkcan o s = _
  unfold execBkcan
  dsimp only
  rw [if_pos hg, hb]

theorem exec_bkcan_none {s : State} {o : A1} (hb : s.booking s.curVd ((s.pl.rg o.a).setWidth 24).toNat = none)
    (hr : s.pendingReq s.curVd ((s.pl.rg o.a).setWidth 24).toNat = none) : exec (.bkcan o) s = .next (s.advance 1) := by
  change execBkcan o s = _
  unfold execBkcan
  dsimp only
  rw [hb, hr]
  exact congrArg _ (ite_self _)

theorem exec_bkrel {s : State} {o : Bkrel} {b : Booking} (hg : s.pl.guard o.g = true)
    (hb : s.booking s.curVd ((s.pl.rg o.a).setWidth 24).toNat = some b) :
    exec (.bkrel o) s = .next ((s.releaseStep (keyOfHandle ((s.pl.rg o.a).setWidth 24).toNat) o.step.toNat).advance 1) := by
  change execBkrel o s = _
  unfold execBkrel
  dsimp only
  rw [if_pos hg, hb]

theorem exec_bkrel_none {s : State} {o : Bkrel} (hb : s.booking s.curVd ((s.pl.rg o.a).setWidth 24).toNat = none) :
    exec (.bkrel o) s = .next (s.advance 1) := by
  change execBkrel o s = _
  unfold execBkrel
  dsimp only
  rw [hb]
  exact congrArg _ (ite_self _)

theorem ended_cancelled (x : BStep) : x.ended .cancelled = if x.st = .booked ∨ x.st = .running then { x with st := .cancelled } else x := by
  unfold BStep.ended
  by_cases h : x.st = .booked ∨ x.st = .running
  · rw [if_neg (fun hx => (BStep.over_iff x).mp hx h), if_pos h]
  · rw [if_pos ((BStep.over_iff x).mpr h), if_neg h]

theorem released_step (x : BStep) : x.released = if x.st = .booked ∨ x.st = .running then { x with st := .released } else x := by
  unfold BStep.released
  cases h : x.st <;> simp

theorem bkcan_cancels {s : State} {o : A1} {b : Booking} (hg : s.pl.guard o.g = true)
    (hb : s.booking s.curVd ((s.pl.rg o.a).setWidth 24).toNat = some b) :
    ∃ t, exec (.bkcan o) s = .next t ∧ t.pl.pc = s.nextPc 1 ∧ t.pl.regs = s.pl.regs ∧ SameMemory s t ∧
      tget t.bk.bookings (keyOfHandle ((s.pl.rg o.a).setWidth 24).toNat) =
        some { b with steps := b.steps.map fun x => if x.st = .booked ∨ x.st = .running then { x with st := .cancelled } else x } := by
  have hf := engFrame_cancelBooking s (keyOfHandle ((s.pl.rg o.a).setWidth 24).toNat)
  refine ⟨_, exec_bkcan hg hb, by rw [hf.pl_advance], by rw [hf.pl_advance], (sameMemory_of_engFrame hf).advance 1, ?_⟩
  refine (tget_cancelBooking (booking_some hb)).trans ?_
  rw [show BStep.ended .cancelled = _ from funext ended_cancelled]

/-- The steps that BKREL of step `j` releases (R81). -/
def relGroup (steps : List BStep) (j : Nat) : List Nat :=
  if (steps[attachRoot steps j]?.map (·.kind == 1)).getD false then attachRoot steps j :: attachedTo steps (attachRoot steps j) else [j]

theorem releaseStep_eq {s : State} {key j : Nat} {b : Booking} {x : BStep} (hb : tget s.bk.bookings key = some b) (hx : b.steps[j]? = some x)
    (hst : x.st = .booked ∨ x.st = .running) : s.releaseStep key j = (relGroup b.steps j).foldl (fun s i => s.releaseOne key i) s := by
  unfold State.releaseStep
  simp only [hb, hx]
  rw [if_neg fun h => (BStep.over_iff x).mp h hst]
  rfl

theorem bkrel_releases {s : State} {o : Bkrel} {b : Booking} {x : BStep} (hg : s.pl.guard o.g = true)
    (hb : s.booking s.curVd ((s.pl.rg o.a).setWidth 24).toNat = some b) (hx : b.steps[o.step.toNat]? = some x)
    (hst : x.st = .booked ∨ x.st = .running) :
    ∃ t, exec (.bkrel o) s = .next t ∧ t.pl.pc = s.nextPc 1 ∧ t.pl.regs = s.pl.regs ∧ SameMemory s t ∧
      ∃ b', tget t.bk.bookings (keyOfHandle ((s.pl.rg o.a).setWidth 24).toNat) = some b' ∧ b'.steps.length = b.steps.length ∧
        ∀ (i : Nat) (y : BStep), b.steps[i]? = some y → b'.steps[i]? =
          some (if i ∈ relGroup b.steps o.step.toNat ∧ (y.st = .booked ∨ y.st = .running) then { y with st := .released } else y) := by
  have hf := engFrame_releaseStep s (keyOfHandle ((s.pl.rg o.a).setWidth 24).toNat) o.step.toNat
  have hsteps := tget_foldl_steps (fun _ _ j h => tget_releaseOne h j) (relGroup b.steps o.step.toNat) (booking_some hb)
  rw [← releaseStep_eq (booking_some hb) hx hst] at hsteps
  have hget := getElem?_foldl_modAt BStep.released_released (relGroup b.steps o.step.toNat) b.steps
  refine ⟨_, exec_bkrel hg hb, by rw [hf.pl_advance], by rw [hf.pl_advance], (sameMemory_of_engFrame hf).advance 1, _, hsteps, ?_, fun i y hy => ?_⟩
  · exact List.foldlRecOn (motive := fun st : List BStep => st.length = b.steps.length) _ _ rfl fun st hl j _ => (length_modAt ..).trans hl
  · rw [hget, hy, Option.map_some, released_step]
    by_cases hi : i ∈ relGroup b.steps o.step.toNat <;> simp [hi]

/-! ### BOOK's result -/

/-- The scratchpad offset of a BOOK's record. -/
def recordOff (a : Word) : Nat := match winOf a with | .spad x => x | _ => 0

/-- The state in which the result of a BOOK is taken, before the plane goes on. -/
def resultTaken (s : State) (id : Nat) (w : Word) (off : Nat) : State :=
  if Machine.fld w 60 4 = 1 || Machine.fld w 60 4 = 3 then (s.modBk fun k => { k with results := terase k.results id }).bumpRcnt s.fc off
  else s.modBk fun k => { k with results := terase k.results id }

/-- A result's register written, and its hold ended. -/
def writeUnhold (d : BitVec 6) (w : Word) (x : Plane) : Plane := { x.wg d w with hold := none }

theorem exec_book_result {s : State} {o : DA} {id : Nat} {w : Word} (hg : s.pl.guard o.g = true) (hh : s.pl.hold = some (.book id))
    (hw : tget s.bk.results id = some w) : exec (.book o) s = .next
      (((resultTaken s id w (recordOff (s.pl.rg o.a))).modPl (writeUnhold o.d w)).advance 1) := by
  change execBook o s = _
  unfold execBook
  dsimp only
  rw [if_pos hg, hh]
  simp only [hw]
  rfl

/-- A register written, a hold ended, and the next instruction, in a state whose executing plane is that of `s`. -/
theorem pl_write_unhold {s v : State} (hf : v.focus = s.focus) (hfp : v.fp = s.fp) (hl : (v.core s.fc).lines = (s.core s.fc).lines)
    (hpl : v.pl = s.pl) (ht : ∀ k, v.task k = s.task k) (d : BitVec 6) (w : Word) (n : Nat) :
    ((v.modPl (writeUnhold d w)).advance n).pl =
      { s.pl.wg d w with pc := s.nextPc n, loop := (s.pl.pass (s.lineAt s.fc s.fp) n).loop, hold := none } := by
  have hv : (v.modPl (writeUnhold d w)).pl = { s.pl.wg d w with hold := none } := by
    rw [State.pl_modPl, hpl]
    rfl
  rw [State.pl_advance_of (s := s) (t := v.modPl (writeUnhold d w)) n hf ((State.fp_modPl ..).trans hfp)
    ((State.core_modPl_lines ..).trans hl) (by rw [hv]; exact Plane.wg_pc ..)
    (by rw [hv]; exact Plane.wg_loop ..) (by rw [hv]; exact Plane.wg_task ..) (fun k => congrArg (Option.map Task.vd) (ht k)), hv]

/-- RCNT of the record rises. -/
def rcntRaised (off : Nat) (k : Core) : Core :=
  { k with spad := memWrite k.spad (off + 5) [BitVec.ofNat 8 (min 255 ((memRead k.spad (off + 5)).toNat + 1))] }

theorem memOnly_rcntRaised (off : Nat) : MemOnly (rcntRaised off) := fun _ => ⟨_, _, _, rfl⟩

theorem resultTaken_of_raised {s : State} {w : Word} (h : w.extractLsb' 60 4 = 1#4 ∨ w.extractLsb' 60 4 = 3#4) (id off : Nat) :
    resultTaken s id w off = (s.modBk fun k => { k with results := terase k.results id }).modCore s.fc (rcntRaised off) := by
  have hc : (Machine.fld w 60 4 = 1 || Machine.fld w 60 4 = 3) = true := by
    unfold Machine.fld
    rcases h with h | h <;> rw [h] <;> decide
  rw [resultTaken, if_pos hc]
  rfl

theorem resultTaken_of_plain {s : State} {w : Word} (h1 : w.extractLsb' 60 4 ≠ 1#4) (h3 : w.extractLsb' 60 4 ≠ 3#4) (id off : Nat) :
    resultTaken s id w off = s.modBk fun k => { k with results := terase k.results id } := by
  have hc : (Machine.fld w 60 4 = 1 || Machine.fld w 60 4 = 3) = false := by
    have e1 : Machine.fld w 60 4 ≠ 1 := fun h => h1 (BitVec.eq_of_toNat_eq h)
    have e3 : Machine.fld w 60 4 ≠ 3 := fun h => h3 (BitVec.eq_of_toNat_eq h)
    simp [e1, e3]
  rw [resultTaken, hc]
  rfl

/-- What BOOK leaves of the state as it takes its result. -/
theorem resultTaken_frame (s : State) (id : Nat) (w : Word) (off : Nat) : let v := resultTaken s id w off
    v.focus = s.focus ∧ v.fp = s.fp ∧ (v.core s.fc).lines = (s.core s.fc).lines ∧ v.pl = s.pl ∧ (∀ k, v.task k = s.task k) ∧
      v.bk = { s.bk with results := terase s.bk.results id } ∧ v.hbm = s.hbm := by
  by_cases h : w.extractLsb' 60 4 = 1#4 ∨ w.extractLsb' 60 4 = 3#4
  · rw [resultTaken_of_raised h]
    have hm := memOnly_rcntRaised off
    let u := s.modBk fun k => { k with results := terase k.results id }
    exact ⟨rfl, State.fp_worked u u.vds hm, by rw [State.core_modCore]; exact hm.lines _, State.pl_worked u u.vds hm, fun _ => rfl, rfl, rfl⟩
  · rw [resultTaken_of_plain (fun h1 => h (.inl h1)) fun h3 => h (.inr h3)]
    exact ⟨rfl, rfl, rfl, rfl, fun _ => rfl, rfl, rfl⟩

theorem book_takes_result {s : State} {o : DA} {id : Nat} {w : Word} (hg : s.pl.guard o.g = true) (hh : s.pl.hold = some (.book id))
    (hw : tget s.bk.results id = some w) :
    ∃ t, exec (.book o) s = .next t ∧ t.pl.pc = s.nextPc 1 ∧ t.pl.hold = none ∧ t.bk.results = terase s.bk.results id ∧
      t.bk.bookings = s.bk.bookings ∧ (∀ r, t.pl.rg r = if r = 0 then 0 else if r = o.d then w else s.pl.rg r) ∧
      (∀ a, memRead t.hbm.mem a = memRead s.hbm.mem a) ∧
      (w.extractLsb' 60 4 ≠ 1#4 → w.extractLsb' 60 4 ≠ 3#4 → (t.core s.fc).spad = (s.core s.fc).spad) ∧
      (∀ off, (w.extractLsb' 60 4 = 1#4 ∨ w.extractLsb' 60 4 = 3#4) → winOf (s.pl.rg o.a) = .spad off → (s.core s.fc).spad.wf = true →
        memRead (t.core s.fc).spad (off + 5) = BitVec.ofNat 8 (min 255 ((memRead (s.core s.fc).spad (off + 5)).toNat + 1)) ∧
          ∀ a, a ≠ off + 5 → memRead (t.core s.fc).spad a = memRead (s.core s.fc).spad a) := by
  obtain ⟨hfocus, hfp, hlines, hpl, htask, hbk, hhbm⟩ := resultTaken_frame s id w (recordOff (s.pl.rg o.a))
  have hp := pl_write_unhold hfocus hfp hlines hpl htask o.d w 1
  have hspad : ∀ (v : State) (f : Plane → Plane), (((v.modPl f).advance 1).core s.fc).spad = (v.core s.fc).spad := fun v f => by
    rw [State.advance_eq, State.core_modPl_spad, State.core_modPl_spad]
  refine ⟨_, exec_book_result hg hh hw, by rw [hp], by rw [hp], (congrArg Bk.results hbk :), (congrArg Bk.bookings hbk :), fun r => ?_,
    fun a => congrArg (fun h : Hbm => memRead h.mem a) hhbm, fun h1 h3 => ?_, fun off hst hwin hwf => ?_⟩
  · rw [hp]
    exact Plane.rg_wg ..
  · rw [hspad, resultTaken_of_plain h1 h3]
    rfl
  · have hoff : recordOff (s.pl.rg o.a) = off := by rw [recordOff, hwin]
    rw [hspad, resultTaken_of_raised hst, hoff, State.core_modCore]
    refine ⟨memRead_memWrite_in hwf (off + 5) [_] 0 Nat.zero_lt_one, fun a ha => memRead_memWrite_out hwf _ _ a ?_⟩
    simp only [List.length_singleton]
    omega

theorem book_align {s : State} {o : DA} (hg : s.pl.guard o.g = true) (hh : s.pl.hold = none) (ha : s.pl.rg o.a &&& 7 ≠ 0) :
    exec (.book o) s = .next (s.trap cALIGN (s.pl.rg o.a)) := by
  change execBook o s = _
  unfold execBook
  dsimp only
  rw [if_pos hg, hh]
  exact congrArg _ (if_pos ha)

theorem book_lease {s : State} {o : DA} (hg : s.pl.guard o.g = true) (hh : s.pl.hold = none) (ha : s.pl.rg o.a &&& 7 = 0)
    (hl : s.pl.leased (s.pl.rg o.a) 16 = false) : exec (.book o) s = .next (s.trap cLEASE (s.pl.rg o.a)) := by
  change execBook o s = _
  unfold execBook
  dsimp only
  rw [if_pos hg, hh]
  refine congrArg _ ((if_neg fun h => h ha).trans (if_pos ?_))
  rw [hl]
  rfl

/-- Settles O33: the booking's steps by `tget_foldl_steps`, everything else by what the engines' frame keeps. -/
theorem bookingInstructions : Obligations.BookingInstructions := by
  intro s
  refine ⟨fun o id w hg hh hw => book_takes_result hg hh hw, fun o hg hh => ⟨fun ha => trapsAt (book_align hg hh ha),
    fun ha hl => trapsAt (book_lease hg hh ha hl)⟩, fun o b hg => ?_, fun o b x hg => ?_,
    fun o hb hr => ⟨_, exec_bkcan_none hb hr, unchanged_advance s 1⟩, fun o hb => ⟨_, exec_bkrel_none hb, unchanged_advance s 1⟩⟩
  · intro h hb
    exact bkcan_cancels hg hb
  · intro h j r group hb hx hst
    exact bkrel_releases hg hb hx hst

end Sys2Proof.Claims

/-! ## SPAWN, SIGNAL, LAUNCH and FRGATE (spec/20_ref_s_t.md R394, R396, spec/18_ref_d_l.md R355, R358) -/

namespace Sys2Proof.Claims

open Sys2Proof.Machine

/-- A release with no access outstanding acts at once. -/
theorem releaseThen_of_no_access {s : State} (h : s.pl.acc = []) (scp : BitVec 3) (act : State → State) :
    s.releaseThen scp false act = act s := by
  unfold State.releaseThen
  rw [h]
  rfl

theorem releaseOr_of_no_access {s : State} {d : VdDef} {scp : BitVec 3} (h : s.pl.acc = []) (hc : scp.toNat ≤ d.ceil.toNat)
    (act : State → State) : s.releaseOr d scp act = act s := by
  unfold State.releaseOr
  rw [scopeOf_inside hc]
  exact releaseThen_of_no_access h scp act

theorem underCeil_inside {d : VdDef} {scp : BitVec 3} (h : scp.toNat ≤ d.ceil.toNat) : underCeil d scp = (scp, false) := by
  rw [underCeil, if_neg (by omega)]

theorem exec_spawn {s : State} {d : Vd} {o : Spawn} {idx : Nat} (hd : s.vd s.curVd = some d) (hg : s.pl.guard o.g = true) (hacc : s.pl.acc = [])
    (hc : 2 ≤ d.d.ceil.toNat) (ha : s.pl.rg o.a &&& 63 = 0) (h0 : s.pl.rg o.a ≠ 0) (hw : inHbmWindow (s.pl.rg o.a) = true)
    (hb : (s.pl.rg o.b).toNat ≤ 32767) (hrows : s.pl.rows ≤ d.d.lmax) (hidx : s.spawnIdx s.curVd d = some idx) :
    exec (.spawn o) s = .next (((s.bump.createTask (Task.fresh s.curVd idx 1 o.pri (s.pl.rg o.b).toNat (dieOf s.fc) s.pl.sr.sweep s.pl.sr.point
      s.pl.rows) (s.pl.rg o.a + 4) s.pl.carried).modPl fun p => p.wg o.d (BitVec.ofNat 64 (taskVa d.d idx))).advance 1) := by
  have hp : ¬ ((s.pl.rg o.a = 0 || !(inHbmWindow (s.pl.rg o.a))) = true) := by
    rw [decide_eq_false h0, hw]
    decide
  change execSpawn o s = _
  unfold execSpawn
  dsimp only
  rw [if_pos hg, if_neg (fun h => h ha), if_neg hp, if_neg (by omega), hd]
  unfold State.spawnAt
  dsimp only
  rw [if_neg (by omega), hidx]
  exact congrArg _ (releaseOr_of_no_access (scp := 2) hacc hc _)

theorem exec_signal {s : State} {d : Vd} {o : A1} (hd : s.vd s.curVd = some d) (hg : s.pl.guard o.g = true) (hacc : s.pl.acc = [])
    (hc : 2 ≤ d.d.ceil.toNat) (ha : s.pl.rg o.a &&& 63 = 0) (hk : (s.keyOfVa s.curVd (s.pl.rg o.a).toNat).isSome = true) :
    exec (.signal o) s = .next ((s.sendDec none s.curVd (s.pl.rg o.a).toNat).advance 1) := by
  have hp : ¬ ((s.pl.rg o.a &&& 63 ≠ 0 || (s.keyOfVa s.curVd (s.pl.rg o.a).toNat).isNone) = true) := by
    rw [← Option.not_isSome, hk, ha]
    decide
  change execSignal o s = _
  unfold execSignal
  dsimp only
  rw [if_pos hg, hd]
  dsimp only
  rw [if_neg hp]
  exact congrArg _ (releaseOr_of_no_access (scp := 2) hacc hc _)

/-- SIGNAL sends its decrement and goes on. -/
theorem signal_ends (s : State) (va : Nat) : let t := (s.sendDec none s.curVd va).advance 1
    t.fr = { s.fr with decs := s.fr.decs ++ [{ vd := s.curVd, va := va, fin := none }] } ∧ t.pl.pc = s.nextPc 1 ∧ t.pl.regs = s.pl.regs ∧
      SameMemory s t ∧ t.vds = s.vds := by
  have hpl := State.pl_advance_of (s := s) (t := s.sendDec none s.curVd va) 1 rfl rfl rfl rfl rfl rfl fun _ => rfl
  refine ⟨rfl, by rw [hpl], by rw [hpl]; rfl, SameMemory.advance ⟨fun _ => rfl, fun _ _ => ⟨rfl, rfl, rfl⟩⟩ 1, rfl⟩

theorem exec_launch_read {s : State} {d : Vd} {o : DA} {a : Access} (hd : s.vd s.curVd = some d) (hg : s.pl.guard o.g = true)
    (hm : s.pl.mine AccKind.isDesc = some a) (hp : a.performed = true) : exec (.launch o) s = .next (s.launchRead o.d a d) := by
  change execLaunch o s = _
  unfold execLaunch
  dsimp only
  rw [if_pos hg, hm, hd]
  dsimp only
  rw [if_pos hp]

theorem launchRead_rejected {s u : State} {d : Vd} {a : Access} {code : Nat}
    (h : s.checkDesc s.curVd d.d (wordsOf (a.elems.flatMap (·.res)) 16) = (some code, u)) (r : BitVec 6) :
    s.launchRead r a d = (u.modPl fun x => (x.dropAccess a).wg r (BitVec.ofNat 64 (16777216 * code + 0xFFF))).advance 1 := by
  unfold State.launchRead
  simp only [h]
  rfl

theorem launchRead_accepted {s u : State} {d : Vd} {a : Access} {id : BitVec 12}
    (h : s.checkDesc s.curVd d.d (wordsOf (a.elems.flatMap (·.res)) 16) = (none, u)) (hacc : u.pl.acc = [a])
    (hc : (descScope (wordsOf (a.elems.flatMap (·.res)) 16)).toNat ≤ d.d.ceil.toNat) (hv : u.curVd = s.curVd)
    (hid : u.freeSweepId s.curVd = some id) (r : BitVec 6) : s.launchRead r a d =
      ((u.bump.modFr fun f => { f with sweeps := f.sweeps ++ [Sweep.fresh u.fr.nextSweep s.curVd id (wordsOf (a.elems.flatMap (·.res)) 16) .launch],
                                       nextSweep := u.fr.nextSweep + 1 }).modPl fun x =>
        (x.dropAccess a).wg r (BitVec.ofNat 64 id.toNat)).advance 1 := by
  have hw : launchWord 0 id = BitVec.ofNat 64 id.toNat := by rw [launchWord, Nat.mul_zero, Nat.zero_add]
  unfold State.launchRead
  dsimp only
  rw [h]
  dsimp only
  rw [underCeil_inside hc, hacc]
  simp only [List.filter_cons, bne_self_eq_false, Bool.false_and, Bool.false_eq_true, if_false, List.filter_nil, List.isEmpty_nil, if_true, hv,
    State.acceptSweep, hid, hw]
  rfl

theorem launch_align {s : State} {o : DA} (hg : s.pl.guard o.g = true) (hm : s.pl.mine AccKind.isDesc = none) (ha : s.pl.rg o.a &&& 63 ≠ 0) :
    exec (.launch o) s = .next (s.trap cALIGN (s.pl.rg o.a)) := by
  change execLaunch o s = _
  unfold execLaunch
  dsimp only
  rw [if_pos hg, hm]
  exact congrArg _ (if_pos ha)

/-- Bits 31 to 12 of a gate's operand are 0: it names a sweep of the own package. -/
theorem frgate_own {ga : Word} (h : ga &&& 0xFFFFF000#64 = 0) :
    ga &&& 0x7000F000#64 = 0 ∧ ga.getLsbD 31 = false ∧ Machine.fld ga 16 12 = 0 := by
  have hbit : ∀ i, 12 ≤ i → i < 32 → ga.getLsbD i = false := fun i h1 h2 => by
    have hi := congrArg (fun x : Word => x.getLsbD i) h
    have hm : (0xFFFFF000#64).getLsbD i = true := by
      interval_cases i <;> decide
    simpa [BitVec.getLsbD_and, hm] using hi
  refine ⟨?_, hbit 31 (by decide) (by decide), ?_⟩
  · have hsub : (0x7000F000#64) = 0xFFFFF000#64 &&& 0x7000F000#64 := by decide
    rw [hsub, ← BitVec.and_assoc, h]
    exact BitVec.zero_and
  · unfold Machine.fld
    have hz : ga.extractLsb' 16 12 = 0#12 := BitVec.eq_of_getLsbD_eq fun i hi => by
      rw [BitVec.getLsbD_extractLsb', hbit (16 + i) (by omega) (by omega)]
      simp
    rw [hz]
    rfl

theorem exec_frgate {s : State} {d : Vd} {o : Frgate} (hd : s.vd s.curVd = some d) (hg : s.pl.guard o.g = true) (hacc : s.pl.acc = [])
    (ha : s.pl.rg o.a &&& 0xFFFFF000#64 = 0) (hc : (s.sweepScope s.curVd ((s.pl.rg o.a).setWidth 12)).toNat ≤ d.d.ceil.toNat) :
    exec (.frgate o) s = .next ((s.gateAdd none s.curVd ((s.pl.rg o.a).setWidth 12) o.face.toNat (min (s.pl.rg o.b).toNat 65535)).advance 2) := by
  obtain ⟨h1, h2, h3⟩ := frgate_own ha
  have hp : ¬ ((s.pl.rg o.a &&& 0x7000F000#64 ≠ 0 || (!((s.pl.rg o.a).getLsbD 31) && Machine.fld (s.pl.rg o.a) 16 12 ≠ 0)) = true) := by
    rw [h1, h2, h3]
    decide
  change execFrgate o s = _
  unfold execFrgate
  dsimp only
  rw [if_pos hg, hd]
  dsimp only
  rw [if_neg hp, if_pos (by rw [h2]; rfl)]
  unfold State.gateHere
  dsimp only
  rw [underCeil_inside hc]
  exact congrArg _ (releaseThen_of_no_access hacc ..)

theorem gateAdd_stray {s : State} {v : Nat} {id : BitVec 12} {n : Nat} (h : s.sweep v id = none) (hn : n ≠ 0) (fin : Option Nat) (face : Nat) :
    s.gateAdd fin v id face n = s.count v 6 7 1 := by
  unfold State.gateAdd
  simp only [h, if_neg hn]

theorem gateAdd_running {s : State} {v : Nat} {id : BitVec 12} {n : Nat} {x : Sweep} (h : s.sweep v id = some x) (hr : x.st = .running)
    (hn : n ≠ 0) (fin : Option Nat) (face : Nat) : (s.gateAdd fin v id face n).fr.gadds = s.fr.gadds ++ (geoOf x.desc).dies.map fun e =>
      { key := x.key, fin := fin, vd := v, swid := id, die := e, face := face, amount := n } := by
  unfold State.gateAdd
  simp only [h, if_neg hn]
  rw [if_neg (by rw [hr]; decide)]
  rfl

/-- Settles O34: with nothing outstanding and the ceiling not below, the release of each is passed at once. -/
theorem taskCreation : Obligations.TaskCreation := by
  intro s d hd
  refine ⟨fun o idx hg hacc hc => ?_, fun o hg hacc hc ha hk => ?_, fun o a u hg hm hp => ?_, fun o hg hm ha => trapsAt (launch_align hg hm ha),
    fun o hg hacc => ?_⟩
  · intro ga gb ha h0 hw hb hrows hidx t
    refine ⟨⟨_, exec_spawn hd hg hacc hc ha h0 hw hb hrows hidx, rfl⟩, rfl, rfl, rfl, ?_, rfl⟩
    exact if_congr Int.natCast_eq_zero rfl rfl
  · exact ⟨_, exec_signal hd hg hacc hc ha hk, signal_ends s _⟩
  · intro desc
    have hexec := exec_launch_read (o := o) hd hg hm hp
    exact ⟨fun code h => ⟨_, hexec.trans (congrArg _ (launchRead_rejected h o.d)), rfl⟩,
      fun id h hacc hc hv hid => ⟨_, hexec.trans (congrArg _ (launchRead_accepted h hacc hc hv hid o.d)), rfl⟩⟩
  · intro ga id n ha hc
    refine ⟨_, exec_frgate hd hg hacc ha hc, rfl, fun hx hn => ?_, fun x hx hr hn => ?_⟩
    · rw [gateAdd_stray hx hn]
      exact (counter_congr (s := s.count s.curVd 6 7 1) rfl (by decide) (by decide)).trans (counter_count hd (by decide) (by decide) 1)
    · exact gateAdd_running hx hr hn none o.face.toNat

end Sys2Proof.Claims

/-! ## Planes that are freed, suspensions and exits (spec/02_execution_model.md R24, spec/20_ref_s_t.md R403, spec/18_ref_d_l.md R347) -/

namespace Sys2Proof.Machine

/-- Walks of a die that start change its walks and counters. -/
theorem State.startWalks_frame (s : State) (die : Nat) : ∃ ds vs, s.startWalks die = { s with dies := ds, vds := vs } := by
  unfold State.startWalks
  obtain ⟨vs, h⟩ := State.foldl_vds (g := fun s (w : Walk) => s.count w.vd 3 1 1) (fun _ _ => ⟨_, rfl⟩)
    (((s.die die).walks.take 64).filter fun w => !w.counted) s
  dsimp only
  rw [h]
  exact ⟨_, vs, rfl⟩

theorem State.dropWalks_frame (s : State) (die : Nat) : ∃ ds vs, s.dropWalks die = { s with dies := ds, vds := vs } := by
  unfold State.dropWalks
  split
  · exact ⟨s.dies, s.vds, rfl⟩
  · obtain ⟨ds, vs, h⟩ := State.startWalks_frame (s.modDie die fun d => { d with walks := d.walks.filter (s.walkWanted die) }) die
    exact ⟨ds, vs, h⟩

/-- A plane that is freed is as at reset, but for the numbers of its accesses. -/
theorem State.plane_freePlane (s : State) (c : Nat) (p : BitVec 1) :
    (s.freePlane c p).plane c p = { Plane.reset with nextId := (s.plane c p).nextId } := by
  obtain ⟨ds, vs, h⟩ := State.dropWalks_frame (s.modPlane c p fun x => { Plane.reset with nextId := x.nextId }) (dieOf c)
  unfold State.freePlane
  rw [h]
  exact State.plane_modPlane s c p fun x => { Plane.reset with nextId := x.nextId }

theorem State.suspendTo_eq {s u : State} {c : Nat} {p : BitVec 1} {key : Nat} {next : Word} (hk : (s.plane c p).task = some key)
    (hw : (s.applyInc key).writeRecord key next (s.plane c p).carried = (true, u)) : s.suspendTo c p next = u.freePlane c p := by
  unfold State.suspendTo
  simp only [hk, hw]

/-- An increment raises a task's counter; it is READY at 0 or below, else WAITING (R25). -/
theorem State.task_applyInc {s : State} {key : Nat} {x : Task} (hx : s.task key = some x) : ∃ y, (s.applyInc key).task key = some y ∧
    y.dcnt = x.dcnt + 1 ∧ y.state = if x.dcnt + 1 ≤ 0 then .ready else .waiting := by
  have hwait : (s.modTask key fun t => { t with dcnt := t.dcnt + 1, state := .waiting }).task key =
      some { x with dcnt := x.dcnt + 1, state := .waiting } := by rw [State.task_modTask_same, hx]; rfl
  unfold State.applyInc
  simp only [hx]
  by_cases h : x.dcnt + 1 ≤ 0
  · rw [if_pos h, if_pos h]
    refine ⟨_, (State.task_modTask_same ..).trans (congrArg (Option.map _) hwait), rfl, rfl⟩
  · rw [if_neg h, if_neg h]
    exact ⟨_, hwait, rfl, rfl⟩

end Sys2Proof.Machine

namespace Sys2Proof.Claims

open Sys2Proof.Machine

theorem inLoop_outside {s : State} {g : BitVec 4} (hg : s.pl.guard g = true) (hl : s.pl.loop.act = false) (i : Instr) (act : State → State) :
    s.inLoop i g act = act s := by
  unfold State.inLoop
  rw [if_neg (guard_ne_eight hg), if_neg (by rw [hl]; exact Bool.false_ne_true), if_pos hg]

theorem inLoop_inside {s : State} {g : BitVec 4} (hg : g ≠ 8) (hl : s.pl.loop.act = true) (i : Instr) (act : State → State) :
    s.inLoop i g act = s.trap cILLEGAL (word0Of i) := by
  unfold State.inLoop
  rw [if_neg hg, if_pos hl]

theorem exec_susp {s : State} {o : G0} (hg : s.pl.guard o.g = true) (hl : s.pl.loop.act = false) : exec (.susp o) s =
    .next (if s.pl.oc.zero then s.suspendTo s.fc s.fp (s.nextPc 1) else s.holdOn (.counts 0 0 0 0)) :=
  congrArg _ (inLoop_outside hg hl ..)

theorem susp_in_loop {s : State} {o : G0} (hg : o.g ≠ 8) (hl : s.pl.loop.act = true) :
    exec (.susp o) s = .next (s.trap cILLEGAL (word0Of (.susp o))) := congrArg Host.Outcome.next (inLoop_inside hg hl ..)

theorem exec_exit {s : State} {o : G0} {key : Nat} {x : Task} (hg : s.pl.guard o.g = true) (hk : s.pl.task = some key)
    (hx : s.curTask = some x) : exec (.exit o) s = .next (if s.pl.oc.zero then s.exitTask key x else s.holdOn (.counts 0 0 0 0)) := by
  change execExit o s = _
  unfold execExit
  rw [if_pos hg, hk, hx]

/-- The last of EXIT's steps frees the plane. -/
theorem exitTask_frees (s : State) (key : Nat) (x : Task) : ∃ u : State, s.exitTask key x = u.freePlane s.fc s.fp := by
  have hfp := State.fp_modPl s fun p => { p with loop := p.loop.stop }
  unfold State.exitTask
  dsimp only
  rw [hfp]
  exact ⟨_, rfl⟩

theorem holdOn_ends {i : Instr} {s : State} {h : Hold} (hi : exec i s = .next (s.holdOn h)) :
    ∃ t, exec i s = .next t ∧ t.pl.hold = some h ∧ t.pl.pc = s.pl.pc := by
  have hpl := State.pl_holdOn s h
  exact ⟨_, hi, by rw [hpl], by rw [hpl]⟩

/-- Settles O35: with every count 0 both end in `freePlane`. -/
theorem taskLeaves : Obligations.TaskLeaves := by
  intro s o hg
  refine ⟨fun key u hl hz hk hw => ?_, fun key x hx => ?_, fun hl hg8 => ⟨_, _, susp_in_loop hg8 hl, rfl, traps_trap s _ _⟩,
    fun hz hl => holdOn_ends ?_, fun key x hk hx hz => ?_, fun key x hk hx hz => holdOn_ends ?_⟩
  · have hexec := exec_susp hg hl
    rw [if_pos hz, State.suspendTo_eq hk hw] at hexec
    exact ⟨_, hexec, rfl, _, State.plane_freePlane u s.fc s.fp⟩
  · obtain ⟨y, hy, hd, hst⟩ := State.task_applyInc hx
    rw [hy, Option.map_some, hd, hst]
    by_cases h : x.dcnt + 1 ≤ 0
    · have h' : ¬ 0 < x.dcnt + 1 := by omega
      simp [h, h']
    · have h' : 0 < x.dcnt + 1 := by omega
      simp [h, h']
  · rw [exec_susp hg hl, hz]
    rfl
  · have hexec := exec_exit hg hk hx
    obtain ⟨u, hu⟩ := exitTask_frees s key x
    rw [if_pos hz, hu] at hexec
    exact ⟨_, _, u, hexec, rfl, State.plane_freePlane u s.fc s.fp⟩
  · rw [exec_exit hg hk hx, hz]
    rfl

end Sys2Proof.Claims

/-! ## FGET and FPUT (spec/18_ref_d_l.md R350, R352) -/

namespace Sys2Proof.Claims

open Sys2Proof.Machine

theorem clipped_inside {s : State} {v : Nat} {d : Vd} {scp : BitVec 3} (hd : s.vd v = some d) (h : scp.toNat ≤ d.d.ceil.toNat) :
    s.clipped v scp = s := by
  unfold State.clipped
  simp only [hd]
  rw [if_neg (by omega)]

theorem exec_fget_performed {s : State} {o : DA} {a : Access} (hg : s.pl.guard o.g = true) (hl : s.pl.loop.act = false)
    (hm : s.pl.mine AccKind.isFget = some a) (hp : a.performed = true) :
    exec (.fget o) s = .next (s.fgetDone o.d (s.pl.rg o.a) a) := by
  refine congrArg Host.Outcome.next ((inLoop_outside hg hl _ _).trans ?_)
  simp only [hm, hp, if_true]

section Fget

variable {s : State} {a : Access} {e : Elem} (hes : a.elems = [e])

include hes

theorem fgetDone_full {d : Vd} {fa : Word} (hd : s.vd s.curVd = some d) (hfull : leNat ((e.res.drop 8).take 8) ≠ 0)
    (hc : (s.futureScope fa).toNat ≤ d.d.ceil.toNat) (r : BitVec 6) :
    s.fgetDone r fa a = (s.modPl fun x => (x.dropAccess a).wg r (leWord (e.res.take 8))).advance 1 := by
  unfold State.fgetDone
  rw [hes]
  refine (if_pos hfull).trans ?_
  rw [clipped_inside hd hc]
  rfl

theorem fgetDone_far {fa : Word} (hempty : leNat ((e.res.drop 8).take 8) = 0) (hloc : ∀ x, e.loc ≠ some (.hbm x)) (r : BitVec 6) :
    s.fgetDone r fa a = (s.modPl fun x => x.dropAccess a).trap cATOMIC (fa ||| 1) := by
  unfold State.fgetDone
  rw [hes]
  refine (if_neg fun h => h hempty).trans (if_pos ?_)
  dsimp only [List.head?_cons, Option.bind_some]
  split
  · rename_i x hx
    exact absurd hx (hloc x)
  · rfl

theorem fgetDone_own {fa : Word} {x : Nat} (hempty : leNat ((e.res.drop 8).take 8) = 0) (hloc : e.loc = some (.hbm x)) (r : BitVec 6) :
    s.fgetDone r fa a = if e.res.getD 16 0 = 2#8 then (s.modPl fun x => x.dropAccess a).trap cATOMIC (fa ||| 2)
      else if s.pl.oc.zero then s.suspendTo s.fc s.fp s.pl.pc else s.holdOn (.counts 0 0 0 0) := by
  unfold State.fgetDone
  rw [hes]
  refine (if_neg fun h => h hempty).trans (if_neg ?_)
  dsimp only [List.head?_cons, Option.bind_some]
  rw [hloc]
  exact Bool.false_ne_true

end Fget

/-- A trap after an access has been dropped. -/
theorem trap_dropped (s : State) (a : Access) (code : Nat) (v : Word) : (s.modPl fun x => x.dropAccess a).trap code v =
    (s.modPl fun x => x.dropAccess a).takeTrap s.fc s.fp (preciseInfo s code s.pl.pc v s.pl.pc) := by
  have hpl : (s.modPl fun x => x.dropAccess a).pl.pc = s.pl.pc := by rw [State.pl_modPl]; rfl
  have hfp := State.fp_modPl s fun x => x.dropAccess a
  unfold State.trap State.trapAt
  rw [hpl, hfp]
  rfl

/-- The end of an instruction whose access has performed and which writes nothing. -/
theorem dropDone (s : State) (a : Access) : let t := (s.modPl fun x => x.dropAccess a).advance 1
    OnlyPlane s t ∧ SameMemory s t ∧ t.pl.pc = s.nextPc 1 ∧ t.pl.regs = s.pl.regs ∧ t.pl.acc = s.pl.acc.filter fun b => b.id != a.id := by
  obtain ⟨hplane, hmem, hpc, hacc, -⟩ := shareDone s a 0 0
  have hregs := congrArg Plane.regs (State.pl_modPl_advance s (fun x => x.dropAccess a) 1 rfl rfl rfl)
  exact ⟨hplane, hmem, hpc, hregs, hacc⟩

theorem fget_align {s : State} {o : DA} (hg : s.pl.guard o.g = true) (hl : s.pl.loop.act = false) (hm : s.pl.mine AccKind.isFget = none)
    (ha : s.pl.rg o.a &&& 15 ≠ 0) : exec (.fget o) s = .next (s.trap cALIGN (s.pl.rg o.a)) := by
  refine congrArg Host.Outcome.next ((inLoop_outside hg hl _ _).trans ?_)
  simp only [hm]
  exact if_pos ha

theorem exec_fput_performed {s : State} {o : Fput} {a : Access} (hg : s.pl.guard o.g = true) (hm : s.pl.mine AccKind.isFput = some a)
    (hp : a.performed = true) : exec (.fput o) s = .next ((s.modPl fun x => x.dropAccess a).advance 1) := by
  refine congrArg Host.Outcome.next ((if_pos hg).trans ?_)
  simp only [hm, hp, if_true]

theorem exec_fput_none {s : State} {o : Fput} (hg : s.pl.guard o.g = true) (hm : s.pl.mine AccKind.isFput = none) : exec (.fput o) s =
    .next (if s.pl.rg o.a &&& 15#64 ≠ 0#64 then s.trap cALIGN (s.pl.rg o.a) else s.doAccess 1 .fput 0 2 (s.futureScope (s.pl.rg o.a)) none futurePlace
      (if isHost (s.pl.rg o.a) then [mkElem 0 [0] (s.pl.rg o.a) 8 (lowMask 8) (wordBytes (s.pl.rg o.b)),
          mkElem 1 [1] (s.pl.rg o.a + 8) 8 (lowMask 8) (wordBytes 1)]
        else [mkElem 0 [0] (s.pl.rg o.a) 16 (lowMask 16) (wordBytes (s.pl.rg o.b) ++ wordBytes 1)])) := by
  refine congrArg Host.Outcome.next ((if_pos hg).trans ?_)
  simp only [hm]
  rfl

/-- Settles O36, by what a performed FGET's bytes say. -/
theorem futures : Obligations.Futures := by
  intro s d hd hl
  refine ⟨fun o a e hg _ hm hp hes => ?_, fun o hg _ hm ha => trapsAt (fget_align hg hl hm ha),
    fun o a hg hm hp => ⟨_, exec_fput_performed hg hm hp, dropDone s a⟩, fun o hg hm => ⟨fun ha => trapsAt ?_, fun ha hh => ?_⟩⟩
  · intro fa
    have hexec := exec_fget_performed hg hl hm hp
    refine ⟨fun hfull hc => ⟨_, hexec.trans (congrArg _ (fgetDone_full hes hd hfull hc o.d)), shareDone s a o.d _⟩,
      fun hempty hloc => ⟨_, hexec.trans (congrArg _ (fgetDone_far hes hempty hloc o.d)), trap_dropped ..⟩, fun hempty x hloc => ?_⟩
    rw [fgetDone_own hes hempty hloc] at hexec
    refine ⟨fun h2 => ⟨_, hexec.trans (congrArg _ (if_pos h2)), trap_dropped ..⟩, fun h2 hz => ?_, fun h2 hz => ?_⟩
    · rw [hexec, if_neg h2, if_pos hz]
    · rw [hexec, if_neg h2, if_neg (by rw [hz]; exact Bool.false_ne_true)]
  · rw [exec_fput_none hg hm, if_pos ha]
    rfl
  · rw [exec_fput_none hg hm, if_neg (fun h => h ha), if_neg (by rw [hh]; exact Bool.false_ne_true)]

end Sys2Proof.Claims

/-! ## RETT, XINV and LSINV (spec/19_ref_m_r.md R388, spec/22_ref_vn_x.md R452, spec/05_core.md R100) -/

namespace Sys2Proof.Machine

theorem tget_tmap {α : Type} (t : Table α) (f : Nat → α → α) (k : Nat) : tget (tmap t f) k = (tget t k).map (f k) := by
  induction t with
  | nil => rfl
  | cons e t ih =>
    obtain ⟨j, v⟩ := e
    unfold tmap at ih ⊢
    rw [List.map_cons, tget, tget]
    by_cases hj : j = k
    · subst hj
      simp
    · rw [if_neg hj, if_neg hj]
      by_cases hk : k < j
      · rw [if_pos hk, if_pos hk]
        rfl
      · rw [if_neg hk, if_neg hk, ih]

/-- A change of every core that leaves a core at reset as it is. -/
theorem State.core_tmap {s t : State} {f : Core → Core} (h : t.cores = tmap s.cores fun _ k => f k) (hf : f Core.reset = Core.reset) (c : Nat) :
    t.core c = f (s.core c) := by
  unfold State.core tgetD
  rw [h, tget_tmap]
  cases tget s.cores c with
  | none => exact hf.symm
  | some k => rfl

/-- A core of the table after the executing plane went on: the same table but for that plane. -/
theorem State.tget_cores_advance {s : State} {n c : Nat} {k : Core} (h : tget (s.advance n).cores c = some k) :
    (c = s.fc ∧ k = (s.core s.fc).setPlane s.fp ((s.advance n).pl)) ∨ (c ≠ s.fc ∧ tget s.cores c = some k) := by
  have hcores : (s.advance n).cores = tset s.cores s.fc ((s.core s.fc).setPlane s.fp (s.advance n).pl) := by
    rw [State.advance_eq, State.pl_modPl]
    rfl
  rw [hcores] at h
  by_cases hc : c = s.fc
  · subst hc
    rw [tget_tset_same] at h
    exact .inl ⟨rfl, (Option.some.inj h).symm⟩
  · rw [tget_tset_ne _ _ hc] at h
    exact .inr ⟨hc, h⟩

end Sys2Proof.Machine

namespace Sys2Proof.Claims

open Sys2Proof.Machine

theorem smodeOnly_priv {s : State} {g : BitVec 4} (hg : g ≠ 8) (hs : s.pl.sr.smode = false) (i : Instr) (act : State → State) :
    s.smodeOnly i g act = s.trap cPRIV (word0Of i) := by
  unfold State.smodeOnly
  rw [if_neg hg, hs]
  rfl

theorem smodeOnly_act {s : State} {g : BitVec 4} (hg : g ≠ 8) (hs : s.pl.sr.smode = true) (hp : s.pl.guard g = true) (i : Instr)
    (act : State → State) : s.smodeOnly i g act = act s := by
  unfold State.smodeOnly
  rw [if_neg hg, hs, if_pos hp]
  rfl

theorem rett_priv {s : State} {o : AMode} (hg : o.g ≠ 8) (hs : s.pl.sr.smode = false) :
    exec (.rett o) s = .next (s.trap cPRIV (word0Of (.rett o))) := congrArg Host.Outcome.next (smodeOnly_priv hg hs ..)

theorem xinv_priv {s : State} {o : AMode} (hg : o.g ≠ 8) (hs : s.pl.sr.smode = false) :
    exec (.xinv o) s = .next (s.trap cPRIV (word0Of (.xinv o))) := congrArg Host.Outcome.next (smodeOnly_priv hg hs ..)

theorem exec_rett {s : State} {o : AMode} {t : Task} (hg : o.g ≠ 8) (hp : s.pl.guard o.g = true) (hs : s.pl.sr.smode = true)
    (ht : s.curTask = some t) : exec (.rett o) s = .next (if s.ownRecord t != some (s.pl.rg o.a) then s.trap cILLEGAL (s.pl.rg o.a)
      else if s.pl.oc.zero then s.returnFrom (o.mode == 1) else s.holdOn (.counts 0 0 0 0)) := by
  refine congrArg Host.Outcome.next ((smodeOnly_act hg hs hp _ _).trans ?_)
  rw [ht]

/-- The state without a VD's cached translations (R249). -/
def forgotten (s : State) : State := (s.tcInval s.curVd fun _ => true).walksNoFill fun w => w.vd == s.curVd

/-- A core without a VD's cached translations. -/
def Core.forget (v : Nat) (k : Core) : Core := { k with tc := k.tc.filter fun e => !(e.vd == v && true) }

theorem core_forgotten (s : State) (c : Nat) : (forgotten s).core c = Core.forget s.curVd (s.core c) :=
  State.core_tmap (s := s) (t := forgotten s) (f := Core.forget s.curVd) rfl rfl c

theorem pl_forgotten_advance (s : State) (n : Nat) : ((forgotten s).advance n).pl =
    { s.pl with pc := s.nextPc n, loop := (s.pl.pass (s.lineAt s.fc s.fp) n).loop, hold := none } := by
  have hfp : (forgotten s).fp = s.fp := by
    change ((forgotten s).core s.fc).act = _
    rw [core_forgotten]
    rfl
  have hpl : (forgotten s).pl = s.pl := by
    change (forgotten s).plane s.fc (forgotten s).fp = _
    rw [hfp, State.plane, core_forgotten]
    rfl
  have hl : ((forgotten s).core s.fc).lines = (s.core s.fc).lines := by rw [core_forgotten]; rfl
  rw [State.pl_advance_of (s := s) (t := forgotten s) n rfl hfp hl (by rw [hpl]) (by rw [hpl]) (by rw [hpl]) fun _ => rfl, hpl]

theorem exec_xinv_all {s : State} {o : AMode} (hg : o.g ≠ 8) (hp : s.pl.guard o.g = true) (hs : s.pl.sr.smode = true) (hacc : s.pl.acc = [])
    (hh : s.pl.hold = none) (hm : o.mode = 1) (hu : (forgotten s).usersOf s.curVd (fun _ => true) = []) :
    exec (.xinv o) s = .next ((forgotten s).advance 1) := by
  have hall : (o.mode == 1) = true := by rw [hm]; rfl
  have hwalk : (fun w : Walk => w.vd == s.curVd && true) = fun w => w.vd == s.curVd := funext fun w => Bool.and_true _
  refine congrArg Host.Outcome.next ((smodeOnly_act hg hs hp _ _).trans ?_)
  rw [hall]
  unfold State.xinv
  rw [hh, hacc]
  change (if (((s.tcInval s.curVd fun _ => true).walksNoFill fun w : Walk => w.vd == s.curVd && true).usersOf s.curVd (fun _ => true)).isEmpty
    then State.advance ((s.tcInval s.curVd fun _ => true).walksNoFill fun w : Walk => w.vd == s.curVd && true) 1 else _) = _
  rw [hwalk]
  exact if_pos (by rw [show ((s.tcInval s.curVd fun _ => true).walksNoFill fun w => w.vd == s.curVd) = forgotten s from rfl, hu]; rfl)

/-- No cached translation of the VD is left. -/
theorem tc_forgotten_advance {s : State} {n c : Nat} {k : Core} (h : tget ((forgotten s).advance n).cores c = some k) :
    ∀ e ∈ k.tc, e.vd ≠ s.curVd := by
  have hforget : ∀ (l : Core), ∀ e ∈ (Core.forget s.curVd l).tc, e.vd ≠ s.curVd := fun l e he => by
    simpa using (List.mem_filter.mp he).2
  rcases State.tget_cores_advance h with ⟨-, rfl⟩ | ⟨-, hk⟩
  · rw [Core.setPlane_tc, core_forgotten]
    exact hforget _
  · have hmap : tget (forgotten s).cores c = (tget s.cores c).map (Core.forget s.curVd) := tget_tmap s.cores (fun _ => Core.forget s.curVd) c
    rw [hmap] at hk
    obtain ⟨l, -, rfl⟩ := Option.map_eq_some_iff.mp hk
    exact hforget l

theorem exec_lsinv {s : State} {o : Lsi} (hg : s.pl.guard o.g = true) (hacc : s.pl.acc = []) :
    exec (.lsinv o) s = .next ((s.advance 1).dropLine s.curVd (s.pl.rg o.d &&& 0xFFFFFFFFFFC0#64)) := by
  refine congrArg Host.Outcome.next ((if_pos hg).trans ?_)
  rw [hacc]
  rfl

/-- A core without a line of a VD. -/
def Core.without (v : Nat) (line : Word) (k : Core) : Core := { k with lines := k.lines.filter fun l => !(l.vd == v && l.addr == line) }

theorem core_dropLine (s : State) (v : Nat) (line : Word) (c : Nat) : (s.dropLine v line).core c = Core.without v line (s.core c) :=
  State.core_tmap (s := s) (t := s.dropLine v line) (f := Core.without v line) rfl rfl c

theorem pl_dropLine (s : State) (v : Nat) (line : Word) : (s.dropLine v line).pl = s.pl := by
  have hfp : (s.dropLine v line).fp = s.fp := by
    change ((s.dropLine v line).core s.fc).act = _
    rw [core_dropLine]
    rfl
  change (s.dropLine v line).plane s.fc (s.dropLine v line).fp = _
  rw [hfp, State.plane, core_dropLine]
  rfl

theorem sameMemory_dropLine {s t : State} (h : SameMemory s t) (v : Nat) (line : Word) : SameMemory s (t.dropLine v line) := by
  obtain ⟨hh, hc⟩ := h
  refine ⟨fun a => hh a, fun c a => ?_⟩
  rw [core_dropLine]
  exact hc c a

theorem mem_without {v : Nat} {line : Word} {k : Core} {l : Line} :
    l ∈ (Core.without v line k).lines ↔ l ∈ k.lines ∧ ¬ (l.vd = v ∧ l.addr = line) := by
  unfold Core.without
  rw [List.mem_filter]
  simp only [Bool.not_eq_true', Bool.and_eq_false_iff, beq_eq_false_iff_ne, ne_eq, not_and_or]

theorem tget_dropLine (s : State) (v : Nat) (line : Word) (c : Nat) :
    tget (s.dropLine v line).cores c = (tget s.cores c).map (Core.without v line) := tget_tmap s.cores (fun _ => Core.without v line) c

/-- A core keeps its lines as the executing plane goes on. -/
theorem lines_advance {s : State} {n c : Nat} {k : Core} (h : tget s.cores c = some k) :
    ∃ k', tget (s.advance n).cores c = some k' ∧ k'.lines = k.lines := by
  by_cases hc : c = s.fc
  · subst hc
    have hk : s.core s.fc = k := by rw [State.core, tgetD, h]; rfl
    refine ⟨_, tget_tset_same .., ?_⟩
    rw [Core.setPlane_lines, hk]
  · exact ⟨k, (tget_tset_ne _ _ hc).trans h, rfl⟩

/-- Settles O37: what leaves the caches is what `tmap` filters out of each core. -/
theorem returnsAndInvalidations : Obligations.ReturnsAndInvalidations := by
  intro s
  refine ⟨fun o hg hs => ⟨⟨_, _, rett_priv hg hs, rfl, traps_trap s _ _⟩, _, _, xinv_priv hg hs, rfl, traps_trap s _ _⟩,
    fun o t hg hp hs ht => ?_, fun o hg hp hs hacc hh hm => ?_, fun o hg hacc => ?_⟩
  · have hexec := exec_rett hg hp hs ht
    refine ⟨fun hr => trapsAt (hexec.trans (congrArg _ (if_pos (bne_iff_ne.mpr hr)))), fun hr hz => ?_, fun hr hz => ?_⟩
    · rw [hexec, if_neg (by rw [hr]; simp), if_neg (by rw [hz]; exact Bool.false_ne_true)]
    · rw [hexec, if_neg (by rw [hr]; simp), if_pos hz]
  · intro u hu
    exact ⟨_, exec_xinv_all hg hp hs hacc hh hm hu, rfl, by rw [pl_forgotten_advance], by rw [pl_forgotten_advance],
      fun c k h => tc_forgotten_advance h⟩
  · intro line
    have hpl := State.pl_advance_of (s := s) (t := s) 1 rfl rfl rfl rfl rfl rfl fun _ => rfl
    refine ⟨_, exec_lsinv hg hacc, sameMemory_dropLine (SameMemory.advance ⟨fun _ => rfl, fun _ _ => ⟨rfl, rfl, rfl⟩⟩ 1) _ _,
      by rw [pl_dropLine, hpl], by rw [pl_dropLine, hpl], by rw [pl_dropLine, hpl], fun c k hk l hl => ?_, fun c k hk l hl hne => ?_⟩
    · rw [tget_dropLine] at hk
      obtain ⟨k', -, rfl⟩ := Option.map_eq_some_iff.mp hk
      exact (mem_without.mp hl).2
    · obtain ⟨k', hk', hlines⟩ := lines_advance (n := 1) hk
      refine ⟨_, (tget_dropLine ..).trans (congrArg _ hk'), mem_without.mpr ⟨by rw [hlines]; exact hl, hne⟩⟩

end Sys2Proof.Claims

/-! ## Taking a trap (spec/14_traps_preemption.md R275, R276, R279) -/

namespace Sys2Proof.Claims

open Sys2Proof.Machine

theorem takeTrap_waits {s : State} {c : Nat} {p : BitVec 1} {i : TrapInfo} : s.takeTrap c p i =
    let u := s.modPlane c p fun x =>
      { x with sr := { x.sr with cause := i.cause, epc := i.epc, tval := i.tval }, trap := some i, hold := none, park := none }
    if (s.plane c p).oc.zero then u.finishTrap c p else u := by
  unfold State.takeTrap
  dsimp only
  rw [State.plane_modPlane]

section Finish

variable {s : State} {c : Nat} {p : BitVec 1} {i : TrapInfo} {key : Nat} {t : Task} {d : Vd} (hi : (s.plane c p).trap = some i)
  (hk : (s.plane c p).task = some key) (ht : s.task key = some t) (hd : s.vd t.vd = some d)

include hi hk ht hd

theorem finishTrap_double (h : s.pick (s.freePairs t.vd d) = none ∨ s.freeKept t.vd d = none) :
    s.finishTrap c p = s.raiseHalt t.vd 2 i.cause := by
  unfold State.finishTrap
  simp only [hi, hk, Option.bind_some, ht, hd]
  rcases h with h | h
  · simp only [h]
    rfl
  · simp only [h]
    cases s.pick (s.freePairs t.vd d) <;> rfl

/-- The trap task of pair `k` (R275). -/
def trapTask (x : Plane) (t : Task) (d : Vd) (i : TrapInfo) (k : Nat) : Task :=
  { Task.fresh t.vd (d.d.poolCount - 16 + k) 2 3 0 t.home 0xFFF#12 x.sr.point t.rows with
    record := some k, trapped := some (taskKey t.vd t.idx), trapSr := (i.cause, i.epc, i.tval) }

/-- A task with nothing of its parking left. -/
def unparked (t : Task) : Task :=
  { t with more := none, requeued := false, parkAt := none, parkWords := 0, kept := none, lanes := [] }

theorem finishTrap_delivered {k n : Nat} {u v : State} (hpair : s.pick (s.freePairs t.vd d) = some k) (hslot : s.freeKept t.vd d = some n)
    (hc : i.cause.getLsbD 8 = false)
    (hspill : (s.bump.modTask (taskKey t.vd t.idx) unparked).spillTo c p n i.resume = (none, u))
    (hrec : u.quietWrite t.vd (d.d.tra + 64 * k) ((trapWords i (taskVa d.d t.idx) c n).flatMap wordBytes) = (none, v)) :
    s.finishTrap c p = (v.createTask (trapTask (s.plane c p) t d i k) (BitVec.ofNat 64 (d.d.tvec + 4))
      [BitVec.ofNat 64 (d.d.tra + 64 * k), 0, 0, 0, 0]).count t.vd 5 0 1 := by
  unfold unparked at hspill
  unfold State.finishTrap
  simp only [hi, hk, Option.bind_some, ht, hd, hpair, hslot, hc, Bool.false_eq_true, if_false, hspill, hrec]
  rfl

end Finish

/-- Settles O38, by the steps of `finishTrap`. -/
theorem trapTaken : Obligations.TrapTaken := by
  intro s c p i u
  refine ⟨fun hz => ?_, fun hz => ?_, fun key t d hi hk ht hd => ⟨fun h => finishTrap_double hi hk ht hd h,
    fun k n u v hpair hslot hc hspill hrec => ?_⟩⟩
  · exact takeTrap_waits.trans (if_neg (by rw [hz]; exact Bool.false_ne_true))
  · exact takeTrap_waits.trans (if_pos hz)
  · exact ⟨trapTask (s.plane c p) t d i k, rfl, rfl, rfl, rfl, rfl, rfl, rfl, rfl, rfl,
      finishTrap_delivered hi hk ht hd hpair hslot hc hspill hrec⟩

end Sys2Proof.Claims

/-! ## The frontier units' events (spec/03_frontier.md R43 to R51, spec/02_execution_model.md R15, R25) -/

namespace Sys2Proof.Claims

open Sys2Proof.Machine

/-- A state whose cores and HBM are the same has the same memory. -/
theorem sameMemory_of_cores {s t : State} (hc : t.cores = s.cores) (hh : t.hbm = s.hbm) : SameMemory s t := by
  refine ⟨fun a => by rw [hh], fun c a => ?_⟩
  rw [State.core, hc]
  exact ⟨rfl, rfl, rfl⟩

theorem exec_pointFire {s : State} {die : BitVec 3} {x : Sweep} {c q : Nat} (h : s.fireTurn die.toNat = some (x, c, q)) :
    exec (.pointFire die) s = .next (s.firePoint die.toNat x c q) := by
  change execPointFire die s = _
  unfold execPointFire
  rw [h]

theorem exec_pointFire_none {s : State} {die : BitVec 3} (h : s.fireTurn die.toNat = none) : exec (.pointFire die) s = .next s := by
  change execPointFire die s = _
  unfold execPointFire
  rw [h]

/-- A sweep without a chain template books nothing. -/
theorem fireBooking_none {s : State} {x : Sweep} (h : x.desc.getD 5 0 = 0) (d : VdDef) (die key : Nat) : s.fireBooking x d die key = (0, s) := by
  rw [State.fireBooking, if_pos h]

/-- The task of a fired point. -/
def pointTask (x : Sweep) (c q idx die : Nat) : Task :=
  Task.fresh x.vd idx 0 (descPri x.desc) 0 die x.swid (pointWord ((geoOf x.desc).pointOf c q)) (Machine.fld (x.desc.getD 4 0) 48 8)

/-- The state of the frontier unit with a point's bit set and its sweep as the one fired last. -/
def firedAt (s : State) (die : Nat) (x : Sweep) (c q : Nat) : State :=
  let k := tgetD x.cols c Col.reset
  let u := s.bump.modSweep x.vd x.swid fun x => { x with cols := tset x.cols c { k with i := k.i ||| (1#33 <<< (q - k.h)) } }
  { u with dies := tset u.dies die { tgetD u.dies die Die.reset with lastFired := some (x.vd, x.swid.toNat) } }

theorem firePoint_eq {s : State} {die c q idx : Nat} {x : Sweep} {d : Vd} (hd : s.vd x.vd = some d) (hidx : s.freeIdx x.vd d = some idx)
    (ht : x.desc.getD 5 0 = 0) : s.firePoint die x c q =
      ((firedAt s die x c q).clipped x.vd (descScope x.desc)).createTask (pointTask x c q idx die)
        (((x.desc.getD 4 0).extractLsb' 0 48).setWidth 64 + 4) ((List.range 5).map fun i => x.desc.getD (8 + i) 0) := by
  unfold State.firePoint
  simp only [hd, hidx, fireBooking_none ht]
  rfl

theorem exec_edgeMessage {s : State} {i : Nat} {e : Edge} (he : s.fr.edges[i]? = some e) : exec (.edgeMessage i) s =
    .next (if (s.fr.edges.take i).any fun x => x.src == e.src && x.dst == e.dst then s
      else (s.modFr fun f => { f with edges := dropAt f.edges i }).modSweepKey e.key fun x =>
        { x with ghosts := tset x.ghosts (65536 * e.dst + e.col) { h := e.h, w := e.w, i := 0 } }) := by
  change execEdgeMessage i s = _
  unfold execEdgeMessage
  rw [he]

/-- An earlier message on the same way is in flight. -/
theorem any_take_iff (es : List Edge) (i : Nat) (e : Edge) : ((es.take i).any fun x => x.src == e.src && x.dst == e.dst) = true ↔
    ∃ (j : Nat) (y : Edge), j < i ∧ es[j]? = some y ∧ y.src = e.src ∧ y.dst = e.dst := by
  rw [List.any_eq_true]
  constructor
  · rintro ⟨y, hy, hm⟩
    obtain ⟨j, hj, hget⟩ := List.mem_iff_getElem.mp hy
    have hlen : j < min i es.length := by simpa using hj
    rw [List.getElem_take] at hget
    refine ⟨j, y, by omega, ?_, by simpa using hm⟩
    rw [← hget]
    exact List.getElem?_eq_getElem _
  · rintro ⟨j, y, hj, hget, hsrc, hdst⟩
    refine ⟨y, List.mem_iff_getElem?.mpr ⟨j, ?_⟩, by simp [hsrc, hdst]⟩
    rw [List.getElem?_take, if_pos hj]
    exact hget

theorem sweeps_modSweepKey (s : State) (key : Nat) (f : Sweep → Sweep) :
    (s.modSweepKey key f).fr.sweeps = s.fr.sweeps.map fun x => if x.key = key then f x else x := by
  refine List.map_congr_left fun x _ => ?_
  exact if_congr beq_iff_eq rfl rfl

theorem edge_arrives {s : State} {i : Nat} {e : Edge} (he : s.fr.edges[i]? = some e)
    (hfirst : ∀ (j : Nat) (y : Edge), j < i → s.fr.edges[j]? = some y → ¬ (y.src = e.src ∧ y.dst = e.dst)) :
    ∃ t, exec (.edgeMessage i) s = .next t ∧ t.fr.edges = dropAt s.fr.edges i ∧ SameMemory s t ∧ t.vds = s.vds ∧ t.cores = s.cores ∧
      t.fr.tasks = s.fr.tasks ∧ t.fr.sweeps = s.fr.sweeps.map fun x =>
        if x.key = e.key then { x with ghosts := tset x.ghosts (65536 * e.dst + e.col) { h := e.h, w := e.w, i := 0 } } else x := by
  have hno : ¬ ((s.fr.edges.take i).any fun x => x.src == e.src && x.dst == e.dst) = true := fun h => by
    obtain ⟨j, y, hj, hy, hsame⟩ := (any_take_iff ..).mp h
    exact hfirst j y hj hy hsame
  exact ⟨_, (exec_edgeMessage he).trans (congrArg _ (if_neg hno)), rfl, sameMemory_of_cores rfl rfl, rfl, rfl, rfl, sweeps_modSweepKey ..⟩

/-- The state with a gate addition arrived at its die. -/
def gateArrived (s : State) (i : Nat) (a : GAdd) : State :=
  (s.modFr fun f => { f with gadds := dropAt f.gadds i }).modSweepKey a.key fun x =>
    { x with gates := tset x.gates (8 * a.die + a.face) (min 65535 (x.gate a.die a.face + a.amount)) }

theorem exec_gateAddition {s : State} {i : Nat} {a : GAdd} (ha : s.fr.gadds[i]? = some a) :
    exec (.gateAddition i) s = .next ((gateArrived s i a).endSweep? a.fin) := by
  change execGateAddition i s = _
  unfold execGateAddition
  rw [ha]
  rfl

theorem gateArrived_sweep {s : State} {i j : Nat} {a : GAdd} {x : Sweep} (hx : s.fr.sweeps[j]? = some x) :
    ∃ y, (gateArrived s i a).fr.sweeps[j]? = some y ∧
      y.gate a.die a.face = (if x.key = a.key then min 65535 (x.gate a.die a.face + a.amount) else x.gate a.die a.face) ∧
      (∀ k, k ≠ 8 * a.die + a.face → tget y.gates k = tget x.gates k) ∧ { y with gates := x.gates } = x := by
  have hget : (gateArrived s i a).fr.sweeps[j]? = some (if x.key = a.key then
      { x with gates := tset x.gates (8 * a.die + a.face) (min 65535 (x.gate a.die a.face + a.amount)) } else x) := by
    unfold gateArrived
    rw [sweeps_modSweepKey, List.getElem?_map]
    exact congrArg _ hx
  refine ⟨_, hget, ?_⟩
  by_cases hk : x.key = a.key
  · rw [if_pos hk, if_pos hk]
    exact ⟨tgetD_tset_same .., fun k hne => tget_tset_ne _ _ hne, rfl⟩
  · rw [if_neg hk, if_neg hk]
    exact ⟨rfl, fun _ _ => rfl, rfl⟩

theorem endSweep_eq {s : State} {key : Nat} {x : Sweep} (hx : (s.fr.sweeps.find? fun x => x.key == key) = some x) :
    s.endSweep? (some key) = if x.acted = true ∧ s.delivering x = false then s.freeSweep x.vd x.swid else s := by
  have hc : (x.acted && !(s.delivering x)) = true ↔ x.acted = true ∧ s.delivering x = false := by
    rw [Bool.and_eq_true, Bool.not_eq_true']
  change s.endSweep key = _
  unfold State.endSweep
  simp only [hx]
  exact if_congr hc rfl rfl

theorem exec_sweepIdAssign {s : State} {vd : BitVec 8} {w : WaitSweep} {id : BitVec 12}
    (hw : (s.fr.waiting.find? fun x => x.vd == vd.toNat) = some w) (hworks : s.works vd.toNat = true)
    (hid : s.freeSweepId vd.toNat = some id) : exec (.sweepIdAssign vd) s =
      .next ((s.modFr fun f => { f with waiting := dropFirst (fun x => x.vd == vd.toNat) f.waiting }).bump.modFr fun f =>
        { f with sweeps := f.sweeps ++ [Sweep.fresh f.nextSweep vd.toNat id w.desc w.src], nextSweep := f.nextSweep + 1 }) := by
  have hid' : (s.modFr fun f => { f with waiting := dropFirst (fun x => x.vd == vd.toNat) f.waiting }).freeSweepId vd.toNat = some id := hid
  change execSweepIdAssign vd s = _
  unfold execSweepIdAssign
  dsimp only
  rw [hw]
  dsimp only
  rw [hworks, hid]
  unfold State.acceptSweep
  rw [hid']
  rfl

theorem exec_decrement {s : State} {i : Nat} {d : Dec} (hd : s.fr.decs[i]? = some d) : exec (.decrement i) s =
    .next (((s.modFr fun f => { f with decs := dropAt f.decs i }).applyDec d.vd d.va).endSweep? d.fin) := by
  change execDecrement i s = _
  unfold execDecrement
  rw [hd]

theorem task_applyDec {s : State} {v va k : Nat} {x : Task} (hk : s.keyOfVa v va = some k) (hx : s.task k = some x)
    (hdone : x.state ≠ .done) (hmin : x.dcnt ≠ -32768) : ∃ y, (s.applyDec v va).task k = some y ∧ y.dcnt = x.dcnt - 1 ∧
      y.state = if x.state = .waiting ∧ x.dcnt - 1 = 0 then .ready else x.state := by
  have hlow : (s.modTask k fun t => { t with dcnt := t.dcnt - 1 }).task k = some { x with dcnt := x.dcnt - 1 } := by
    rw [State.task_modTask_same, hx]
    rfl
  have hstray : ¬ (decide (x.state = .done) || decide (x.dcnt = -32768)) = true := by simp [hdone, hmin]
  unfold State.applyDec
  simp only [hk, Option.bind_some, hx, Option.map_some]
  rw [if_neg hstray]
  by_cases h : x.state = .waiting ∧ x.dcnt - 1 = 0
  · rw [if_pos h, if_pos (by simp [h.1, h.2])]
    exact ⟨_, (State.task_modTask_same ..).trans (congrArg (Option.map _) hlow), rfl, rfl⟩
  · rw [if_neg h, if_neg (by simpa using h)]
    exact ⟨_, hlow, rfl, rfl⟩

/-- Settles O39, an event after the other. -/
theorem frontierEvents : Obligations.FrontierEvents := by
  intro s
  refine ⟨fun die x c q idx d hturn hd hidx ht => ?_, fun die h => exec_pointFire_none h,
    fun i e he => ⟨fun hfirst => edge_arrives he hfirst, fun hearlier => ?_⟩, fun i a ha => ?_, rfl, fun key x hx => endSweep_eq hx,
    fun vd w id hw hworks hid => ⟨_, exec_sweepIdAssign hw hworks hid, rfl, rfl, rfl, sameMemory_of_cores rfl rfl, rfl, rfl, rfl⟩,
    fun i d hd => ⟨_, exec_decrement hd, rfl⟩, fun v va k x hk hx hdone hmin _ => task_applyDec hk hx hdone hmin⟩
  · exact ⟨(exec_pointFire hturn).trans (congrArg _ (firePoint_eq hd hidx ht)), rfl, rfl, rfl, rfl⟩
  · exact (exec_edgeMessage he).trans (congrArg _ (if_pos ((any_take_iff ..).mpr hearlier)))
  · exact ⟨_, exec_gateAddition ha, rfl, sameMemory_of_cores rfl rfl, rfl, rfl, rfl, List.length_map .., fun j x hx => gateArrived_sweep hx⟩

/-! ## The dispatchers' events (spec/02_execution_model.md R30 to R34, spec/12_translation.md R242) -/

theorem exec_taskStage {s : State} {die : BitVec 3} {c key : Nat} {p : BitVec 1} {t : Task} (h : s.stageTurn die.toNat = some (c, key, p))
    (ht : s.task key = some t) :
    let u := ({ s with dies := tset s.dies die.toNat { tgetD s.dies die.toNat Die.reset with lastCore := c % 128 } } : State)
    exec (.taskStage die) s = .next (if t.cx = true then u.killTask key 17
      else (u.loadTask c p key).wantLine c ((u.loadTask c p key).vdOf c p) (lineOf ((u.loadTask c p key).plane c p).pc)) := by
  intro u
  have hu : u.task key = some t := ht
  change execTaskStage die s = _
  unfold execTaskStage
  rw [h]
  dsimp only
  change Host.Outcome.next (if (match u.task key with | some t => t.cx | none => false) = true then _ else _) = _
  rw [hu]

theorem exec_planeSwap (s : State) (core : BitVec 10) : exec (.planeSwap core) s =
    .next (if s.maySwap core.toNat then s.modCore core.toNat fun k => { k with act := k.act + 1 } else s) := rfl

theorem planeSwap_swaps (s : State) (c : Nat) : let t := s.modCore c fun k => { k with act := k.act + 1 }
    (t.core c).act = (s.core c).act + 1 ∧ (t.core c).p0 = (s.core c).p0 ∧ (t.core c).p1 = (s.core c).p1 ∧ SameMemory s t ∧ t.fr = s.fr ∧
      t.vds = s.vds := by
  intro t
  have hc : t.core c = { s.core c with act := (s.core c).act + 1 } := State.core_modCore ..
  refine ⟨by rw [hc], by rw [hc], by rw [hc], ⟨fun _ => rfl, fun d a => ?_⟩, rfl, rfl⟩
  by_cases hd : d = c
  · rw [hd, hc]
    exact ⟨rfl, rfl, rfl⟩
  · rw [State.core_modCore_ne s _ hd]
    exact ⟨rfl, rfl, rfl⟩

section Spill

variable {s : State} {core : BitVec 10} {p : BitVec 1} {key : Nat} {t : Task} {d : Vd}
  (ht : s.taskOf core.toNat p = some (key, t)) (hd : s.vd t.vd = some d)

include ht hd

theorem exec_spill : exec (.spill core p) s = .next (
    if t.state != .parked || d.halt.isSome || !((s.plane core.toNat p).onlyParked) then s
    else if d.freeze.isSome then
      match s.freeSlot t.vd d with
      | some n => s.spillParked core.toNat p key t.vd n true
      | none => match s.freeKept t.vd d with
        | some n => s.spillParked core.toNat p key t.vd n true
        | none => s.unsaveable t.vd
    else if s.planeWanted core.toNat p then
      match s.freeSlot t.vd d with
      | some n => s.spillParked core.toNat p key t.vd n false
      | none => s
    else s) := by
  change execSpill core p s = _
  unfold execSpill
  dsimp only
  rw [ht]
  dsimp only
  rw [hd] <;> rfl

end Spill

theorem spill_admits {s : State} {core : BitVec 10} {p : BitVec 1} {t : Task} {d : Vd} (hst : t.state = .parked) (hh : d.halt = none)
    (ho : (s.plane core.toNat p).onlyParked = true) :
    ¬ (t.state != .parked || d.halt.isSome || !((s.plane core.toNat p).onlyParked)) = true := by
  rw [hst, hh, ho]
  decide

theorem spillParked_spilled {s u : State} {c key v n : Nat} {p : BitVec 1}
    (h : ((s.bump.parkFrame c p key).count v 3 6 1).spillTo c p n (((s.bump.parkFrame c p key).count v 3 6 1).plane c p).pc = (none, u))
    (f : Bool) : s.spillParked c p key v n f = u.modTask key fun t => if t.kept.isSome = true then { t with lanes := [] } else t := by
  unfold State.spillParked
  simp only [h]

/-- Settles O40, an event after the other. -/
theorem dispatchEvents : Obligations.DispatchEvents := by
  intro s
  refine ⟨fun die c key p t hturn ht => exec_taskStage hturn ht, fun die h => ?_, fun core => ⟨fun hs => ?_, fun hs => ?_⟩,
    fun core p key n t d ht hd hst hh ho => ?_, fun core p key t d ht hd hf hst => ?_, fun c key n p f v u h => spillParked_spilled h f,
    fun core p key n t d ht hd hst hh hf _ ho hn => ?_⟩
  · change execTaskStage die s = _
    unfold execTaskStage
    rw [h]
  · exact ⟨_, (exec_planeSwap s core).trans (congrArg _ (if_pos hs)), planeSwap_swaps s core.toNat⟩
  · exact (exec_planeSwap s core).trans (congrArg _ (if_neg (by rw [hs]; exact Bool.false_ne_true)))
  · have hh : d.halt = none := Option.isNone_iff_eq_none.mp hh
    have hexec := exec_spill ht hd
    rw [if_neg (spill_admits hst hh ho)] at hexec
    refine ⟨fun hf hw hn => ?_, fun hf hw => ?_⟩
    · rw [hexec, hf, Option.isSome_none, if_neg Bool.false_ne_true, if_pos hw, hn]
    · rw [hexec, hf, Option.isSome_none, if_neg Bool.false_ne_true, if_neg (by rw [hw]; exact Bool.false_ne_true)]
  · rw [exec_spill ht hd, if_pos (by simp [hst])]
  · rw [exec_spill ht hd, if_neg (spill_admits hst hh ho), if_pos hf, hn]

end Sys2Proof.Claims

/-! ## Accesses at their home, and their end (spec/12_translation.md R237 to R240, spec/13_virry.md R258, spec/05_core.md R102) -/

namespace Sys2Proof.Machine

/-- A fold over the indexed elements that acts on none of them. -/
theorem foldl_zipIdx_skip {α β : Type} {f : β → α × Nat → β} {g : α → α} {i : Nat} (hskip : ∀ b y j, j ≠ i → f b (g y, j) = b)
    (xs : List α) (n : Nat) (h : i < n) (b : β) :
    (((xs.zipIdx n).map fun y => if y.2 = i then y.1 else g y.1).zipIdx n).foldl f b = b := by
  induction xs generalizing n b with
  | nil => rfl
  | cons y ys ih =>
    rw [List.zipIdx_cons, List.map_cons, List.zipIdx_cons, List.foldl_cons, if_neg (by simp; omega), hskip _ _ _ (by omega)]
    exact ih (n + 1) (by omega) b

/-- A fold over the indexed elements that acts only on one of them. -/
theorem foldl_zipIdx_one {α β : Type} {f : β → α × Nat → β} {g : α → α} {i : Nat} (hskip : ∀ b y j, j ≠ i → f b (g y, j) = b)
    (xs : List α) (n k : Nat) {x : α} (hk : n + k = i) (hx : xs[k]? = some x) (b : β) :
    (((xs.zipIdx n).map fun y => if y.2 = i then y.1 else g y.1).zipIdx n).foldl f b = f b (x, i) := by
  induction xs generalizing n k b with
  | nil => exact nomatch hx
  | cons y ys ih =>
    rw [List.zipIdx_cons, List.map_cons, List.zipIdx_cons, List.foldl_cons]
    cases k with
    | zero =>
      obtain rfl : n = i := hk
      obtain rfl : y = x := Option.some.inj hx
      rw [if_pos rfl]
      exact foldl_zipIdx_skip hskip ys _ (by omega) _
    | succ k =>
      rw [if_neg (by simp; omega), hskip _ _ _ (by omega)]
      exact ih (n + 1) k (by omega) hx b

/-- The look-up of one element of an access (R239). -/
def State.lookElem (s : State) (c : Nat) (p : BitVec 1) (a : Access) (i : Nat) (e : Elem) : State :=
  match s.tcLook c (s.vdOf c p) e.start a.kind.ty with
  | (some r, s) => s.elemTr c p a i e r
  | (none, s) => (s.joinWalk c (s.vdOf c p) e.start).modElem c p a.id i fun e => { e with st := .walking }

/-- One step of the look-up of an access's elements, by an access of the same id and kind. -/
theorem State.lookAll_one {s : State} {c : Nat} {p : BitVec 1} {a : Access} {i : Nat} {e : Elem} (he : a.elems[i]? = some e)
    (hst : e.st = .translating) :
    s.lookAll c p { a with elems := a.elems.zipIdx.map fun x => if x.2 = i then x.1 else { x.1 with st := .performed } } =
      s.lookElem c p { a with elems := a.elems.zipIdx.map fun x => if x.2 = i then x.1 else { x.1 with st := .performed } } i e := by
  have hone := foldl_zipIdx_one (g := fun e => { e with st := .performed }) (i := i)
    (f := fun s (ei : Elem × Nat) =>
      if ei.1.st == .translating then
        s.lookElem c p { a with elems := a.elems.zipIdx.map fun x => if x.2 = i then x.1 else { x.1 with st := .performed } } ei.2 ei.1
      else s)
    (fun _ _ _ _ => rfl) a.elems 0 i (Nat.zero_add i) he s
  refine Eq.trans ?_ (hone.trans ?_)
  · rfl
  · dsimp only
    rw [hst]
    rfl

theorem State.access_of_elemOf {s : State} {c : Nat} {p : BitVec 1} {acc el : Nat} {a : Access} {e : Elem} (h : s.elemOf c p acc el = some (a, e)) :
    a.elems[el]? = some e := by
  obtain ⟨b, hb, he⟩ := Option.bind_eq_some_iff.mp h
  obtain ⟨e', he', heq⟩ := Option.map_eq_some_iff.mp he
  obtain ⟨rfl, rfl⟩ := Prod.mk.inj heq
  exact he'

@[simp] theorem State.core_modPlane_spad (s : State) (c : Nat) (p : BitVec 1) (f : Plane → Plane) (d : Nat) :
    ((s.modPlane c p f).core d).spad = (s.core d).spad := by
  rw [State.modPlane]
  by_cases h : d = c
  · rw [h, State.core_modCore, Core.setPlane_spad]
  · rw [State.core_modCore_ne _ _ h]

end Sys2Proof.Machine

namespace Sys2Proof.Claims

open Sys2Proof.Machine

theorem sameMemory_modPlane (s : State) (c : Nat) (p : BitVec 1) (f : Plane → Plane) : SameMemory s (s.modPlane c p f) := by
  refine ⟨fun _ => rfl, fun d _ => ?_⟩
  rw [State.modPlane]
  by_cases h : d = c
  · rw [h, State.core_modCore, Core.setPlane_spad, Core.setPlane_bobbin, Core.setPlane_creel]
    exact ⟨rfl, rfl, rfl⟩
  · rw [State.core_modCore_ne _ _ h]
    exact ⟨rfl, rfl, rfl⟩

/-! ### Walks (R237, R240) -/

section
variable {s : State} {core : BitVec 10} {p : BitVec 1} {acc el : Nat} {a : Access} {e : Elem}

theorem exec_walk_translating (h : s.elemOf core.toNat p acc el = some (a, e)) (hst : e.st = .translating) :
    exec (.walk core p acc el) s = .next
      (s.lookElem core.toNat p { a with elems := a.elems.zipIdx.map fun x => if x.2 = el then x.1 else { x.1 with st := .performed } } el e) := by
  rw [← State.lookAll_one (State.access_of_elemOf h) hst]
  change execWalk core p acc el s = _
  unfold execWalk
  dsimp only
  rw [h]
  dsimp only
  rw [hst]
  rfl

theorem exec_walk_walking (h : s.elemOf core.toNat p acc el = some (a, e)) (hst : e.st = .walking) :
    exec (.walk core p acc el) s = .next
      ((((s.die (dieOf core.toNat)).walks.take 64).find? (Walk.of (s.vdOf core.toNat p) ((hbmVa e.start).toNat / 65536))).elim s fun w =>
        ((((s.walkers (dieOf core.toNat) w).foldl (State.walkedTo · w.fill) s).modDie (dieOf core.toNat)
          fun d => { d with walks := dropFirst (Walk.of w.vd w.page) d.walks }).startWalks (dieOf core.toNat))) := by
  change execWalk core p acc el s = _
  unfold execWalk
  dsimp only
  rw [h]
  dsimp only
  rw [hst]
  cases ((s.die (dieOf core.toNat)).walks.take 64).find? (Walk.of (s.vdOf core.toNat p) ((hbmVa e.start).toNat / 65536)) <;> rfl

theorem exec_walk_other (h : s.elemOf core.toNat p acc el = some (a, e)) (ht : e.st ≠ .translating) (hw : e.st ≠ .walking) :
    exec (.walk core p acc el) s = .next s := by
  change execWalk core p acc el s = _
  unfold execWalk
  dsimp only
  rw [h]
  dsimp only
  rw [if_neg (by rw [beq_iff_eq]; exact ht), if_neg (by rw [beq_iff_eq]; exact hw)]

theorem walkedTo_ok {fill : Bool} {t : TcEnt} {u : State} {c : Nat} (h : s.elemOf c p acc el = some (a, e)) (hst : e.st = .walking)
    (hw : s.walkRun (s.vdOf c p) e.start a.kind.ty = (.ok t, u)) :
    s.walkedTo fill (c, p, acc, el) = (if fill = true then u.modCore c fun k => { k with tc := tcPut k.tc t } else u).modElem c p a.id el
      fun e => { e with loc := some (.hbm (t.dpa e.start)), st := .ready } := by
  unfold State.walkedTo
  dsimp only
  rw [h]
  dsimp only
  rw [hst, hw]
  rfl

/-! ### Home agents (R252, R258) -/

/-- An element in its turn, where its channel group has room. -/
theorem exec_home_turn {dpa : Nat} (h : s.elemOf core.toNat p acc el = some (a, e)) (hl : e.loc = some (.hbm dpa))
    (ht : s.turnAt core.toNat p a el e = true) (hr : s.looseRoom (cgCal dpa) e.len = true) :
    (∀ i, a.kind.writes = true → s.hbm.migOf dpa = some i → exec (.homeAgentAccess core p acc el) s = .next
      (if s.hbm.heldFull i then s
        else
          (((s.spend (cgCal dpa) e.len).holdOp i (.elem core.toNat p.toNat acc el)).modElem core.toNat p acc el fun e =>
            { e with st := if e.isAccepted then e.st else .sent }).count (s.vdOf core.toNat p) 3 7 1)) ∧
    ((a.kind.writes = true → s.hbm.migOf dpa = none) → exec (.homeAgentAccess core p acc el) s = .next
      (((s.spend (cgCal dpa) e.len).perfHbm core.toNat p a e dpa).2.elemDone core.toNat p acc el
        ((s.spend (cgCal dpa) e.len).perfHbm core.toNat p a e dpa).1)) := by
  have hexec : exec (.homeAgentAccess core p acc el) s = execHomeAgentAccess core p acc el s := rfl
  refine ⟨fun i hw hm => ?_, fun hm => ?_⟩
  · rw [hexec]
    unfold execHomeAgentAccess
    dsimp only
    rw [h]
    dsimp only
    rw [hl]
    dsimp only
    rw [ht, hr, if_pos hw, hm]
    rfl
  · have hnone : (if a.kind.writes then s.hbm.migOf dpa else none) = none := by
      by_cases hw : a.kind.writes = true
      · rw [if_pos hw, hm hw]
      · rw [if_neg hw]
    rw [hexec]
    unfold execHomeAgentAccess
    dsimp only
    rw [h]
    dsimp only
    rw [hl]
    dsimp only
    rw [ht, hr, hnone]
    rfl

theorem exec_home_waits {dpa : Nat} (h : s.elemOf core.toNat p acc el = some (a, e)) (hl : e.loc = some (.hbm dpa))
    (hw : s.turnAt core.toNat p a el e = false ∨ s.looseRoom (cgCal dpa) e.len = false) : exec (.homeAgentAccess core p acc el) s = .next s := by
  have hno : (!(s.turnAt core.toNat p a el e) || !(s.looseRoom (cgCal dpa) e.len)) = true := by
    rcases hw with hw | hw <;> simp [hw]
  change execHomeAgentAccess core p acc el s = _
  unfold execHomeAgentAccess
  dsimp only
  rw [h]
  dsimp only
  rw [hl]
  dsimp only
  rw [if_pos hno]

end

/-- What each kind of access does at a home agent (R258, R321, R335). -/
theorem perfHbm_st {s u : State} {c dpa : Nat} {p : BitVec 1} {a : Access} {e : Elem} (hk : a.kind = .st)
    (hw : s.homeWrite dpa (mergeBytes e.mask (memBytes s.hbm.mem dpa e.len) e.data) true = some u) : s.perfHbm c p a e dpa = (.done [], u) := by
  unfold State.perfHbm
  rw [hk]
  dsimp only
  rw [if_neg (show ¬ AccKind.st.reads = true from Bool.false_ne_true)]
  dsimp only [AccKind.newBytes]
  rw [hw]

theorem perfHbm_ld {s u : State} {c dpa : Nat} {p : BitVec 1} {a : Access} {e : Elem} {d : BitVec 6} {sx : Bool} {bs : List Byte}
    (hk : a.kind = .ld d sx) (hr : s.homeRead dpa e.len = (some bs, u)) : s.perfHbm c p a e dpa = (.done bs, u) := by
  unfold State.perfHbm
  rw [hk]
  dsimp only
  rw [if_pos (show (AccKind.ld d sx).reads = true from rfl), hr]
  rfl

/-- An atomic that writes, or a compare and swap that does not. -/
theorem perfHbm_atomic {s u : State} {c dpa : Nat} {p : BitVec 1} {a : Access} {e : Elem} {bs : List Byte}
    (hk : (∃ d aop, a.kind = .amo d aop) ∨ ∃ d, a.kind = .cas d) (hr : s.homeRead dpa e.len = (some bs, u)) :
    (a.kind.newBytes e bs = none → s.perfHbm c p a e dpa = (.done bs, u)) ∧
    ∀ new w, a.kind.newBytes e bs = some new → u.homeWrite dpa new false = some w → s.perfHbm c p a e dpa = (.done bs, w) := by
  have hreads : a.kind.reads = true := by
    rcases hk with ⟨d, aop, hk⟩ | ⟨d, hk⟩ <;> rw [hk] <;> rfl
  have hperf : s.perfHbm c p a e dpa = (a.kind.newBytes e bs).elim (.done bs, u) fun new =>
      (u.homeWrite dpa new false).elim (u.badBlock c p a dpa e) fun w => (.done bs, w) := by
    unfold State.perfHbm
    rcases hk with ⟨d, aop, hk⟩ | ⟨d, hk⟩ <;> rw [hk] at hreads ⊢ <;> dsimp only <;> rw [if_pos hreads, hr] <;> dsimp only
    · cases (AccKind.amo d aop).newBytes e bs with
      | none => rfl
      | some new =>
        rw [Option.elim_some]
        dsimp only
        cases u.homeWrite dpa new false <;> rfl
    · cases (AccKind.cas d).newBytes e bs with
      | none => rfl
      | some new =>
        rw [Option.elim_some]
        dsimp only
        cases u.homeWrite dpa new false <;> rfl
  rw [hperf]
  refine ⟨fun hnew => by rw [hnew]; rfl, fun new w hnew hw => ?_⟩
  rw [hnew, Option.elim_some, hw]
  rfl

/-! ### Peer accesses (R204, R206) -/

section
variable {s : State} {core : BitVec 10} {p : BitVec 1} {acc el k o : Nat} {a : Access} {e : Elem}

/-- An element homed in a scratchpad that its own windows do not reach: the branches of its event. -/
theorem exec_peer (h : s.elemOf core.toNat p acc el = some (a, e)) (hl : e.loc = some (.spad k o)) (hp : e.peer = true) :
    exec (.peerAccess core p acc el) s = .next
      (if e.st == .half then
        ((a.kind.newBytes e e.res).elim s (s.coreWrite (.spad k o))).elemDone core.toNat p acc el (.done e.res)
      else if !(s.turnAt core.toNat p a el e) then s
      else if a.kind.splits (.spad k o) then
        if s.splitAt (.spad k o) then s else s.modElem core.toNat p acc el fun e => { e with st := .half, res := s.coreBytes (.spad k o) e.len }
      else
        (s.perfCore (s.vdOf core.toNat p) a.tensor a.kind (.spad k o) e).2.elemDone core.toNat p acc el
          (.done (s.perfCore (s.vdOf core.toNat p) a.tensor a.kind (.spad k o) e).1)) := by
  have hown : e.own = false := by rw [Elem.own, hp]; rfl
  change execPeerAccess core p acc el s = _
  unfold execPeerAccess
  dsimp only
  rw [h]
  dsimp only
  rw [hl]
  dsimp only
  rw [hown]
  cases a.kind.newBytes e e.res <;> rfl

theorem exec_peer_turn (h : s.elemOf core.toNat p acc el = some (a, e)) (hl : e.loc = some (.spad k o)) (hp : e.peer = true)
    (ht : s.turnAt core.toNat p a el e = true) (hst : e.st ≠ .half) (hs : a.kind.splits (.spad k o) = false) :
    exec (.peerAccess core p acc el) s = .next
      ((s.perfCore (s.vdOf core.toNat p) a.tensor a.kind (.spad k o) e).2.modElem core.toNat p acc el fun x =>
        { x with st := .performed, res := (s.perfCore (s.vdOf core.toNat p) a.tensor a.kind (.spad k o) e).1 }) := by
  rw [exec_peer h hl hp, if_neg (by rw [beq_iff_eq]; exact hst), ht, hs]
  rfl

/-- What a masked write of bytes leaves in a scratchpad, and in the rest of memory. -/
theorem coreWrite_spad_bytes {c : Nat} {f : Elem → Elem} (hwf : (s.core k).spad.wf = true) (mask : BitVec 64) (len : Nat) (data : List Byte) :
    let t := (s.coreWrite (.spad k o) (mergeBytes mask (memBytes (s.core k).spad o len) data)).modElem c p acc el f
    (∀ j, j < data.length → j < len → memRead (t.core k).spad (o + j) =
      if mask.getLsbD j then data.getD j 0 else memRead (s.core k).spad (o + j)) ∧
    ∀ x, (x < o ∨ o + data.length ≤ x) → memRead (t.core k).spad x = memRead (s.core k).spad x := by
  intro t
  have hspad : (t.core k).spad = memWrite (s.core k).spad o (mergeBytes mask (memBytes (s.core k).spad o len) data) := by
    rw [show t = State.modElem _ c p acc el f from rfl, State.modElem, State.core_modPlane_spad]
    change ((s.modCore k _).core k).spad = _
    rw [State.core_modCore]
  rw [hspad]
  refine ⟨fun j hj hlen => ?_, fun x hx => memRead_memWrite_out hwf _ _ _ (by simpa using hx)⟩
  rw [memRead_memWrite_in hwf _ _ _ (by simpa using hj), mergeBytes_getElem, memBytes_getD hwf _ _ _ hlen]

end

/-! ### The end of an access (R102, R215) -/

theorem exec_loadResult {s : State} {core : BitVec 10} {p : BitVec 1} {acc : Nat} {a : Access} (h : (s.plane core.toNat p).access acc = some a) :
    exec (.loadResult core p acc) s =
      .next (if a.performed && a.kind.inLdc && !a.kind.byInstr then s.finishAcc core.toNat p a else s) := by
  change execLoadResult core p acc s = _
  unfold execLoadResult
  dsimp only
  rw [h]

theorem exec_postedWriteAck {s : State} {core : BitVec 10} {p : BitVec 1} {acc : Nat} {a : Access}
    (h : (s.plane core.toNat p).access acc = some a) :
    exec (.postedWriteAck core p acc) s =
      .next (if a.performed && a.kind.isStore && a.posted core.toNat then s.finishAcc core.toNat p a else s) := by
  change execPostedWriteAck core p acc s = _
  unfold execPostedWriteAck
  dsimp only
  rw [h]


theorem isStore_iff (k : AccKind) : k.isStore = true ↔ k = .st ∨ ∃ b, k = .bput b := by
  cases k <;> simp [AccKind.isStore]

theorem putResult_store (x : Plane) {a : Access} (h : a.kind.isStore = true) : x.putResult a = x := by
  unfold Plane.putResult
  rcases (isStore_iff _).mp h with hk | ⟨b, hk⟩ <;> rw [hk]

theorem inLdc_of_isStore {k : AccKind} (h : k.inLdc = true) : k.isStore = false := by
  cases k <;> simp_all [AccKind.isStore, AccKind.inLdc]

/-- The atomic's old value. -/
theorem putResult_atomic (x : Plane) {a : Access} {e : Elem} {d : BitVec 6} (hk : a.kind = .cas d ∨ ∃ aop, a.kind = .amo d aop)
    (he : a.elems = [e]) (hst : e.st = .performed) : x.putResult a = x.wg d (leWord e.res) := by
  unfold Plane.putResult
  rcases hk with hk | ⟨aop, hk⟩ <;> rw [hk, he, List.filter_singleton, hst] <;> rfl

/-- What the end of an access leaves of the plane (R102). -/
theorem finishAcc_frame (s : State) (c : Nat) (p : BitVec 1) (a : Access) :
    SameMemory s (s.finishAcc c p a) ∧
    (∃ r, ((s.plane c p).putResult a) = { s.plane c p with regs := r } ∧ ((s.finishAcc c p a).plane c p).regs = r) ∧
    ((s.finishAcc c p a).plane c p).acc = (s.plane c p).acc.filter (fun b => b.id != a.id) ∧
    ((s.finishAcc c p a).plane c p).oc = (if a.kind.isStore then { (s.plane c p).oc with stc := (s.plane c p).oc.stc - 1 }
      else if a.kind.inLdc then { (s.plane c p).oc with ldc := (s.plane c p).oc.ldc - 1 } else (s.plane c p).oc) ∧
    ((s.finishAcc c p a).plane c p).pc = (s.plane c p).pc ∧ ((s.finishAcc c p a).plane c p).sr = (s.plane c p).sr := by
  obtain ⟨r, hr⟩ := regsOnly_putResult a (s.plane c p)
  have hp : (s.finishAcc c p a).plane c p = (({ s.plane c p with regs := r } : Plane).dropAccess a) := by
    rw [State.finishAcc, State.plane_modPlane, ← hr]
  rw [hp]
  exact ⟨sameMemory_modPlane .., ⟨r, hr, rfl⟩, rfl, rfl, rfl, rfl⟩

/-- Settles O41. -/
theorem accessEvents : Obligations.AccessEvents := by
  intro s core p acc el c performs
  refine ⟨fun a e hel hid => ?_, fun a ha hperf => ⟨fun hldc hby => ?_, fun hst hpost => ?_⟩, fun a ha hperf => ?_⟩
  · subst hid
    refine ⟨fun hst => ⟨fun t u hlook => ?_, fun u hlook => ?_⟩, fun hst => ⟨fun hnone => ?_, fun w' hw' hone t u hrun => ?_⟩,
      exec_walk_other hel, fun dpa hl ht hr => ?_, fun dpa hl hno => exec_home_waits hel hl hno, fun k o hl hp => ⟨fun hst d aop hk => ?_,
        fun ht hst => ⟨fun d aop hk hsplit => ?_, fun hwf => ⟨fun d sx hk => ?_, fun hk => ?_⟩⟩⟩⟩
    · rw [exec_walk_translating hel hst, State.lookElem]
      dsimp only
      rw [show s.tcLook core.toNat (s.vdOf core.toNat p) e.start a.kind.ty = _ from hlook]
      rfl
    · rw [exec_walk_translating hel hst, State.lookElem]
      dsimp only
      rw [show s.tcLook core.toNat (s.vdOf core.toNat p) e.start a.kind.ty = _ from hlook]
    · rw [exec_walk_walking hel hst, show List.find? _ _ = none from hnone]
      rfl
    · rw [exec_walk_walking hel hst, show List.find? _ _ = some w' from hw', Option.elim_some,
        show s.walkers (dieOf core.toNat) w' = _ from hone, List.foldl_cons, List.foldl_nil, walkedTo_ok hel hst hrun]
    · obtain ⟨hmig, hfree⟩ := exec_home_turn hel hl ht hr
      refine ⟨⟨rfl, rfl, rfl⟩, fun hnone => ?_, fun i hi hw => ⟨fun hfull => ?_, fun hfull => ?_⟩⟩
      · rw [hfree hnone]
        refine ⟨fun u hk hw => ?_, fun d sx bs u hk hread => ?_, fun d aop bs u w hk hread hw => ?_, fun d bs u hk hread =>
          ⟨fun hne => ?_, fun w heq hw => ?_⟩⟩
        · rw [perfHbm_st hk hw]; rfl
        · rw [perfHbm_ld hk hread]; rfl
        · rw [(perfHbm_atomic (.inl ⟨d, aop, hk⟩) hread).2 _ w (by rw [hk]; rfl) hw]; rfl
        · rw [(perfHbm_atomic (.inr ⟨d, hk⟩) hread).1 (by rw [hk]; exact if_neg (by rw [beq_iff_eq]; exact hne))]; rfl
        · rw [(perfHbm_atomic (.inr ⟨d, hk⟩) hread).2 _ w (by rw [hk]; exact if_pos (by rw [beq_iff_eq]; exact heq)) hw]; rfl
      · refine ⟨_, hmig i hw hi, ?_⟩
        rw [hfull]
        exact ⟨rfl, rfl⟩
      · rw [hmig i hw hi, hfull, if_pos rfl]
    · rw [exec_peer hel hl hp, hst, hk]
      rfl
    · rw [exec_peer hel hl hp, if_neg (by rw [beq_iff_eq]; exact hst), show s.turnAt core.toNat p a el e = true from ht, hk, hsplit]
      rfl
    · refine ⟨_, exec_peer_turn hel hl hp ht hst (by rw [hk]; rfl), ?_⟩
      rw [hk]
      rfl
    · refine ⟨_, exec_peer_turn hel hl hp ht hst (by rw [hk]; rfl), fun x => ?_, ?_⟩
      · rw [hk]
        rfl
      · rw [hk]
        exact coreWrite_spad_bytes hwf e.mask e.len e.data
  · obtain ⟨hsame, ⟨r, hr, hregs⟩, hacc, hoc, hpc, hsr⟩ := finishAcc_frame s core.toNat p a
    rw [exec_loadResult ha, hperf, hldc, hby]
    refine ⟨_, rfl, hsame, hacc, ?_, hpc, hsr, fun d e hk he q => ?_⟩
    · refine (congrArg Oc.ldc hoc).trans ?_
      rw [inLdc_of_isStore hldc, hldc]
      rfl
    · have hst : e.st = .performed := by
        rw [Access.performed, he] at hperf
        simpa using hperf
      have hrg : Plane.rg ((s.finishAcc core.toNat p a).plane core.toNat p) q = ((s.plane core.toNat p).wg d (leWord e.res)).rg q := by
        rw [← putResult_atomic _ hk he hst, hr, Plane.rg, Plane.rg, hregs]
      exact hrg.trans (Plane.rg_wg ..)
  · obtain ⟨hsame, ⟨r, hr, hregs⟩, hacc, hoc, hpc, hsr⟩ := finishAcc_frame s core.toNat p a
    rw [exec_postedWriteAck ha, hperf, hst, show a.posted core.toNat = true from hpost]
    refine ⟨_, rfl, hsame, hacc, ?_, ?_, hpc⟩
    · refine (congrArg Oc.stc hoc).trans ?_
      rw [hst]
      rfl
    · rw [putResult_store _ hst] at hr
      exact hregs.trans (congrArg Plane.regs hr).symm
  · rw [exec_loadResult ha, exec_postedWriteAck ha, hperf]
    exact ⟨rfl, rfl⟩

end Sys2Proof.Claims

/-! ## Line fills, the fault request ring and its replies (spec/05_core.md R99, R111, spec/12_translation.md R244 to R246) -/

namespace Sys2Proof.Claims

open Sys2Proof.Machine

/-! ### Line fills -/

section
variable {s : State} {core : BitVec 10} {p : BitVec 1} {line : Word}

theorem exec_lineFill_held {key : Nat} {t : Task} (hh : (s.plane core.toNat p).hold = some (.fill line))
    (ht : s.taskOf core.toNat p = some (key, t)) :
    exec (.lineFill core p) s =
      .next (if ((s.core core.toNat).findLine t.vd line).isSome then s else s.fillLine core.toNat p key t line) := by
  change execLineFill core p s = _
  unfold execLineFill
  dsimp only
  rw [hh, ht]

theorem fillLine_ok {u w : State} {c key : Nat} {t : Task} {e : TcEnt} {bs : List Byte} (htr : s.trNow c t.vd line .fetch = (.ok e, u))
    (hr : u.homeRead (e.dpa line) 64 = (some bs, w)) : s.fillLine c p key t line = w.putLine c (lineOfBytes t.vd line bs) := by
  unfold State.fillLine
  rw [htr]
  dsimp only
  rw [hr]

/-- A plane that holds for no line: its core's prefetch goes on. -/
theorem exec_lineFill_ahead (hh : ∀ line, (s.plane core.toNat p).hold ≠ some (.fill line)) :
    exec (.lineFill core p) s =
      .next (match (s.core core.toNat).want with | (v, line) :: _ => s.fillAhead core.toNat v line | [] => s) := by
  change execLineFill core p s = _
  unfold execLineFill
  dsimp only
  cases hhold : (s.plane core.toNat p).hold with
  | none => cases (s.core core.toNat).want <;> rfl
  | some h =>
    cases h with
    | fill line => exact absurd hhold (hh line)
    | _ => cases (s.core core.toNat).want <;> rfl

/-- The first line of the prefetch leaves it (R111). -/
theorem fillAhead_leaves {c x : Nat} {rest : List (Nat × Word)} (hw : (s.core c).want = (x, line) :: rest) :
    (s.modCore c fun k => { k with want := k.want.filter fun w => w != (x, line) }) =
      (s.modCore c fun k => { k with want := rest.filter fun w => w != (x, line) }) := by
  have hf : ((x, line) :: rest).filter (fun w => w != (x, line)) = rest.filter fun w => w != (x, line) :=
    List.filter_cons_of_neg (by simp)
  rw [State.modCore, State.modCore, hw, hf]

theorem findLine_modCore_want (c : Nat) (ws : List (Nat × Word)) (x : Nat) :
    ((s.modCore c fun k => { k with want := ws }).core c).findLine x line = (s.core c).findLine x line := by
  rw [State.core_modCore]
  rfl

theorem fillAhead_has {c x : Nat} {rest : List (Nat × Word)} (hw : (s.core c).want = (x, line) :: rest)
    (h : (s.core c).findLine x line ≠ none ∨ inHbmWindow line = false) :
    s.fillAhead c x line = s.modCore c fun k => { k with want := rest.filter fun w => w != (x, line) } := by
  have hno : (((s.core c).findLine x line).isSome || !(inHbmWindow line)) = true := by
    rcases h with h | h
    · rw [Option.isSome_iff_ne_none.mpr h, Bool.true_or]
    · rw [h, Bool.not_false, Bool.or_true]
  unfold State.fillAhead
  rw [fillAhead_leaves hw]
  dsimp only
  rw [findLine_modCore_want, if_pos hno]

theorem fillAhead_fetches {v w : State} {c x : Nat} {rest : List (Nat × Word)} {e : TcEnt} {bs : List Byte}
    (hw : (s.core c).want = (x, line) :: rest) (hnone : (s.core c).findLine x line = none) (hin : inHbmWindow line = true)
    (htr : (s.modCore c fun k => { k with want := rest.filter fun w => w != (x, line) }).trNow c x line .fetch = (.ok e, v))
    (hr : v.homeRead (e.dpa line) 64 = (some bs, w)) : s.fillAhead c x line = w.putLine c (lineOfBytes x line bs) := by
  unfold State.fillAhead
  rw [fillAhead_leaves hw]
  dsimp only
  rw [findLine_modCore_want, hnone, hin, Option.isSome_none, Bool.not_true, Bool.or_self, if_neg Bool.false_ne_true, htr]
  dsimp only
  rw [hr]

end

/-! ### The request ring -/

section
variable {s u x y : State} {v : BitVec 8} {d : Vd} {r : FReq} {w : Word}

/-- A request entry's words (R244). -/
theorem words_eq (r : FReq) (rid : BitVec 32) :
    r.words rid = [r.va, BitVec.ofNat 64 r.task, BitVec.ofNat 64 (2 ^ 60 * r.kind + 2 ^ 56 * r.acc + 2 ^ 54 * r.lvl + rid.toNat), BitVec.ofNat 64 r.bkh] :=
  rfl

theorem exec_faultPost_full (hd : s.vd v.toNat = some d) (hr : (s.hbm.freqs.find? fun r => r.vd == v.toNat && !r.posted) = some r)
    (hw : s.sureWord v.toNat (d.d.fcb + 24) = (some w, u)) (hfull : 2 ^ d.d.lgn ≤ (d.rqt - w.setWidth 32).toNat) :
    exec (.faultPost v) s = .next u := by
  change execFaultPost v s = _
  unfold execFaultPost
  dsimp only
  rw [hd, hr]
  dsimp only
  rw [hw]
  dsimp only
  rw [if_pos hfull]

/-- The posted request, of those that are outstanding. -/
theorem exec_faultPost_room (hd : s.vd v.toNat = some d) (hr : (s.hbm.freqs.find? fun r => r.vd == v.toNat && !r.posted) = some r)
    (hw : s.sureWord v.toNat (d.d.fcb + 24) = (some w, u)) (hroom : (d.rqt - w.setWidth 32).toNat < 2 ^ d.d.lgn)
    (hx : u.mustWrite v.toNat (d.d.rqb + 32 * (d.rqt.toNat % 2 ^ d.d.lgn)) (r.words d.rqt) = (true, x))
    (hy : x.mustWrite v.toNat (d.d.fcb + 16) [(d.rqt + 1).setWidth 64] = (true, y)) (hpf : d.d.pfut = 0) (hhn : d.d.hnot = 0) :
    exec (.faultPost v) s = .next ((((y.modHbm fun h =>
      { h with freqs := h.freqs.map fun x => if FReq.same r.vd r.page r.kind x then { x with rid := d.rqt, posted := true } else x }).modVd
        v.toNat fun d' => { d' with rqt := d.rqt + 1 }).count v.toNat 3 2 1)) := by
  change execFaultPost v s = _
  unfold execFaultPost
  dsimp only
  rw [hd, hr]
  dsimp only
  rw [hw]
  dsimp only
  rw [if_neg (by omega), hx]
  dsimp only
  rw [hy]
  dsimp only
  rw [if_pos hhn, if_pos hpf]

/-! ### The reply ring -/

theorem exec_ringPoll_none (h : (s.pollTail v.toNat).headReply v.toNat = (none, u)) : exec (.ringPoll v) s = .next u := by
  change execRingPoll v s = _
  unfold execRingPoll
  dsimp only
  rw [h]

theorem exec_ringPoll_head (h : (s.pollTail v.toNat).headReply v.toNat = (some w, u)) :
    exec (.ringPoll v) s = .next (if (u.repliedTo v.toNat w).isSome then u else (u.tookReply v.toNat).count v.toNat 3 5 1) := by
  change execRingPoll v s = _
  unfold execRingPoll
  dsimp only
  rw [h]

/-- A reply of the ring with the CODE asked for, of a request that is outstanding (R246). -/
theorem takeReply_ring {fail : Bool} (h : (s.pollTail v.toNat).headReply v.toNat = (some w, u)) (h63 : w.getLsbD 63 = false)
    (h62 : w.getLsbD 62 = fail) (hr : (u.tookReply v.toNat).repliedTo v.toNat w = some r) :
    s.takeReply v.toNat .ring fail = (u.tookReply v.toNat).replyTo r fail := by
  unfold State.takeReply
  dsimp only
  rw [h]
  dsimp only
  rw [h63, h62, Bool.false_or, bne_self_eq_false, if_neg Bool.false_ne_true, hr]

theorem takeReply_firmware {i : Nat} (fail : Bool)
    (hr : (s.hbm.freqs.filter fun r => r.vd == v.toNat && decide (3 ≤ r.kind))[i]? = some r) (hs : (s.served v.toNat).isSome = true) :
    s.takeReply v.toNat (.firmware i) fail = s.replyTo r fail := by
  unfold State.takeReply
  dsimp only
  rw [hr]
  dsimp only
  rw [if_pos hs]

end

/-- Settles O42. -/
theorem ringEvents : Obligations.RingEvents := by
  intro s v
  refine ⟨fun core p line key t hh ht => ⟨fun hnone e u bs w htr hr => ?_, fun hsome => ?_⟩, fun core p hh => ⟨fun hw => ?_, fun x line rest hw =>
      ⟨fun h => ?_, fun hnone hin e v bs w htr hr => ?_⟩⟩,
    fun d r w u hd hr hw => ⟨exec_faultPost_full hd hr hw, fun x y hroom hx hy => exec_faultPost_room hd hr hw hroom hx hy⟩,
    fun w u h => ⟨fun hnone => ?_, fun hsome => ?_, fun h63 r hr => ⟨fun h62 => ?_, fun h62 => ?_⟩⟩, fun u => exec_ringPoll_none,
    fun i r hr hs => ⟨?_, ?_⟩⟩
  · rw [exec_lineFill_held hh ht, hnone, Option.isSome_none, if_neg Bool.false_ne_true, fillLine_ok htr hr]
    refine ⟨_, rfl, ⟨fun _ => rfl, fun c a => ?_⟩, rfl, rfl, ?_⟩
    · rw [State.putLine]
      by_cases hc : c = core.toNat
      · subst hc
        rw [State.core_modCore]
        exact ⟨rfl, rfl, rfl⟩
      · rw [State.core_modCore_ne _ _ hc]
        exact ⟨rfl, rfl, rfl⟩
    · rw [State.putLine, State.core_modCore]
      rfl
  · rw [exec_lineFill_held hh ht, if_pos (Option.isSome_iff_ne_none.mpr hsome)]
  · rw [exec_lineFill_ahead hh, hw]
  · rw [exec_lineFill_ahead hh, hw]
    exact congrArg Host.Outcome.next (fillAhead_has hw h)
  · rw [exec_lineFill_ahead hh, hw]
    exact congrArg Host.Outcome.next (fillAhead_fetches hw hnone hin htr hr)
  · rw [exec_ringPoll_head h, hnone, Option.isSome_none, if_neg Bool.false_ne_true]
  · rw [exec_ringPoll_head h, if_pos hsome]
  · exact congrArg Host.Outcome.next (takeReply_ring h h63 h62 hr)
  · exact congrArg Host.Outcome.next (takeReply_ring h h63 h62 hr)
  · exact congrArg Host.Outcome.next (takeReply_firmware false hr hs)
  · exact congrArg Host.Outcome.next (takeReply_firmware true hr hs)

end Sys2Proof.Claims

/-! ## Halts, freezes, world switches and migrations (spec/14_traps_preemption.md R280 to R288, spec/12_translation.md R252) -/

namespace Sys2Proof.Claims

open Sys2Proof.Machine

/-! ### What a halt leaves -/

theorem SameMemory.rfl' (s : State) : SameMemory s s := ⟨fun _ => rfl, fun _ _ => ⟨rfl, rfl, rfl⟩⟩

theorem SameMemory.trans {s t u : State} (h : SameMemory s t) (h' : SameMemory t u) : SameMemory s u :=
  ⟨fun a => (h'.1 a).trans (h.1 a), fun c a =>
    ⟨(h'.2 c a).1.trans (h.2 c a).1, (h'.2 c a).2.1.trans (h.2 c a).2.1, (h'.2 c a).2.2.trans (h.2 c a).2.2⟩⟩

theorem sameMemory_modCore {s : State} {c : Nat} {f : Core → Core}
    (h : (f (s.core c)).spad = (s.core c).spad ∧ (f (s.core c)).bobbin = (s.core c).bobbin ∧ (f (s.core c)).creel = (s.core c).creel) :
    SameMemory s (s.modCore c f) := by
  obtain ⟨hspad, hbobbin, hcreel⟩ := h
  refine ⟨fun _ => rfl, fun d _ => ?_⟩
  by_cases hd : d = c
  · rw [hd, State.core_modCore, hspad, hbobbin, hcreel]
    exact ⟨rfl, rfl, rfl⟩
  · rw [State.core_modCore_ne _ _ hd]
    exact ⟨rfl, rfl, rfl⟩

/-- Marks of tiles leave a core's memories. -/
theorem foldl_modTile_memory (os : List MxOp) (f : Tile → Tile) (k : Core) :
    (os.foldl (fun k o => k.modTile o.tile f) k).spad = k.spad ∧ (os.foldl (fun k o => k.modTile o.tile f) k).bobbin = k.bobbin ∧
      (os.foldl (fun k o => k.modTile o.tile f) k).creel = k.creel :=
  List.foldlRecOn (motive := fun j : Core => j.spad = k.spad ∧ j.bobbin = k.bobbin ∧ j.creel = k.creel) _ _ ⟨rfl, rfl, rfl⟩
    fun _ hj _ _ => hj

/-- Memory and everything but the cores are as before. -/
structure CoreFrame (s t : State) : Prop where
  memory : SameMemory s t
  vds : t.vds = s.vds
  fw : t.fw = s.fw

theorem coreFrame_fatalTiles (s : State) (v : Nat) (us : List HaltUnit) : CoreFrame s (s.fatalTiles v us) := by
  refine List.foldlRecOn (motive := CoreFrame s) _ _ ⟨.rfl' s, rfl, rfl⟩ fun t ht u _ => ?_
  obtain ⟨hmem, hvds, hfw⟩ := ht
  cases u with
  | matrix c => exact ⟨hmem.trans (sameMemory_modCore (foldl_modTile_memory _ _ _)), hvds, hfw⟩
  | _ => exact ⟨hmem, hvds, hfw⟩

/-- A halt changes no memory and nothing of the firmware. -/
theorem raiseHalt_frame (s : State) (v r : Nat) (x : Word) : SameMemory s (s.raiseHalt v r x) ∧ (s.raiseHalt v r x).fw = s.fw := by
  have hsame := SameMemory.rfl' s
  unfold State.raiseHalt
  cases s.vd v with
  | none => exact ⟨hsame, rfl⟩
  | some d =>
    dsimp only
    cases d.halt with
    | none =>
      dsimp only
      split <;> exact ⟨hsame, rfl⟩
    | some h =>
      dsimp only
      split
      · exact ⟨hsame, rfl⟩
      · obtain ⟨hmem, -, hfw⟩ := coreFrame_fatalTiles
          (s.modVd v fun d => { d with halt := some { h with reason := r, fatal := true, tval := x } }) v h.stopped
        exact ⟨hmem, hfw⟩

/-- The VD that a halt names. -/
theorem vd_raiseHalt_same {s : State} {v r : Nat} {x : Word} {d : Vd} (hd : s.vd v = some d) (hh : d.halt = none) :
    (s.raiseHalt v r x).vd v = some { d with halt := some { reason := r, fatal := r != 6, stopped := [], tval := x } } := by
  unfold State.raiseHalt
  rw [hd]
  dsimp only
  rw [hh]
  dsimp only
  have hvd : (s.modVd v fun d => { d with halt := some { reason := r, fatal := r != 6, stopped := [], tval := x } }).vd v =
      some { d with halt := some { reason := r, fatal := r != 6, stopped := [], tval := x } } := by
    rw [State.vd_modVd_same, hd]
    rfl
  split <;> exact hvd

theorem vd_raiseHalt_ne (s : State) {v w : Nat} (r : Nat) (x : Word) (hw : w ≠ v) : (s.raiseHalt v r x).vd w = s.vd w := by
  unfold State.raiseHalt
  cases s.vd v with
  | none => rfl
  | some d =>
    dsimp only
    cases d.halt with
    | none =>
      dsimp only
      split <;> exact State.vd_modVd_ne s _ hw
    | some h =>
      dsimp only
      split
      · rfl
      · exact (congrArg (tget · w) (coreFrame_fatalTiles _ v h.stopped).vds).trans (State.vd_modVd_ne s _ hw)

theorem raiseHalt_fatal {s : State} {v r : Nat} {x : Word} {d : Vd} {h : Halt} (hd : s.vd v = some d) (hh : d.halt = some h)
    (hf : h.fatal = true) : s.raiseHalt v r x = s := by
  unfold State.raiseHalt
  rw [hd]
  dsimp only
  rw [hh]
  dsimp only
  rw [hf, Bool.true_or, if_pos rfl]

/-! ### Thermal halts (R13) -/

/-- A VD is halted for a reason, for good. -/
def HaltedFor (s : State) (v r : Nat) : Prop := ∃ d h, s.vd v = some d ∧ d.halt = some h ∧ h.reason = r ∧ h.fatal = true

theorem haltedFor_raiseHalt {s : State} {v r : Nat} (h : HaltedFor s v r) (w : Nat) (x : Word) : HaltedFor (s.raiseHalt w r x) v r := by
  obtain ⟨d, k, hd, hk, hr, hf⟩ := h
  by_cases hw : v = w
  · subst hw
    rw [raiseHalt_fatal hd hk hf]
    exact ⟨d, k, hd, hk, hr, hf⟩
  · exact ⟨d, k, (vd_raiseHalt_ne s r x hw).trans hd, hk, hr, hf⟩

theorem haltedFor_foldl {r : Nat} (hr : r ≠ 6) {v : Nat} {d : Vd} (hh : d.halt = none) (es : List (Nat × Vd)) {s : State}
    (h : HaltedFor s v r ∨ s.vd v = some d ∧ ∃ e ∈ es, e.1 = v) : HaltedFor (es.foldl (fun s e => s.raiseHalt e.1 r 0) s) v r := by
  induction es generalizing s with
  | nil =>
    rcases h with h | ⟨-, e, he, -⟩
    · exact h
    · exact absurd he List.not_mem_nil
  | cons e es ih =>
    refine ih ?_
    rcases h with h | ⟨hd, e', he', hv⟩
    · exact .inl (haltedFor_raiseHalt h _ _)
    · by_cases hev : v = e.1
      · subst hev
        exact .inl ⟨_, _, vd_raiseHalt_same hd hh, rfl, rfl, bne_iff_ne.mpr hr⟩
      · refine .inr ⟨(vd_raiseHalt_ne s r 0 hev).trans hd, e', ?_, hv⟩
        rcases List.mem_cons.mp he' with rfl | he'
        · exact absurd hv.symm hev
        · exact he'

theorem mem_of_tget {α : Type} {t : Table α} {k : Nat} {x : α} (h : tget t k = some x) : (k, x) ∈ t := by
  induction t with
  | nil => exact nomatch h
  | cons e t ih =>
    obtain ⟨j, v⟩ := e
    unfold tget at h
    split at h
    · next hj => exact List.mem_cons.mpr (.inl (by rw [hj, Option.some.inj h]))
    · split at h
      · exact nomatch h
      · exact List.mem_cons_of_mem _ (ih h)

/-- The running VDs are halted, each for the reason. -/
theorem foldl_raiseHalt_frame (r : Nat) (es : List (Nat × Vd)) (s : State) :
    SameMemory s (es.foldl (fun s e => s.raiseHalt e.1 r 0) s) ∧ (es.foldl (fun s e => s.raiseHalt e.1 r 0) s).fw = s.fw := by
  refine List.foldlRecOn (motive := fun t => SameMemory s t ∧ t.fw = s.fw) _ _ ⟨.rfl' s, rfl⟩ fun t ht e _ => ?_
  obtain ⟨hmem, hfw⟩ := ht
  obtain ⟨hmem', hfw'⟩ := raiseHalt_frame t e.1 r 0
  exact ⟨hmem.trans hmem', hfw'.trans hfw⟩

/-- The poll of the sensors has been done. -/
def polledNow (s : State) : State := { s with fw := { s.fw with polled := some s.now } }

theorem exec_thermalPoll_due {s : State} {temps : List Nat} (hp : s.power = .run) (hl : temps.length = 17)
    (hdue : ∀ t, s.fw.polled = some t → t + 4096 ≤ s.now) :
    exec (.thermalPoll temps) s = .next
      (if !(temps.any fun t => decide (105 ≤ t)) then polledNow s
      else { (((polledNow s).vds.filter fun e => e.2.run).foldl (fun s e => s.raiseHalt e.1 5 0) (polledNow s)).toHost (.unsolicited 129 0 [])
        with power := .tripped }) := by
  have hwait : (s.power != .run || temps.length != sensors || (s.fw.polled.any fun t => decide (s.now < t + 4096))) = false := by
    rw [hp, hl, bne_self_eq_false, Bool.false_or, show ((17 : Nat) != sensors) = false from rfl, Bool.false_or]
    cases hpoll : s.fw.polled with
    | none => rfl
    | some t => exact decide_eq_false (Nat.not_lt.mpr (hdue t hpoll))
  change execThermalPoll temps s = _
  unfold execThermalPoll
  rw [hwait, if_neg Bool.false_ne_true]
  rfl

theorem exec_thermalPoll_early {s : State} {temps : List Nat}
    (h : s.power ≠ .run ∨ temps.length ≠ 17 ∨ ∃ t, s.fw.polled = some t ∧ s.now < t + 4096) : exec (.thermalPoll temps) s = .next s := by
  have hwait : (s.power != .run || temps.length != sensors || (s.fw.polled.any fun t => decide (s.now < t + 4096))) = true := by
    rcases h with h | h | ⟨t, ht, hlt⟩
    · rw [bne_iff_ne.mpr h, Bool.true_or, Bool.true_or]
    · rw [bne_iff_ne.mpr (show temps.length ≠ sensors from h), Bool.or_true, Bool.true_or]
    · rw [ht, Option.any_some, decide_eq_true hlt, Bool.or_true]
  change execThermalPoll temps s = _
  unfold execThermalPoll
  rw [hwait, if_pos rfl]

theorem thermalPoll_trips {s : State} {temps : List Nat} (hp : s.power = .run) (hl : temps.length = 17)
    (hdue : ∀ t, s.fw.polled = some t → t + 4096 ≤ s.now) (hhot : ∃ x ∈ temps, 105 ≤ x) :
    ∃ t, exec (.thermalPoll temps) s = .next t ∧ t.power = .tripped ∧ t.fw.polled = some s.now ∧ SameMemory s t ∧
      ∀ v d, s.vd v = some d → d.run = true → d.halt = none → HaltedFor t v 5 := by
  have hany : temps.any (fun t => decide (105 ≤ t)) = true := by
    obtain ⟨x, hx, hle⟩ := hhot
    exact List.any_eq_true.mpr ⟨x, hx, decide_eq_true hle⟩
  obtain ⟨hmem, hfw⟩ := foldl_raiseHalt_frame 5 ((polledNow s).vds.filter fun e => e.2.run) (polledNow s)
  rw [exec_thermalPoll_due hp hl hdue, hany, Bool.not_true, if_neg Bool.false_ne_true]
  refine ⟨_, rfl, rfl, congrArg Fw.polled hfw, hmem, fun v d hd hrun hh => ?_⟩
  exact haltedFor_foldl (s := polledNow s) (by decide) hh _ (.inr ⟨hd, (v, d), List.mem_filter.mpr ⟨mem_of_tget hd, hrun⟩, rfl⟩)

/-! ### Stops (R282) -/

theorem exec_unitStop {s : State} {v : BitVec 8} {u : HaltUnit} {d : Vd} {h : Halt} (hd : s.vd v.toNat = some d) (hh : d.halt = some h)
    (hu : (s.unitsOf v.toNat).contains u = true) (hs : h.stopped.contains u = false) (hstep : d.steppingOn u = false)
    (hp : s.power = .run ∨ s.power = .tripped) : exec (.unitStop v u) s = .next (s.stopUnit v.toNat d h u) := by
  have hpow : (s.power == .run || s.power == .tripped) = true := by
    rcases hp with hp | hp <;> rw [hp] <;> rfl
  change execUnitStop v u s = _
  unfold execUnitStop
  dsimp only
  rw [hd]
  dsimp only
  rw [hh]
  dsimp only
  rw [hu, hs, hstep, hpow]
  rfl

theorem coreFrame_stopTiles (s : State) (v : Nat) (u : HaltUnit) (fatal : Bool) : CoreFrame s (s.stopTiles v u fatal) := by
  unfold State.stopTiles
  cases u with
  | matrix c =>
    dsimp only
    split
    · exact coreFrame_fatalTiles ..
    · exact ⟨sameMemory_modCore (foldl_modTile_memory _ _ _), rfl, rfl⟩
  | _ => exact ⟨.rfl' s, rfl, rfl⟩

/-- The state before the VD's halt takes the unit in: its tiles marked, its stop record written. -/
def stopMarked (s : State) (v : Nat) (h : Halt) (u : HaltUnit) : State :=
  let old := if h.stopped.isEmpty then s.fw.emerg.filter fun e => e.1 != v else s.fw.emerg
  let s := s.stopTiles v u h.fatal
  let s := ({ s with fw := { s.fw with emerg := insStop v (s.stopOf v h u) old } } : State).bump
  match u with | .plane c p => s.modPlane c.toNat p fun x => { x with stepping := false } | _ => s

/-- The halt with the unit among the stopped. -/
def haltedAt (d : Vd) (h : Halt) (u : HaltUnit) : Vd := { d with halt := some { h with stopped := h.stopped ++ [u] } }

theorem stopUnit_eq (s : State) (v : Nat) (d : Vd) (h : Halt) (u : HaltUnit) : s.stopUnit v d h u =
    (let t := (stopMarked s v h u).modVd v fun _ => haltedAt d h u
    if (t.unitsOf v).all fun x => (h.stopped ++ [u]).contains x then (if h.fatal then t.tellHalt v |>.discardFlits v else t.tellHalt v) else t) :=
  rfl

theorem stopMarked_frame (s : State) (v : Nat) (h : Halt) (u : HaltUnit) :
    SameMemory s (stopMarked s v h u) ∧ (stopMarked s v h u).vds = s.vds := by
  obtain ⟨hmem, hvds, -⟩ := coreFrame_stopTiles s v u h.fatal
  refine ⟨?_, ?_⟩
  · cases u with
    | plane c p => exact hmem.trans (sameMemory_modPlane _ _ _ _)
    | _ => exact hmem
  · cases u <;> exact hvds

/-- A debug halt reaches one more unit. -/
theorem stopUnit_debug {s : State} {v : Nat} {u : HaltUnit} {d : Vd} {h : Halt} (hd : s.vd v = some d) (hf : h.fatal = false) :
    SameMemory s (s.stopUnit v d h u) ∧ (s.stopUnit v d h u).vd v = some (haltedAt d h u) := by
  obtain ⟨hmem, hvds⟩ := stopMarked_frame s v h u
  have hvd : ((stopMarked s v h u).modVd v fun _ => haltedAt d h u).vd v = some (haltedAt d h u) := by
    rw [State.vd_modVd_same, State.vd, hvds, ← State.vd, hd]
    rfl
  rw [stopUnit_eq]
  dsimp only
  rw [if_neg (show ¬ h.fatal = true by rw [hf]; exact Bool.false_ne_true)]
  split <;> exact ⟨hmem, hvd⟩

/-! ### Freezes and world switches (R37, R285, R288) -/

theorem exec_freeze {s : State} {v : BitVec 8} {d : Vd} (hd : s.vd v.toNat = some d) (hp : s.power = .run) (hr : d.run = true)
    (hh : d.halt = none) (hf : d.freeze = none) (hu : d.unsave = false) : exec (.freeze v) s = .next (s.freezeVd v.toNat) := by
  change execFreeze v s = _
  unfold execFreeze
  dsimp only
  rw [hd]
  dsimp only
  rw [hp, hr, hh, hf, hu]
  rfl

theorem exec_flimKill {s : State} {key : Nat} {t : Task} {d : Vd} {f : Freeze} (ht : s.task key = some t) (hd : s.vd t.vd = some d)
    (hf : d.freeze = some f) (hs : f.saved = false) (hh : d.halt = none) (hst : t.state = .active ∨ t.state = .held ∨ t.state = .staged) :
    exec (.flimKill key) s = .next (if f.start + d.d.flim ≤ s.now then (s.killTask key 17).count t.vd 5 5 1 else s) := by
  have hissued : (t.state == .active || t.state == .held || t.state == .staged) = true := by
    rcases hst with h | h | h <;> rw [h] <;> rfl
  have hbind : ((s.vd t.vd).bind fun d => d.freeze.map fun f => (d, f)) = some (d, f) := by
    rw [hd, Option.bind_some, hf]
    rfl
  change execFlimKill key s = _
  unfold execFlimKill
  rw [ht]
  dsimp only
  rw [hbind]
  dsimp only
  rw [hs, hh, hissued, Option.isNone_none, Bool.not_false, Bool.true_and, Bool.true_and, Bool.and_true]
  simp only [decide_eq_true_eq]

/-- The state from which a frozen VD's sweeps are saved. -/
def savingVd (s : State) (v : Nat) : State := ((s.tasksOf v).foldl State.voidOwned (s.freezeReqs v)).flushStats v 2 true

theorem exec_freezeSave {s : State} {v : BitVec 8} {d : Vd} {f : Freeze} (hd : s.vd v.toNat = some d) (hf : d.freeze = some f)
    (hs : f.saved = false) (hh : d.halt = none) (hq : s.quiet v.toNat = true) (hp : s.power = .run)
    (hst : ((savingVd s v.toNat).vd v.toNat).map (fun d => d.stats) = some []) :
    (∀ w, saveSweeps (savingVd s v.toNat) ((savingVd s v.toNat).sweepsOf v.toNat) = (false, w) →
      exec (.freezeSave v) s = .next (w.unsaveable v.toNat)) ∧
    ∀ w x, saveSweeps (savingVd s v.toNat) ((savingVd s v.toNat).sweepsOf v.toNat) = (true, w) →
      w.quietWrite v.toNat d.d.csa ((w.banks v.toNat).flatMap wordBytes) = (none, x) →
      exec (.freezeSave v) s =
        .next (x.modVd v.toNat fun d => { d with freeze := some { f with saved := true }, savedTasks := x.tasksOf v.toNat }) := by
  obtain ⟨d', hd', hstats⟩ := Option.map_eq_some_iff.mp hst
  have hgo : (f.saved || d.halt.isSome || !(s.quiet v.toNat) || s.power != .run) = false := by
    rw [hs, hh, hq, hp]
    rfl
  refine ⟨fun w hw => ?_, fun w x hw hx => ?_⟩ <;> change execFreezeSave v s = _ <;> unfold execFreezeSave <;> dsimp only <;>
    rw [hd] <;> dsimp only <;> rw [hf] <;> dsimp only <;> rw [hgo, if_neg Bool.false_ne_true, ← savingVd, hd'] <;> dsimp only <;>
    rw [if_neg (by rw [hstats]; exact Bool.false_ne_true), hw]
  dsimp only
  rw [hx]

/-- The state once an outgoing VD that runs has left its hanks. -/
def outgoingLeft (s : State) (o : Nat) : State := if (s.vd o).elim false Vd.run then s.leaveHanks o else s

theorem exec_worldSwitch {s : State} {o i : BitVec 8} {d : Vd} (hd : s.vd i.toNat = some d) (hp : s.power = .run)
    (hl : s.mayLeave o.toNat = true) (hr : d.run = false) (hh : d.halt = none) (hu : d.unsave = false)
    (hf : ∀ f, d.freeze = some f → f.saved = true) (hfree : ∀ h ∈ d.d.hanks, (outgoingLeft s o.toNat).hankFree i.toNat h = true) :
    exec (.worldSwitch o i) s = .next
      (let t := d.d.hanks.foldl (fun t h => t.takeHank i.toNat h) (outgoingLeft s o.toNat)
      let t := (t.rootHome i.toNat).modVd i.toNat fun d => { d with run := true }
      if d.freeze.isSome then t.restoreVd i.toNat d else t) := by
  have hall : ¬ (!(d.d.hanks.all fun h => (outgoingLeft s o.toNat).hankFree i.toNat h)) = true := by
    rw [List.all_eq_true.mpr hfree]
    exact Bool.false_ne_true
  change execWorldSwitch o i s = _
  unfold execWorldSwitch
  dsimp only
  rw [hd]
  dsimp only
  have hgo : ∀ b, b = true →
      (s.power != .run || !(s.mayLeave o.toNat) || !((o.toNat == i.toNat || !d.run) && d.halt.isNone && !d.unsave && b)) = false := by
    rintro b rfl
    rw [hp, hl, hr, hh, hu, Bool.not_false, Bool.or_true]
    rfl
  rw [if_neg (by
    rw [hgo]
    · exact Bool.false_ne_true
    · cases hfr : d.freeze with
      | none => rw [hr]; rfl
      | some f => exact hf f hfr)]
  cases hvd : s.vd o.toNat with
  | none =>
    rw [show outgoingLeft s o.toNat = s by rw [outgoingLeft, hvd]; rfl] at hall ⊢
    exact congrArg Host.Outcome.next (if_neg hall)
  | some x =>
    rw [show outgoingLeft s o.toNat = if x.run then s.leaveHanks o.toNat else s by rw [outgoingLeft, hvd]; rfl] at hall ⊢
    exact congrArg Host.Outcome.next (if_neg hall)

/-! ### Migrations (R252, R253) -/

theorem exec_migrationCopyEnd_other {s : State} {i : Nat} {m : Mig} (hm : s.hbm.migs[i]? = some m) (hst : m.st ≠ .copying) :
    exec (.migrationCopyEnd i) s = .next s := by
  change execMigrationCopyEnd i s = _
  unfold execMigrationCopyEnd
  rw [hm]
  dsimp only
  rw [if_pos (bne_iff_ne.mpr hst)]

theorem exec_migrationCopyEnd {s w : State} {i : Nat} {m : Mig} {ok : Bool} (hm : s.hbm.migs[i]? = some m) (hst : m.st = .copying)
    (hw : (s.modHbm fun h => h.takeCtrs m.f m.g).copyBlocks m.f m.g (List.range 1024) = (ok, w)) :
    exec (.migrationCopyEnd i) s = .next (if ok = true then (w.dropLeaves m.f m.g).migInval i m m.g false .last
      else (w.mismatch (65536 * m.f) m.vd (BitVec.ofNat 64 (65536 * m.page))).migInval i m m.f false .undo) := by
  change execMigrationCopyEnd i s = _
  unfold execMigrationCopyEnd
  rw [hm]
  dsimp only
  rw [if_neg (by rw [hst]; exact Bool.false_ne_true), hw]
  cases ok <;> rfl

theorem exec_migrationCopyFail {s : State} {i : Nat} {m : Mig} (hm : s.hbm.migs[i]? = some m) :
    exec (.migrationCopyFail i) s = .next (if m.st == .copying then s.migInval i m m.f false .undo else s) := by
  change execMigrationCopyFail i s = _
  unfold execMigrationCopyFail
  rw [hm]

theorem migOn_eq {s : State} {i : Nat} {m : Mig} (hm : s.hbm.migs[i]? = some m) :
    (m.waits.all s.accSettled = false → s.migOn i = s) ∧
    (m.waits.all s.accSettled = true → (m.st = .last → s.migOn i = s.endMig i m m.f m.g) ∧ (m.st = .undo → s.migOn i = s.endMig i m m.g m.f) ∧
      (m.st = .first → (s.migOn i).hbm.migs = modAt s.hbm.migs i fun m => { m with st := .copying, waits := [] })) := by
  unfold State.migOn
  rw [hm]
  dsimp only
  refine ⟨fun h => by rw [h]; rfl, fun h => ?_⟩
  rw [h, Bool.not_true, if_neg Bool.false_ne_true]
  refine ⟨fun hst => ?_, fun hst => ?_, fun hst => ?_⟩ <;> rw [hst]
  rfl

theorem exec_asyncFaultTaken {s : State} {core : BitVec 10} {p : BitVec 1} {key : Nat} {t : Task} (ht : s.taskOf core.toNat p = some (key, t)) :
    exec (.asyncFaultTaken core p) s = .next
      (if t.state = .held && !t.faults.isEmpty && !(s.planeStopped core.toNat p) && (s.plane core.toNat p).trap.isNone
        then s.takeAsync core.toNat p else s) := by
  change execAsyncFaultTaken core p s = _
  unfold execAsyncFaultTaken
  dsimp only
  rw [ht]

/-- Settles O43. -/
theorem deviceEvents : Obligations.DeviceEvents := by
  intro s
  refine ⟨fun core p key t ht hfaults hstop htrap => ⟨fun hst => ?_, fun hst => ?_⟩, fun v u d h hd hh hu hs hstep hp =>
      ⟨_, exec_unitStop hd hh hu hs hstep hp, rfl, stopUnit_debug hd⟩,
    fun temps => ⟨fun hp hl hdue => ⟨fun hhot => thermalPoll_trips hp hl hdue hhot, fun hcold => ?_⟩, exec_thermalPoll_early⟩,
    fun v d hd hp hr hh hf hu => exec_freeze hd hp hr hh hf hu, fun key t d f ht hd hf hs hh hst => ⟨fun hle => ?_, fun hlt => ?_⟩,
    fun v d f hd hf hs hh hq hp hst => exec_freezeSave hd hf hs hh hq hp hst, ?_,
    fun i m hm => ⟨fun hst => ⟨?_, ?_⟩, fun hst => ⟨fun w hw => ?_, fun w hw => ?_, ?_⟩, (migOn_eq hm).1, (migOn_eq hm).2⟩⟩
  · have hne : t.faults.isEmpty = false := List.isEmpty_eq_false_iff.mpr hfaults
    rw [exec_asyncFaultTaken ht, hst, hne, hstop, htrap]
    rfl
  · rw [exec_asyncFaultTaken ht, decide_eq_false hst, Bool.false_and, Bool.false_and, Bool.false_and, if_neg Bool.false_ne_true]
  · have hany : temps.any (fun t => decide (105 ≤ t)) = false :=
      List.any_eq_false.mpr fun x hx => by simpa using hcold x hx
    rw [exec_thermalPoll_due hp hl hdue, hany]
    rfl
  · rw [exec_flimKill ht hd hf hs hh hst, if_pos hle]
  · rw [exec_flimKill ht hd hf hs hh hst, if_neg (Nat.not_le.mpr hlt)]
  · intro o i d hd hp hl hr hh hu hf t hfree u w
    have ht : t = outgoingLeft s o.toNat := by
      unfold outgoingLeft
      dsimp only [t]
      cases s.vd o.toNat <;> rfl
    exact exec_worldSwitch hd hp hl hr hh hu hf (ht ▸ hfree) |>.trans (by rw [← ht])
  · exact exec_migrationCopyEnd_other hm hst
  · rw [exec_migrationCopyFail hm, if_neg (by rw [beq_iff_eq]; exact hst)]
  · exact exec_migrationCopyEnd hm hst hw
  · exact exec_migrationCopyEnd hm hst hw
  · rw [exec_migrationCopyFail hm, hst, beq_self_eq_true, if_pos rfl]

end Sys2Proof.Claims

/-! ## What the device's own accesses to memory leave (spec/12_translation.md R237, R247, spec/13_virry.md R258, R263) -/

namespace Sys2Proof.Machine

/-- HBM, the VDs, the wake-ups and the messages to the host may differ, and of the cores the marks of tiles. -/
structure DevFrame (s t : State) : Prop where
  rest : ∃ cs ds h w d o, t = { s with cores := cs, vds := ds, hbm := h, fr := { s.fr with watches := w, decs := d }, io := { s.io with out := o } }
  core : ∀ c, ∃ ts, t.core c = { s.core c with tiles := ts }

theorem DevFrame.refl (s : State) : DevFrame s s :=
  ⟨⟨s.cores, s.vds, s.hbm, s.fr.watches, s.fr.decs, s.io.out, rfl⟩, fun c => ⟨(s.core c).tiles, rfl⟩⟩

theorem DevFrame.trans {s t u : State} (h : DevFrame s t) (h' : DevFrame t u) : DevFrame s u := by
  obtain ⟨⟨cs, ds, hb, w, d, o, rfl⟩, hcore⟩ := h
  obtain ⟨⟨cs', ds', hb', w', d', o', rfl⟩, hcore'⟩ := h'
  refine ⟨⟨cs', ds', hb', w', d', o', rfl⟩, fun c => ?_⟩
  obtain ⟨ts, ht⟩ := hcore c
  obtain ⟨ts', ht'⟩ := hcore' c
  exact ⟨ts', by rw [ht', ht]⟩

theorem devFrame_modHbm (s : State) (f : Hbm → Hbm) : DevFrame s (s.modHbm f) :=
  ⟨⟨s.cores, s.vds, f s.hbm, s.fr.watches, s.fr.decs, s.io.out, rfl⟩, fun c => ⟨(s.core c).tiles, rfl⟩⟩

theorem devFrame_modVd (s : State) (v : Nat) (f : Vd → Vd) : DevFrame s (s.modVd v f) :=
  ⟨⟨s.cores, tmod s.vds v f, s.hbm, s.fr.watches, s.fr.decs, s.io.out, rfl⟩, fun c => ⟨(s.core c).tiles, rfl⟩⟩

theorem devFrame_count (s : State) (v b i n : Nat) : DevFrame s (s.count v b i n) := devFrame_modVd ..

theorem devFrame_toHost (s : State) (m : HostMsg) : DevFrame s (s.toHost m) :=
  ⟨⟨s.cores, s.vds, s.hbm, s.fr.watches, s.fr.decs, s.io.out ++ [m], rfl⟩, fun c => ⟨(s.core c).tiles, rfl⟩⟩

/-- Marks of tiles. -/
theorem foldl_modTile_tiles (os : List MxOp) (f : Tile → Tile) (k : Core) :
    ∃ ts, os.foldl (fun k o => k.modTile o.tile f) k = { k with tiles := ts } :=
  List.foldlRecOn (motive := fun j : Core => ∃ ts, j = { k with tiles := ts }) _ _ ⟨k.tiles, rfl⟩
    fun _ ⟨ts, hj⟩ o _ => by rw [hj]; exact ⟨_, rfl⟩

theorem devFrame_fatalTiles (s : State) (v : Nat) (us : List HaltUnit) : DevFrame s (s.fatalTiles v us) := by
  refine List.foldlRecOn (motive := DevFrame s) _ _ (.refl s) fun t ht u _ => ht.trans ?_
  cases u with
  | matrix c =>
    refine ⟨⟨_, t.vds, t.hbm, t.fr.watches, t.fr.decs, t.io.out, rfl⟩, fun d => ?_⟩
    by_cases hd : d = c.toNat
    · subst hd
      dsimp only
      rw [State.core_modCore]
      exact foldl_modTile_tiles ..
    · exact ⟨_, State.core_modCore_ne _ _ hd⟩
  | _ => exact .refl t

theorem devFrame_raiseHalt (s : State) (v r : Nat) (x : Word) : DevFrame s (s.raiseHalt v r x) := by
  unfold State.raiseHalt
  cases s.vd v with
  | none => exact .refl s
  | some d =>
    dsimp only
    cases d.halt with
    | none =>
      dsimp only
      split
      · exact (devFrame_modVd ..).trans (devFrame_toHost ..)
      · exact devFrame_modVd ..
    | some h =>
      dsimp only
      split
      · exact .refl s
      · exact (devFrame_modVd ..).trans (devFrame_fatalTiles ..)

theorem devFrame_treeFault (s : State) (dom : Nat) : DevFrame s (s.treeFault dom) := by
  unfold State.treeFault
  split
  · exact devFrame_raiseHalt ..
  · exact .refl s

theorem devFrame_parentUp (s : State) (key : Nat) : DevFrame s (s.parentUp key).2 := by
  unfold State.parentUp
  dsimp only
  split
  · exact .refl s
  · dsimp only
    split
    · exact (devFrame_modHbm s _).trans (devFrame_count ..)
    · exact devFrame_modHbm s _

theorem devFrame_rootHome (s : State) (dom : Nat) : DevFrame s (s.rootHome dom) := by
  unfold State.rootHome
  split
  · split
    · exact .refl s
    · exact devFrame_modHbm ..
  · exact .refl s

theorem devFrame_storeIn (fuel : Nat) (s : State) (agent key : Nat) : DevFrame s (s.storeIn fuel agent key).2 := by
  induction fuel generalizing s agent key with
  | zero =>
    unfold State.storeIn
    dsimp only
    exact devFrame_modHbm ..
  | succ fuel ih =>
    have hup := ih s (s.hbm.nodeAgent (keyDom key)) (parentKey key)
    unfold State.storeIn
    split
    · exact .refl s
    · split
      · dsimp only
        exact devFrame_modHbm ..
      · split
        · next h => rw [h] at hup; exact hup
        · next u h =>
          rw [h] at hup
          split
          · exact hup
          · dsimp only
            split
            · dsimp only
              exact hup.trans (devFrame_modHbm ..)
            · generalize hw : u.modHbm _ = w
              have hmod : DevFrame u w := hw ▸ devFrame_modHbm ..
              refine hup.trans (hmod.trans ?_)
              have hev := ih w (w.hbm.nodeAgent (keyDom ((key :: tgetD u.hbm.store agent []).getLastD 0)))
                (parentKey ((key :: tgetD u.hbm.store agent []).getLastD 0))
              generalize w.storeIn fuel _ _ = up at hev ⊢
              have hboth : DevFrame w (if up.1 then up.2.parentUp ((key :: tgetD u.hbm.store agent []).getLastD 0) else up).2 := by
                split
                · exact hev.trans (devFrame_parentUp ..)
                · exact hev
              generalize (if up.1 = true then _ else up) = x at hboth ⊢
              split
              · exact hboth
              · split
                · exact hboth
                · exact hboth.trans (devFrame_treeFault ..)

theorem devFrame_leafTouch (s : State) (dpa : Nat) : DevFrame s (s.leafTouch dpa).2 := by
  unfold State.leafTouch
  split
  · exact (devFrame_rootHome ..).trans (devFrame_storeIn ..)
  · exact .refl s

theorem devFrame_homeRead (s : State) (dpa len : Nat) : DevFrame s (s.homeRead dpa len).2 := by
  have h := devFrame_leafTouch s dpa
  unfold State.homeRead
  split
  · next heq => rw [heq] at h; exact h
  · next heq =>
    rw [heq] at h
    split <;> exact h

theorem devFrame_minorAdvance {s t : State} {dpa : Nat} (h : s.minorAdvance dpa = some t) : DevFrame s t := by
  unfold State.minorAdvance at h
  dsimp only at h
  split at h
  · split at h
    · exact nomatch h
    · split at h
      · obtain rfl := Option.some.inj h
        split
        · exact (devFrame_modHbm ..).trans (devFrame_count ..)
        · exact devFrame_modHbm ..
      · obtain rfl := Option.some.inj h
        exact devFrame_modHbm ..
  · obtain rfl := Option.some.inj h
    exact devFrame_modHbm ..

theorem devFrame_wake (s : State) (dpa len : Nat) : DevFrame s (s.wake dpa len) :=
  ⟨⟨s.cores, s.vds, s.hbm, _, _, s.io.out, rfl⟩, fun c => ⟨(s.core c).tiles, rfl⟩⟩

theorem devFrame_homeWrite {s t : State} {dpa : Nat} {data : List Byte} {rep : Bool} (h : s.homeWrite dpa data rep = some t) : DevFrame s t := by
  have hleaf := devFrame_leafTouch s dpa
  unfold State.homeWrite at h
  split at h
  · exact nomatch h
  · next heq =>
    rw [heq] at hleaf
    dsimp only at h
    split at h
    · exact nomatch h
    · split at h
      · exact nomatch h
      · next hm =>
        obtain rfl := Option.some.inj h
        exact hleaf.trans ((devFrame_minorAdvance hm).trans ((devFrame_modHbm ..).trans (devFrame_wake ..)))

theorem devFrame_mismatch (s : State) (dpa v : Nat) (va : Word) : DevFrame s (s.mismatch dpa v va) := by
  unfold State.mismatch
  split
  · exact devFrame_raiseHalt ..
  · exact devFrame_count ..

theorem devFrame_badRead (s : State) (q : Bool) (dpa v : Nat) (va : Word) : DevFrame s (s.badRead q dpa v va) := by
  unfold State.badRead
  split
  · exact .refl s
  · exact devFrame_mismatch ..

theorem devFrame_walkGo (q : Bool) (root v va : Nat) (acc : AccTy) (ls : List Nat) (s : State) (t : Nat) :
    DevFrame s (walkGo s q root v va acc t ls).2 := by
  induction ls generalizing s t with
  | nil => exact .refl s
  | cons lvl rest ih =>
    unfold walkGo
    dsimp only
    split
    · exact .refl s
    · next leaf _ =>
      have hr := devFrame_homeRead s (leaf.dpa (t + 8 * s1Index va lvl)) 8
      split
      · next heq => rw [heq] at hr; exact hr.trans (devFrame_badRead ..)
      · next bs u heq =>
        rw [heq] at hr
        split
        · exact hr
        · split
          · exact hr.trans (ih u _)
          · split
            · exact hr
            · split
              · exact hr
              · split <;> exact hr

theorem devFrame_walkQ (s : State) (q : Bool) (v : Nat) (va : Word) (acc : AccTy) : DevFrame s (s.walkQ q v va acc).2 := by
  unfold State.walkQ
  split
  · exact .refl s
  · exact devFrame_walkGo ..

theorem devFrame_devTr (s : State) (q : Bool) (v va : Nat) (acc : AccTy) : DevFrame s (s.devTr q v va acc).2 := by
  have h := (devFrame_count s v 3 1 1).trans (devFrame_walkQ (s.count v 3 1 1) q v (BitVec.ofNat 64 va) acc)
  unfold State.devTr
  split
  · exact .refl s
  · split <;> next heq => rw [heq] at h; exact h

theorem devFrame_devReadGo (q : Bool) (v : Nat) (ps : List (Nat × Nat)) (s : State) : DevFrame s (devReadGo s q v ps).2 := by
  induction ps generalizing s with
  | nil => exact .refl s
  | cons p rest ih =>
    obtain ⟨a, n⟩ := p
    have htr := devFrame_devTr s q v a .read
    unfold devReadGo
    split
    · next heq => rw [heq] at htr; exact htr
    · next p u heq =>
      rw [heq] at htr
      have hr := devFrame_homeRead u p n
      split
      · next heq => rw [heq] at hr; exact htr.trans (hr.trans (devFrame_badRead ..))
      · next bs w heq =>
        rw [heq] at hr
        have hmore := ih w
        split
        · next heq => rw [heq] at hmore; exact htr.trans (hr.trans hmore)
        · exact htr.trans (hr.trans hmore)

theorem devFrame_devWriteGo (q : Bool) (v : Nat) (ps : List (Nat × Nat)) (data : List Byte) (s : State) :
    DevFrame s (devWriteGo s q v data ps).2 := by
  induction ps generalizing s data with
  | nil => exact .refl s
  | cons p rest ih =>
    obtain ⟨a, n⟩ := p
    have htr := devFrame_devTr s q v a .write
    unfold devWriteGo
    split
    · next heq => rw [heq] at htr; exact htr
    · next p u heq =>
      rw [heq] at htr
      split
      · exact htr.trans (((devFrame_modHbm ..).trans (devFrame_count ..)).trans (ih _ _))
      · split
        · exact htr.trans (devFrame_badRead ..)
        · next hw => exact htr.trans ((devFrame_homeWrite hw).trans (ih _ _))

theorem devFrame_double (s : State) (v kind : Nat) : DevFrame s (s.double v kind) := by
  unfold State.double
  split
  · exact (devFrame_modVd ..).trans (devFrame_raiseHalt ..)
  · exact devFrame_raiseHalt ..

theorem devFrame_sureRead (s : State) (v a n : Nat) : DevFrame s (s.sureRead v a n).2 := by
  have h := devFrame_devReadGo true v (blocks a n) s
  unfold State.sureRead
  split
  · next heq => rw [heq] at h; exact h
  · next heq => rw [heq] at h; exact h.trans (devFrame_double ..)

theorem devFrame_sureWord (s : State) (v a : Nat) : DevFrame s (s.sureWord v a).2 := by
  have h := devFrame_sureRead s v a 8
  unfold State.sureWord
  split <;> next heq => rw [heq] at h; exact h

theorem devFrame_sureWrite (s : State) (v a : Nat) (data : List Byte) : DevFrame s (s.sureWrite v a data).2 := by
  have h := devFrame_devWriteGo true v (blocks a data.length) data s
  unfold State.sureWrite
  split
  · next heq => rw [heq] at h; exact h
  · next heq => rw [heq] at h; exact h.trans (devFrame_double ..)

theorem devFrame_mustWrite (s : State) (v a : Nat) (ws : List Word) : DevFrame s (s.mustWrite v a ws).2 := devFrame_sureWrite ..

end Sys2Proof.Machine

/-! ## Engine boundaries, copy entries, completions and the slot boundary (spec/09_matrix.md R163, R180, R183, spec/10_memory_streams.md R194
to R197, spec/04_calendars.md R87) -/

namespace Sys2Proof.Machine

@[simp] theorem State.core_modPlane_cp (s : State) (c : Nat) (p : BitVec 1) (f : Plane → Plane) (d : Nat) :
    ((s.modPlane c p f).core d).cp = (s.core d).cp := by
  rw [State.modPlane]
  by_cases h : d = c
  · rw [h, State.core_modCore, Core.setPlane_cp]
  · rw [State.core_modCore_ne _ _ h]

theorem State.core_modPlane_bobbin (s : State) (c : Nat) (p : BitVec 1) (f : Plane → Plane) (d : Nat) :
    ((s.modPlane c p f).core d).bobbin = (s.core d).bobbin := by
  rw [State.modPlane]
  by_cases h : d = c
  · rw [h, State.core_modCore, Core.setPlane_bobbin]
  · rw [State.core_modCore_ne _ _ h]

theorem DevFrame.cp {s t : State} (h : DevFrame s t) (c : Nat) : (t.core c).cp = (s.core c).cp := by
  obtain ⟨ts, ht⟩ := h.core c
  rw [ht]

/-- A fault that is kept or reported leaves the copies of every engine. -/
theorem State.cp_addFault (s : State) (key : Nat) (f : AFault) (c : Nat) : ((s.addFault key f).core c).cp = (s.core c).cp := by
  unfold State.addFault
  cases s.task key with
  | none => rfl
  | some t =>
    dsimp only
    split
    · rw [State.core, State.count_cores, ← State.core, State.core_modPlane_cp]
    · next k d _ _ _ =>
      have hr := devFrame_sureWord s t.vd (d.d.tra + 64 * k + 40)
      split
      · next heq => rw [heq] at hr; exact hr.cp c
      · next w u heq =>
        rw [heq] at hr
        exact ((devFrame_mustWrite ..).cp c).trans (hr.cp c)
    · rfl

end Sys2Proof.Machine

namespace Sys2Proof.Claims

open Sys2Proof.Machine

/-! ### The matrix engine (R163, R180, R183) -/

section
variable {s : State} {core : BitVec 10}

theorem exec_kStep {o : MxOp} (ht : s.mxTurn core.toNat = some o) (hm : s.mxMay core.toNat o = true) :
    exec (.kStep core) s = .next (if o.c.st = .waiting then s.beginMx core.toNat else s.mxBoundary core.toNat o) := by
  change execKStep core s = _
  unfold execKStep
  dsimp only
  rw [ht]
  dsimp only
  rw [if_pos hm]

theorem exec_mx_idle (ht : s.mxTurn core.toNat = none) : exec (.kStep core) s = .next s ∧ exec (.mbrdReady core) s = .next s := by
  refine ⟨?_, ?_⟩
  · change execKStep core s = _
    unfold execKStep
    dsimp only
    rw [ht]
  · change execMbrdReady core s = _
    unfold execMbrdReady
    dsimp only
    rw [ht]

theorem exec_matrixComplete {o : MxOp} (ho : s.mxDone core.toNat = some o) :
    exec (.matrixComplete core) s = .next (if s.unitRuns o.c.vd (mxUnit core.toNat) = true then s.mxComplete core.toNat o else s) := by
  change execMatrixComplete core s = _
  unfold execMatrixComplete
  dsimp only
  rw [ho]

/-- The row's segment that an MBRD reads, converted (R180). -/
def mbrdRow (k : Core) (o : MxOp) (row seg : Nat) (ty : BitVec 4) (rm : BitVec 3) : List Nat × BitVec 6 × BitVec 6 × Stat :=
  drainRow k o.tile rm.toNat (o.en.getLsbD 3) false ty.toNat row (seg * (1024 / tyWidth ty.toNat)) (1024 / tyWidth ty.toNat)

/-- The state of an MBRD whose work has ended, before the register is written. -/
def mbrdDone (s : State) (c : Nat) (o : MxOp) (row seg : Nat) (ty : BitVec 4) (rm : BitVec 3) : State :=
  s.mxWork c o { k := (s.core c).modTile o.tile fun t => { t with fl := t.fl ||| (mbrdRow (s.core c) o row seg ty rm).2.1 },
                 fl := (mbrdRow (s.core c) o row seg ty rm).2.2.1, stat := (mbrdRow (s.core c) o row seg ty rm).2.2.2 } true

theorem exec_mbrdReady {o : MxOp} {row seg : Nat} {ty : BitVec 4} {v : BitVec 5} {rm : BitVec 3} (ht : s.mxTurn core.toNat = some o)
    (hk : o.kind = .mbrd row seg ty v rm) (hm : s.mxMay core.toNat o = true) (hst : o.c.st = .running)
    (hclear : s.cmdClear core.toNat o.c (.bobbin core.toNat (entryOff o.tile row (seg * (1024 / tyWidth ty.toNat)))) (8 * (1024 / tyWidth ty.toNat)) =
      true) :
    exec (.mbrdReady core) s = .next
      (if ((mbrdDone s core.toNat o row seg ty rm).plane core.toNat o.c.plane).task == some o.c.task then
        (mbrdDone s core.toNat o row seg ty rm).modPlane core.toNat o.c.plane
          fun x => x.wv v (ofElems (tyWidth ty.toNat) (mbrdRow (s.core core.toNat) o row seg ty rm).1)
      else mbrdDone s core.toNat o row seg ty rm) := by
  change execMbrdReady core s = _
  unfold execMbrdReady
  dsimp only
  rw [ht]
  dsimp only
  rw [hk]
  dsimp only
  rw [hm, hst, hclear]
  rfl

theorem core_mbrdDone (c : Nat) (o : MxOp) (row seg : Nat) (ty : BitVec 4) (rm : BitVec 3) :
    ∃ ts mx, (mbrdDone s c o row seg ty rm).core c = { s.core c with tiles := ts, mx := mx } := by
  unfold mbrdDone State.mxWork State.modMx
  rw [State.core_modCore, State.core_setCore]
  exact ⟨_, _, rfl⟩

/-- The row's segment reaches the register, and no byte changes (R180). -/
theorem mbrdReady_writes {o : MxOp} {row seg : Nat} {ty : BitVec 4} {v : BitVec 5} {rm : BitVec 3} {c : Nat}
    (htask : (s.plane c o.c.plane).task = some o.c.task) :
    let u := mbrdDone s c o row seg ty rm
    let x := ofElems (tyWidth ty.toNat) (mbrdRow (s.core c) o row seg ty rm).1
    let t := if (u.plane c o.c.plane).task == some o.c.task then u.modPlane c o.c.plane fun y => y.wv v x else u
    (t.core c).bobbin = (s.core c).bobbin ∧ (t.core c).spad = (s.core c).spad ∧
      (∀ r, (t.plane c o.c.plane).rv r = if r = v then x else (s.plane c o.c.plane).rv r) ∧
      ∀ r, (t.plane c o.c.plane).rg r = (s.plane c o.c.plane).rg r := by
  intro u x t
  obtain ⟨ts, mx, hu⟩ := core_mbrdDone (s := s) c o row seg ty rm
  have hplane : u.plane c o.c.plane = s.plane c o.c.plane := by
    rw [State.plane, show u.core c = _ from hu]
    rfl
  have ht : t = u.modPlane c o.c.plane fun y => y.wv v x := if_pos (by rw [hplane, htask, beq_self_eq_true])
  rw [ht, State.core_modPlane_bobbin, State.core_modPlane_spad, State.plane_modPlane, hplane, show u.core c = _ from hu]
  exact ⟨rfl, rfl, fun r => Plane.rv_wv .., fun r => Plane.wv_rg ..⟩

/-! ### The end of a copy (R194, R340) -/

theorem exec_copyComplete {o : CpOp} (ho : s.cpDone core.toNat = some o) (hr : s.unitRuns o.c.vd (cpUnit core.toNat) = true) :
    exec (.copyComplete core) s = .next (s.cpComplete core.toNat o) := by
  change execCopyComplete core s = _
  unfold execCopyComplete
  dsimp only
  rw [ho]
  dsimp only
  rw [if_pos hr]

end

section
variable {s : State} {c : Nat} {o : CpOp}

/-- The copy out of its engine, and CPC of its task one less. -/
def cpLeft (s : State) (c : Nat) (o : CpOp) : State :=
  let s := s.modCore c fun k => { k with cp := k.cp.filter fun x => x.c.id != o.c.id }
  if (s.plane c o.c.plane).task == some o.c.task then
    s.modPlane c o.c.plane fun x => { x with oc := { x.oc with cpc := x.oc.cpc - 1 } }
  else s

/-- The copy's end as its task's CPYQ and lead times tell it. -/
def cpTold (o : CpOp) (now : Nat) (k : Task) : Task :=
  { k with leads := k.leads.map fun l => if l.id = o.c.id then { l with done := some now } else l,
           cpq := k.cpq.map fun e => if e.2.id = o.c.id then (e.1, { e.2 with state := o.c.endState, ents := o.ents, bytes := o.bytes }) else e }

/-- The state before the exceptions of a copy's end. -/
def cpTagged (s : State) (c : Nat) (o : CpOp) : State :=
  let s := (cpLeft s c o).modTask o.c.task (cpTold o (cpLeft s c o).now)
  o.tag.elim s (s.setTag c o.c)

theorem cpComplete_eq (hbk : o.c.bk = 0) : s.cpComplete c o = (cpTagged s c o).cpExceptions c o := by
  have hdone : ∀ t : State, t.stepDone o.c = t := fun t => by rw [State.stepDone, if_pos hbk]
  unfold State.cpComplete
  dsimp only
  rw [hdone]
  unfold cpTagged
  cases o.tag <;> rfl

theorem cp_cpLeft : ((cpLeft s c o).core c).cp = (s.core c).cp.filter fun x => x.c.id != o.c.id := by
  unfold cpLeft
  dsimp only
  split
  · rw [State.core_modPlane_cp, State.core_modCore]
  · rw [State.core_modCore]

theorem cp_setTag (cmd : Cmd) (t : BitVec 6) (d : Nat) : ((s.setTag c cmd t).core d).cp = (s.core d).cp := by
  unfold State.setTag
  split
  · exact State.core_modPlane_cp ..
  · rfl

theorem cp_cpExceptions (d : Nat) : ((s.cpExceptions c o).core d).cp = (s.core d).cp := by
  unfold State.cpExceptions
  split
  · rfl
  · split
    · exact State.cp_addFault ..
    · split
      · exact State.cp_addFault ..
      · split
        · exact State.core_modPlane_cp ..
        · rfl

theorem cp_cpComplete (hbk : o.c.bk = 0) : ((s.cpComplete c o).core c).cp = (s.core c).cp.filter fun x => x.c.id != o.c.id := by
  have hmod : (((cpLeft s c o).modTask o.c.task (cpTold o (cpLeft s c o).now)).core c).cp = (s.core c).cp.filter fun x => x.c.id != o.c.id :=
    cp_cpLeft
  rw [cpComplete_eq hbk, cp_cpExceptions, cpTagged]
  cases o.tag with
  | none => exact hmod
  | some t => exact (cp_setTag ..).trans hmod

/-- The plane of a copy's task at its end, before its exceptions. -/
def taggedPlane (o : CpOp) (x : Plane) : Plane :=
  { x with oc := { x.oc with cpc := x.oc.cpc - 1 },
           sr := { x.sr with tags := o.tag.elim x.sr.tags fun t => x.sr.tags ||| ((1 : Word) <<< t.toNat) } }

theorem plane_cpTagged (ht : (s.plane c o.c.plane).task = some o.c.task) :
    (cpTagged s c o).plane c o.c.plane = taggedPlane o (s.plane c o.c.plane) := by
  have hcore : (s.modCore c fun k => { k with cp := k.cp.filter fun x => x.c.id != o.c.id }).plane c o.c.plane = s.plane c o.c.plane := by
    rw [State.plane, State.core_modCore]
    rfl
  have hleft : (cpLeft s c o).plane c o.c.plane =
      { s.plane c o.c.plane with oc := { (s.plane c o.c.plane).oc with cpc := (s.plane c o.c.plane).oc.cpc - 1 } } := by
    rw [cpLeft]
    dsimp only
    rw [hcore, if_pos (by rw [ht, beq_self_eq_true]), State.plane_modPlane, hcore]
  have hmod : ((cpLeft s c o).modTask o.c.task (cpTold o (cpLeft s c o).now)).plane c o.c.plane = (cpLeft s c o).plane c o.c.plane := rfl
  rw [cpTagged, taggedPlane]
  cases o.tag with
  | none => exact hmod.trans hleft
  | some t =>
    rw [Option.elim_some, Option.elim_some, State.setTag, if_pos (by rw [hmod, hleft]; exact beq_iff_eq.mpr ht), State.plane_modPlane, hmod, hleft]

/-- The flags of a copy that raises no enabled exception (R158). -/
theorem plane_cpExceptions (ht : (s.plane c o.c.plane).task = some o.c.task) (hfl : o.flags &&& o.en = 0#6) :
    (s.cpExceptions c o).plane c o.c.plane =
      { s.plane c o.c.plane with sr := { (s.plane c o.c.plane).sr with
        fps := if o.c.endState = 6 then (s.plane c o.c.plane).sr.fps else (s.plane c o.c.plane).sr.fps ||| (o.flags &&& 0x1F) } } := by
  have hsn : (o.en.getLsbD 5 && o.flags.getLsbD 5) = false := by
    rw [Bool.and_comm, ← BitVec.getLsbD_and, hfl, BitVec.getLsbD_zero]
  unfold State.cpExceptions
  split
  · rfl
  · rw [hsn, if_neg Bool.false_ne_true, hfl, if_neg (by simp), if_pos (by rw [ht, beq_self_eq_true]), State.plane_modPlane]

theorem plane_cpComplete (hbk : o.c.bk = 0) (ht : (s.plane c o.c.plane).task = some o.c.task) (hfl : o.flags &&& o.en = 0#6) :
    let t := s.cpComplete c o
    (t.plane c o.c.plane).oc.cpc = (s.plane c o.c.plane).oc.cpc - 1 ∧
    (o.c.endState ≠ 6 → (t.plane c o.c.plane).sr.fps = (s.plane c o.c.plane).sr.fps ||| (o.flags &&& 0x1F)) ∧
    ∀ tag, o.tag = some tag → (t.plane c o.c.plane).sr.tags.getLsbD tag.toNat = true := by
  intro t
  have htag := plane_cpTagged ht
  have hplane := plane_cpExceptions (s := cpTagged s c o) (c := c) (o := o) (by rw [htag]; exact ht) hfl
  rw [htag] at hplane
  rw [show t = _ from cpComplete_eq hbk, hplane]
  refine ⟨rfl, fun hne => if_neg hne, fun tag htg => ?_⟩
  dsimp only [taggedPlane]
  rw [htg, Option.elim_some, BitVec.getLsbD_or, BitVec.getLsbD_shiftLeft]
  have := tag.isLt
  simp; omega

end

/-! ### Entries of a copy (R194 to R196) -/

/-- What an outcome of an entry does to the copy. -/
def entryEnds (c : Nat) (o : CpOp) (r : CpRes) (s : State) : State :=
  match r with | .fault code v => s.cpFault c o code v | .stop => s | .ok _ => s

section
variable {s u : State} {c : Nat} {o o' : CpOp} {line : Word} {w : Nat} {e : Entry}

/-- The copy whose turn it is, at an entry that it has read. -/
structure AtEntry (s u : State) (c : Nat) (o o' : CpOp) (line : Word) (w : Nat) (e : Entry) : Prop where
  turn : s.cpTurn c = some o
  may : s.cpMay c o = true
  entry : s.entryAt c o = (.ok (line, w, e), u)
  copy : (u.modCp c o.c.id fun o => { o with c := { o.c with st := .running } }).cpOp c o.c.id = some o'

/-- The state in which the copy acts on its entry. -/
def entryState (u : State) (c : Nat) (o : CpOp) : State := u.modCp c o.c.id fun o => { o with c := { o.c with st := .running } }

theorem cpAct_at (h : AtEntry s u c o o' line w e) {act : CpOp → Word → Nat → Entry → State → Option (CpRes × State)} {r : CpRes} {t : State}
    (hact : act o' line w e (entryState u c o) = some (r, t)) : s.cpAct c act = entryEnds c o r t := by
  unfold State.cpAct
  rw [h.turn]
  dsimp only
  rw [h.may, h.entry]
  dsimp only
  rw [h.copy, Option.bind_some, ← entryState, hact]
  cases r <;> rfl

theorem cpAct_unread {code : Nat} {v : Word} {t : State} (hturn : s.cpTurn c = some o) (hmay : s.cpMay c o = true)
    (h : s.entryAt c o = (.error (.fault code v), t)) (act : CpOp → Word → Nat → Entry → State → Option (CpRes × State)) :
    s.cpAct c act = t.cpFault c o code v := by
  unfold State.cpAct
  rw [hturn]
  dsimp only
  rw [hmay, h]
  rfl

end

section
variable {s u : State} {core : BitVec 10} {o o' : CpOp} {line : Word} {w : Nat}

theorem chainTag_sets {tag : BitVec 6} (h : AtEntry s u core.toNat o o' line w (.tag tag)) :
    exec (.chainTag core) s = .next (((entryState u core.toNat o).entryDone core.toNat o' line w 1).setTag core.toNat o'.c tag) :=
  congrArg Host.Outcome.next (cpAct_at (r := .ok []) h rfl)

theorem chainEnd_ends (h : AtEntry s u core.toNat o o' line w .fin) (hl : o'.loop = none) :
    exec (.chainEnd core) s = .next (((entryState u core.toNat o).entryDone core.toNat o' line w 1).cpEnd core.toNat o') :=
  congrArg Host.Outcome.next (cpAct_at (r := .ok []) h (by dsimp only; rw [hl]; rfl))

theorem chainEnd_in_loop (h : AtEntry s u core.toNat o o' line w .fin) (hl : o'.loop ≠ none) :
    exec (.chainEnd core) s = .next ((entryState u core.toNat o).cpFault core.toNat o 1 line) :=
  congrArg Host.Outcome.next (cpAct_at (r := .fault 1 line) h (by dsimp only; rw [if_pos (Option.isSome_iff_ne_none.mpr hl)]))

theorem chainLoop_starts {k n : Nat} {si di : Int} (h : AtEntry s u core.toNat o o' line w (.loopc k n si di)) (hl : o'.loop = none) (hn : n ≠ 0) :
    exec (.chainLoop core) s = .next (((entryState u core.toNat o).entryDone core.toNat o' line w 1).modCp core.toNat o'.c.id fun o =>
      { o with loop := some { line := line, word := w, k := k, left := k, r := 0, n := n, sinc := si, dinc := di } }) :=
  congrArg Host.Outcome.next (cpAct_at (r := .ok []) h (by dsimp only; rw [hl, Option.isSome_none, if_neg Bool.false_ne_true, if_neg hn]; rfl))

theorem chainIf_reads {k cond x : Nat} {a : Word} {bs : List Byte} {y : State} (h : AtEntry s u core.toNat o o' line w (.ifc k cond x a))
    (ha : a &&& 7#64 = 0#64) (hl : o'.loop = none) (hg : (entryState u core.toNat o).gather core.toNat o' [.read a 8] = (.ok bs, y)) :
    (ifcCond cond (leWord bs) x = true → exec (.chainIf core) s = .next (y.entryDone core.toNat o' line w 1)) ∧
    ∀ l' w' z, ifcCond cond (leWord bs) x = false → skipGo y core.toNat o' line w k = (.ok (l', w'), z) →
      exec (.chainIf core) s = .next (z.entryDone core.toNat o' l' w' (k + 1)) := by
  refine ⟨fun hc => congrArg Host.Outcome.next (cpAct_at (r := .ok []) h ?_),
    fun l' w' z hc hs => congrArg Host.Outcome.next (cpAct_at (r := .ok []) h ?_)⟩ <;> dsimp only <;>
    rw [if_neg (show ¬ (a &&& 7 ≠ 0) from not_not_intro ha), hl] <;> dsimp only <;>
      rw [Bool.not_true, if_neg Bool.false_ne_true, hg] <;> dsimp only <;> rw [hc]
  · rfl
  · rw [if_neg Bool.false_ne_true, hs]
    rfl

theorem copyEntry_copies {ss ds rk : Bool} {dec len : Nat} {src dst : Word}
    (h : AtEntry s u core.toNat o o' line w (.copy ss ds rk dec len src dst)) :
    (∀ bs x, (entryState u core.toNat o).doCopy core.toNat o' ss ds rk dec len src dst = (.ok bs, x) → exec (.copyEntry core) s = .next
      (if o'.chain = true then x.entryDone core.toNat o' line w 1 else (x.entryDone core.toNat o' line w 1).cpEnd core.toNat o')) ∧
    (∀ x, (entryState u core.toNat o).doCopy core.toNat o' ss ds rk dec len src dst = (.stop, x) → exec (.copyEntry core) s = .next x) ∧
    ∀ code tv x, (entryState u core.toNat o).doCopy core.toNat o' ss ds rk dec len src dst = (.fault code tv, x) →
      exec (.copyEntry core) s = .next (x.cpFault core.toNat o code tv) := by
  refine ⟨fun bs x hx => congrArg Host.Outcome.next (cpAct_at (r := .ok []) h ?_),
    fun x hx => congrArg Host.Outcome.next (cpAct_at (r := .stop) h ?_),
    fun code tv x hx => congrArg Host.Outcome.next (cpAct_at (r := .fault code tv) h ?_)⟩ <;> dsimp only <;> rw [hx]
  rfl

/-! ### The slot boundary (R87) -/

theorem slot_newBudgets (s : State) : s.newBudgets.slot = s.slot :=
  List.foldlRecOn (motive := fun t : State => t.slot = s.slot) _ _ rfl fun _ ht _ _ => ht

theorem slot_prunePeriods (s : State) : s.prunePeriods.slot = s.slot := by
  unfold State.prunePeriods
  split <;> rfl

end

/-- Settles O44. -/
theorem engineEvents : Obligations.EngineEvents := by
  intro s core c
  refine ⟨fun o ht hm => ⟨fun hst => ?_, fun hst => ?_, ?_⟩,
    exec_mx_idle, fun o => exec_matrixComplete,
    fun o ho hr => ⟨_, exec_copyComplete ho hr, rfl, cp_cpComplete, plane_cpComplete⟩,
    fun o hturn hmay => ⟨?_, fun code tv u hu => ?_⟩, fun hp => ?_, fun hp => ?_⟩
  · rw [exec_kStep ht hm, if_pos hst]
  · rw [exec_kStep ht hm, if_neg hst]
  · intro row seg ty v rm hk hst e hclear htask
    exact ⟨_, exec_mbrdReady ht hk hm hst hclear, mbrdReady_writes htask⟩
  · rintro line w e u v o' hentry rfl hcopy
    refine ⟨?_, ?_, ?_, ?_, ?_, ?_⟩
    · rintro tag rfl
      exact chainTag_sets ⟨hturn, hmay, hentry, hcopy⟩
    · rintro rfl hl
      exact chainEnd_ends ⟨hturn, hmay, hentry, hcopy⟩ hl
    · rintro rfl hl
      exact chainEnd_in_loop ⟨hturn, hmay, hentry, hcopy⟩ hl
    · rintro k n si di rfl hl hn
      exact chainLoop_starts ⟨hturn, hmay, hentry, hcopy⟩ hl hn
    · rintro k cond x a bs y rfl ha hl hg
      exact chainIf_reads ⟨hturn, hmay, hentry, hcopy⟩ ha hl hg
    · rintro ss ds rk dec len src dst rfl
      exact copyEntry_copies ⟨hturn, hmay, hentry, hcopy⟩
  · exact congrArg Host.Outcome.next (cpAct_unread hturn hmay hu _)
  · refine ⟨?_, (slot_newBudgets _).trans (slot_prunePeriods _)⟩
    change execSlotBoundary s = _
    unfold execSlotBoundary
    rw [hp, bne_self_eq_false, if_neg Bool.false_ne_true]
  · change execSlotBoundary s = _
    unfold execSlotBoundary
    rw [if_pos (bne_iff_ne.mpr hp)]

end Sys2Proof.Claims

/-! ## The exchange between booking units, their searches and clocks (spec/04_calendars.md R67 to R87, spec/16_fliurn.md R311 to R315) -/

namespace Sys2Proof.Claims

open Sys2Proof.Machine

/-! ### Messages that come (R311, R312) -/

/-- A message that this package takes acts on the VD that it names. -/
theorem receive_comes {s : State} {m : FMsg} {type : Nat} {d : Vd} (h : Comes s m type d) (act : Vd → State) : s.receive m type act = act d := by
  obtain ⟨ht, hok, hnode, hdst, hp, hd, hspan, hhalt⟩ := h
  have hisn : s.fab.node.isNone = false := by rw [Option.isNone_eq_false_iff]; exact hnode
  unfold State.receive
  rw [if_neg (by simp [ht, hok, hisn, hdst, hp]), hd]
  dsimp only
  rw [if_pos hspan]
  rcases hhalt with hhalt | hle
  · rw [hhalt]
  · cases d.halt with
    | none => rfl
    | some k => exact if_pos hle

/-- The low bits of a word as a field. -/
theorem fld_zero (w : Word) (n : Nat) : Machine.fld w 0 n = (w.setWidth n).toNat := by
  rw [Machine.fld, BitVec.extractLsb'_toNat, Nat.shiftRight_zero, BitVec.toNat_setWidth]

/-! ### Holds and intervals that are freed (R87) -/

theorem freeHolds_holds (k : Bk) {p : CHold → Bool} {P : CHold → Prop} [DecidablePred P] (h : ∀ x, p x = true ↔ P x) :
    (k.freeHolds p).holds = k.holds.map fun x => if P x then { x with dead := true } else x := by
  refine List.map_congr_left fun x _ => ?_
  by_cases hx : P x
  · rw [if_pos hx, if_pos ((h x).mpr hx)]
  · rw [if_neg hx, if_neg (mt (h x).mp hx)]

theorem freeRints_rints (k : Bk) {p : RInt → Bool} {P : RInt → Prop} [DecidablePred P] (h : ∀ x, p x = true ↔ P x) :
    (k.freeRints p).rints = k.rints.map fun x => if P x then { x with dead := true } else x := by
  refine List.map_congr_left fun x _ => ?_
  by_cases hx : P x
  · rw [if_pos hx, if_pos ((h x).mpr hx)]
  · rw [if_neg hx, if_neg (mt (h x).mp hx)]

theorem tentative_iff (id : Nat) (h : CHold) : h.tentative id = true ↔ h.req = id ∧ h.node = none ∧ h.senior = none := by
  rw [CHold.tentative, Bool.and_eq_true, Bool.and_eq_true, beq_iff_eq, Option.isNone_iff_eq_none, Option.isNone_iff_eq_none, and_assoc]

/-! ### PREPARE (R70) -/

section
variable {s : State} {i id j start len rate : Nat} {cands : List Nat} {r : BReq}

/-- PREPARE of a step with no other step's core, behind no ABORT: the first calendar with room. -/
theorem exec_bookPrepare (hm : s.bk.msgs[i]? = some (.prepare id j start len rate cands none))
    (hr : (s.bk.reqs.find? fun r => r.id == id) = some r) (hlate : ∀ k, k < i → s.bk.msgs[k]? ≠ some (.abort id j)) :
    exec (.bookPrepare (.inner i)) s = .next
      (match s.findRoom (s.bk.ivalsOf id r.task r.record) (cands.filter s.calUp) start len rate with
      | .ok cal =>
        (s.takeMsg i).modBk fun k =>
          { k with msgs := k.msgs ++ [BMsg.grant id j cal start],
                   holds := k.holds ++ [{ cal := cal, start := start, len := len, rate := rate, req := id, node := none, step := j,
                                          placed := s.now, senior := none, dead := false }] }
      | .error h => (s.takeMsg i).modBk fun k => { k with msgs := k.msgs ++ [BMsg.refuse id j h] }) := by
  have hnone : ((s.bk.msgs.take i).any fun m => m == .abort id j) = false := by
    refine List.any_eq_false.mpr fun m hmem heq => ?_
    obtain ⟨k, hk, hget⟩ := List.getElem_of_mem hmem
    rw [List.length_take] at hk
    refine hlate k (by omega) ?_
    rw [List.getElem_take] at hget
    rw [List.getElem?_eq_getElem (by omega), hget, beq_iff_eq.mp heq]
  change execBookPrepare (.inner i) s = _
  unfold execBookPrepare
  dsimp only
  rw [hm]
  dsimp only
  unfold State.prepareInner
  dsimp only
  rw [hr]
  dsimp only
  rw [hnone, if_neg Bool.false_ne_true]
  rfl

theorem bookPrepare_grants {cal : Nat} (hm : s.bk.msgs[i]? = some (.prepare id j start len rate cands none))
    (hr : (s.bk.reqs.find? fun r => r.id == id) = some r) (hlate : ∀ k, k < i → s.bk.msgs[k]? ≠ some (.abort id j))
    (hroom : ((cands.filter s.calUp).find? fun cal => fitsIn true (s.bk.ivalsOf id r.task r.record cal) (calBudget cal) start len rate) = some cal) :
    exec (.bookPrepare (.inner i)) s = .next ((s.takeMsg i).modBk fun k =>
      { k with msgs := k.msgs ++ [BMsg.grant id j cal start],
               holds := k.holds ++ [{ cal := cal, start := start, len := len, rate := rate, req := id, node := none, step := j,
                                      placed := s.now, senior := none, dead := false }] }) := by
  rw [exec_bookPrepare hm hr hlate, State.findRoom, hroom]

theorem bookPrepare_refuses (hm : s.bk.msgs[i]? = some (.prepare id j start len rate cands none))
    (hr : (s.bk.reqs.find? fun r => r.id == id) = some r) (hlate : ∀ k, k < i → s.bk.msgs[k]? ≠ some (.abort id j))
    (hroom : ((cands.filter s.calUp).find? fun cal => fitsIn true (s.bk.ivalsOf id r.task r.record cal) (calBudget cal) start len rate) = none) :
    exec (.bookPrepare (.inner i)) s = .next ((s.takeMsg i).modBk fun k =>
      { k with msgs := k.msgs ++ [BMsg.refuse id j (sortNat ((cands.filter s.calUp).filterMap fun cal =>
        firstFit true (s.bk.ivalsOf id r.task r.record cal) (calBudget cal) start len rate (s.now + 4096))).head?] }) := by
  rw [exec_bookPrepare hm hr hlate, State.findRoom, hroom]

end

/-! ### The other messages inside the package -/

section
variable {s : State} {i id j : Nat}

theorem exec_bookGrant {cal start : Nat} (hm : s.bk.msgs[i]? = some (.grant id j cal start)) :
    exec (.bookGrant (.inner i)) s = .next ((s.takeMsg i).answer id j (.grant cal start)) := by
  change execBookGrant (.inner i) s = _
  unfold execBookGrant
  dsimp only
  rw [hm]

theorem exec_bookRefuse {h : Option Nat} (hm : s.bk.msgs[i]? = some (.refuse id j h)) :
    exec (.bookRefuse (.inner i)) s = .next ((s.takeMsg i).answer id j (.refuse h)) := by
  change execBookRefuse (.inner i) s = _
  unfold execBookRefuse
  dsimp only
  rw [hm]

theorem exec_bookConfirm (hm : s.bk.msgs[i]? = some (.confirm id j)) :
    exec (.bookConfirm (.inner i)) s = .next ((s.takeMsg i).confirmed id j) := by
  change execBookConfirm (.inner i) s = _
  unfold execBookConfirm
  dsimp only
  rw [hm]

theorem exec_bookLost (hm : s.bk.msgs[i]? = some (.lost id j)) : exec (.bookLost (.inner i)) s = .next ((s.takeMsg i).lost id) := by
  change execBookLost (.inner i) s = _
  unfold execBookLost
  dsimp only
  rw [hm]

theorem exec_bookCancel {h : Nat} (hm : s.bk.msgs[i]? = some (.cancel h j)) :
    exec (.bookCancel (.inner i)) s = .next ((s.takeMsg i).cancelInner h j) := by
  change execBookCancel (.inner i) s = _
  unfold execBookCancel
  dsimp only
  rw [hm]

theorem exec_bookAbort (hm : s.bk.msgs[i]? = some (.abort id j)) :
    exec (.bookAbort (.inner i)) s = .next ((s.takeMsg i).modBk fun k => k.freeHolds fun h => h.tentative id && h.step == j) := by
  change execBookAbort (.inner i) s = _
  unfold execBookAbort
  dsimp only
  rw [hm]

/-- The tentative hold of a step of a request. -/
def stepHold (id j : Nat) (x : CHold) : Bool := x.req == id && x.node.isNone && x.senior.isNone && x.step == j && !x.dead

/-- The VD of a request. -/
def reqVd (s : State) (id : Nat) : Nat := ((s.bk.reqs.find? fun r => r.id == id).map (·.vd)).getD 0

theorem bookCommit_confirms {h : Nat} {x : CHold} (hm : s.bk.msgs[i]? = some (.commit id j h)) (hx : s.bk.holds.find? (stepHold id j) = some x) :
    exec (.bookCommit (.inner i)) s = .next (((s.takeMsg i).modBk fun k =>
      { k with holds := dropFirst (stepHold id j) k.holds, rints := k.rints ++
        [{ node := 4096, vd := reqVd s id, handle := h, step := x.step, cal := x.cal, start := x.start, len := x.len, rate := x.rate,
           dead := false }] }).modBk fun k => { k with msgs := k.msgs ++ [BMsg.confirm id j] }) := by
  have hcommit : (s.takeMsg i).commitHold (fun x => x.tentative id && x.step == j) 4096 (reqVd s id) h = some ((s.takeMsg i).modBk fun k =>
      { k with holds := dropFirst (stepHold id j) k.holds, rints := k.rints ++
        [⟨4096, reqVd s id, h, x.step, x.cal, x.start, x.len, x.rate, false⟩] }) := by
    unfold State.commitHold
    dsimp only
    rw [show List.find? (fun h => h.tentative id && h.step == j && !h.dead) (s.takeMsg i).bk.holds = some x from hx]
    rfl
  change execBookCommit (.inner i) s = _
  unfold execBookCommit
  dsimp only
  rw [hm]
  dsimp only
  rw [← reqVd, hcommit]

theorem bookCommit_lost {h : Nat} (hm : s.bk.msgs[i]? = some (.commit id j h)) (hx : s.bk.holds.find? (stepHold id j) = none) :
    exec (.bookCommit (.inner i)) s = .next ((s.takeMsg i).modBk fun k => { k with msgs := k.msgs ++ [BMsg.lost id j] }) := by
  have hcommit : (s.takeMsg i).commitHold (fun x => x.tentative id && x.step == j) 4096 (reqVd s id) h = none := by
    unfold State.commitHold
    dsimp only
    rw [show List.find? (fun h => h.tentative id && h.step == j && !h.dead) (s.takeMsg i).bk.holds = none from hx]
  change execBookCommit (.inner i) s = _
  unfold execBookCommit
  dsimp only
  rw [hm]
  dsimp only
  rw [← reqVd, hcommit]

end

/-! ### Messages of other nodes (R315) -/

theorem bookCommit_outer_lost {s : State} {m : FMsg} {d : Vd} (h : Comes s m 19 d)
    (hx : (s.bk.holds.find? fun h => h.node == some m.src && h.req == m.rid && !h.dead) = none) :
    exec (.bookCommit (.outer m)) s = .next (s.bookMsg 22 m.src m.vd 0 (BitVec.ofNat 64 m.rid <<< 32) 0) := by
  have hcommit : s.commitHold (fun h => h.node == some m.src && h.req == m.rid) m.src m.vd (Machine.fld m.w3 0 24) = none := by
    unfold State.commitHold
    dsimp only
    rw [hx]
  refine (congrArg Host.Outcome.next (receive_comes h _)).trans ?_
  rw [hcommit]

theorem bookCancel_outer {s : State} {m : FMsg} {d : Vd} (h : Comes s m 21 d) (hst : m.w3.extractLsb' 28 4 = 0#4) :
    exec (.bookCancel (.outer m)) s = .next (s.modBk fun k => k.freeRints fun i =>
      i.node == m.src && i.handle == Machine.fld m.w3 0 24 && i.step == Machine.fld m.w3 24 3) := by
  refine (congrArg Host.Outcome.next (receive_comes h _)).trans ?_
  dsimp only
  rw [if_neg (by rw [Machine.fld, hst]; decide)]

/-- Settles O45. -/
theorem bookingExchange : Obligations.BookingExchange := by
  intro s i took sends
  refine ⟨?_,
    fun id j cal start => exec_bookGrant, fun id j h => exec_bookRefuse, fun id j => exec_bookConfirm, fun id j => exec_bookLost,
    fun h j => exec_bookCancel, ?_, fun id j hm => ⟨_, exec_bookAbort hm, rfl, ?_, rfl, rfl⟩,
    fun m d => ⟨fun h => ?_, fun h => ?_, fun h => ?_, bookCommit_outer_lost, fun h => ⟨_, congrArg Host.Outcome.next (receive_comes h _), ?_⟩,
      fun h hst => ⟨_, bookCancel_outer h hst, rfl, ?_⟩, fun h => congrArg Host.Outcome.next (receive_comes h _),
      fun h => congrArg Host.Outcome.next (receive_comes h _)⟩⟩
  · intro id j start len rate cands r hm hr hlate iv
    exact ⟨fun cal => bookPrepare_grants hm hr hlate, bookPrepare_refuses hm hr hlate⟩
  · intro id j h hm mine vd
    exact ⟨fun x => bookCommit_confirms hm, bookCommit_lost hm⟩
  · refine freeHolds_holds (s.takeMsg i).bk fun x => ?_
    rw [Bool.and_eq_true, tentative_iff, beq_iff_eq]
    exact ⟨fun ⟨⟨h1, h2, h3⟩, h4⟩ => ⟨h2, h3, h1, h4⟩, fun ⟨h2, h3, h1, h4⟩ => ⟨⟨h1, h2, h3⟩, h4⟩⟩
  · exact congrArg Host.Outcome.next (receive_comes h _)
  · refine (congrArg Host.Outcome.next (receive_comes h _)).trans ?_
    rw [fld_zero]
  · exact congrArg Host.Outcome.next (receive_comes h _)
  · refine freeHolds_holds s.bk fun x => ?_
    rw [Bool.and_eq_true, beq_iff_eq, beq_iff_eq]
  · refine freeRints_rints s.bk fun x => ?_
    rw [Bool.and_eq_true, Bool.and_eq_true, beq_iff_eq, beq_iff_eq, beq_iff_eq, fld_zero, Machine.fld, and_assoc]

end Sys2Proof.Claims

/-! ## The booking units' clocks (spec/04_calendars.md R67 to R71, R74, R79, R80, R86) -/

namespace Sys2Proof.Claims

open Sys2Proof.Machine

section
variable {s : State}

/-- A unit that no senior hold serves first takes the first request that waits for it. -/
theorem exec_bookingSearch {die : BitVec 3} {r : BReq} (hsearch : s.searching die.toNat = false) (hp : s.power = .run)
    (hsenior : ∀ x ∈ s.bk.reqs, s.seniorStart x = none) (hr : (s.bk.reqs.find? fun r => r.die == die.toNat && r.st == .queued) = some r) :
    let s0 := if r.tmpl = true then r.s0 else s.now
    let r' := { r with s0 := s0, h0 := s.now, t := max (s0 + 1 + r.chain.early) (s.now + 1), rounds := 0, ans := [] }
    exec (.bookingSearch die) s = .next ((s.modReq r.id fun _ => r').tryReq r') := by
  have hfirst : ((s.bk.reqs.filter fun r => r.die == die.toNat && r.st == .queued).find? fun r => (s.seniorStart r).isSome) = none := by
    refine List.find?_eq_none.mpr fun x hx => ?_
    rw [hsenior x (List.mem_of_mem_filter hx)]
    exact Bool.false_ne_true
  have hhead : (s.bk.reqs.filter fun r => r.die == die.toNat && r.st == .queued).head? = some r := by
    rw [List.head?_filter, hr]
  intro s0 r'
  change execBookingSearch die s = _
  unfold execBookingSearch
  dsimp only
  rw [hfirst]
  dsimp only
  rw [hhead]
  dsimp only
  rw [hsearch, hp, hsenior r (List.mem_of_find?_eq_some hr)]
  rfl

theorem exec_bookingSearch_busy {die : BitVec 3} (hsearch : s.searching die.toNat = true) : exec (.bookingSearch die) s = .next s := by
  change execBookingSearch die s = _
  unfold execBookingSearch
  dsimp only
  rw [hsearch, Bool.true_or]
  split
  · rfl
  · rw [if_pos rfl]

theorem exec_templateRetry {task n : Nat} {r : BReq} (hr : (s.bk.reqs.find? fun r => r.tmpl && r.task == task && r.st == .postponed) = some r)
    (hn : r.nextTry = some n) :
    exec (.templateRetry task) s = .next (if n ≤ s.now then s.modReq r.id fun r => { r with st := .queued, nextTry := none } else s) := by
  change execTemplateRetry task s = _
  unfold execTemplateRetry
  rw [hr]
  dsimp only
  rw [hn]

/-! ### Holds that expire -/

/-- An event that ends a hold after `n` slots, and else does nothing. -/
def EndsHold (s : State) (i : Nat) (h : CHold) (e : Instr) (n : Nat) : Prop :=
  exec e s = .next (if h.placed + n ≤ s.now then s.modBk fun k => { k with holds := dropAt k.holds i } else s)

theorem EndsHold.ends {i n : Nat} {h : CHold} {e : Instr} (he : EndsHold s i h e n) :
    (h.placed + n ≤ s.now → ∃ t, exec e s = .next t ∧ t.bk.holds = dropAt s.bk.holds i ∧ t.bk.reqs = s.bk.reqs ∧ SameMemory s t ∧
      t.vds = s.vds ∧ t.cores = s.cores) ∧ (s.now < h.placed + n → exec e s = .next s) := by
  refine ⟨fun hle => ⟨s.modBk fun k => { k with holds := dropAt k.holds i }, he.trans (by rw [if_pos hle]), rfl, rfl, .rfl' s, rfl, rfl⟩,
    fun hlt => he.trans (by rw [if_neg (Nat.not_le.mpr hlt)])⟩

theorem exec_tentativeHoldExpiry {i : Nat} {h : CHold} (hh : s.bk.holds[i]? = some h) :
    (h.senior = none → EndsHold s i h (.tentativeHoldExpiry i) 32) ∧ (h.senior ≠ none → exec (.tentativeHoldExpiry i) s = .next s) := by
  refine ⟨fun hs => ?_, fun hs => ?_⟩
  · change execTentativeHoldExpiry i s = _
    unfold execTentativeHoldExpiry CHold.due
    rw [hh]
    dsimp only
    rw [hs]
    simp only [Option.isNone_none, Option.isSome_none, Bool.true_and, Bool.false_eq_true, if_false, decide_eq_true_eq]
  · change execTentativeHoldExpiry i s = _
    unfold execTentativeHoldExpiry
    rw [hh]
    dsimp only
    rw [Option.isNone_eq_false_iff.mpr (Option.isSome_iff_ne_none.mpr hs), Bool.false_and, if_neg Bool.false_ne_true]

theorem exec_seniorHoldExpiry {i : Nat} {h : CHold} (hh : s.bk.holds[i]? = some h) :
    (h.senior ≠ none → EndsHold s i h (.seniorHoldExpiry i) 64) ∧ (h.senior = none → exec (.seniorHoldExpiry i) s = .next s) := by
  refine ⟨fun hs => ?_, fun hs => ?_⟩
  · change execSeniorHoldExpiry i s = _
    unfold execSeniorHoldExpiry CHold.due
    rw [hh]
    dsimp only
    rw [Option.isSome_iff_ne_none.mpr hs]
    simp only [Bool.true_and, if_true, decide_eq_true_eq]
  · change execSeniorHoldExpiry i s = _
    unfold execSeniorHoldExpiry
    rw [hh]
    dsimp only
    rw [hs, Option.isSome_none, Bool.false_and, if_neg Bool.false_ne_true]

/-! ### Requests that time out -/

theorem exec_prepareTimeout {i sent : Nat} {r : BReq} (hr : s.bk.reqs[i]? = some r) (hst : r.st = .preparing sent) :
    exec (.prepareTimeout i) s = .next (if sent + 32 < s.now then (s.abortAll r).refuseReq r 7 none else s) := by
  change execPrepareTimeout i s = _
  unfold execPrepareTimeout
  rw [hr]
  dsimp only
  rw [hst]

theorem exec_commitTimeout {i sent : Nat} {r : BReq} (hr : s.bk.reqs[i]? = some r) (hst : r.st = .committing sent) :
    exec (.commitTimeout i) s = .next (if sent + 32 < s.now then s.commitFails r else s) := by
  change execCommitTimeout i s = _
  unfold execCommitTimeout
  rw [hr]
  dsimp only
  rw [hst]

theorem exec_postponedExpiry {i first : Nat} {r : BReq} (hr : s.bk.reqs[i]? = some r) (hst : r.st = .postponed) (ht : r.tmpl = false)
    (hf : r.firstRef = some first) :
    exec (.postponedExpiry i) s = .next (if first + 256 ≤ s.now then s.expireReq r 1 else s) := by
  change execPostponedExpiry i s = _
  unfold execPostponedExpiry
  rw [hr]
  dsimp only
  rw [hf]
  dsimp only
  rw [ht, hst]
  simp only [Bool.not_false, Bool.true_and, beq_self_eq_true, decide_eq_true_eq]

theorem exec_deadlinePass {i : Nat} {r : BReq} (hr : s.bk.reqs[i]? = some r) (hst : r.st = .postponed) (ht : r.tmpl = false)
    (hd : 0 < r.chain.deadline) :
    exec (.deadlinePass i) s = .next
      (if r.s0 + r.chain.deadline < chainEnd (max s.now (r.s0 + 1 + r.chain.early)) none r.chain.steps then s.expireReq r 3 else s) := by
  change execDeadlinePass i s = _
  unfold execDeadlinePass
  rw [hr]
  dsimp only
  rw [ht, hst]
  simp only [Bool.not_false, Bool.true_and, beq_self_eq_true, hd, decide_true, decide_eq_true_eq]

/-! ### Overruns (R79, R86) -/

theorem exec_overrun {core : BitVec 10} {copy : Bool} {c : Cmd}
    (h : ((s.liveCmds core.toNat copy).find? fun c => (match s.cmdStep c with | some (_, t) => decide (max (4 * t.dur) 64 < c.ran) | none => false)) =
      some c) : exec (.overrun core copy) s = .next (s.overrunStop core.toNat copy c c.ran) := by
  change execOverrun core copy s = _
  unfold execOverrun
  split
  · next c' hc =>
    obtain rfl : c' = c := Option.some.inj (hc.symm.trans h)
    rfl
  · next hc => exact nomatch hc.symm.trans h

theorem exec_unbookedOverrun {core : BitVec 10} {copy : Bool} {c : Cmd}
    (h : ((s.liveCmds core.toNat copy).find? fun c => !(s.isBooked c) && decide (c.issued + 4096 ≤ s.now)) = some c) :
    exec (.unbookedOverrun core copy) s = .next (s.overrunStop core.toNat copy c (s.now - c.issued)) := by
  change execUnbookedOverrun core copy s = _
  unfold execUnbookedOverrun
  rw [h]

theorem cpOp_isOver_iff (o : CpOp) : o.isOver = true ↔ o.c.st = .finished ∧ o.wait = false := by simp [CpOp.isOver]

theorem mxOp_isOver_iff (o : MxOp) : o.isOver = true ↔ o.c.st = .finished ∧ o.acks = 0 := by simp [MxOp.isOver]

theorem mem_liveCmds_copy {core : Nat} {c : Cmd} :
    c ∈ s.liveCmds core true ↔ ∃ o ∈ (s.core core).cp, o.c = c ∧ ¬ (c.st = .finished ∧ o.wait = false) ∧ c.ended = none := by
  simp only [State.liveCmds, if_true, List.mem_filter, List.mem_map, Bool.not_eq_true', ← Bool.not_eq_true, cpOp_isOver_iff,
    Option.isNone_iff_eq_none]
  constructor
  · rintro ⟨⟨o, ⟨ho, hover⟩, rfl⟩, hend⟩
    exact ⟨o, ho, rfl, hover, hend⟩
  · rintro ⟨o, ho, rfl, hover, hend⟩
    exact ⟨⟨o, ⟨ho, hover⟩, rfl⟩, hend⟩

theorem mem_liveCmds_matrix {core : Nat} {c : Cmd} :
    c ∈ s.liveCmds core false ↔ ∃ o ∈ (s.core core).mx, o.c = c ∧ ¬ (c.st = .finished ∧ o.acks = 0) ∧ c.ended = none := by
  simp only [State.liveCmds, Bool.false_eq_true, if_false, List.mem_filter, List.mem_map, Bool.not_eq_true', ← Bool.not_eq_true,
    mxOp_isOver_iff, Option.isNone_iff_eq_none]
  constructor
  · rintro ⟨⟨o, ⟨ho, hover⟩, rfl⟩, hend⟩
    exact ⟨o, ho, rfl, hover, hend⟩
  · rintro ⟨o, ho, rfl, hover, hend⟩
    exact ⟨⟨o, ⟨ho, hover⟩, rfl⟩, hend⟩

end

/-- Settles O46. -/
theorem bookingClocks : Obligations.BookingClocks := by
  intro s
  refine ⟨fun die r => exec_bookingSearch, fun die => exec_bookingSearch_busy, fun task r n hr hn => ⟨fun hle => ?_, fun hlt => ?_⟩, ?_,
    fun i r hr => ⟨fun sent hst hlt => ?_, fun sent hst hlt => ?_, fun sent hst hle => ?_, fun first hst ht hf => ⟨fun hle => ?_, fun hlt => ?_⟩, ?_⟩,
    fun core copy c => ⟨exec_overrun, exec_unbookedOverrun, mem_liveCmds_copy, mem_liveCmds_matrix⟩⟩
  · rw [exec_templateRetry hr hn, if_pos hle]
  · rw [exec_templateRetry hr hn, if_neg (Nat.not_le.mpr hlt)]
  · intro i h hh ends
    exact ⟨fun hs => ((exec_tentativeHoldExpiry hh).1 hs).ends, fun hs => ((exec_seniorHoldExpiry hh).1 hs).ends,
      (exec_seniorHoldExpiry hh).2, (exec_tentativeHoldExpiry hh).2⟩
  · rw [exec_prepareTimeout hr hst, if_pos hlt]
  · rw [exec_commitTimeout hr hst, if_pos hlt]
  · rw [exec_commitTimeout hr hst, if_neg (Nat.not_lt.mpr hle)]
  · rw [exec_postponedExpiry hr hst ht hf, if_pos hle]
  · rw [exec_postponedExpiry hr hst ht hf, if_neg (Nat.not_le.mpr hlt)]
  · intro hst ht hd e
    rw [exec_deadlinePass hr hst ht hd]
    exact ⟨fun hlt => by rw [if_pos hlt], fun hle => by rw [if_neg (Nat.not_lt.mpr hle)]⟩

end Sys2Proof.Claims

/-! ## Fliurn messages (spec/16_fliurn.md R311 to R316) -/

namespace Sys2Proof.Claims

open Sys2Proof.Machine

/-! ### Messages that are not taken (R311, R312, R282) -/

section
variable {s : State} {m : FMsg} {type : Nat}

/-- Neither its header nor the package's state keeps a message from being looked at. -/
theorem receive_header (ht : m.type = type) (hok : msgOk m = true) (hn : s.fab.node.isSome = true) (hdst : m.dst = s.node)
    (hp : s.power = .run) : (m.type ≠ type || !(msgOk m) || s.fab.node.isNone || m.dst ≠ s.node || s.power != .run) = false := by
  have hisn : s.fab.node.isNone = false := by rw [Option.isNone_eq_false_iff]; exact hn
  simp [ht, hok, hisn, hdst, hp]

theorem receive_elsewhere (ht : m.type = type) (hok : msgOk m = true) (hn : s.fab.node.isSome = true) (hdst : m.dst = s.node)
    (hp : s.power = .run) (hspan : ∀ d, s.vd m.vd = some d → d.span.contains m.src = false) (h10 : type ≠ 10) (act : Vd → State) :
    s.receive m type act = s.nack m 1 0 := by
  unfold State.receive
  rw [receive_header ht hok hn hdst hp, if_neg Bool.false_ne_true]
  cases hd : s.vd m.vd with
  | none => exact if_neg h10
  | some d =>
    dsimp only
    rw [hspan d hd, if_neg Bool.false_ne_true, if_neg h10]

theorem receive_halted {d : Vd} {h : Halt} (ht : m.type = type) (hok : msgOk m = true) (hn : s.fab.node.isSome = true) (hdst : m.dst = s.node)
    (hp : s.power = .run) (hd : s.vd m.vd = some d) (hspan : d.span.contains m.src = true) (hh : d.halt = some h) (hlt : type < 24)
    (act : Vd → State) : s.receive m type act = s.heldFlit m h := by
  unfold State.receive
  rw [receive_header ht hok hn hdst hp, if_neg Bool.false_ne_true, hd]
  dsimp only
  rw [if_pos hspan, hh]
  exact if_neg (by omega)

theorem receive_wrong (h : m.type ≠ type ∨ msgOk m = false ∨ m.dst ≠ s.node) (act : Vd → State) : s.receive m type act = s := by
  unfold State.receive
  refine if_pos ?_
  rcases h with h | h | h <;> simp [h]

end

/-! ### Requests -/

/-- The events of access requests, with the TYPE of each. -/
noncomputable def accessForms (m : FMsg) : List (Instr × Nat) := [(.msgRead m, 1), (.msgWrite m, 3), (.msgAtomic m, 5), (.msgMdadd m, 7)]

/-- An event takes a message of a TYPE. -/
def Receives (s : State) (m : FMsg) (e : Instr × Nat) : Prop := ∃ act, exec e.1 s = .next (s.receive m e.2 act)

/-- An event that is a request takes it under the transaction rules (R314). -/
def Requests (s : State) (m : FMsg) (e : Instr × Nat) : Prop :=
  ∃ act : Vd → State, exec e.1 s = .next (s.receive m e.2 fun d => s.request m (act d))

section
variable {s : State} {m : FMsg}

theorem exec_accessForm {e : Instr × Nat} (he : e ∈ accessForms m) : exec e.1 s = .next (s.receive m e.2 fun d => s.accessReq m d) := by
  simp only [accessForms, List.mem_cons, List.not_mem_nil, or_false] at he
  rcases he with rfl | rfl | rfl | rfl <;> rfl

theorem requests_form {e : Instr × Nat} (he : e ∈ accessForms m ++ [(.msgGate m, 8)]) : Requests s m e := by
  rcases List.mem_append.mp he with he | he
  · exact ⟨fun d => (s.serve m d).2.answerReq m (s.serve m d).1, exec_accessForm he⟩
  · obtain rfl := List.mem_singleton.mp he
    exact ⟨fun _ => (s.gateAdd none m.vd (m.w1.setWidth 12) (Machine.fld m.w1 16 3) (Machine.fld m.w1 32 16)).respond m (responseTo m s.node []), rfl⟩

theorem receives_request {e : Instr × Nat} (he : e ∈ accessForms m ++ [(.msgGate m, 8)]) : Receives s m e :=
  let ⟨_, h⟩ := requests_form (s := s) he
  ⟨_, h⟩

/-- Every TYPE of a request or response, NACK and TIME among them. -/
noncomputable def allForms (m : FMsg) : List (Instr × Nat) :=
  accessForms m ++ [(.msgGate m, 8), (.msgRdata m, 2), (.msgAck m, 4), (.msgArsp m, 6), (.msgFaulted m, 9), (.msgNack m, 10), (.msgTime m, 24),
    (.msgTimeRsp m, 25)]

theorem receives_form {e : Instr × Nat} (he : e ∈ allForms m) : Receives s m e := by
  simp only [allForms, accessForms, List.cons_append, List.nil_append, List.mem_cons, List.not_mem_nil, or_false] at he
  rcases he with rfl | rfl | rfl | rfl | rfl | rfl | rfl | rfl | rfl | rfl | rfl | rfl <;> exact ⟨_, rfl⟩

/-- A request that is new here is acted on. -/
theorem request_new {act : State} (hk : (s.fab.kept.find? fun k => k.1 == m.src && k.2.1 == m.tid) = none) (hu : s.underWay m = false) :
    s.request m act = act := by
  unfold State.request
  rw [hk]
  exact if_neg (by rw [hu]; exact Bool.false_ne_true)

/-- A duplicate has its response sent again. -/
theorem request_again {act : State} {k : Nat × Nat × FMsg × Nat}
    (hk : (s.fab.kept.find? fun k => k.1 == m.src && k.2.1 == m.tid) = some k) :
    s.request m act = (s.sendMsg k.2.2.1).modFab fun f =>
      { f with kept := f.kept.map fun x => if x.1 == m.src && x.2.1 == m.tid then (x.1, x.2.1, x.2.2.1, s.now) else x } := by
  unfold State.request
  rw [hk]

theorem exec_msgGate {d : Vd} (h : Comes s m 8 d) (hk : (s.fab.kept.find? fun k => k.1 == m.src && k.2.1 == m.tid) = none)
    (hu : s.underWay m = false) :
    exec (.msgGate m) s = .next ((s.gateAdd none m.vd (m.w1.setWidth 12) (m.w1.extractLsb' 16 3).toNat (m.w1.extractLsb' 32 16).toNat).respond m
      (mkMsg 4 m.src s.node m.vd m.tid 0 0 0 0 [])) := by
  refine (congrArg Host.Outcome.next ((receive_comes h _).trans (request_new hk hu))).trans ?_
  rw [responseTo, h.1]
  rfl

/-! ### Responses (R313, R314) -/

theorem response_takes {r : OpenReq} {types : List Nat} {bs : List Byte} (hr : s.openOf m.src m.tid = some r) (ht : r.msg.type ∈ types) :
    s.response m types bs = (s.closeReq r).took r bs := by
  unfold State.response
  rw [hr]
  exact if_pos (List.contains_iff_mem.mpr ht)

theorem exec_msgRdata {d : Vd} {r : OpenReq} (hr : s.openOf m.src m.tid = some r) (h : Comes s m 2 d) (ht : r.msg.type = 1)
    (hl : m.data.length = reqSpan r.msg) : exec (.msgRdata m) s = .next ((s.closeReq r).took r m.data) := by
  refine (congrArg Host.Outcome.next (receive_comes h _)).trans ?_
  rw [hr]
  dsimp only
  rw [if_pos hl, response_takes hr (by rw [ht]; decide)]

theorem exec_msgFaulted {d : Vd} {r : OpenReq} (hr : s.openOf m.src m.tid = some r) (h : Comes s m 9 d) :
    ∃ t, exec (.msgFaulted m) s = .next t ∧
      t.fab.opens = s.fab.opens.map fun x => if x.node == r.node && x.tid == r.tid then { x with stopped := true } else x := by
  refine ⟨_, congrArg Host.Outcome.next (receive_comes h _), ?_⟩
  rw [hr]
  dsimp only
  cases r.who <;> rfl

theorem nackKind_eq (m : FMsg) :
    nackKind m = if m.w1.setWidth 8 = 2#8 then (if (m.w2.setWidth 4).toNat = 5 then 16 else (m.w2.setWidth 4).toNat) else 1 := by
  have hcode : Machine.fld m.w1 0 8 = 2 ↔ m.w1.setWidth 8 = 2#8 := by
    rw [fld_zero]
    exact ⟨fun h => BitVec.eq_of_toNat_eq h, fun h => by rw [h]; rfl⟩
  rw [nackKind, fld_zero m.w2]
  by_cases h : m.w1.setWidth 8 = 2#8
  · rw [if_pos h, if_pos (hcode.mpr h)]
  · rw [if_neg h, if_neg (mt hcode.mp h)]

theorem exec_msgNack {d : Vd} {r : OpenReq} (hr : s.openOf m.src m.tid = some r) (h : Comes s m 10 d) :
    exec (.msgNack m) s =
      .next (s.reqFails r (if m.w1.setWidth 8 = 2#8 then (if (m.w2.setWidth 4).toNat = 5 then 16 else (m.w2.setWidth 4).toNat) else 1)) := by
  refine (congrArg Host.Outcome.next (receive_comes h _)).trans ?_
  rw [hr, nackKind_eq]

/-! ### Time (R316) -/

/-- Half of a sum is within one half of it. -/
theorem halfOf_near (s : State) (x : Int) : (2 * s.halfOf x - x).natAbs ≤ 1 := by
  unfold State.halfOf
  split
  · omega
  · split <;> omega

/-- The offset that a measurement leaves: of a round trip of at most 4 slots. -/
def measured (s : State) (m : FMsg) (o : Offset) : Offset :=
  if 4 < (s.now : Int) - m.w1.toNat - ((m.w3.toNat : Int) - m.w2.toNat) then { o with probe := none }
  else { o := some (s.halfOf (((m.w2.toNat : Int) - m.w1.toNat) + ((m.w3.toNat : Int) - s.now))), validAt := s.now, probe := none }

theorem exec_msgTimeRsp {d : Vd} {o : Offset} (h : Comes s m 25 d) (ho : tget s.fab.offs m.src = some o) (hp : o.probe = some m.w1.toNat) :
    exec (.msgTimeRsp m) s = .next (s.bump.modFab fun f => { f with offs := tset f.offs m.src (measured s m o) }).exchanged := by
  refine (congrArg Host.Outcome.next (receive_comes h _)).trans ?_
  rw [ho]
  dsimp only
  rw [hp, bne_self_eq_false, if_neg Bool.false_ne_true]
  rfl

theorem measured_of {o : Offset} :
    (measured s m o).probe = none ∧
    (4 < (s.now : Int) - m.w1.toNat - ((m.w3.toNat : Int) - m.w2.toNat) → (measured s m o).o = o.o ∧ (measured s m o).validAt = o.validAt) ∧
    ((s.now : Int) - m.w1.toNat - ((m.w3.toNat : Int) - m.w2.toNat) ≤ 4 → (measured s m o).validAt = s.now ∧
      ∃ h, (measured s m o).o = some h ∧ (2 * h - (((m.w2.toNat : Int) - m.w1.toNat) + ((m.w3.toNat : Int) - s.now))).natAbs ≤ 1) := by
  refine ⟨?_, fun hlate => ?_, fun hsoon => ?_⟩
  · unfold measured
    split <;> rfl
  · rw [measured, if_pos hlate]
    exact ⟨rfl, rfl⟩
  · rw [measured, if_neg (Int.not_lt.mpr hsoon)]
    exact ⟨rfl, _, rfl, halfOf_near ..⟩

end

/-- Settles O47. -/
theorem fabricMessages : Obligations.FabricMessages := by
  intro s m forms
  refine ⟨fun e he d h hk hu => ?_, fun e he d k h hk => ?_, fun d => exec_msgGate, fun e he ht hok hn hdst hp hspan => ?_, fun e he hw => ?_,
    fun d r hr => ⟨exec_msgRdata hr, fun h ht => ?_, fun h ht => ?_, exec_msgFaulted hr, exec_msgNack hr⟩,
    fun d h e he ht hok hn hdst hp hd hspan hh => ?_, fun d h => ⟨_, congrArg Host.Outcome.next (receive_comes h _), rfl⟩,
    fun d o h ho hp => ⟨_, measured s m o, exec_msgTimeRsp h ho hp, tget_tset_same .., measured_of⟩⟩
  · rw [exec_accessForm he, receive_comes h, State.accessReq, request_new hk hu]
  · obtain ⟨act, hact⟩ := requests_form (s := s) he
    rw [hact, receive_comes h, request_again hk]
    exact ⟨_, rfl, rfl, .rfl' s, rfl, rfl, rfl⟩
  · have hmem : e ∈ allForms m ∧ e.2 ≠ 10 := by
      simp only [forms, List.cons_append, List.nil_append, List.mem_cons, List.not_mem_nil, or_false] at he
      rcases he with rfl | rfl | rfl | rfl | rfl | rfl | rfl | rfl | rfl | rfl | rfl <;> simp [allForms, accessForms]
    obtain ⟨hall, h10⟩ := hmem
    obtain ⟨act, hact⟩ := receives_form (s := s) hall
    rw [hact, receive_elsewhere ht hok hn hdst hp hspan h10]
    exact ⟨_, rfl, rfl, .rfl' s, rfl, rfl⟩
  · obtain ⟨act, hact⟩ := receives_form (s := s) he
    rw [hact, receive_wrong hw]
  · refine (congrArg Host.Outcome.next (receive_comes h _)).trans ?_
    rw [response_takes hr]
    rcases ht with ht | ht | ht <;> rw [ht] <;> decide
  · refine (congrArg Host.Outcome.next (receive_comes h _)).trans ?_
    rw [response_takes hr]
    rw [ht]
    decide
  · have hmem : e ∈ allForms m ∧ e.2 < 24 := by
      simp only [forms, List.cons_append, List.nil_append, List.mem_cons, List.not_mem_nil, or_false] at he
      rcases he with rfl | rfl | rfl | rfl | rfl | rfl | rfl | rfl | rfl | rfl <;> simp [allForms, accessForms]
    obtain ⟨hall, hlt⟩ := hmem
    obtain ⟨act, hact⟩ := receives_form (s := s) hall
    rw [hact, receive_halted ht hok hn hdst hp hd hspan hh hlt]

end Sys2Proof.Claims

/-! ## Fliurn's transport (spec/16_fliurn.md R309, R310, R314, R316) -/

namespace Sys2Proof.Claims

open Sys2Proof.Machine

/-! ### Free choices -/

theorem pick_nil {α : Type} (s : State) : s.pick ([] : List α) = none := rfl

/-- A free choice among some is one of them. -/
theorem pick_mem {α : Type} (s : State) {xs : List α} (h : xs ≠ []) : ∃ x ∈ xs, s.pick xs = some x := by
  match xs, h with
  | [x], _ => exact ⟨x, List.mem_singleton.mpr rfl, rfl⟩
  | x :: y :: rest, _ =>
    have hlt : Config.freePick s.freeCtr % (x :: y :: rest).length < (x :: y :: rest).length := Nat.mod_lt _ (by simp)
    exact ⟨_, List.getElem_mem hlt, List.getElem?_eq_getElem hlt⟩

/-! ### Requests and responses in time (R314) -/

section
variable {s : State}

theorem exec_requestRetransmit {i : Nat} {r : OpenReq} (hr : s.fab.opens[i]? = some r) :
    exec (.requestRetransmit i) s = .next
      (if r.stopped || decide (s.now < r.sent + 256) || s.flitsHeld r.msg.vd then s
      else if 8 ≤ r.tries then s.reqFails r 3
      else (s.pick (s.otherPorts r)).elim s fun p => ((s.bump.spend (2112 + p) (flitBytes r.msg)).sendMsg r.msg).modFab fun f =>
        { f with opens := modAt f.opens i fun x => { x with sent := s.now, tries := x.tries + 1, port := p } }) := by
  change execRequestRetransmit i s = _
  unfold execRequestRetransmit
  rw [hr]
  dsimp only
  cases s.pick (s.otherPorts r) <;> rfl

theorem exec_requestRetransmit_due {i : Nat} {r : OpenReq} (hr : s.fab.opens[i]? = some r) (hs : r.stopped = false) (hd : r.sent + 256 ≤ s.now)
    (hf : s.flitsHeld r.msg.vd = false) :
    exec (.requestRetransmit i) s = .next
      (if 8 ≤ r.tries then s.reqFails r 3
      else (s.pick (s.otherPorts r)).elim s fun p => ((s.bump.spend (2112 + p) (flitBytes r.msg)).sendMsg r.msg).modFab fun f =>
        { f with opens := modAt f.opens i fun x => { x with sent := s.now, tries := x.tries + 1, port := p } }) := by
  rw [exec_requestRetransmit hr, hs, hf, decide_eq_false (Nat.not_lt.mpr hd), Bool.or_false, Bool.or_false, if_neg Bool.false_ne_true]

theorem requestRetransmit_sends {i : Nat} {r : OpenReq} (hr : s.fab.opens[i]? = some r) (hs : r.stopped = false) (hd : r.sent + 256 ≤ s.now)
    (hf : s.flitsHeld r.msg.vd = false) (ht : r.tries < 8) (hp : s.otherPorts r ≠ []) :
    ∃ t, ∃ p ∈ s.otherPorts r, exec (.requestRetransmit i) s = .next t ∧ t.fab.out = s.fab.out ++ [r.msg] ∧
      t.fab.opens = modAt s.fab.opens i fun x => { x with sent := s.now, tries := x.tries + 1, port := p } := by
  obtain ⟨p, hmem, hpick⟩ := pick_mem s hp
  rw [exec_requestRetransmit_due hr hs hd hf, if_neg (Nat.not_le.mpr ht), hpick]
  exact ⟨_, p, hmem, rfl, rfl, rfl⟩

theorem exec_responseExpiry {i : Nat} {k : Nat × Nat × FMsg × Nat} (hk : s.fab.kept[i]? = some k) :
    exec (.responseExpiry i) s =
      .next (if k.2.2.2 + 4096 ≤ s.now then s.modFab fun f => { f with kept := dropAt f.kept i } else s) := by
  change execResponseExpiry i s = _
  unfold execResponseExpiry
  rw [hk]

/-- A request that waits for an id toward a node, and is not held. -/
def waitsFor (s : State) (node : Nat) (w : Nat × FMsg × Who) : Bool := w.1 == node && !(s.flitsHeld w.2.1.vd)

theorem tidAllocate_takes {node : BitVec 12} {n : Nat} {m : FMsg} {w : Who} (hw : s.fab.waits.find? (waitsFor s node.toNat) = some (n, m, w))
    (hp : s.freePorts (flitBytes m) ≠ []) (hlt : (s.busyTids node.toNat).length < 2097152) :
    ∃ t tid, ∃ p ∈ s.freePorts (flitBytes m), exec (.tidAllocate node) s = .next t ∧
      t.fab.waits = dropFirst (waitsFor s node.toNat) s.fab.waits ∧ t.fab.out = s.fab.out ++ [m.withTid tid] ∧ t.fab.opens = s.fab.opens ++
        [{ node := node.toNat, tid := tid, msg := m.withTid tid, sent := s.now, tries := 0, stopped := false, who := w, port := p }] := by
  obtain ⟨p, hmem, hpick⟩ := pick_mem s hp
  have hexec : exec (.tidAllocate node) s = execTidAllocate node s := rfl
  rw [hexec]
  unfold execTidAllocate
  dsimp only
  rw [show List.find? (fun w => w.1 == node.toNat && !(s.flitsHeld w.2.1.vd)) s.fab.waits = some (n, m, w) from hw]
  dsimp only
  rw [hpick]
  dsimp only
  rw [if_pos hlt]
  exact ⟨_, _, p, hmem, rfl, rfl, rfl, rfl⟩

/-! ### Time offsets (R316) -/

theorem exec_timeProbe (node : BitVec 12) :
    exec (.timeProbe node) s = .next
      (if s.spanNodes.contains node.toNat && s.timeDue node.toNat then
        (s.sendTime node.toNat).modFab fun f => { f with offs := tmap f.offs fun m o => if m = node.toNat then { o with sent := some s.now } else o }
      else s) := rfl

theorem timeProbe_sends {node : BitVec 12} (hspan : s.spanNodes.contains node.toNat = true) (hdue : s.timeDue node.toNat = true) :
    ∃ t, exec (.timeProbe node) s = .next t ∧
      t.fab.out = s.fab.out ++ [mkMsg 24 node.toNat s.node (s.timeVd node.toNat) 0 s.slot 0 0 0 []] ∧
      ((tget t.fab.offs node.toNat).map fun o => (o.probe, o.sent)) = some (some s.now, some s.now) := by
  rw [exec_timeProbe, hspan, hdue, Bool.and_self, if_pos rfl]
  refine ⟨_, rfl, rfl, ?_⟩
  rw [State.modFab_fab]
  dsimp only
  rw [tget_tmap, State.sendTime, State.modFab_fab]
  dsimp only
  rw [tget_tset_same, Option.map_some, if_pos rfl]
  rfl

theorem exec_offsetExpiry {node : BitVec 12} {o : Offset} (ho : tget s.fab.offs node.toNat = some o) :
    exec (.offsetExpiry node) s = .next
      (if o.o.isSome && decide (o.validAt + 65536 ≤ s.now) then s.modFab fun f => { f with offs := tset f.offs node.toNat { o with o := none } }
      else s) := by
  change execOffsetExpiry node s = _
  unfold execOffsetExpiry
  rw [ho]

theorem offset_eq {n : Nat} {o : Offset} (ho : tget s.fab.offs n = some o) : s.offset n = o.o := by
  rw [State.offset, ho, Option.bind_some]

theorem offsetExpiry_ends {node : BitVec 12} {o : Offset} (ho : tget s.fab.offs node.toNat = some o) (hd : o.validAt + 65536 ≤ s.now) :
    ∃ t, exec (.offsetExpiry node) s = .next t ∧ s.offset node.toNat = o.o ∧ t.offset node.toNat = none := by
  rw [exec_offsetExpiry ho, decide_eq_true hd, Bool.and_true]
  cases h : o.o with
  | none => exact ⟨s, rfl, (offset_eq ho).trans h, (offset_eq ho).trans h⟩
  | some x =>
    refine ⟨_, rfl, (offset_eq ho).trans h, ?_⟩
    exact offset_eq (o := { o with o := none }) (tget_tset_same ..)

/-! ### Ports (R309, R310) -/

theorem exec_frameRetransmit (hp : s.power = .run) (p : BitVec 4) (again : Bool) :
    exec (.frameRetransmit ⟨p, again⟩) s = .next
      (let x := tgetD s.fab.ports p.toNat Port.reset
      let n := if again then x.resent + 1 else 1
      if !x.up then s
      else
        let s := s.modFab fun f => { f with ports := tset f.ports p.toNat { x with resent := n } }
        if 16 ≤ n then s.portFails p.toNat else s) := by
  change execFrameRetransmit ⟨p, again⟩ s = _
  unfold execFrameRetransmit
  dsimp only
  rw [hp, bne_self_eq_false, Bool.or_false]

theorem exec_portDown (hp : s.power = .run) (p : BitVec 4) : exec (.portDown p) s = .next (s.portFails p.toNat) := by
  change execPortDown p s = _
  unfold execPortDown
  rw [if_pos hp]

theorem exec_portUp (hp : s.power = .run) (p : BitVec 4) :
    exec (.portUp p) s = .next
      (let x := tgetD s.fab.ports p.toNat Port.reset
      if x.up || x.xchg then s
      else if s.spanNodes.isEmpty then s.modFab fun f => { f with ports := tset f.ports p.toNat Port.reset }
      else s.spanNodes.foldl (fun s n => s.sendTime n) (s.modFab fun f => { f with ports := tset f.ports p.toNat { x with xchg := true } })) := by
  change execPortUp p s = _
  unfold execPortUp
  dsimp only
  rw [hp, bne_self_eq_false, Bool.or_false]

end

/-- Settles O48. -/
theorem fabricTransport : Obligations.FabricTransport := by
  intro s
  refine ⟨fun i r hr => ⟨fun hs hd hf => ⟨fun ht hp => requestRetransmit_sends hr hs hd hf ht hp, fun ht hp => ?_, fun ht => ?_⟩, fun hno => ?_⟩,
    fun i k hk => ⟨fun hle => ?_, fun hlt => ?_⟩, ?_, fun node => ⟨fun hspan hdue => timeProbe_sends hspan hdue, fun hno => ?_,
      fun o ho => ⟨fun hd => offsetExpiry_ends ho hd, fun hlt => ?_⟩⟩, ?_⟩
  · rw [exec_requestRetransmit_due hr hs hd hf, if_neg (Nat.not_le.mpr ht), hp]
    rfl
  · rw [exec_requestRetransmit_due hr hs hd hf, if_pos ht]
  · have hw : (r.stopped || decide (s.now < r.sent + 256) || s.flitsHeld r.msg.vd) = true := by
      rcases hno with h | h | h <;> simp [h]
    rw [exec_requestRetransmit hr, hw, if_pos rfl]
  · rw [exec_responseExpiry hk, if_pos hle]
  · rw [exec_responseExpiry hk, if_neg (Nat.not_le.mpr hlt)]
  · intro node n m w next hw hp hlt
    exact tidAllocate_takes hw hp hlt
  · have hw : (s.spanNodes.contains node.toNat && s.timeDue node.toNat) = false := by
      rcases hno with h | h <;> simp only [h, Bool.false_and, Bool.and_false]
    rw [exec_timeProbe, hw, if_neg Bool.false_ne_true]
  · rw [exec_offsetExpiry ho, decide_eq_false (Nat.not_le.mpr hlt), Bool.and_false, if_neg Bool.false_ne_true]
  · intro p hp x spans
    refine ⟨?_, exec_portDown hp p, fun hup hx => ⟨fun hsp => ?_, fun hsp => ?_⟩, fun hbusy => ?_⟩
    · intro again n resent
      have hexec := exec_frameRetransmit hp p again
      have hport : tgetD s.fab.ports p.toNat Port.reset = x := rfl
      rw [hport] at hexec
      refine ⟨fun hup hn => ?_, fun hup hn => ?_, fun hup => ?_⟩ <;> rw [hexec] <;> dsimp only
      · rw [if_neg (by rw [hup]; exact Bool.false_ne_true)]
        refine congrArg Host.Outcome.next (if_neg ?_)
        exact Nat.not_le.mpr hn
      · rw [if_neg (by rw [hup]; exact Bool.false_ne_true)]
        refine congrArg Host.Outcome.next (if_pos ?_)
        exact hn
      · rw [if_pos (by rw [hup]; rfl)]
    · rw [exec_portUp hp]
      dsimp only
      rw [show (tgetD s.fab.ports p.toNat Port.reset).up = _ from hup, show (tgetD s.fab.ports p.toNat Port.reset).xchg = _ from hx,
        show s.spanNodes = [] from hsp]
      rfl
    · rw [exec_portUp hp]
      dsimp only
      rw [show (tgetD s.fab.ports p.toNat Port.reset).up = _ from hup, show (tgetD s.fab.ports p.toNat Port.reset).xchg = _ from hx, Bool.or_false,
        if_neg Bool.false_ne_true, if_neg (by rw [List.isEmpty_iff]; exact hsp)]
    · have hw : (x.up || x.xchg) = true := by rcases hbusy with h | h <;> rw [h] <;> simp
      rw [exec_portUp hp]
      exact congrArg Host.Outcome.next (if_pos hw)

end Sys2Proof.Claims

/-! ## The launch front end (spec/15_virtual_devices.md R294 to R301) -/

namespace Sys2Proof.Machine

theorem DevFrame.now {s t : State} (h : DevFrame s t) : t.now = s.now := by
  obtain ⟨⟨_, _, _, _, _, _, rfl⟩, _⟩ := h
  rfl

theorem devFrame_devRead (s : State) (v a n : Nat) : DevFrame s (s.devRead v a n).2 := by
  have hgo := devFrame_devReadGo false v (blocks a n) s
  unfold State.devRead
  split <;> next heq => rw [heq] at hgo; exact hgo

theorem devFrame_readQueue (s : State) (v : Nat) (d : VdDef) (q : Nat) : DevFrame s (s.readQueue v d q).2 := by
  have hread := devFrame_devRead s v (qcbVa d q) 64
  unfold State.readQueue
  split <;> next heq => rw [heq] at hread; exact hread

end Sys2Proof.Machine

namespace Sys2Proof.Claims

open Sys2Proof.Machine

section
variable {s : State} {v : BitVec 8} {d : Vd}

theorem flitsHeld_iff {n : Nat} (hd : s.vd n = some d) : s.flitsHeld n = d.halt.isSome := by rw [State.flitsHeld, hd, Option.any_some]

/-! ### NOTIFY (R297) -/

theorem exec_notify_waits {qp : Nat} {w0 w1 : Word} (hd : s.vd v.toNat = some d) (h : s.hbm.qpBusy v.toNat qp = true ∨ d.halt ≠ none) :
    exec (.notify ⟨v, qp⟩ w0 w1) s = .next s := by
  have hno : ¬ (decide (s.power = .run) && !(s.hbm.qpBusy v.toNat qp) && !(s.flitsHeld v.toNat)) = true := by
    rw [flitsHeld_iff hd]
    rcases h with h | h
    · simp [h]
    · simp [Option.isSome_iff_ne_none.mpr h]
  change execNotify ⟨v, qp⟩ w0 w1 s = _
  unfold execNotify
  dsimp only
  rw [if_neg hno]

/-- A NOTIFY that nothing holds up: what it does by its words and the queue's block. -/
theorem exec_notify {qp : Nat} {w0 w1 : Word} (hd : s.vd v.toNat = some d) (hp : s.power = .run) (hq : s.hbm.qpBusy v.toNat qp = false)
    (hh : d.halt = none) :
    (w0.extractLsb' 48 16 ≠ d.gen → exec (.notify ⟨v, qp⟩ w0 w1) s = .next (s.count v.toNat 6 1 1)) ∧
    ∀ b u, w0.extractLsb' 48 16 = d.gen → s.readQueue v.toNat d.d (w0.extractLsb' 32 6).toNat = (some b, u) →
      exec (.notify ⟨v, qp⟩ w0 w1) s = .next
        (if w1.toNat ≤ (d.queue (w0.extractLsb' 32 6).toNat).seq.toNat || !(tailOk (d.queue (w0.extractLsb' 32 6).toNat) b (w0.setWidth 32)) then
          u.count v.toNat 6 2 1
        else (u.modQueue v.toNat (w0.extractLsb' 32 6).toNat fun k => { k with tail := w0.setWidth 32, seq := w1 }).count v.toNat 6 0 1) := by
  have hgo : (decide (s.power = .run) && !(s.hbm.qpBusy v.toNat qp) && !(s.flitsHeld v.toNat)) = true := by
    rw [flitsHeld_iff hd, hh, hq, hp]
    rfl
  have hexec : exec (.notify ⟨v, qp⟩ w0 w1) s = execNotify ⟨v, qp⟩ w0 w1 s := rfl
  rw [hexec]
  unfold execNotify
  dsimp only
  rw [if_pos hgo, hd]
  dsimp only
  refine ⟨fun hg => by rw [if_pos hg], fun b u hg hb => ?_⟩
  rw [if_neg (not_not_intro hg), show s.readQueue v.toNat d.d (Machine.fld w0 32 6) = _ from hb]
  rfl

theorem tailOk_iff (k : Queue) (b : QBlock) (tail : BitVec 32) :
    tailOk k b tail = true ↔ (tail - k.head).toNat ≤ 2 ^ b.lgn ∧ (tail - k.tail).toNat < 2147483648 := by
  rw [tailOk, Bool.and_eq_true, decide_eq_true_eq, decide_eq_true_eq]

theorem notify_stale_iff (k : Queue) (b : QBlock) (tail : BitVec 32) (w1 : Word) :
    (w1.toNat ≤ k.seq.toNat || !(tailOk k b tail)) = true ↔
      w1.toNat ≤ k.seq.toNat ∨ 2 ^ b.lgn < (tail - k.head).toNat ∨ 2147483648 ≤ (tail - k.tail).toNat := by
  rw [Bool.or_eq_true, decide_eq_true_eq, Bool.not_eq_true', ← Bool.not_eq_true, tailOk_iff, not_and_or, Nat.not_le, Nat.not_lt]

/-! ### Reconcile (R298) -/

theorem due_iff (k : Queue) (now : Nat) : k.due now = true ↔ k.polled = none ∨ ∃ t, k.polled = some t ∧ t + 64 ≤ now := by
  unfold Queue.due
  cases k.polled <;> simp

theorem exec_reconcile_early {q : BitVec 6} {t : Nat} (hd : s.vd v.toNat = some d) (hp : s.power = .run)
    (ht : (d.queue q.toNat).polled = some t) (hlt : s.now < t + 64) : exec (.reconcile v q) s = .next s := by
  have hdue : (d.queue q.toNat).due s.now = false := by
    rw [Queue.due, ht]
    exact decide_eq_false (Nat.not_le.mpr hlt)
  change execReconcile v q s = _
  unfold execReconcile
  dsimp only
  rw [if_pos hp, hd]
  dsimp only
  rw [hdue, Bool.not_false, if_pos rfl]

theorem exec_reconcile {q : BitVec 6} {b : QBlock} {u : State} (hd : s.vd v.toNat = some d) (hp : s.power = .run)
    (hb : s.readQueue v.toNat d.d q.toNat = (some b, u))
    (hdue : (d.queue q.toNat).polled = none ∨ ∃ t, (d.queue q.toNat).polled = some t ∧ t + 64 ≤ s.now) (hvd : b.vdid = v.toNat)
    (hpri : b.pri = (d.queue q.toNat).pri) (hmax : b.maxs = (d.queue q.toNat).maxs) (hok : b.ok = true) :
    exec (.reconcile v q) s =
      .next (if b.tgen = d.gen.toNat ∧ (b.tail - (d.queue q.toNat).head).toNat ≤ 2 ^ b.lgn ∧ (b.tail - (d.queue q.toNat).tail).toNat < 2147483648
        then (u.modQueue v.toNat q.toNat fun k => { k with tail := b.tail, polled := some s.now }).count v.toNat 6 3 1
        else u.modQueue v.toNat q.toNat fun k => { k with polled := some s.now }) := by
  have hread : u.now = s.now := by
    have hdev := devFrame_readQueue s v.toNat d.d q.toNat
    rw [hb] at hdev
    exact hdev.now
  have hsame : (decide (b.vdid = v.toNat) && decide (b.pri = (d.queue q.toNat).pri) && decide (b.maxs = (d.queue q.toNat).maxs)) = true := by
    rw [decide_eq_true hvd, decide_eq_true hpri, decide_eq_true hmax]
    rfl
  change execReconcile v q s = _
  unfold execReconcile
  dsimp only
  rw [if_pos hp, hd]
  dsimp only
  rw [(due_iff _ _).mpr hdue, Bool.not_true, if_neg Bool.false_ne_true, hb]
  dsimp only
  rw [if_pos hsame, if_pos hok, hread]
  by_cases htook : b.tgen = d.gen.toNat ∧ (b.tail - (d.queue q.toNat).head).toNat ≤ 2 ^ b.lgn ∧
      (b.tail - (d.queue q.toNat).tail).toNat < 2147483648
  · have htrue : (decide (b.tgen = d.gen.toNat) && tailOk (d.queue q.toNat) b b.tail) = true := by
      rw [Bool.and_eq_true, decide_eq_true_eq, tailOk_iff]
      exact htook
    rw [if_pos htook, htrue]
    rfl
  · have hfalse : (decide (b.tgen = d.gen.toNat) && tailOk (d.queue q.toNat) b b.tail) = false := by
      rw [← Bool.not_eq_true, Bool.and_eq_true, decide_eq_true_eq, tailOk_iff]
      exact htook
    rw [if_neg htook, hfalse]
    rfl

/-! ### Commands (R296, R301) -/

theorem postWord_done (tag : Nat) : postWord 0 0 0 tag = BitVec.ofNat 64 tag := by
  unfold postWord
  congr 1
  omega

theorem postWord_rejected (code tag : Nat) : postWord 1 code 0 tag = BitVec.ofNat 64 (2 ^ 60 + code * 2 ^ 52 + tag) := by
  unfold postWord
  congr 1
  omega

section
variable {mine : Nat → Bool} {act : State → Vd → QCmd → State} {q : Nat} {c : QCmd} {u : State}

theorem runCmd_none (hd : s.vd v.toNat = some d) (hc : s.nextCmd v.toNat d q = (none, u)) : s.runCmd v.toNat q mine act = u := by
  unfold State.runCmd
  rw [hd]
  dsimp only
  rw [hc]

/-- A well-formed command of an event's OP is taken and acts. -/
theorem runCmd_acts (hd : s.vd v.toNat = some d) (hc : s.nextCmd v.toNat d q = (some c, u)) (hm : mine c.op = true) (hok : c.ok = true) :
    s.runCmd v.toNat q mine act = act (u.takeCmd v.toNat d q) d c := by
  unfold State.runCmd
  rw [hd]
  dsimp only
  rw [hc]
  dsimp only
  rw [hm, Bool.not_true, if_neg Bool.false_ne_true, if_pos hok]

/-- A malformed command of an event's OP is taken and rejected with code 48. -/
theorem runCmd_rejects (hd : s.vd v.toNat = some d) (hc : s.nextCmd v.toNat d q = (some c, u)) (hm : mine c.op = true) (hok : c.ok = false) :
    s.runCmd v.toNat q mine act = (u.takeCmd v.toNat d q).post v.toNat q (BitVec.ofNat 64 (2 ^ 60 + 48 * 2 ^ 52 + c.tag)) 0xFFF := by
  unfold State.runCmd
  rw [hd]
  dsimp only
  rw [hc]
  dsimp only
  rw [hm, Bool.not_true, if_neg Bool.false_ne_true, if_neg (by rw [hok]; exact Bool.false_ne_true), State.rejectCmd, postWord_rejected]

end

section
variable {q : BitVec 6} {c : QCmd} {u x : State}

/-- With no command to take, none of the three events takes one. -/
theorem exec_commands_none (hd : s.vd v.toNat = some d) (hc : s.nextCmd v.toNat d q.toNat = (none, u)) :
    exec (.nopCommand v q) s = .next u ∧ exec (.sweepCommand v q) s = .next u ∧ exec (.graphCommand v q) s = .next u :=
  ⟨congrArg Host.Outcome.next (runCmd_none hd hc), congrArg Host.Outcome.next (runCmd_none hd hc),
    congrArg Host.Outcome.next (runCmd_none hd hc)⟩

theorem exec_nopCommand (hd : s.vd v.toNat = some d) (hc : s.nextCmd v.toNat d q.toNat = (some c, u)) (hop : c.op = 0) (hok : c.ok = true) :
    exec (.nopCommand v q) s = .next ((u.takeCmd v.toNat d q.toNat).post v.toNat q.toNat (BitVec.ofNat 64 c.tag) 0xFFF) := by
  rw [← postWord_done]
  exact congrArg Host.Outcome.next (runCmd_acts hd hc (by rw [hop]; rfl) hok)

theorem exec_sweepCommand (hd : s.vd v.toNat = some d) (hc : s.nextCmd v.toNat d q.toNat = (some c, u)) (hop : c.op = 1) (hok : c.ok = true)
    (hl : (u.takeCmd v.toNat d q.toNat).launchFrom v.toNat d.d (c.w1.setWidth 48).toNat (d.queue q.toNat).pri (.queue q.toNat c.tag) = (none, x)) :
    exec (.sweepCommand v q) s = .next (x.modQueue v.toNat q.toNat fun k => { k with open_ := k.open_ + 1 }) := by
  refine congrArg Host.Outcome.next ((runCmd_acts hd hc (by rw [hop]; rfl) hok).trans ?_)
  rw [fld_zero, hl]

theorem exec_sweepCommand_rejected {code : Nat} (hd : s.vd v.toNat = some d) (hc : s.nextCmd v.toNat d q.toNat = (some c, u)) (hop : c.op = 1)
    (hok : c.ok = true) (hl : (u.takeCmd v.toNat d q.toNat).launchFrom v.toNat d.d (c.w1.setWidth 48).toNat (d.queue q.toNat).pri
      (.queue q.toNat c.tag) = (some code, x)) :
    exec (.sweepCommand v q) s = .next (x.post v.toNat q.toNat (BitVec.ofNat 64 (2 ^ 60 + code * 2 ^ 52 + c.tag)) 0xFFF) := by
  rw [← postWord_rejected]
  refine congrArg Host.Outcome.next ((runCmd_acts hd hc (by rw [hop]; rfl) hok).trans ?_)
  rw [fld_zero, hl]
  rfl

theorem exec_graphCommand {bs : List Byte} (hd : s.vd v.toNat = some d) (hc : s.nextCmd v.toNat d q.toNat = (some c, u)) (hop : c.op = 2)
    (hok : c.ok = true)
    (hr : (({ u.takeCmd v.toNat d q.toNat with nextId := (u.takeCmd v.toNat d q.toNat).nextId + 1 } : State).modQueue v.toNat q.toNat
      fun k => { k with open_ := k.open_ + 1 }).devRead v.toNat (c.w1.setWidth 48).toNat (16 * c.w2.toNat) = (some bs, x)) :
    exec (.graphCommand v q) s = .next ((x.modFr fun f => { f with graphs := (tset f.graphs (u.takeCmd v.toNat d q.toNat).nextId
      { vd := v.toNat, q := q.toNat, tag := c.tag, table := BitVec.ofNat 64 (c.w1.setWidth 48).toNat, nnode := c.w2.toNat,
        counts := (List.range c.w2.toNat).map fun i => ((wordsOf bs (2 * c.w2.toNat)).getD (2 * i) 0 |>.extractLsb' 48 16).toNat,
        launched := [], done := [], reject := none }) }).runGraph (u.takeCmd v.toNat d q.toNat).nextId) := by
  refine congrArg Host.Outcome.next ((runCmd_acts hd hc (by rw [hop]; rfl) hok).trans ?_)
  dsimp only
  rw [fld_zero, hr]
  rfl

/-- Each event rejects a malformed command of its OP. -/
theorem exec_commands_rejected (hd : s.vd v.toNat = some d) (hc : s.nextCmd v.toNat d q.toNat = (some c, u)) (hok : c.ok = false) :
    ((c.op = 0 ∨ 2 < c.op) → exec (.nopCommand v q) s =
      .next ((u.takeCmd v.toNat d q.toNat).post v.toNat q.toNat (BitVec.ofNat 64 (2 ^ 60 + 48 * 2 ^ 52 + c.tag)) 0xFFF)) ∧
    (c.op = 1 → exec (.sweepCommand v q) s =
      .next ((u.takeCmd v.toNat d q.toNat).post v.toNat q.toNat (BitVec.ofNat 64 (2 ^ 60 + 48 * 2 ^ 52 + c.tag)) 0xFFF)) ∧
    (c.op = 2 → exec (.graphCommand v q) s =
      .next ((u.takeCmd v.toNat d q.toNat).post v.toNat q.toNat (BitVec.ofNat 64 (2 ^ 60 + 48 * 2 ^ 52 + c.tag)) 0xFFF)) := by
  refine ⟨fun hop => ?_, fun hop => ?_, fun hop => ?_⟩
  · have hmine : (c.op == 0 || decide (2 < c.op)) = true := by rw [Bool.or_eq_true, beq_iff_eq, decide_eq_true_eq]; exact hop
    exact congrArg Host.Outcome.next (runCmd_rejects (mine := fun op => op == 0 || decide (2 < op)) hd hc hmine hok)
  · exact congrArg Host.Outcome.next (runCmd_rejects hd hc (by rw [hop]; rfl) hok)
  · exact congrArg Host.Outcome.next (runCmd_rejects hd hc (by rw [hop]; rfl) hok)

end

/-! ### Completion actions (R299) -/

section
variable {turn : Nat} {x : Sweep}

theorem actIf_acts {acts : List Nat} (hx : s.fr.sweeps.find? (fun x => x.turn == turn) = some x) (hm : s.mayAct x = true)
    (ha : acts.contains x.act = true) : s.actIf turn acts = s.act x := by
  unfold State.actIf
  rw [hx]
  dsimp only
  rw [hm, ha, Bool.true_and, if_pos rfl]

theorem actIf_waits {acts : List Nat} (hx : s.fr.sweeps.find? (fun x => x.turn == turn) = some x) (hm : s.mayAct x = false) :
    s.actIf turn acts = s := by
  unfold State.actIf
  rw [hx]
  dsimp only
  rw [hm, Bool.false_and, if_neg Bool.false_ne_true]

theorem exec_action (hx : s.fr.sweeps.find? (fun x => x.turn == turn) = some x) (hm : s.mayAct x = true) :
    (x.act = 1 → exec (.actionSignal turn) s = .next (s.act x)) ∧ (x.act = 2 → exec (.actionFput turn) s = .next (s.act x)) ∧
    (x.act = 3 → exec (.actionGate turn) s = .next (s.act x)) ∧ ((x.act = 0 ∨ x.act = 4) → exec (.actionPost turn) s = .next (s.act x)) := by
  refine ⟨fun ha => ?_, fun ha => ?_, fun ha => ?_, fun ha => ?_⟩
  · exact congrArg Host.Outcome.next (actIf_acts hx hm (by rw [ha]; rfl))
  · exact congrArg Host.Outcome.next (actIf_acts hx hm (by rw [ha]; rfl))
  · exact congrArg Host.Outcome.next (actIf_acts hx hm (by rw [ha]; rfl))
  · have hacts : [0, 4].contains x.act = true := by simpa using ha
    exact congrArg Host.Outcome.next (actIf_acts hx hm hacts)

theorem exec_action_waits (hx : s.fr.sweeps.find? (fun x => x.turn == turn) = some x) (hm : s.mayAct x = false) :
    ∀ e ∈ [Instr.actionSignal turn, .actionFput turn, .actionGate turn, .actionPost turn], exec e s = .next s := by
  have hstay (acts : List Nat) : (.next (s.actIf turn acts) : Out) = .next s := congrArg _ (actIf_waits hx hm)
  intro e he
  simp only [List.mem_cons, List.not_mem_nil, or_false] at he
  rcases he with rfl | rfl | rfl | rfl
  · exact hstay [1]
  · exact hstay [2]
  · exact hstay [3]
  · exact hstay [0, 4]

end

/-! ### Completion entries (R300) -/

theorem served_of_running (hp : s.power = .run) (hd : s.vd v.toNat = some d) (hh : ∀ h, d.halt = some h → h.fatal = false) :
    s.served v.toNat = some d := by
  have hfatal : d.halt.any (·.fatal) = false := by
    cases hhalt : d.halt with
    | none => rfl
    | some h => exact hh h hhalt
  rw [State.served, if_pos hp, hd, Option.bind_some, hfatal, if_neg Bool.false_ne_true]

/-- Word 1 of a completion entry: the generation above the sweep's id. -/
theorem postWord1_eq (gen : BitVec 16) (swid : Nat) :
    gen ++ (0 : BitVec 36) ++ BitVec.ofNat 12 swid = BitVec.ofNat 64 (2 ^ 48 * gen.toNat + swid % 4096) := by
  apply BitVec.eq_of_toNat_eq
  have hgen := gen.isLt
  have hmod := Nat.mod_lt swid (show 0 < 4096 by decide)
  have hzero : (0 : BitVec 36).toNat = 0 := rfl
  rw [BitVec.toNat_append, BitVec.toNat_append, BitVec.toNat_ofNat, BitVec.toNat_ofNat, hzero, Nat.or_zero,
    ← Nat.shiftLeft_add_eq_or_of_lt (by omega), Nat.shiftLeft_eq, Nat.shiftLeft_eq]
  omega

section
variable {q : BitVec 6} {p : Post} {b : QBlock} {u w : State}

theorem exec_completionPost_full (hs : s.served v.toNat = some d) (hf : (s.fr.posts.find? fun p => p.vd == v.toNat && p.q == q.toNat) = some p)
    (hb : s.readQueue v.toNat d.d q.toNat = (some b, u)) (hct : (d.queue q.toNat).ctail - b.chead = BitVec.ofNat 32 (2 ^ b.clg)) :
    exec (.completionPost v q) s = .next u := by
  change execCompletionPost v q s = _
  unfold execCompletionPost
  dsimp only
  rw [hs, hf]
  dsimp only
  rw [hb]
  dsimp only
  rw [if_pos (by rw [beq_iff_eq.mpr hct, Bool.or_true])]

theorem exec_completionPost (hs : s.served v.toNat = some d) (hf : (s.fr.posts.find? fun p => p.vd == v.toNat && p.q == q.toNat) = some p)
    (hb : s.readQueue v.toNat d.d q.toNat = (some b, u)) (hok : b.ok = true)
    (hct : (d.queue q.toNat).ctail - b.chead ≠ BitVec.ofNat 32 (2 ^ b.clg))
    (hw : u.devWords v.toNat (b.crb + 16 * ((d.queue q.toNat).ctail.toNat % 2 ^ b.clg))
      [p.w0, BitVec.ofNat 64 (2 ^ 48 * d.gen.toNat + p.swid % 4096)] = (true, w)) :
    let ct := (d.queue q.toNat).ctail
    let x' := w.modFr fun f => { f with posts := dropFirst (fun x => x.vd == v.toNat && x.q == q.toNat) f.posts }
    let x := if (p.w0.extractLsb' 60 4).toNat = 0 then x'.clipped v.toNat 4 else x'
    let y' := ((x.modQueue v.toNat q.toNat fun k => { k with ctail := ct + 1 }).devWords v.toNat (d.d.qcb + 64 * q.toNat + 40)
      [(ct + 1).setWidth 64]).2
    let y := if b.cfut = 0 then y' else y'.devFill v.toNat b.cfut ((ct + 1).setWidth 64)
    exec (.completionPost v q) s = .next (match y.sweep v.toNat (BitVec.ofNat 12 p.swid) with | some x => y.endSweep x.key | none => y) := by
  intro ct x' x y' y
  have hroom : (!b.ok || ct - b.chead == BitVec.ofNat 32 (2 ^ b.clg)) = false := by
    rw [hok, Bool.not_true, Bool.false_or]
    exact beq_eq_false_iff_ne.mpr hct
  rw [← postWord1_eq] at hw
  have hexec : exec (.completionPost v q) s = execCompletionPost v q s := rfl
  rw [hexec]
  unfold execCompletionPost
  dsimp only
  rw [hs, hf]
  dsimp only
  rw [hb]
  dsimp only
  rw [if_neg (by rw [hroom]; exact Bool.false_ne_true), hw]
  rfl

end

end

/-- Settles O49, event by event of the launch front end. -/
theorem queueEvents : Obligations.QueueEvents := by
  unfold Obligations.QueueEvents
  intro s v q d hd hp
  refine ⟨fun qp w0 w1 h => exec_notify_waits hd h, fun qp w0 w1 hq hh hg => (exec_notify hd hp hq hh).1 hg, ?_, ?_,
    fun t ht hlt => exec_reconcile_early hd hp ht hlt, ?_, fun u hu => exec_commands_none hd hu,
    fun turn x hx => ⟨exec_action hx, exec_action_waits hx⟩, ?_⟩
  · intro qp w0 w1 b u hq hh hg hb n k tail
    have hexec := (exec_notify hd hp hq hh (w1 := w1)).2 b u hg hb
    rw [hexec]
    refine ⟨fun hstale => ?_, fun hseq hhead htail => ?_⟩
    · rw [if_pos ((notify_stale_iff k b tail w1).mpr hstale)]
    · have hfresh : ¬ (w1.toNat ≤ k.seq.toNat ∨ 2 ^ b.lgn < (tail - k.head).toNat ∨ 2147483648 ≤ (tail - k.tail).toNat) := by
        rw [not_or, not_or, Nat.not_le, Nat.not_lt, Nat.not_le]
        exact ⟨hseq, hhead, htail⟩
      rw [if_neg (mt (notify_stale_iff k b tail w1).mp hfresh)]
  · intro b u hb k hdue hvd hpri hmax hok
    exact exec_reconcile hd hp hb hdue hvd hpri hmax hok
  · intro c u hc t rejected
    refine ⟨exec_nopCommand hd hc, fun hop hok => (exec_commands_rejected hd hc hok).1 hop,
      fun hop hok => (exec_commands_rejected hd hc hok).2.1 hop, fun hop hok => (exec_commands_rejected hd hc hok).2.2 hop,
      fun hop hok x hx => exec_sweepCommand hd hc hop hok hx, fun hop hok code x hx => exec_sweepCommand_rejected hd hc hop hok hx, ?_⟩
    intro hop hok m y bs x hx
    exact exec_graphCommand hd hc hop hok hx
  · intro p b u w hh hf hb hok ct
    have hs := served_of_running hp hd hh
    exact ⟨exec_completionPost_full hs hf hb, exec_completionPost hs hf hb hok⟩

end Sys2Proof.Claims

/-! ## The host's RDMA and its responses (spec/15_virtual_devices.md R294, R282, R283) -/

namespace Sys2Proof.Claims

open Sys2Proof.Machine

section
variable {s : State} {v : BitVec 8} {d : Vd}

/-! ### Who may access (R282, R283, R294) -/

section
variable {n : Nat} {go : State → State}

theorem hostAccess_goes (hp : s.power = .run) (hd : s.vd n = some d) (hh : d.halt = none) : s.hostAccess n go = go s := by
  rw [State.hostAccess, if_neg (not_not_intro hp), hd]
  dsimp only
  rw [hh]

/-- Without its VD, or after a fatal halt, an access is answered with an error. -/
theorem hostAccess_error (hp : s.power = .run)
    (h : s.vd n = none ∨ ∃ d h, s.vd n = some d ∧ d.halt = some h ∧ h.fatal = true) :
    s.hostAccess n go = s.toHost (.response n false []) := by
  rw [State.hostAccess, if_neg (not_not_intro hp)]
  rcases h with hd | ⟨d, h, hd, hh, hf⟩
  · rw [hd]
  · rw [hd]
    dsimp only
    rw [hh]
    exact if_pos hf

theorem hostAccess_held {h : Halt} (hp : s.power = .run) (hd : s.vd n = some d) (hh : d.halt = some h) (hf : h.fatal = false) :
    s.hostAccess n go = s := by
  rw [State.hostAccess, if_neg (not_not_intro hp), hd]
  dsimp only
  rw [hh]
  exact if_neg (by rw [hf]; exact Bool.false_ne_true)

end

section
variable {va : Word}

/-- A host access, whichever of the three, of a VD that cannot serve it or is at a debug halt. -/
theorem exec_hostRdma_refused (hp : s.power = .run) (len qp : Nat) (data : List Byte) (cas : Bool) (op new : Word) (notify : Bool) :
    ∀ e ∈ [Instr.hostRdmaRead ⟨v, notify⟩ va len, .hostRdmaWrite ⟨v, qp⟩ va data, .hostRdmaAtomic v va cas op new],
      ((s.vd v.toNat = none ∨ ∃ d h, s.vd v.toNat = some d ∧ d.halt = some h ∧ h.fatal = true) →
        exec e s = .next (s.toHost (.response v.toNat false []))) ∧
      ∀ d h, s.vd v.toNat = some d → d.halt = some h → h.fatal = false → exec e s = .next s := by
  have hall (go : State → State) :
      ((s.vd v.toNat = none ∨ ∃ d h, s.vd v.toNat = some d ∧ d.halt = some h ∧ h.fatal = true) →
        (.next (s.hostAccess v.toNat go) : Out) = .next (s.toHost (.response v.toNat false []))) ∧
      ∀ d h, s.vd v.toNat = some d → d.halt = some h → h.fatal = false → (.next (s.hostAccess v.toNat go) : Out) = .next s :=
    ⟨fun h => congrArg _ (hostAccess_error hp h), fun _ _ hd hh hf => congrArg _ (hostAccess_held hp hd hh hf)⟩
  intro e he
  simp only [List.mem_cons, List.not_mem_nil, or_false] at he
  rcases he with rfl | rfl | rfl
  · exact hall _
  · exact hall _
  · exact hall _

/-! ### Reads (R294) -/

theorem exec_hostRdmaRead {len : Nat} {r : Rdma} {u : State} (hp : s.power = .run) (hd : s.vd v.toNat = some d) (hh : d.halt = none)
    (hr : s.rdmaRead v.toNat va len = (r, u)) :
    exec (.hostRdmaRead ⟨v, false⟩ va len) s = .next (u.rdmaDone v.toNat r (.rdmaWrite v.toNat 0 va [])) := by
  change execHostRdmaRead ⟨v, false⟩ va len s = _
  unfold execHostRdmaRead
  rw [hostAccess_goes hp hd hh]
  dsimp only
  rw [if_neg Bool.false_ne_true, hr]

/-- A read of the notify window returns as many free bytes, and touches nothing but the supply of free choices and what the host is told. -/
theorem exec_hostRdmaRead_notify {len : Nat} (hp : s.power = .run) (hd : s.vd v.toNat = some d) (hh : d.halt = none) (hpos : 0 < len)
    (hlen : va.toNat + len ≤ 16) :
    ∃ t bs, exec (.hostRdmaRead ⟨v, true⟩ va len) s = .next t ∧ bs.length = len ∧ t.io.out = s.io.out ++ [.response v.toNat true bs] ∧
      SameMemory s t ∧ t.vds = s.vds ∧ t.fr = s.fr ∧ t.cores = s.cores := by
  have hin : ¬ ((len = 0 || decide (16 < va.toNat + len)) = true) := by
    rw [Bool.or_eq_true, decide_eq_true_eq, decide_eq_true_eq]
    omega
  have hexec : exec (.hostRdmaRead ⟨v, true⟩ va len) s =
      .next (({ s with freeCtr := s.freeCtr + len } : State).toHost
        (.response v.toNat true ((List.range len).map fun i => (Config.freeWord (s.freeCtr + i)).setWidth 8))) := by
    change execHostRdmaRead ⟨v, true⟩ va len s = _
    unfold execHostRdmaRead
    rw [hostAccess_goes hp hd hh]
    dsimp only
    rw [if_pos rfl, State.notifyRead, if_neg hin]
    rfl
  exact ⟨_, _, hexec, by rw [List.length_map, List.length_range], rfl, SameMemory.rfl' s, rfl, rfl, rfl⟩

/-! ### Writes in the order of their queue pair (R294, R252) -/

theorem exec_hostRdmaWrite_waits {qp : Nat} {data : List Byte} (hp : s.power = .run) (hd : s.vd v.toNat = some d) (hh : d.halt = none)
    (hq : s.hbm.qpBusy v.toNat qp = true) : exec (.hostRdmaWrite ⟨v, qp⟩ va data) s = .next s := by
  change execHostRdmaWrite ⟨v, qp⟩ va data s = _
  unfold execHostRdmaWrite
  rw [hostAccess_goes hp hd hh]
  dsimp only
  rw [if_pos hq]

theorem exec_hostRdmaWrite {qp : Nat} {data : List Byte} {r : Rdma} {u : State} (hp : s.power = .run) (hd : s.vd v.toNat = some d)
    (hh : d.halt = none) (hq : s.hbm.qpBusy v.toNat qp = false) (hr : s.rdmaWrite v.toNat va data = (r, u)) :
    exec (.hostRdmaWrite ⟨v, qp⟩ va data) s = .next (u.rdmaDone v.toNat r (.rdmaWrite v.toNat qp va data)) := by
  change execHostRdmaWrite ⟨v, qp⟩ va data s = _
  unfold execHostRdmaWrite
  rw [hostAccess_goes hp hd hh]
  dsimp only
  rw [if_neg (by rw [hq]; exact Bool.false_ne_true), hr]

/-- An access that a migration holds joins those that wait for the migration's end. -/
theorem rdmaDone_held_migs (u : State) (n i : Nat) (o : HeldOp) :
    (u.rdmaDone n (.held i) o).hbm.migs = modAt u.hbm.migs i fun m => { m with held := m.held ++ [o] } := rfl

/-! ### Atomics (R204, R294) -/

theorem exec_hostRdmaAtomic {cas : Bool} {op new : Word} {r : Rdma} {u : State} (hp : s.power = .run) (hd : s.vd v.toNat = some d)
    (hh : d.halt = none) (hr : s.rdmaAtomic v.toNat va cas op new = (r, u)) :
    exec (.hostRdmaAtomic v va cas op new) s = .next (u.rdmaDone v.toNat r (.rdmaAtomic v.toNat va cas op new)) := by
  change execHostRdmaAtomic v va cas op new s = _
  unfold execHostRdmaAtomic
  rw [hostAccess_goes hp hd hh]
  dsimp only
  rw [hr]

theorem rdmaAtomic_misaligned {n : Nat} {cas : Bool} {op new : Word} (h : va &&& 7#64 ≠ 0#64) : s.rdmaAtomic n va cas op new = (.err, s) :=
  if_pos h

end

/-! ### Responses (R282, R294) -/

section
variable {i : Nat} {o : HostOp} {data : List Byte}

theorem exec_hostWindowResponse {ok : Bool} (hp : s.power = .run) (ho : s.io.ops[i]? = some o)
    (hgo : s.flitsHeld o.vd = false ∨ o.who = .load) :
    exec (.hostWindowResponse i ok data) s =
      .next (if ok then ({ s with io := { s.io with ops := dropAt s.io.ops i } } : State).hostDone o data
        else ({ s with io := { s.io with ops := dropAt s.io.ops i } } : State).hostFailed o) := by
  have hfree : ¬ ((decide (s.power ≠ .run) || (s.flitsHeld o.vd && o.who != .load)) = true) := by
    rcases hgo with h | h
    · simp [hp, h]
    · simp [hp, h]
  change execHostWindowResponse i ok data s = _
  unfold execHostWindowResponse
  rw [ho]
  dsimp only
  rw [if_neg hfree]

/-- The response to a halted VD's work waits, but for the frame that a debugger loads. -/
theorem exec_hostWindowResponse_held {ok : Bool} (ho : s.io.ops[i]? = some o) (hheld : s.flitsHeld o.vd = true) (hwho : o.who ≠ .load) :
    exec (.hostWindowResponse i ok data) s = .next s := by
  have hstop : (decide (s.power ≠ .run) || (s.flitsHeld o.vd && o.who != .load)) = true := by simp [hheld, hwho]
  change execHostWindowResponse i ok data s = _
  unfold execHostWindowResponse
  rw [ho]
  dsimp only
  rw [if_pos hstop]

end

end

/-- Settles O50, access by access and response by response. -/
theorem hostAccesses : Obligations.HostAccesses := by
  unfold Obligations.HostAccesses
  intro s v va hp
  refine ⟨fun d hd hh => ⟨fun len bs u hr => exec_hostRdmaRead hp hd hh hr, fun len u hr => exec_hostRdmaRead hp hd hh hr,
    fun len hpos hlen => exec_hostRdmaRead_notify hp hd hh hpos hlen, fun qp data hq => exec_hostRdmaWrite_waits hp hd hh hq,
    fun qp data u hq hr => exec_hostRdmaWrite hp hd hh hq hr,
    fun qp data i u hq hr => ⟨_, exec_hostRdmaWrite hp hd hh hq hr, rdmaDone_held_migs u v.toNat i _⟩,
    fun qp data u hq hr => exec_hostRdmaWrite hp hd hh hq hr, fun cas op new bs u hr => exec_hostRdmaAtomic hp hd hh hr,
    fun cas op new hal => exec_hostRdmaAtomic hp hd hh (rdmaAtomic_misaligned hal)⟩,
    fun len qp data cas op new notify => exec_hostRdma_refused hp len qp data cas op new notify, ?_⟩
  intro i o data ho u
  exact ⟨fun hgo => ⟨exec_hostWindowResponse hp ho hgo, exec_hostWindowResponse hp ho hgo⟩,
    fun hheld hwho ok => exec_hostWindowResponse_held ho hheld hwho⟩

end Sys2Proof.Claims

/-! ## The management channel (spec/15_virtual_devices.md R293, R302 to R304) -/

namespace Sys2Proof.Claims

open Sys2Proof.Machine

/-! ### Headers and answers (R304) -/

theorem hdrOk_iff (op n : Nat) (h : MgmtHdr) : hdrOk op (bodyOf op n) h = true ↔ HdrOf h op n := by
  rw [hdrOk, HdrOf, Bool.and_eq_true, Bool.and_eq_true, beq_iff_eq, beq_iff_eq, beq_iff_eq, and_assoc]

section
variable {s : State} {op v len : Nat} {h : MgmtHdr} {d : Vd}

theorem managed_run {act : State → State} (hp : s.power = .run) :
    s.managed op v h len act = if s.fw.load.isSome then s else if hdrOk op len h then act (answering s)
      else (answering s).reply h.op.toNat v h.seq 2 [] := by
  unfold State.managed
  dsimp only
  split
  · rfl
  · next heq => cases hp.symm.trans heq
  · next hno _ => exact absurd hp hno

/-- A request with a right header, and none that is still to be answered before it, acts. -/
theorem managed_acts {act : State → State} (hp : s.power = .run) (hl : s.fw.load = none) (hh : hdrOk op len h = true) :
    s.managed op v h len act = act (answering s) := by
  rw [managed_run hp, if_neg (Option.not_isSome_iff_eq_none.mpr hl), if_pos hh]

/-- A request with a wrong header is answered with status 2. -/
theorem managed_bad {act : State → State} (hp : s.power = .run) (hl : s.fw.load = none) (hh : ¬ hdrOk op len h = true) :
    s.managed op v h len act = (answering s).toHost (.reply h.op.toNat v h.seq 2 []) := by
  rw [managed_run hp, if_neg (Option.not_isSome_iff_eq_none.mpr hl), if_neg hh]
  rfl

theorem managedVd_acts {act : State → Vd → State} (hp : s.power = .run) (hl : s.fw.load = none) (hh : hdrOk op len h = true)
    (hd : s.vd v = some d) : s.managedVd op v h len act = act (answering s) d := by
  have hd' : (answering s).vd v = some d := hd
  rw [State.managedVd, managed_acts hp hl hh, hd']

/-- A request that names a VD that is not defined is refused. -/
theorem managedVd_undefined {act : State → Vd → State} (hp : s.power = .run) (hl : s.fw.load = none) (hh : hdrOk op len h = true)
    (hd : s.vd v = none) : s.managedVd op v h len act = (answering s).toHost (.reply op v h.seq 1 []) := by
  have hd' : (answering s).vd v = none := hd
  rw [State.managedVd, managed_acts hp hl hh, hd']
  rfl

theorem managedVd_bad {act : State → Vd → State} (hp : s.power = .run) (hl : s.fw.load = none) (hh : ¬ hdrOk op len h = true) :
    s.managedVd op v h len act = (answering s).toHost (.reply h.op.toNat v h.seq 2 []) := managed_bad hp hl hh

end

section
variable {s : State} {n : MgmtHdr} {vd : BitVec 8} {d : Vd}

/-! ### DEFINE (R293) -/

theorem exec_fwDefine {x : VdDef} (hp : s.power = .run) (hl : s.fw.load = none) (hh : HdrOf n 1 (defCount x)) :
    exec (.fwDefine n vd x) s = .next
      (if (s.vd vd.toNat).isNone && defAddrsOk x && defLimitsOk x && (answering s).sharesOk vd.toNat x
        then ((answering s).define vd.toNat x).toHost (.reply 1 vd.toNat n.seq 0 [])
        else (answering s).toHost (.reply 1 vd.toNat n.seq 1 [])) :=
  congrArg Host.Outcome.next (managed_acts hp hl ((hdrOk_iff _ _ _).mpr hh))

theorem fwDefine_does {x : VdDef} (hp : s.power = .run) (hl : s.fw.load = none) (hh : HdrOf n 1 (defCount x))
    (hnew : (s.vd vd.toNat).isNone = true) (ha : defAddrsOk x = true) (hlim : defLimitsOk x = true)
    (hs : (answering s).sharesOk vd.toNat x = true) :
    Does s vd.toNat 1 n (.fwDefine n vd x) ((answering s).define vd.toNat x) := by
  rw [Does, exec_fwDefine hp hl hh, if_pos (by rw [hnew, ha, hlim, hs]; rfl)]

theorem fwDefine_refuses {x : VdDef} (hp : s.power = .run) (hl : s.fw.load = none) (hh : HdrOf n 1 (defCount x))
    (hbad : (s.vd vd.toNat).isSome = true ∨ defAddrsOk x = false ∨ defLimitsOk x = false) :
    Refuses s vd.toNat 1 n (.fwDefine n vd x) := by
  have hno : ¬ ((s.vd vd.toNat).isNone && defAddrsOk x && defLimitsOk x && (answering s).sharesOk vd.toNat x) = true := by
    rcases hbad with h | h | h
    · have hnone : (s.vd vd.toNat).isNone = false := by rw [← Option.not_isSome, h]; rfl
      simp [hnone]
    · simp [h]
    · simp [h]
  rw [Refuses, exec_fwDefine hp hl hh, if_neg hno]

/-! ### The messages of a defined VD (R252, R268, R269, R271, R294, R302, R311) -/

theorem exec_fwTeardown (hp : s.power = .run) (hl : s.fw.load = none) (hh : HdrOf n 2 0) (hd : s.vd vd.toNat = some d) :
    let w := (((answering s).freezeHalt vd.toNat d).discard vd.toNat).flushStats vd.toNat 2 false
    let x := (((w.windowsOf vd.toNat).foldl (fun s e => s.closeWindow e.1) w).dropDomain vd.toNat).scrubHanks vd.toNat
    exec (.fwTeardown n vd) s = .next (({ x with vds := terase x.vds vd.toNat } : State).toHost (.reply 2 vd.toNat n.seq 0 [])).settleMaps :=
  congrArg Host.Outcome.next (managedVd_acts hp hl ((hdrOk_iff 2 0 n).mpr hh) hd)

theorem fwReset_does (hp : s.power = .run) (hl : s.fw.load = none) (hh : HdrOf n 3 0) (hd : s.vd vd.toNat = some d) :
    Does s vd.toNat 3 n (.fwReset n vd) ((List.range 64).foldl (fun s q => s.resetQueue vd.toNat d.d q)
      ((discarded (answering s) vd.toNat d).modVd vd.toNat fun d =>
        { d with halt := none, freeze := none, unsave := false, step := none, savedTasks := [], retmpl := [], gen := d.gen + 1 })) :=
  congrArg Host.Outcome.next (managedVd_acts hp hl ((hdrOk_iff 3 0 n).mpr hh) hd)

theorem exec_fwSchedule {sched : List (Nat × Nat)} (hp : s.power = .run) (hl : s.fw.load = none) (hh : HdrOf n 4 sched.length)
    (hd : s.vd vd.toNat = some d) :
    exec (.fwSchedule n vd sched) s = .next (if sched.all fun e => d.d.hanks.contains e.1
      then ((answering s).modVd vd.toNat fun d => { d with d := { d.d with sched := sched } }).toHost (.reply 4 vd.toNat n.seq 0 [])
      else (answering s).toHost (.reply 4 vd.toNat n.seq 1 [])) :=
  congrArg Host.Outcome.next (managedVd_acts hp hl ((hdrOk_iff _ _ _).mpr hh) hd)

theorem sched_all_iff (sched : List (Nat × Nat)) (d : Vd) :
    (sched.all fun e => d.d.hanks.contains e.1) = true ↔ ∀ e ∈ sched, e.1 ∈ d.d.hanks := by
  simp only [List.all_eq_true, List.contains_iff_mem]

theorem fwSchedule_does {sched : List (Nat × Nat)} (hp : s.power = .run) (hl : s.fw.load = none) (hh : HdrOf n 4 sched.length)
    (hd : s.vd vd.toNat = some d) (hin : ∀ e ∈ sched, e.1 ∈ d.d.hanks) :
    Does s vd.toNat 4 n (.fwSchedule n vd sched) ((answering s).modVd vd.toNat fun d => { d with d := { d.d with sched := sched } }) := by
  rw [Does, exec_fwSchedule hp hl hh hd, if_pos ((sched_all_iff sched d).mpr hin)]

theorem fwSchedule_refuses {sched : List (Nat × Nat)} (hp : s.power = .run) (hl : s.fw.load = none) (hh : HdrOf n 4 sched.length)
    (hd : s.vd vd.toNat = some d) (hout : ∃ e ∈ sched, e.1 ∉ d.d.hanks) : Refuses s vd.toNat 4 n (.fwSchedule n vd sched) := by
  obtain ⟨e, he, hno⟩ := hout
  rw [Refuses, exec_fwSchedule hp hl hh hd, if_neg fun hall => hno ((sched_all_iff sched d).mp hall e he)]

theorem exec_fwHostwin {w : HostWin} (hp : s.power = .run) (hl : s.fw.load = none) (hh : HdrOf n 5 0) (hd : s.vd vd.toNat = some d) :
    exec (.fwHostwin n vd w) s = .next (if w.len ≤ 1099511627776
      then ((answering s).modVd vd.toNat fun d => { d with hostw := tset d.hostw w.h.toNat w }).toHost (.reply 5 vd.toNat n.seq 0 [])
      else (answering s).toHost (.reply 5 vd.toNat n.seq 1 [])) :=
  congrArg Host.Outcome.next (managedVd_acts hp hl ((hdrOk_iff _ _ _).mpr hh) hd)

/-- SPAN gives the VD its nodes, and the package its node id where it has none. -/
theorem fwSpan_does {own : BitVec 12} {nodes : List Nat} (hp : s.power = .run) (hl : s.fw.load = none) (hh : HdrOf n 6 nodes.length)
    (hd : s.vd vd.toNat = some d) (hin : ∀ x ∈ nodes, x < 4096) :
    ∃ t, Does s vd.toNat 6 n (.fwSpan n vd own nodes) t ∧ t.fab.node = some (s.fab.node.getD own) ∧
      t.vd vd.toNat = some { d with span := nodes } := by
  have hall : (nodes.all fun n => decide (n < 4096)) = true := by
    rw [List.all_eq_true]
    exact fun x hx => decide_eq_true (hin x hx)
  have hacts := managedVd_acts (act := fun s _ =>
      if nodes.all fun n => decide (n < 4096) then
        ((s.modFab fun f => { f with node := match f.node with | some n => some n | none => some own }).modVd vd.toNat fun d =>
          { d with span := nodes }).reply 6 vd.toNat n.seq 0 []
      else s.reply 6 vd.toNat n.seq 1 []) hp hl ((hdrOk_iff 6 nodes.length n).mpr hh) hd
  rw [if_pos hall] at hacts
  refine ⟨_, congrArg Host.Outcome.next hacts, ?_, ?_⟩
  · rw [State.modVd, State.modFab]
    dsimp only
    cases h : s.fab.node with
    | none => rw [show (answering s).fab.node = none from h]; rfl
    | some own' => rw [show (answering s).fab.node = some own' from h]; rfl
  · rw [State.vd_modVd_same, show ((answering s).modFab _).vd vd.toNat = some d from hd]
    rfl

/-! ### WINDOW (R269, R271) -/

section
variable {r : WindowReq}

/-- A good request for a window is kept where the other host has not asked for it yet. -/
theorem fwWindow_asks (hp : s.power = .run) (hl : s.fw.load = none) (hh : HdrOf n 7 r.frames.length) (hd : s.vd vd.toNat = some d)
    (hopen : r.close = false) (hok : (answering s).windowOk vd.toNat d r = true)
    (hasked : (s.hbm.winReqs.find? fun x => x.1 == r.peer.toNat && x.2.num == r.num && x.2.peer == vd) = none) :
    Does s vd.toNat 7 n (.fwWindow n vd r) ((answering s).modHbm fun h =>
      { h with winReqs := h.winReqs.filter (fun x => !(x.1 == vd.toNat && x.2.num == r.num)) ++ [(vd.toNat, r)] }) := by
  refine congrArg Host.Outcome.next ((managedVd_acts hp hl ((hdrOk_iff 7 r.frames.length n).mpr hh) hd).trans ?_)
  dsimp only
  rw [if_neg (by rw [hopen]; exact Bool.false_ne_true), if_neg (by rw [hok]; exact Bool.false_ne_true)]
  rw [show ((answering s).hbm.winReqs.find? _) = none from hasked]
  rfl

/-- A good request that the other host has made as well creates the window. -/
theorem fwWindow_creates {w : Nat} {q : WindowReq} (hp : s.power = .run) (hl : s.fw.load = none) (hh : HdrOf n 7 r.frames.length)
    (hd : s.vd vd.toNat = some d) (hopen : r.close = false) (hok : (answering s).windowOk vd.toNat d r = true)
    (hasked : (s.hbm.winReqs.find? fun x => x.1 == r.peer.toNat && x.2.num == r.num && x.2.peer == vd) = some (w, q))
    (hsize : q.size = r.size) (hframes : q.frames = r.frames) :
    Does s vd.toNat 7 n (.fwWindow n vd r) ((answering s).createWindow vd.toNat r w q) := by
  have hsame : ¬ (q.size != r.size || q.frames != r.frames) = true := by simp [hsize, hframes]
  refine congrArg Host.Outcome.next ((managedVd_acts hp hl ((hdrOk_iff 7 r.frames.length n).mpr hh) hd).trans ?_)
  dsimp only
  rw [if_neg (by rw [hopen]; exact Bool.false_ne_true), if_neg (by rw [hok]; exact Bool.false_ne_true)]
  rw [show ((answering s).hbm.winReqs.find? _) = some (w, q) from hasked]
  dsimp only
  rw [if_neg hsame]
  rfl

theorem fwWindow_closes {x : Window} (hp : s.power = .run) (hl : s.fw.load = none) (hh : HdrOf n 7 r.frames.length)
    (hd : s.vd vd.toNat = some d) (hclose : r.close = true) (hx : tget s.hbm.wins r.num.toNat = some x)
    (hparty : x.a = vd.toNat ∨ x.b = vd.toNat) (hrun : x.closing = none) :
    Does s vd.toNat 7 n (.fwWindow n vd r) (((answering s).closeWindow r.num.toNat).endWindow r.num.toNat) := by
  have hmay : ¬ (!(x.party vd.toNat) || x.closing.isSome) = true := by
    rcases hparty with h | h
    · simp [Window.party, h, hrun]
    · simp [Window.party, h, hrun]
  refine congrArg Host.Outcome.next ((managedVd_acts hp hl ((hdrOk_iff 7 r.frames.length n).mpr hh) hd).trans ?_)
  dsimp only
  rw [if_pos hclose, show tget (answering s).hbm.wins r.num.toNat = some x from hx]
  dsimp only
  rw [if_neg hmay]
  rfl

end

/-! ### MIGRATE (R252) -/

theorem migPage_of {u : State} {v f t p : Nat} (hpage : ((u.hbm.mapsOf f).find? fun x => x.1 == v) = some (v, p))
    (hfree : tget u.hbm.frames t = none) (hlt : t < tenantFrames) (hmigs : ∀ m ∈ u.hbm.migs, m.f ≠ f ∧ m.g ≠ f) :
    u.migPage v f t = some p := by
  have hany : (u.hbm.migs.any fun m => m.f == f || m.g == f) = false := by
    rw [List.any_eq_false]
    intro m hm
    simp [hmigs m hm]
  rw [State.migPage, hfree, hany, decide_eq_false (Nat.not_le.mpr hlt), hpage]
  rfl

theorem fwMigrate_does {f t p : Nat} {fr : Frame} (hp : s.power = .run) (hl : s.fw.load = none) (hh : HdrOf n 8 0)
    (hd : s.vd vd.toNat = some d) (hpage : ((s.hbm.mapsOf f).find? fun x => x.1 == vd.toNat) = some (vd.toNat, p))
    (hfr : tget s.hbm.frames f = some fr) (hfree : tget s.hbm.frames t = none) (hlt : t < tenantFrames)
    (hmigs : ∀ m ∈ s.hbm.migs, m.f ≠ f ∧ m.g ≠ f) :
    let m : Mig := { st := .first, waits := [], vd := vd.toNat, page := p, f := f, g := t, held := [] }
    let w := ((answering s).assignFrame t fr.dom fr.page).modHbm fun h => { h with migs := h.migs ++ [m] }
    Does s vd.toNat 8 n (.fwMigrate n vd f t) ((w.migInval s.hbm.migs.length m f true .first).migOn s.hbm.migs.length) := by
  refine congrArg Host.Outcome.next ((managedVd_acts hp hl ((hdrOk_iff 8 0 n).mpr hh) hd).trans ?_)
  dsimp only
  rw [migPage_of (u := answering s) hpage hfree hlt hmigs, show tget (answering s).hbm.frames f = some fr from hfr]
  rfl

/-! ### No VD, and wrong headers (R304) -/

/-- Each message but DEFINE is refused where its VD is not defined. -/
theorem vdMessages_undefined (hp : s.power = .run) (hl : s.fw.load = none) (hd : s.vd vd.toNat = none) (sched : List (Nat × Nat)) (w : HostWin)
    (own : BitVec 12) (nodes : List Nat) (r : WindowReq) (f t : Nat) :
    (HdrOf n 2 0 → Refuses s vd.toNat 2 n (.fwTeardown n vd)) ∧ (HdrOf n 3 0 → Refuses s vd.toNat 3 n (.fwReset n vd)) ∧
    (HdrOf n 4 sched.length → Refuses s vd.toNat 4 n (.fwSchedule n vd sched)) ∧ (HdrOf n 5 0 → Refuses s vd.toNat 5 n (.fwHostwin n vd w)) ∧
    (HdrOf n 6 nodes.length → Refuses s vd.toNat 6 n (.fwSpan n vd own nodes)) ∧
    (HdrOf n 7 r.frames.length → Refuses s vd.toNat 7 n (.fwWindow n vd r)) ∧ (HdrOf n 8 0 → Refuses s vd.toNat 8 n (.fwMigrate n vd f t)) := by
  have hrefuse {op k : Nat} {act : State → Vd → State} (hh : HdrOf n op k) :
      (.next (s.managedVd op vd.toNat n (bodyOf op k) act) : Out) = .next ((answering s).toHost (.reply op vd.toNat n.seq 1 [])) :=
    congrArg _ (managedVd_undefined hp hl ((hdrOk_iff op k n).mpr hh) hd)
  exact ⟨hrefuse, hrefuse, hrefuse, hrefuse, hrefuse, hrefuse, hrefuse⟩

/-- Each message with a wrong header is answered with status 2. -/
theorem vdMessages_bad (hp : s.power = .run) (hl : s.fw.load = none) (d : VdDef) (sched : List (Nat × Nat)) (w : HostWin) (own : BitVec 12)
    (nodes : List Nat) (r : WindowReq) (f t : Nat) :
    (¬ HdrOf n 1 (defCount d) → BadHeader s vd.toNat n (.fwDefine n vd d)) ∧ (¬ HdrOf n 2 0 → BadHeader s vd.toNat n (.fwTeardown n vd)) ∧
    (¬ HdrOf n 3 0 → BadHeader s vd.toNat n (.fwReset n vd)) ∧ (¬ HdrOf n 4 sched.length → BadHeader s vd.toNat n (.fwSchedule n vd sched)) ∧
    (¬ HdrOf n 5 0 → BadHeader s vd.toNat n (.fwHostwin n vd w)) ∧
    (¬ HdrOf n 6 nodes.length → BadHeader s vd.toNat n (.fwSpan n vd own nodes)) ∧
    (¬ HdrOf n 7 r.frames.length → BadHeader s vd.toNat n (.fwWindow n vd r)) ∧ (¬ HdrOf n 8 0 → BadHeader s vd.toNat n (.fwMigrate n vd f t)) := by
  have hbad {op k : Nat} {act : State → State} (hh : ¬ HdrOf n op k) :
      (.next (s.managed op vd.toNat n (bodyOf op k) act) : Out) = .next ((answering s).toHost (.reply n.op.toNat vd.toNat n.seq 2 [])) :=
    congrArg _ (managed_bad hp hl (mt (hdrOk_iff op k n).mp hh))
  exact ⟨hbad, hbad, hbad, hbad, hbad, hbad, hbad, hbad⟩

end

/-- Settles O51, message by message. -/
theorem vdMessages : Obligations.VdMessages := by
  unfold Obligations.VdMessages
  intro s n vd hp hl v u
  refine ⟨fun d hh hnew ha hlim hs => fwDefine_does hp hl hh hnew ha hlim hs, fun d hh hbad => fwDefine_refuses hp hl hh hbad,
    fun d hd => ?_, fun hd sched w own nodes r f t => vdMessages_undefined hp hl hd sched w own nodes r f t,
    fun d sched w own nodes r f t => vdMessages_bad hp hl d sched w own nodes r f t⟩
  refine ⟨fun hh => exec_fwTeardown hp hl hh hd, fun hh => fwReset_does hp hl hh hd,
    fun sched hh => ⟨fwSchedule_does hp hl hh hd, fwSchedule_refuses hp hl hh hd⟩, fun w hh => ?_,
    fun own nodes hh hin => fwSpan_does hp hl hh hd hin, ?_,
    fun r x hh hclose hx hparty hrun => fwWindow_closes hp hl hh hd hclose hx hparty hrun, ?_⟩
  · have hexec := exec_fwHostwin hp hl hh hd (w := w)
    exact ⟨fun hle => hexec.trans (by rw [if_pos hle]), fun hlt => hexec.trans (by rw [if_neg (Nat.not_le.mpr hlt)])⟩
  · intro r hh hopen hok asked
    exact ⟨fun hasked => fwWindow_asks hp hl hh hd hopen hok hasked,
      fun w q hasked hsize hframes => fwWindow_creates hp hl hh hd hopen hok hasked hsize hframes⟩
  · intro f t p fr hh hpage hfr hfree hlt hmigs m w
    exact fwMigrate_does hp hl hh hd hpage hfr hfree hlt hmigs

end Sys2Proof.Claims

/-! ## Debug commands, counters, attestation and updates (spec/14_traps_preemption.md R290 to R292, spec/15_virtual_devices.md R303 to R306) -/

namespace Sys2Proof.Claims

open Sys2Proof.Machine

section
variable {s : State} {n : MgmtHdr} {vd : BitVec 8} {d : Vd} {op : Nat}

/-! ### Who may debug (R290, R291) -/

/-- A debugger's command of a VD with DBG acts. -/
theorem debugged_acts {act : State → Vd → State} (hp : s.power = .run) (hl : s.fw.load = none) (hh : HdrOf n op 0)
    (hd : s.vd vd.toNat = some d) (hdbg : d.d.dbg = true) : s.debugged op vd.toNat n act = act (answering s) d := by
  rw [State.debugged, managedVd_acts hp hl ((hdrOk_iff op 0 n).mpr hh) hd, if_pos hdbg]

theorem debugged_refuses {act : State → Vd → State} (hp : s.power = .run) (hl : s.fw.load = none) (hh : HdrOf n op 0)
    (hd : s.vd vd.toNat = some d) (hdbg : d.d.dbg = false) :
    s.debugged op vd.toNat n act = (answering s).toHost (.reply op vd.toNat n.seq 1 []) := by
  rw [State.debugged, managedVd_acts hp hl ((hdrOk_iff op 0 n).mpr hh) hd, if_neg (by rw [hdbg]; exact Bool.false_ne_true)]
  rfl

theorem debugged_undefined {act : State → Vd → State} (hp : s.power = .run) (hl : s.fw.load = none) (hh : HdrOf n op 0)
    (hd : s.vd vd.toNat = none) : s.debugged op vd.toNat n act = (answering s).toHost (.reply op vd.toNat n.seq 1 []) := by
  rw [State.debugged, managedVd_undefined hp hl ((hdrOk_iff op 0 n).mpr hh) hd]

theorem debugged_bad {act : State → Vd → State} (hp : s.power = .run) (hl : s.fw.load = none) (hh : ¬ HdrOf n op 0) :
    s.debugged op vd.toNat n act = (answering s).toHost (.reply n.op.toNat vd.toNat n.seq 2 []) := by
  rw [State.debugged, managedVd_bad hp hl (mt (hdrOk_iff op 0 n).mp hh)]

section
variable {act : State → Vd → Halt → State}

/-- A command that needs a debug halt acts at one. -/
theorem atHalt_acts {h : Halt} (hp : s.power = .run) (hl : s.fw.load = none) (hh : HdrOf n op 0) (hd : s.vd vd.toNat = some d)
    (hdbg : d.d.dbg = true) (hhalt : d.halt = some h) (hf : h.fatal = false) :
    s.atHalt op vd.toNat n act = act (answering s) d h := by
  rw [State.atHalt, debugged_acts hp hl hh hd hdbg, hhalt]
  dsimp only
  rw [if_neg (by rw [hf]; exact Bool.false_ne_true)]

theorem atHalt_refuses (hp : s.power = .run) (hl : s.fw.load = none) (hh : HdrOf n op 0) (hd : s.vd vd.toNat = some d)
    (hno : d.d.dbg = false ∨ d.halt = none ∨ ∃ h, d.halt = some h ∧ h.fatal = true) :
    s.atHalt op vd.toNat n act = (answering s).toHost (.reply op vd.toNat n.seq 1 []) := by
  cases hdbg : d.d.dbg with
  | false => exact debugged_refuses hp hl hh hd hdbg
  | true =>
    rw [State.atHalt, debugged_acts hp hl hh hd hdbg]
    rcases hno with hfalse | hnone | ⟨h, hhalt, hf⟩
    · cases hdbg.symm.trans hfalse
    · rw [hnone]
      rfl
    · rw [hhalt]
      dsimp only
      rw [if_pos hf]
      rfl

theorem atHalt_undefined (hp : s.power = .run) (hl : s.fw.load = none) (hh : HdrOf n op 0) (hd : s.vd vd.toNat = none) :
    s.atHalt op vd.toNat n act = (answering s).toHost (.reply op vd.toNat n.seq 1 []) := by
  rw [State.atHalt, debugged_undefined hp hl hh hd]

theorem atHalt_bad (hp : s.power = .run) (hl : s.fw.load = none) (hh : ¬ HdrOf n op 0) :
    s.atHalt op vd.toNat n act = (answering s).toHost (.reply n.op.toNat vd.toNat n.seq 2 []) := by
  rw [State.atHalt, debugged_bad hp hl hh]

end

/-! ### HALT and RESUME (R291) -/

theorem fwHalt_does (hp : s.power = .run) (hl : s.fw.load = none) (hh : HdrOf n 9 0) (hd : s.vd vd.toNat = some d) (hdbg : d.d.dbg = true)
    (hrun : d.run = true) : Does s vd.toNat 9 n (.fwHalt n vd) ((answering s).raiseHalt vd.toNat 6 0) := by
  refine congrArg Host.Outcome.next ((debugged_acts hp hl hh hd hdbg).trans ?_)
  rw [if_pos hrun]
  rfl

theorem fwHalt_refuses (hp : s.power = .run) (hl : s.fw.load = none) (hh : HdrOf n 9 0) (hd : s.vd vd.toNat = some d)
    (hno : d.d.dbg = false ∨ d.run = false) : Refuses s vd.toNat 9 n (.fwHalt n vd) := by
  cases hdbg : d.d.dbg with
  | false => exact congrArg Host.Outcome.next (debugged_refuses hp hl hh hd hdbg)
  | true =>
    have hrun : d.run = false := hno.resolve_left fun hfalse => nomatch hdbg.symm.trans hfalse
    refine congrArg Host.Outcome.next ((debugged_acts hp hl hh hd hdbg).trans ?_)
    rw [if_neg (by rw [hrun]; exact Bool.false_ne_true)]
    rfl

theorem fwResume_does {h : Halt} (hp : s.power = .run) (hl : s.fw.load = none) (hh : HdrOf n 10 0) (hd : s.vd vd.toNat = some d)
    (hdbg : d.d.dbg = true) (hhalt : d.halt = some h) (hf : h.fatal = false) :
    Does s vd.toNat 10 n (.fwResume n vd)
      ((((s.cores.filter fun e => ownsCore d e.1).map (·.1)).foldl (fun s c => s.resumeCore vd.toNat h c) (answering s)).modVd vd.toNat
        fun d => { d with halt := none, step := none }) :=
  congrArg Host.Outcome.next (atHalt_acts hp hl hh hd hdbg hhalt hf)

/-! ### STEP, DUMP and LOAD of a stopped plane (R291, R292) -/

section
variable {h : Halt} {core : BitVec 10} {p : BitVec 1} {key : Nat} {t : Task}

theorem fwStep_does (hp : s.power = .run) (hl : s.fw.load = none) (hh : HdrOf n 11 0) (hd : s.vd vd.toNat = some d) (hdbg : d.d.dbg = true)
    (hhalt : d.halt = some h) (hf : h.fatal = false) (hstop : h.stopped.contains (.plane core p) = true)
    (ht : s.taskOf core.toNat p = some (key, t)) (htv : t.vd = vd.toNat) (hts : t.state = .active ∨ t.state = .held) :
    Does s vd.toNat 11 n (.fwStep n vd core p) (((answering s).modVd vd.toNat fun d =>
      { d with step := some (core.toNat, p.toNat), halt := some { h with stopped := h.stopped.filter (· != .plane core p) } }).modPlane
        core.toNat p fun x => { x with stepping := true }) := by
  have hmay : (t.vd == vd.toNat && (t.state == .active || t.state == .held) && h.stopped.contains (.plane core p)) = true := by
    rw [hstop, Bool.and_true]
    rcases hts with h | h
    · simp [htv, h]
    · simp [htv, h]
  refine congrArg Host.Outcome.next ((atHalt_acts hp hl hh hd hdbg hhalt hf).trans ?_)
  dsimp only
  rw [show (answering s).taskOf core.toNat p = some (key, t) from ht]
  dsimp only
  rw [if_pos hmay]
  rfl

theorem fwDump_does {win : BitVec 4} {hw : HostWin} (hp : s.power = .run) (hl : s.fw.load = none) (hh : HdrOf n 12 0)
    (hd : s.vd vd.toNat = some d) (hdbg : d.d.dbg = true) (hhalt : d.halt = some h) (hf : h.fatal = false)
    (hstop : h.stopped.contains (.plane core p) = true) (ht : s.taskOf core.toNat p = some (key, t))
    (hwin : tget d.hostw win.toNat = some hw) (hfits : ((answering s).planeBytes core.toNat p key).length ≤ hw.len) :
    Does s vd.toNat 12 n (.fwDump n vd core p win) ((answering s).hostOp vd.toNat win.toNat 0 .gate fun id =>
      .rdmaWrite id win.toNat 0 none ((answering s).planeBytes core.toNat p key)) := by
  refine congrArg Host.Outcome.next ((atHalt_acts hp hl hh hd hdbg hhalt hf).trans ?_)
  dsimp only
  rw [if_pos hstop, show (answering s).taskOf core.toNat p = some (key, t) from ht, hwin]
  dsimp only
  rw [if_neg (Nat.not_lt.mpr hfits)]
  rfl

/-- A LOAD asks the host window for a frame; firmware keeps the request until the frame has come. -/
theorem exec_fwLoad {win : BitVec 4} {hw : HostWin} (hp : s.power = .run) (hl : s.fw.load = none) (hh : HdrOf n 13 0)
    (hd : s.vd vd.toNat = some d) (hdbg : d.d.dbg = true) (hhalt : d.halt = some h) (hf : h.fatal = false)
    (hstop : h.stopped.contains (.plane core p) = true) (ht : s.taskOf core.toNat p = some (key, t))
    (hwin : tget d.hostw win.toNat = some hw) (hlen : 4864 ≤ hw.len) :
    exec (.fwLoad n vd core p win) s =
      .next (({ answering s with fw := { (answering s).fw with load := some (n, vd.toNat, core.toNat, p.toNat) } } : State).hostOp vd.toNat
        win.toNat 0 .load fun id => .rdmaRead id win.toNat 0 4864) := by
  have hgo : ¬ (decide (hw.len < 4864) || !(h.stopped.contains (.plane core p)) || ((answering s).taskOf core.toNat p).isNone) = true := by
    rw [show (answering s).taskOf core.toNat p = some (key, t) from ht, hstop, decide_eq_false (Nat.not_lt.mpr hlen)]
    exact Bool.false_ne_true
  refine congrArg Host.Outcome.next ((atHalt_acts hp hl hh hd hdbg hhalt hf).trans ?_)
  dsimp only
  rw [hwin]
  dsimp only
  rw [if_neg hgo]

/-- The frame that a LOAD waits for has come: the plane takes it, and the LOAD is answered. -/
theorem hostDone_load {o : HostOp} {c : Nat} {bs : List Byte} (ho : o.who = .load) (hl : s.fw.load = some (n, vd.toNat, c, p.toNat))
    (hlen : bs.length = 4864) (hk : (s.plane c p).task = some key) :
    s.hostDone o bs = ((({ s with fw := { s.fw with load := none } } : State).modPlane c p fun x => x.loadedFrom bs).loadParked c p key bs).toHost
      (.reply 13 vd.toNat n.seq 0 []) := by
  have hplane : (({ s with fw := { s.fw with load := none } } : State).plane c p).task = some key := hk
  unfold State.hostDone
  rw [ho]
  dsimp only
  unfold State.loadCame
  split
  · next heq => cases hl.symm.trans heq
  · next n' v' c' p' heq =>
    obtain ⟨rfl, rfl, rfl, rfl⟩ : n = n' ∧ vd.toNat = v' ∧ c = c' ∧ p.toNat = p' := by simpa using hl.symm.trans heq
    dsimp only
    rw [if_pos hlen, BitVec.ofNat_toNat, BitVec.setWidth_eq, hplane]
    rfl

end

/-! ### COUNTERS, ATTEST and UPDATE (R303, R305, R306) -/

theorem exec_fwCounters {bank : BitVec 3} (hp : s.power = .run) (hl : s.fw.load = none) (hh : HdrOf n 14 0) (hd : s.vd vd.toNat = some d) :
    exec (.fwCounters n vd bank) s = .next ((answering s).toHost (.reply 14 vd.toNat n.seq 0
      ((List.range 32).flatMap fun i => wordBytes (s.counter vd.toNat bank.toNat i)))) :=
  congrArg Host.Outcome.next (managedVd_acts hp hl ((hdrOk_iff 14 0 n).mpr hh) hd)

theorem exec_fwAttest {nonce : List Byte} (hp : s.power = .run) (hl : s.fw.load = none) (hd : s.vd vd.toNat = some d)
    (hop : n.op.toNat = 15) (hw1 : n.w1 = 0) (hlen : n.len.toNat = nonce.length) :
    exec (.fwAttest n vd nonce) s = .next (if nonce.isEmpty || decide (64 < nonce.length)
      then (answering s).toHost (.reply 15 vd.toNat n.seq 2 [])
      else (answering s).toHost (.reply 15 vd.toNat n.seq 0 (s.report d nonce))) := by
  have hh : hdrOk 15 nonce.length n = true := by
    rw [hdrOk, hop, hw1, hlen, beq_self_eq_true, beq_self_eq_true, beq_self_eq_true]
    rfl
  exact congrArg Host.Outcome.next (managedVd_acts hp hl hh hd)

theorem nonce_bad_iff (nonce : List Byte) : (nonce.isEmpty || decide (64 < nonce.length)) = true ↔ nonce = [] ∨ 64 < nonce.length := by
  rw [Bool.or_eq_true, List.isEmpty_iff, decide_eq_true_eq]

theorem fwUpdate_does {i : FwImage} (hp : s.power = .run) (hl : s.fw.load = none) (hh : HdrOf n 16 0) (hsig : i.signed = true)
    (htab : i.importsTable = true) :
    Does s vd.toNat 16 n (.fwUpdate n vd i) { answering s with fw :=
      (if s.fw.active = 0 then { (answering s).fw with ver1 := i.version, img1 := i.bytes, ok1 := true, takeover := true }
      else { (answering s).fw with ver0 := i.version, img0 := i.bytes, ok0 := true, takeover := true }) } := by
  refine congrArg Host.Outcome.next ((managed_acts hp hl ((hdrOk_iff 16 0 n).mpr hh)).trans ?_)
  dsimp only
  rw [hsig, htab, if_neg (by decide)]
  rfl

theorem fwUpdate_refuses {i : FwImage} (hp : s.power = .run) (hl : s.fw.load = none) (hh : HdrOf n 16 0)
    (hno : i.signed = false ∨ i.importsTable = false) : Refuses s vd.toNat 16 n (.fwUpdate n vd i) := by
  have hbad : (!i.signed || !i.importsTable) = true := by
    rcases hno with h | h
    · rw [h]; rfl
    · rw [h, Bool.not_false, Bool.or_true]
  refine congrArg Host.Outcome.next ((managed_acts hp hl ((hdrOk_iff 16 0 n).mpr hh)).trans ?_)
  dsimp only
  rw [if_pos hbad]
  rfl

/-! ### No VD, and wrong headers (R304) -/

theorem debugMessages_undefined (hp : s.power = .run) (hl : s.fw.load = none) (hd : s.vd vd.toNat = none) (bank : BitVec 3) :
    (HdrOf n 9 0 → Refuses s vd.toNat 9 n (.fwHalt n vd)) ∧ (HdrOf n 10 0 → Refuses s vd.toNat 10 n (.fwResume n vd)) ∧
    (HdrOf n 14 0 → Refuses s vd.toNat 14 n (.fwCounters n vd bank)) :=
  ⟨fun hh => congrArg Host.Outcome.next (debugged_undefined hp hl hh hd), fun hh => congrArg Host.Outcome.next (atHalt_undefined hp hl hh hd),
    fun hh => congrArg Host.Outcome.next (managedVd_undefined hp hl ((hdrOk_iff 14 0 n).mpr hh) hd)⟩

theorem debugMessages_bad (hp : s.power = .run) (hl : s.fw.load = none) (core : BitVec 10) (p : BitVec 1) (win : BitVec 4) (bank : BitVec 3)
    (i : FwImage) :
    (¬ HdrOf n 9 0 → BadHeader s vd.toNat n (.fwHalt n vd)) ∧ (¬ HdrOf n 10 0 → BadHeader s vd.toNat n (.fwResume n vd)) ∧
    (¬ HdrOf n 11 0 → BadHeader s vd.toNat n (.fwStep n vd core p)) ∧ (¬ HdrOf n 12 0 → BadHeader s vd.toNat n (.fwDump n vd core p win)) ∧
    (¬ HdrOf n 13 0 → BadHeader s vd.toNat n (.fwLoad n vd core p win)) ∧ (¬ HdrOf n 14 0 → BadHeader s vd.toNat n (.fwCounters n vd bank)) ∧
    (¬ HdrOf n 16 0 → BadHeader s vd.toNat n (.fwUpdate n vd i)) :=
  ⟨fun hh => congrArg Host.Outcome.next (debugged_bad hp hl hh), fun hh => congrArg Host.Outcome.next (atHalt_bad hp hl hh),
    fun hh => congrArg Host.Outcome.next (atHalt_bad hp hl hh), fun hh => congrArg Host.Outcome.next (atHalt_bad hp hl hh),
    fun hh => congrArg Host.Outcome.next (atHalt_bad hp hl hh),
    fun hh => congrArg Host.Outcome.next (managedVd_bad hp hl (mt (hdrOk_iff 14 0 n).mp hh)),
    fun hh => congrArg Host.Outcome.next (managed_bad hp hl (mt (hdrOk_iff 16 0 n).mp hh))⟩

end

/-- Settles O52, command by command. -/
theorem debugMessages : Obligations.DebugMessages := by
  unfold Obligations.DebugMessages
  intro s n vd hp v u
  refine ⟨fun hl d hd => ⟨fun hdbg => ⟨fun hh hrun => fwHalt_does hp hl hh hd hdbg hrun, fun h hhalt hf => ?_⟩, fun hno core p win => ?_,
    fun hh hno => fwHalt_refuses hp hl hh hd hno, fun bank hh => exec_fwCounters hp hl hh hd, fun nonce hop hw1 hlen => ?_⟩,
    fun hl hh i => ⟨fwUpdate_does hp hl hh, fwUpdate_refuses hp hl hh⟩, fun hl hd bank => debugMessages_undefined hp hl hd bank,
    fun hl core p win bank i => debugMessages_bad hp hl core p win bank i,
    fun o c p key bs ho hl hlen hk => hostDone_load ho hl hlen hk⟩
  · exact ⟨fun hh => fwResume_does hp hl hh hd hdbg hhalt hf, fun core p hstop key t ht =>
      ⟨fun hh htv hts => fwStep_does hp hl hh hd hdbg hhalt hf hstop ht htv hts,
        fun win hw hh hwin hfits => fwDump_does hp hl hh hd hdbg hhalt hf hstop ht hwin hfits,
        fun win hw hh hwin hlen => exec_fwLoad hp hl hh hd hdbg hhalt hf hstop ht hwin hlen⟩⟩
  · have hrefuse {op : Nat} {act : State → Vd → Halt → State} (hh : HdrOf n op 0) :
        (.next (s.atHalt op v n act) : Out) = .next (u.toHost (.reply op v n.seq 1 [])) :=
      congrArg _ (atHalt_refuses hp hl hh hd hno)
    exact ⟨hrefuse, hrefuse, hrefuse, hrefuse⟩
  · have hexec := exec_fwAttest hp hl hd hop hw1 hlen
    refine ⟨fun hne hle => hexec.trans ?_, fun hbad => hexec.trans ?_⟩
    · rw [if_neg fun hbad => ((nonce_bad_iff nonce).mp hbad).elim hne (Nat.not_lt.mpr hle)]
    · rw [if_pos ((nonce_bad_iff nonce).mpr hbad)]

end Sys2Proof.Claims

/-! ## Power and the firmware complexes (spec/15_virtual_devices.md R254, R305 to R307) -/

namespace Sys2Proof.Claims

open Sys2Proof.Machine

section
variable {s : State}

/-! ### BOOT (R305, R307) -/

theorem exec_bootComplete {ok0 ok1 : Bool} (hb : s.power = .boot) (hok : ok0 = true ∨ ok1 = true) :
    exec (.bootComplete ⟨ok0, ok1⟩) s =
      .next { s with power := .run, fw := { s.fw with ok0 := ok0, ok1 := ok1, active := if ok0 = true then 0 else 1 } } := by
  have hgo : (decide (s.power = .boot) && (ok0 || ok1)) = true := by
    rw [decide_eq_true hb, Bool.true_and, Bool.or_eq_true]
    exact hok
  exact congrArg Host.Outcome.next (if_pos hgo)

/-- Outside BOOT, or with no good image, the end of a boot changes nothing. -/
theorem exec_bootComplete_none {ok0 ok1 : Bool} (h : s.power ≠ .boot ∨ (ok0 = false ∧ ok1 = false)) :
    exec (.bootComplete ⟨ok0, ok1⟩) s = .next s := by
  have hno : ¬ (decide (s.power = .boot) && (ok0 || ok1)) = true := by
    rw [Bool.and_eq_true, decide_eq_true_eq, Bool.or_eq_true]
    rintro ⟨hb, hok⟩
    rcases h with hb' | ⟨h0, h1⟩
    · exact hb' hb
    · simp [h0, h1] at hok
  exact congrArg Host.Outcome.next (if_neg hno)

/-! ### Takeovers (R306) -/

theorem exec_complexTakeover (hp : s.power = .run) (ht : s.fw.takeover = true) : exec .complexTakeover s = .next (takenOver s) :=
  congrArg Host.Outcome.next (if_pos (by rw [hp, ht]; rfl))

theorem exec_complexTakeover_none (ht : s.fw.takeover = false) : exec .complexTakeover s = .next s :=
  congrArg Host.Outcome.next (if_neg (by rw [ht, Bool.and_false]; exact Bool.false_ne_true))

theorem exec_watchdogTakeover (hp : s.power = .run) (hok : (if s.fw.active = 0 then s.fw.ok1 else s.fw.ok0) = true)
    (hlate : s.fw.alive + 4096 ≤ s.now) : exec .watchdogTakeover s = .next (takenOver s) :=
  congrArg Host.Outcome.next (if_pos (by rw [hp, Fw.standbyOk, hok, decide_eq_true hlate]; rfl))

/-- While the active complex answers, or with a standby that has not started, the watchdog does nothing. -/
theorem exec_watchdogTakeover_none (h : s.now < s.fw.alive + 4096 ∨ (if s.fw.active = 0 then s.fw.ok1 else s.fw.ok0) = false) :
    exec .watchdogTakeover s = .next s := by
  have hno : ¬ (decide (s.power = .run) && s.fw.standbyOk && decide (s.fw.alive + 4096 ≤ s.now)) = true := by
    rcases h with hearly | hstandby
    · rw [decide_eq_false (Nat.not_le.mpr hearly), Bool.and_false]
      exact Bool.false_ne_true
    · rw [Fw.standbyOk, hstandby, Bool.and_false, Bool.false_and]
      exact Bool.false_ne_true
  exact congrArg Host.Outcome.next (if_neg hno)

end

/-- Settles O53: power, the end of BOOT, and the two takeovers. -/
theorem powerEvents : Obligations.PowerEvents := by
  unfold Obligations.PowerEvents
  intro s cleared
  exact ⟨rfl, rfl, fun ok0 ok1 => ⟨exec_bootComplete, exec_bootComplete_none⟩, exec_complexTakeover, exec_complexTakeover_none,
    exec_watchdogTakeover, exec_watchdogTakeover_none⟩

end Sys2Proof.Claims
